-- ==== Sys2Proof/Word.lean ====
section
/-! DEFINITION. The machine's word types, and the keys of the wake tables (07 R192), which are names and no words. -/

namespace Sys2Proof

/-- A scalar register, an address while it is computed, a pc (R15). -/
abbrev Word := BitVec 64

/-- One byte of memory. -/
abbrev Byte := BitVec 8

/-- One instruction word (R27). -/
abbrev IWord := BitVec 32

/-- A vector register (R15). -/
abbrev VReg := BitVec 512

/-- The body of a mailbox message, byte 0 lowest (R383, R384). -/
abbrev Body := BitVec 256

/-- What a strand can be registered on in a wake table (R192). A line or channel is named by the number of its
64-byte line among all locations of the module (`Machine.Loc`); the others by tiller or core and index. -/
inductive Key where
  | line (l : Nat)
  | chan (l : Nat)
  | tags (core : Nat)
  | tring (til n : Nat)
  | lease (til : Nat)
  | pat (til e : Nat)
  | token (til : Nat)
  deriving DecidableEq, Repr

end Sys2Proof
end

