-- ==== Sys2Proof/Syntax.lean ====
section
/-! DEFINITION. One constructor per row of the opcode table: the 198 instruction words, with the fields of their
encoding rows as they stand in the word, and the 70 steps of the device and of the parties outside it (95), with
arguments that say where they happen. Register fields stay numbers because a repeat frame steps them (R43). A step of
the command port or the board bus has no argument: it acts on the request at the head of the machine's inbox. -/

namespace Sys2Proof

/-- What an RDMA WRITE of another module's copy brings beside its address (R413): the copy's number on its port, its T, whether it
fills slots of a ring (its address is then its ring reference), and the bytes that come next in copy order (R355, R356). -/
structure PeerWrite where
  copy : Nat
  total : Nat
  dring : Bool
  data : List Byte
  deriving DecidableEq, Repr

inductive Instr where
  /-- R58. Adds two 64-bit operands modulo 2^64; the B operand is a register or, with IMM set, a 5-bit immediate. -/
  | add (d : BitVec 5) (a : BitVec 5) (b : BitVec 5) (i : BitVec 1)
  /-- R58. Subtracts the second operand from the first modulo 2^64. -/
  | sub (d : BitVec 5) (a : BitVec 5) (b : BitVec 5) (i : BitVec 1)
  /-- R58. Writes the low 64 bits of the product of two operands. -/
  | mul (d : BitVec 5) (a : BitVec 5) (b : BitVec 5) (i : BitVec 1)
  /-- R58. Writes the high 64 bits of the signed 128-bit product. -/
  | mulh (d : BitVec 5) (a : BitVec 5) (b : BitVec 5) (i : BitVec 1)
  /-- R58. Writes the high 64 bits of the natural 128-bit product. -/
  | mulhn (d : BitVec 5) (a : BitVec 5) (b : BitVec 5) (i : BitVec 1)
  /-- R59. Signed division truncating toward zero, with defined results for division by zero and overflow. -/
  | div (d : BitVec 5) (a : BitVec 5) (b : BitVec 5) (i : BitVec 1)
  /-- R59. Natural division, giving all ones on division by zero. -/
  | divn (d : BitVec 5) (a : BitVec 5) (b : BitVec 5) (i : BitVec 1)
  /-- R59. Signed remainder with the sign of the dividend; the dividend is returned on division by zero. -/
  | rem (d : BitVec 5) (a : BitVec 5) (b : BitVec 5) (i : BitVec 1)
  /-- R59. Natural remainder; the dividend is returned on division by zero. -/
  | remn (d : BitVec 5) (a : BitVec 5) (b : BitVec 5) (i : BitVec 1)
  /-- R58. Bitwise AND of two operands. -/
  | and (d : BitVec 5) (a : BitVec 5) (b : BitVec 5) (i : BitVec 1)
  /-- R58. Bitwise OR of two operands. -/
  | or (d : BitVec 5) (a : BitVec 5) (b : BitVec 5) (i : BitVec 1)
  /-- R58. Bitwise exclusive OR of two operands. -/
  | xor (d : BitVec 5) (a : BitVec 5) (b : BitVec 5) (i : BitVec 1)
  /-- R58. ANDs the first operand with the complement of the second. -/
  | andn (d : BitVec 5) (a : BitVec 5) (b : BitVec 5) (i : BitVec 1)
  /-- R58. Shifts left by the low six bits of the count. -/
  | shl (d : BitVec 5) (a : BitVec 5) (b : BitVec 5) (i : BitVec 1)
  /-- R58. Logical shift right by the low six bits of the count. -/
  | shr (d : BitVec 5) (a : BitVec 5) (b : BitVec 5) (i : BitVec 1)
  /-- R58. Arithmetic shift right by the low six bits of the count. -/
  | sra (d : BitVec 5) (a : BitVec 5) (b : BitVec 5) (i : BitVec 1)
  /-- R58. Rotates right by the low six bits of the count. -/
  | rot (d : BitVec 5) (a : BitVec 5) (b : BitVec 5) (i : BitVec 1)
  /-- R60. Counts the leading zero bits of the source, giving 64 for zero. -/
  | clz (d : BitVec 5) (a : BitVec 5)
  /-- R60. Counts the trailing zero bits of the source, giving 64 for zero. -/
  | ctz (d : BitVec 5) (a : BitVec 5)
  /-- R60. Counts the one bits of the source. -/
  | popc (d : BitVec 5) (a : BitVec 5)
  /-- R58. Signed minimum of two operands. -/
  | min (d : BitVec 5) (a : BitVec 5) (b : BitVec 5) (i : BitVec 1)
  /-- R58. Signed maximum of two operands. -/
  | max (d : BitVec 5) (a : BitVec 5) (b : BitVec 5) (i : BitVec 1)
  /-- R58. Natural minimum of two operands. -/
  | minn (d : BitVec 5) (a : BitVec 5) (b : BitVec 5) (i : BitVec 1)
  /-- R58. Natural maximum of two operands. -/
  | maxn (d : BitVec 5) (a : BitVec 5) (b : BitVec 5) (i : BitVec 1)
  /-- R58. Writes 1 if the first operand is signed-less than the second, else 0. -/
  | slt (d : BitVec 5) (a : BitVec 5) (b : BitVec 5) (i : BitVec 1)
  /-- R58. Writes 1 if the first operand is natural-less than the second, else 0. -/
  | sltn (d : BitVec 5) (a : BitVec 5) (b : BitVec 5) (i : BitVec 1)
  /-- R58. Writes 1 if the operands are equal, else 0. -/
  | seq (d : BitVec 5) (a : BitVec 5) (b : BitVec 5) (i : BitVec 1)
  /-- R61. Selects A or B according to whether the old destination value is non-zero. -/
  | sel (d : BitVec 5) (a : BitVec 5) (b : BitVec 5) (i : BitVec 1)
  /-- R62. Adds the second operand, scaled by 2^S from the scale code, to the first. -/
  | lea (d : BitVec 5) (a : BitVec 5) (b : BitVec 5) (s : BitVec 3) (i : BitVec 1)
  /-- R64. Extracts a bit field and zero-extends (.n) or sign-extends (.i) it. -/
  | bfx (d : BitVec 5) (a : BitVec 5) (b : BitVec 5) (x : BitVec 1) (i : BitVec 1) (w : BitVec 5)
  /-- R65. Inserts the low w bits of A into the destination at position pos. -/
  | bfi (d : BitVec 5) (a : BitVec 5) (b : BitVec 5) (i : BitVec 1) (w : BitVec 5)
  /-- R66. Adds a sign-extended 14-bit immediate to a register. -/
  | addi (d : BitVec 5) (a : BitVec 5) (k : BitVec 14)
  /-- R66. ANDs a register with a sign-extended 14-bit immediate. -/
  | andi (d : BitVec 5) (a : BitVec 5) (k : BitVec 14)
  /-- R67. Loads a 16-bit immediate sign-extended, zero-extended or shifted by 16, as T selects. -/
  | lih (d : BitVec 5) (t : BitVec 3) (k : BitVec 16)
  /-- R80. Branches by a signed word offset if the two registers are equal. -/
  | beq (a : BitVec 5) (b : BitVec 5) (k : BitVec 14)
  /-- R80. Branches if the two registers differ. -/
  | bne (a : BitVec 5) (b : BitVec 5) (k : BitVec 14)
  /-- R80. Branches if A is signed-less than B. -/
  | blt (a : BitVec 5) (b : BitVec 5) (k : BitVec 14)
  /-- R80. Branches if A is signed-greater than or equal to B. -/
  | bge (a : BitVec 5) (b : BitVec 5) (k : BitVec 14)
  /-- R80. Branches if A is natural-less than B. -/
  | bltn (a : BitVec 5) (b : BitVec 5) (k : BitVec 14)
  /-- R80. Branches if A is natural-greater than or equal to B. -/
  | bgen (a : BitVec 5) (b : BitVec 5) (k : BitVec 14)
  /-- R81. Writes the return address to D and jumps by a 19-bit word offset. -/
  | jal (d : BitVec 5) (k : BitVec 19)
  /-- R82. Jumps to a register plus a displacement and writes the return address to D. -/
  | jalr (d : BitVec 5) (a : BitVec 5) (k : BitVec 14)
  /-- R44. Captures the next n arithmetic words and replays them cnt times with stepped register fields. -/
  | repf (n : BitVec 4) (c : BitVec 8) (d : BitVec 4) (a : BitVec 4) (b : BitVec 4)
  /-- R86. Steward starts a strand in a user context from a spawn block, returning the new SID or a failure code. -/
  | spawn (d : BitVec 5) (a : BitVec 5) (b : BitVec 5) (i : BitVec 1) (t : BitVec 1) (g : BitVec 1)
  /-- R90. Steward reclaims an exited context or kills the strand in a context, returning its status. -/
  | reap (d : BitVec 5) (a : BitVec 5) (b : BitVec 5) (i : BitVec 1)
  /-- R89. Ends the strand with an exit code after its accesses complete, releasing resources and sending an exit message. -/
  | exit (a : BitVec 5) (b : BitVec 5) (i : BitVec 1)
  /-- R116. Appends a launch-record address to a device-mode work queue atomically at its home slice. -/
  | launch (d : BitVec 5) (a : BitVec 5) (b : BitVec 5)
  /-- R117. Adds a count to the COMPLETED field of a graph, phase or job object and completes it if that count is reached. -/
  | done (d : BitVec 5) (a : BitVec 5) (b : BitVec 5) (i : BitVec 1)
  /-- R118. Sets CANCEL in a level object and spreads it to the distributors. -/
  | cancel (d : BitVec 5) (a : BitVec 5)
  /-- R119. Reads the COMPLETED field of a level object with an acquire. -/
  | lcntCmp (d : BitVec 5) (a : BitVec 5)
  /-- R119. Reads the EXPECTED field of a level object with an acquire. -/
  | lcntExp (d : BitVec 5) (a : BitVec 5)
  /-- R119. Reads the status word of a level object with an acquire. -/
  | lcntSt (d : BitVec 5) (a : BitVec 5)
  /-- R120. Waits as a retrying transaction until a level object is terminal or its COMPLETED reaches a count. -/
  | lwait (d : BitVec 5) (a : BitVec 5) (b : BitVec 5) (i : BitVec 1)
  /-- R121. Steward reports a placement's SPAWN outcome to the distributor. -/
  | place (d : BitVec 5) (a : BitVec 5) (b : BitVec 5)
  /-- R157. Binds a channel end with a binding entry of the suffixed kind. -/
  | qbind (d : BitVec 5) (a : BitVec 5) (b : BitVec 5) (k : BitVec 5)
  /-- R158. Unbinds a channel end, publishing VOID awns, returning credits and freeing cursors. -/
  | qunb (d : BitVec 5) (a : BitVec 5)
  /-- R159. Dequeues the head of an end without sleeping, writing a status word and setting AF and EF. -/
  | qtry (d : BitVec 5) (a : BitVec 5) (b : BitVec 5)
  /-- R159. Looks at the head of an end without taking it, writing a status word and setting AF and EF. -/
  | qpeek (d : BitVec 5) (a : BitVec 5) (b : BitVec 5)
  /-- R160. Enqueues an awn with a register code and a level from 0 to 6. -/
  | qawn (d : BitVec 5) (a : BitVec 5) (b : BitVec 5)
  /-- R161. Returns the occupancy or room of an end, taken at one instant. -/
  | qlen (d : BitVec 5) (a : BitVec 5)
  /-- R160. Enqueues a level-7 end-of-stream awn. -/
  | qend (d : BitVec 5) (a : BitVec 5)
  /-- R162. Reserves a run of sequence numbers on a write end. -/
  | rres (d : BitVec 5) (a : BitVec 5) (b : BitVec 5) (i : BitVec 1)
  /-- R162. Publishes data or an awn into one reserved sequence slot. -/
  | rpub (d : BitVec 5) (a : BitVec 5) (b : BitVec 5) (w : BitVec 1)
  /-- R163. Returns the next sequence number of an end. -/
  | rcurGet (d : BitVec 5) (a : BitVec 5)
  /-- R163. Advances a read cursor past up to a count of elements without sleeping. -/
  | rcurSkip (d : BitVec 5) (a : BitVec 5) (b : BitVec 5)
  /-- R164. Sets or removes the token handler of an end. -/
  | tokh (d : BitVec 5) (k : BitVec 19)
  /-- R182. Begins a transaction attempt with a fail target, requesting the token in sole mode. -/
  | txb (k : BitVec 19)
  /-- R183. Opens an alternative with a retry target. -/
  | txo (k : BitVec 19)
  /-- R186. Aborts the attempt with cause EXPLICIT and a 16-bit code. -/
  | txa (k : BitVec 16)
  /-- R187. Adds a line to the read set without reading it. -/
  | watch (a : BitVec 5) (k : BitVec 14)
  /-- R229. Loads a doubleword from near or global space. -/
  | ld (d : BitVec 5) (a : BitVec 5) (k : BitVec 14)
  /-- R229. Stores a doubleword to near or global space. -/
  | st (d : BitVec 5) (a : BitVec 5) (k : BitVec 14)
  /-- R229. Loads an element at base plus scaled index, extended by type. -/
  | ldx (d : BitVec 5) (a : BitVec 5) (b : BitVec 5) (t : BitVec 4) (h : BitVec 2)
  /-- R229. Stores an element at base plus scaled index. -/
  | stx (d : BitVec 5) (a : BitVec 5) (b : BitVec 5) (t : BitVec 4)
  /-- R230. Loads one 64-byte line into a vector register. -/
  | vld (d : BitVec 5) (a : BitVec 5) (k : BitVec 14)
  /-- R230. Stores a vector register as one 64-byte line. -/
  | vst (d : BitVec 5) (a : BitVec 5) (k : BitVec 14)
  /-- R231. Strided vector load, one element per active lane. -/
  | vlds (d : BitVec 5) (a : BitVec 5) (b : BitVec 5) (t : BitVec 4) (h : BitVec 2) (m : BitVec 3)
  /-- R231. Strided vector store, one element per active lane. -/
  | vsts (d : BitVec 5) (a : BitVec 5) (b : BitVec 5) (t : BitVec 4) (m : BitVec 3)
  /-- R231. Gathers elements at base plus scaled per-lane offsets. -/
  | vgth (d : BitVec 5) (a : BitVec 5) (b : BitVec 5) (t : BitVec 4) (h : BitVec 2) (m : BitVec 3)
  /-- R231. Scatters elements to base plus scaled per-lane offsets. -/
  | vsct (d : BitVec 5) (a : BitVec 5) (b : BitVec 5) (t : BitVec 4) (m : BitVec 3)
  /-- R233. Brings a global line into its home L2 slice, never trapping. -/
  | prfL2 (a : BitVec 5) (k : BitVec 14)
  /-- R233. Brings a global line into L2 and the tiller's L1. -/
  | prfL1 (a : BitVec 5) (k : BitVec 14)
  /-- R234. Writes a dirty line back to HBM4 and removes it from its home slice and the tiller's L1. -/
  | cfl (a : BitVec 5) (k : BitVec 14)
  /-- R235. Invalidates a line in the tiller's L1 data cache after earlier stores to it. -/
  | cinvD (a : BitVec 5) (k : BitVec 14)
  /-- R235. Invalidates a line in the tiller's instruction cache after earlier stores to it. -/
  | cinvI (a : BitVec 5) (k : BitVec 14)
  /-- R235. Invalidates a line in both of the tiller's caches. -/
  | cinvDi (a : BitVec 5) (k : BitVec 14)
  /-- R232. Stores a doubleword to every replica of a replicated page. -/
  | stm (d : BitVec 5) (a : BitVec 5) (k : BitVec 14)
  /-- R264. Load with acquire or sc order at an encoded scope. -/
  | ldaq (d : BitVec 5) (a : BitVec 5) (s : BitVec 3) (o : BitVec 3) (w : BitVec 3)
  /-- R264. Store with release or sc order at an encoded scope. -/
  | strl (d : BitVec 5) (a : BitVec 5) (s : BitVec 3) (o : BitVec 3) (w : BitVec 3)
  /-- R264. Holds the context until the ordering of its order and scope is in place. -/
  | fence (s : BitVec 3) (o : BitVec 3)
  /-- R265. Atomic add at the unit of R253, returning the old value. -/
  | amoadd (d : BitVec 5) (a : BitVec 5) (b : BitVec 5) (s : BitVec 3) (o : BitVec 3) (w : BitVec 3)
  /-- R265. Atomic swap, returning the old value. -/
  | amoswp (d : BitVec 5) (a : BitVec 5) (b : BitVec 5) (s : BitVec 3) (o : BitVec 3) (w : BitVec 3)
  /-- R266. Atomic compare-and-swap, returning the old value. -/
  | amocas (d : BitVec 5) (a : BitVec 5) (b : BitVec 5) (s : BitVec 3) (o : BitVec 3) (w : BitVec 3)
  /-- R265. Atomic minimum, returning the old value. -/
  | amomin (d : BitVec 5) (a : BitVec 5) (b : BitVec 5) (s : BitVec 3) (o : BitVec 3) (w : BitVec 3)
  /-- R265. Atomic maximum, returning the old value. -/
  | amomax (d : BitVec 5) (a : BitVec 5) (b : BitVec 5) (s : BitVec 3) (o : BitVec 3) (w : BitVec 3)
  /-- R265. Atomic AND, returning the old value. -/
  | amoand (d : BitVec 5) (a : BitVec 5) (b : BitVec 5) (s : BitVec 3) (o : BitVec 3) (w : BitVec 3)
  /-- R265. Atomic OR, returning the old value. -/
  | amoor (d : BitVec 5) (a : BitVec 5) (b : BitVec 5) (s : BitVec 3) (o : BitVec 3) (w : BitVec 3)
  /-- R265. Atomic exclusive OR, returning the old value. -/
  | amoxor (d : BitVec 5) (a : BitVec 5) (b : BitVec 5) (s : BitVec 3) (o : BitVec 3) (w : BitVec 3)
  /-- R267. Applies a reduction operation to memory and returns nothing, being performed at acceptance. -/
  | red (p : BitVec 5) (a : BitVec 5) (b : BitVec 5) (s : BitVec 3) (o : BitVec 3) (w : BitVec 3)
  /-- R257. An arriving migrant takes a landing-queue entry and a free context, or is refused with a ticket. -/
  | migrantLand (til : Nat)
  /-- R258. A recall notice sends a refused ticket holder again to take its reserved landing entry. -/
  | migrantRecall (til : Nat)
  /-- R259. A kill request reaches a migrant, which is killed at its next instruction boundary. -/
  | migrantKill (cid : Nat)
  /-- R282. Converts the lanes that both types can hold from the source type to the destination type. -/
  | vcvt (d : BitVec 5) (a : BitVec 5) (b : BitVec 5) (t : BitVec 4) (r : BitVec 2) (m : BitVec 3)
  /-- R283. Narrows two registers into one, converting the lanes. -/
  | vpack (d : BitVec 5) (a : BitVec 5) (b : BitVec 5) (t : BitVec 4) (r : BitVec 2) (m : BitVec 3)
  /-- R284. Widens the low or high half of a register to a type of twice the width. -/
  | vunpk (d : BitVec 5) (a : BitVec 5) (h : BitVec 1) (s : BitVec 4) (t : BitVec 4) (r : BitVec 2) (m : BitVec 3)
  /-- R285. Multiplies each lane by a power of two taken from the other operand. -/
  | vscl (d : BitVec 5) (a : BitVec 5) (b : BitVec 5) (t : BitVec 4) (r : BitVec 2) (m : BitVec 3)
  /-- R286. Writes each floating lane's true exponent as a signed integer. -/
  | vclsExp (d : BitVec 5) (a : BitVec 5) (t : BitVec 4) (m : BitVec 3)
  /-- R286. Writes each floating lane's class mask. -/
  | vclsCls (d : BitVec 5) (a : BitVec 5) (t : BitVec 4) (m : BitVec 3)
  /-- R287. Decodes TRI2-packed ternary weights into 64 i8 lanes. -/
  | vtriD2 (d : BitVec 5) (a : BitVec 5) (m : BitVec 3)
  /-- R287. Decodes TRI5-packed ternary weights into 64 i8 lanes. -/
  | vtriD5 (d : BitVec 5) (a : BitVec 5) (m : BitVec 3)
  /-- R287. Encodes 64 i8 lanes as TRI2 ternary weights. -/
  | vtriE2 (d : BitVec 5) (a : BitVec 5) (m : BitVec 3)
  /-- R287. Encodes 64 i8 lanes as TRI5 ternary weights. -/
  | vtriE5 (d : BitVec 5) (a : BitVec 5) (m : BitVec 3)
  /-- R293. Lane-wise add. -/
  | vadd (d : BitVec 5) (a : BitVec 5) (b : BitVec 5) (t : BitVec 4) (r : BitVec 2) (m : BitVec 3)
  /-- R293. Lane-wise subtract. -/
  | vsub (d : BitVec 5) (a : BitVec 5) (b : BitVec 5) (t : BitVec 4) (r : BitVec 2) (m : BitVec 3)
  /-- R293. Lane-wise multiply. -/
  | vmul (d : BitVec 5) (a : BitVec 5) (b : BitVec 5) (t : BitVec 4) (r : BitVec 2) (m : BitVec 3)
  /-- R294. Lane-wise fused multiply-add into D with one rounding. -/
  | vfma (d : BitVec 5) (a : BitVec 5) (b : BitVec 5) (t : BitVec 4) (r : BitVec 2) (m : BitVec 3)
  /-- R294. Lane-wise fused multiply-subtract of D with one rounding. -/
  | vfms (d : BitVec 5) (a : BitVec 5) (b : BitVec 5) (t : BitVec 4) (r : BitVec 2) (m : BitVec 3)
  /-- R293. Lane-wise minimum. -/
  | vmin (d : BitVec 5) (a : BitVec 5) (b : BitVec 5) (t : BitVec 4) (m : BitVec 3)
  /-- R293. Lane-wise maximum. -/
  | vmax (d : BitVec 5) (a : BitVec 5) (b : BitVec 5) (t : BitVec 4) (m : BitVec 3)
  /-- R295. Lane-wise absolute value. -/
  | vabs (d : BitVec 5) (a : BitVec 5) (t : BitVec 4) (m : BitVec 3)
  /-- R295. Lane-wise negation. -/
  | vneg (d : BitVec 5) (a : BitVec 5) (t : BitVec 4) (m : BitVec 3)
  /-- R296. Correctly rounded reciprocal of each lane. -/
  | vrcp (d : BitVec 5) (a : BitVec 5) (t : BitVec 4) (r : BitVec 2) (m : BitVec 3)
  /-- R296. Correctly rounded reciprocal square root of each lane. -/
  | vrsq (d : BitVec 5) (a : BitVec 5) (t : BitVec 4) (r : BitVec 2) (m : BitVec 3)
  /-- R296. Correctly rounded base-2 exponential of each lane. -/
  | vexp2 (d : BitVec 5) (a : BitVec 5) (t : BitVec 4) (r : BitVec 2) (m : BitVec 3)
  /-- R296. Correctly rounded base-2 logarithm of each lane. -/
  | vlog2 (d : BitVec 5) (a : BitVec 5) (t : BitVec 4) (r : BitVec 2) (m : BitVec 3)
  /-- R297. Writes a mask of the active lanes where A is less than B. -/
  | vcmp (d : BitVec 5) (a : BitVec 5) (b : BitVec 5) (t : BitVec 4) (m : BitVec 3)
  /-- R298. Selects each lane from A or B by the mask. -/
  | vsel (d : BitVec 5) (a : BitVec 5) (b : BitVec 5) (t : BitVec 4) (m : BitVec 3)
  /-- R293. Lane-wise bitwise AND. -/
  | vand (d : BitVec 5) (a : BitVec 5) (b : BitVec 5) (t : BitVec 4) (m : BitVec 3)
  /-- R293. Lane-wise bitwise OR. -/
  | vor (d : BitVec 5) (a : BitVec 5) (b : BitVec 5) (t : BitVec 4) (m : BitVec 3)
  /-- R293. Lane-wise bitwise exclusive OR. -/
  | vxor (d : BitVec 5) (a : BitVec 5) (b : BitVec 5) (t : BitVec 4) (m : BitVec 3)
  /-- R293. Lane-wise shift left. -/
  | vshl (d : BitVec 5) (a : BitVec 5) (b : BitVec 5) (t : BitVec 4) (m : BitVec 3)
  /-- R293. Lane-wise logical shift right. -/
  | vshr (d : BitVec 5) (a : BitVec 5) (b : BitVec 5) (t : BitVec 4) (m : BitVec 3)
  /-- R293. Lane-wise arithmetic shift right. -/
  | vsra (d : BitVec 5) (a : BitVec 5) (b : BitVec 5) (t : BitVec 4) (m : BitVec 3)
  /-- R299. Gathers lanes of A by the indices in B. -/
  | vperm (d : BitVec 5) (a : BitVec 5) (b : BitVec 5) (t : BitVec 4) (m : BitVec 3)
  /-- R300. Broadcasts a typed immediate to every lane. -/
  | vbcst (d : BitVec 5) (t : BitVec 3) (k : BitVec 16)
  /-- R300. Adds a typed immediate to every lane of D. -/
  | vaddi (d : BitVec 5) (t : BitVec 3) (k : BitVec 16)
  /-- R300. Multiplies every lane of D by a typed immediate. -/
  | vmuli (d : BitVec 5) (t : BitVec 3) (k : BitVec 16)
  /-- R301. Moves one vector lane to a scalar register. -/
  | vmvs (d : BitVec 5) (a : BitVec 5) (b : BitVec 5) (t : BitVec 4)
  /-- R301. Moves a scalar into one lane of a vector register. -/
  | vmsv (d : BitVec 5) (a : BitVec 5) (b : BitVec 5) (t : BitVec 4)
  /-- R302. Reduces the active lanes in a fixed binary tree into lane 0. -/
  | vred (d : BitVec 5) (a : BitVec 5) (p : BitVec 5) (t : BitVec 4) (r : BitVec 2) (m : BitVec 3)
  /-- R303. Inclusive sequential scan over the active lanes. -/
  | vscan (d : BitVec 5) (a : BitVec 5) (p : BitVec 5) (t : BitVec 4) (r : BitVec 2) (m : BitVec 3)
  /-- R304. Counts the one bits of A AND B over the active lanes into a scalar. -/
  | vpopc (d : BitVec 5) (a : BitVec 5) (b : BitVec 5) (t : BitVec 4) (m : BitVec 3)
  /-- R305. Packs the selected lanes toward lane 0. -/
  | vcmpr (d : BitVec 5) (a : BitVec 5) (t : BitVec 4) (m : BitVec 3)
  /-- R305. Spreads lanes from lane 0 upward into the selected lanes. -/
  | vxpnd (d : BitVec 5) (a : BitVec 5) (t : BitVec 4) (m : BitVec 3)
  /-- R306. Accumulates 8-bit dot products of groups of four into i32 lanes with saturation. -/
  | vdot (d : BitVec 5) (a : BitVec 5) (b : BitVec 5) (t : BitVec 4) (m : BitVec 3)
  /-- R307. ANDs two mask registers. -/
  | mand (d : BitVec 5) (a : BitVec 5) (b : BitVec 5)
  /-- R307. ORs two mask registers. -/
  | mor (d : BitVec 5) (a : BitVec 5) (b : BitVec 5)
  /-- R307. Complements a mask register. -/
  | mnot (d : BitVec 5) (a : BitVec 5)
  /-- R323. Grants accumulators to the context all-or-nothing, zeroing those newly granted. -/
  | tacq (d : BitVec 5) (a : BitVec 5) (b : BitVec 5) (i : BitVec 1)
  /-- R323. Releases accumulators once their issued commands complete. -/
  | trel (d : BitVec 5) (a : BitVec 5)
  /-- R324. Zeroes all 1,024 elements of an accumulator. -/
  | tzro (d : BitVec 5)
  /-- R325. Multiplies the head slots of two tile rings into an accumulator, optionally retiring them. -/
  | tmma (a : BitVec 4) (b : BitVec 4) (c : BitVec 3) (n : BitVec 5) (f : BitVec 4) (y : BitVec 1) (x : BitVec 1)
  /-- R325. As TMMA with the A operand read transposed. -/
  | tmmt (a : BitVec 4) (b : BitVec 4) (c : BitVec 3) (n : BitVec 5) (f : BitVec 4) (y : BitVec 1) (x : BitVec 1)
  /-- R326. Loads an accumulator from the tiller's own scratchpad. -/
  | tlda (d : BitVec 5) (a : BitVec 5) (b : BitVec 5) (x : BitVec 1)
  /-- R326. Stores the elements of an accumulator inside its edge to scratchpad, converted to a type. -/
  | tsta (d : BitVec 5) (a : BitVec 5) (b : BitVec 5) (x : BitVec 1) (r : BitVec 2) (i : BitVec 1) (t : BitVec 4)
  /-- R327. Sets an accumulator's geometry from tile indices and problem sizes. -/
  | tgeo (d : BitVec 5) (a : BitVec 5) (b : BitVec 5)
  /-- R328. Enqueues a scaled partial sum and its exponent as two consecutive elements. -/
  | bsum (d : BitVec 5) (a : BitVec 5) (b : BitVec 5)
  /-- R329. Merges an arriving scaled sum into a running pair of registers. -/
  | bacc (d : BitVec 5) (a : BitVec 5) (b : BitVec 5)
  /-- R317. The tile unit stages the 512-byte blocks that a waiting TMMA, TMMT or SPMMA needs, through the tile port. -/
  | tileStaging (cid : Nat)
  /-- R319. A tile command finishes on the array, writing its accumulator and setting FSTAT flags. -/
  | tileCommandComplete (til : Nat)
  /-- R308. After 64 tile commands or 4,096 cycles, the lease passes round-robin to a waiting strand. -/
  | leaseRearbitration (til : Nat)
  /-- R342. Multiplies a compiled sparse tile by a ring slot into an accumulator, requesting a compile if needed. -/
  | spmma (d : BitVec 5) (a : BitVec 5) (b : BitVec 5) (f : BitVec 1) (p : BitVec 1)
  /-- R345. Requests a pattern compile ahead of use, without waiting. -/
  | sppre (d : BitVec 5) (a : BitVec 5) (b : BitVec 5)
  /-- R346. Frees the pattern-cache entry that holds one identity. -/
  | spinvOne (d : BitVec 5) (a : BitVec 5) (b : BitVec 5)
  /-- R346. Frees every pattern-cache entry of the tiller. -/
  | spinvAll (d : BitVec 5)
  /-- R347. Returns the state and entry of a pattern identity. -/
  | spqry (d : BitVec 5) (a : BitVec 5) (b : BitVec 5)
  /-- R353. Reads the MERR and EMIT counters of a merge descriptor. -/
  | mrgcStat (d : BitVec 5) (a : BitVec 5)
  /-- R353. Reads and clears the MERR and EMIT counters of a merge descriptor. -/
  | mrgcClr (d : BitVec 5) (a : BitVec 5)
  /-- R348. Interleaves a row and a column into a Morton key. -/
  | mzkey (d : BitVec 5) (a : BitVec 5) (b : BitVec 5)
  /-- R348. Separates a Morton key into a column and a row. -/
  | mzkeyInv (d : BitVec 5) (a : BitVec 5)
  /-- R335. The compiler takes the oldest QUEUED entry, marks it COMPILING and starts watching its coordinates. -/
  | patternCompileStart (til : Nat)
  /-- R335. After 20 + ceil(NNZ/4) cycles, the entry becomes SPARSE, DENSE or BAD. -/
  | patternCompileEnd (til : Nat)
  /-- R351. The merge unit takes its input heads and emits at most one element in index order. -/
  | mergeEmit (til : Nat)
  /-- R370. Starts a copy from a descriptor under a tag. -/
  | cpy (d : BitVec 5) (a : BitVec 5) (b : BitVec 5) (i : BitVec 1)
  /-- R370. Starts a copy multicast to several target tillers. -/
  | cpym (d : BitVec 5) (a : BitVec 5) (b : BitVec 5)
  /-- R371. Takes and clears finished tags under a mask. -/
  | tffr (d : BitVec 5) (a : BitVec 5)
  /-- R371. Waits until any masked busy tag is done. -/
  | wany (d : BitVec 5) (a : BitVec 5)
  /-- R371. Waits until no masked tag is busy. -/
  | wall (d : BitVec 5) (a : BitVec 5)
  /-- R372. Adds expected bytes to an arrival counter. -/
  | aexp (d : BitVec 5) (a : BitVec 5) (b : BitVec 5) (i : BitVec 1)
  /-- R372. Makes arrivals at an arrival counter. -/
  | arrv (d : BitVec 5) (a : BitVec 5) (b : BitVec 5) (i : BitVec 1)
  /-- R373. Waits for completion of the phase of a given parity. -/
  | wphsWait (d : BitVec 5) (a : BitVec 5) (b : BitVec 5) (i : BitVec 1)
  /-- R373. Tests, without waiting, whether the phase of a given parity has completed. -/
  | wphsTest (d : BitVec 5) (a : BitVec 5) (b : BitVec 5) (i : BitVec 1)
  /-- R374. Adds the strand as a member of an arrival counter. -/
  | bjoin (d : BitVec 5) (a : BitVec 5)
  /-- R374. Removes the strand as a member of an arrival counter. -/
  | bleav (d : BitVec 5) (a : BitVec 5)
  /-- R357. The stream port starts a copy, checking its ring and claiming slots, no earlier than 8 cycles after issue. -/
  | copyStart (id : Nat)
  /-- R355. The stream port moves a copy's bytes at up to 128 bytes per cycle. -/
  | copyTransfer (id : Nat)
  /-- R359. A copy becomes visible, credits its counter and updates its tag. -/
  | copyComplete (id : Nat)
  /-- R360. A copy-fault reply arriving at the stream port resumes or fails the faulted copy, or is dropped as stale. -/
  | copyFaultReply (til : Nat) (body : Body)
  /-- R379. Reads a special register by number. -/
  | mfs (d : BitVec 5) (k : BitVec 16)
  /-- R379. Writes a special register that has no behaviour of its own. -/
  | mts (d : BitVec 5) (k : BitVec 16)
  /-- R203. Context 0 writes L1SZ, which takes effect after in-flight accesses and invalidates the L1. -/
  | lsplitWrite (d : BitVec 5)
  /-- R205. Context 0 changes the scratchpad swizzle segments, leaving their bytes unspecified. -/
  | swzWrite (d : BitVec 5)
  /-- R313. A write to TRINGn, as a tile command, reconfigures a tile ring and resets its counts. -/
  | tringWrite (d : BitVec 5) (n : BitVec 4)
  /-- R277. A write to FSTAT clears the sticky flags named, after earlier flags are set. -/
  | fstatClear (d : BitVec 5)
  /-- R376. Context 0 marks the service contexts of the core. -/
  | svcmapWrite (d : BitVec 5)
  /-- R402. Context 0 sets the watchdog limit of the core's user contexts. -/
  | wdogWrite (d : BitVec 5)
  /-- R389. Raises SYSCALL with the immediate as AUX. -/
  | sysc (k : BitVec 16)
  /-- R389. Raises BREAK with the immediate as AUX. -/
  | brk (k : BitVec 16)
  /-- R390. Installs a translation entry or declares a fault for a context's miss. -/
  | tlbf (d : BitVec 5) (a : BitVec 5) (b : BitVec 5)
  /-- R391. Removes the partition's translations of one page from every TLB. -/
  | tlbiVa (d : BitVec 5) (a : BitVec 5)
  /-- R391. Removes every translation of the partition from every TLB. -/
  | tlbiPart (d : BitVec 5)
  /-- R385. Takes the oldest message from a mailbox, or holds or returns zero when empty. -/
  | mbxr (d : BitVec 5) (a : BitVec 5) (y : BitVec 1) (x : BitVec 2)
  /-- R386. Sends a fault reply to a tiller's load-store unit. -/
  | mbxsFrep (d : BitVec 5) (a : BitVec 5) (b : BitVec 5)
  /-- R386. Sends a copy-fault reply to a tiller's stream port. -/
  | mbxsCrep (d : BitVec 5) (a : BitVec 5) (b : BitVec 5)
  /-- R386. Sends an engine reply to a tiller's reference engines. -/
  | mbxsErep (d : BitVec 5) (a : BitVec 5) (b : BitVec 5)
  /-- R388. Resumes a STOPPED context of the core in one of three modes. -/
  | mbxsResume (d : BitVec 5) (a : BitVec 5) (b : BitVec 5)
  /-- R386. Sends an INTR message to a core's steward box. -/
  | mbxsIntr (d : BitVec 5) (a : BitVec 5) (b : BitVec 5)
  /-- R386. Sends a USER message to a core's steward box. -/
  | mbxsUser (d : BitVec 5) (a : BitVec 5) (b : BitVec 5)
  /-- R382. A message held for a full mailbox is delivered when an entry frees. -/
  | mailboxDelivery (core box : Nat)
  /-- R392. Drains and saves contexts 1 to 14, the queue SRAM and the core record to a save area. -/
  | csaveSave (d : BitVec 5) (a : BitVec 5)
  /-- R396. Restores a core from a save area, raising generations, moving spilled elements and waking sleepers once. -/
  | csaveRest (d : BitVec 5) (a : BitVec 5)
  /-- R405. Reads one of the executing context's counters, or a tiller or die counter. -/
  | pcnt (d : BitVec 5) (b : BitVec 5) (i : BitVec 1)
  /-- R405. Context 0 reads a counter of another context of the core. -/
  | pcntCtx (d : BitVec 5) (a : BitVec 5) (b : BitVec 5) (i : BitVec 1)
  /-- R78. A STARTING context becomes ready and RUNNING within 8 cycles of SPAWN. -/
  | strandStart (cid : Nat)
  /-- R196, R78. A sleeping strand is woken by a change to a registered key, or spuriously, and re-executes its wait;
  a wake for a context that is FREE or EXITED, or of a stale generation, is dropped and counted. who: the context and the generation of its strand. -/
  | strandWake (who : Nat × BitVec 12)
  /-- R437. A tiller receiving a change notice wakes its registered contexts and restarts or marks their attempts. -/
  | changeNotice (til : Nat) (key : Key)
  /-- R222. A fault reply re-executes the waiting instruction or makes it raise ADDR, or is dropped as stale. -/
  | faultReply (til : Nat) (body : Body)
  /-- R146. A reference-engine fetch returns, and results are delivered in index order. -/
  | engineFetchComplete (cid e : Nat)
  /-- R387. An engine reply retries or fails the oldest faulted fetch of its descriptor. -/
  | engineReply (til : Nat) (body : Body)
  /-- R150. The stream port delivers the next element or awn of a read stream. -/
  | streamReadElement (cid e : Nat)
  /-- R151. The stream port stores the next enqueued element of a store stream. -/
  | streamStoreElement (cid e : Nat)
  /-- R142. An element from a far producer reaches its ring, landing in the window or extension, in XORD delivery order where that applies. -/
  | elementArrival (ring : Nat)
  /-- R130. The ring's tiller moves an element from the extension into a freed window slot. -/
  | extensionMove (ring : Nat)
  /-- R129. A ring grants credits to a waiting far producer end as LOW advances. -/
  | creditGrant (ring : Nat)
  /-- R95. The distributor takes a work-queue entry, checks the record and enters the launch in the pool. -/
  | queueEntryTake (q : Nat)
  /-- R105. A launch whose dependences are met enters a ready bank, possibly releasing a lower-priority reservation. -/
  | launchReady (id : Nat)
  /-- R107. Every 16 cycles the distributor samples banks and dispatches one eligible head or an aged launch. -/
  | dispatchAttempt (die : Nat)
  /-- R109. A waiting reservation takes a die's share in one indivisible step once its MINREP replicas fit. -/
  | shareReserve (id : Nat)
  /-- R113. A distributor acts on a cancel notice for every launch of its die whose chain holds the object. -/
  | cancelNotice (die part obj : Nat)
  /-- R404. Every 10 µs each die's power controller publishes the budget level and sets the throttle level. -/
  | budgetPublish (die : Nat) (level : BitVec 3) (throt : BitVec 4)
  /-- R24. A supply sag above 5% lengthens cycles by 25% for at least 64 cycles. -/
  | droopResponse (die : Nat)
  /-- R24. The lengthening of cycles ends once its hold has expired. -/
  | droopEnd (die : Nat)
  /-- R402. A strand sleeping for LIMIT × 65,536 cycles has its wait abandoned and traps with WATCHDOG. -/
  | watchdogExpire (cid : Nat)
  /-- R400. An uncorrectable error poisons the data and cancels, kills and disables the owning partition's work. -/
  | uncorrectableError (loc : Nat)
  /-- R414. Exhausted RC retry or 10 ms of link loss marks a peer port down and fails its copies. -/
  | peerLinkDown (port : Nat)
  /-- R415. A UCIe flit that fails its CRC is replayed from the retry buffer. -/
  | flitReplay (edge : Nat)
  /-- R415. After 64 failed replays of one flit the edge is marked down and traffic reroutes. -/
  | ucieEdgeDown (edge : Nat)
  /-- R421. At 95 °C the power controller raises the throttle and sends a thermal event. -/
  | thermalThrottle (die : Nat) (throt : BitVec 4)
  /-- R74. Each core clock cycle advances the rotation pointer unless withheld, charges exactly one counter of every context, and advances CYCLE. -/
  | coreClockCycle (core : Nat)
  /-- R40. Issuing a word whose primary opcode is unassigned raises a precise ILLEGAL trap at that word. -/
  | unassignedOpcode (w : IWord)
  /-- R20. A TLB entry at any level is displaced at a moment the device chooses. -/
  | tlbEntryDisplaced (level unit index : Nat)
  /-- R414. A peer link that was marked down comes back up, and the port stays down without restarting. -/
  | peerLinkUp (port : Nat)
  /-- R413. The RDMA WRITEs of a peer module's XMOD copy arrive on a peer port and write this module's memory, or fail at translation. -/
  | xmodCopyWrite (port part : Nat) (va : Nat) (data : PeerWrite)
  /-- R139. Leaves handler mode and re-executes the suppressed instruction. -/
  | tret
  /-- R184. Commits the attempt atomically at the tiller, or restarts it if an enqueue lacks room. -/
  | txe
  /-- R185. Abandons the innermost alternative, or abandons the attempt and sleeps on its read set. -/
  | txr
  /-- R322. Takes the tiller's tile lease, or waits for it under cause 7. -/
  | tlse
  /-- R322. Gives up the tile lease and wakes the waiting strands. -/
  | tlrl
  /-- R419. After power good, the module boots Pengal, trains edges and stacks, starts cores and opens its ports. -/
  | powerGood
  /-- R408. A host RDMA WRITE on the command port is translated under its memory key and written in queue-pair order. -/
  | rdmaWrite
  /-- R408. A host RDMA READ on the command port reads L2 after the queue pair's earlier writes. -/
  | rdmaRead
  /-- R407. An unsupported RDMA operation is answered with a NAK and its queue pair enters the error state. -/
  | invalidRequest
  /-- R410. Creates a partition from tillers, service cores, a key value and queue blocks, or refuses it. -/
  | partCreate
  /-- R410. Kills every strand of a partition and ends it. -/
  | partDestroy
  /-- R398. Swaps a halted tiller set's active partition with the partition held in its shadow arrays. -/
  | partSwap
  /-- R401. Places one tiller under debug hold. -/
  | hold
  /-- R401. Releases the debug hold of a tiller. -/
  | unhold
  /-- R410. Returns the queue table bases and the virtual bases of a partition's queue blocks. -/
  | qtable
  /-- R418. Returns a signed attestation report for a nonce. -/
  | attest
  /-- R417. Stages a signed firmware image to take effect at the next reset. -/
  | fwload
  /-- R411. Names the queue pair that receives event records. -/
  | events
  /-- R412. Sets the module number and the map of peer modules. -/
  | peermap
  /-- R410. Lengthens or restores the core clock of one die. -/
  | clkset
  /-- R421. At 110 °C the module shuts down. -/
  | thermalShutdown
  /-- R420. The board controller assigns the module's dynamic I3C address. -/
  | i3cDynamicAddress
  /-- R420. The board controller reads temperatures, power, stepping, module number or the fault summary. -/
  | i3cRead
  /-- R420. The one I3C write requests orderly shutdown, performed as PART_DESTROY of every partition. -/
  | orderlyShutdown
  /-- R384. The command port delivers an INTR message to a core's steward box. -/
  | commandPortIntr
  deriving DecidableEq, Repr

end Sys2Proof
end

