-- ==== Sys2Proof/Machine/Fields.lean ====
section
/-! DEFINITION. The register fields of each instruction, as the encoding tables of the chapters give them: which it reads,
in the order in which R138 examines them, and which it writes. Fields that hold an end number, an accumulator number or a
code name no register (R43, R156). -/

namespace Sys2Proof

/-- A register field by the file it names (R35): a scalar, a vector destination, or an A or B field of the vector
classes, where 16 to 31 name s16 to s31. -/
inductive Fld where
  | s (n : Nat)
  | v (n : Nat)
  | ab (n : Nat)
  deriving DecidableEq, Repr

/-- The data field of QTRY, QPEEK and RPUB (R156). -/
def dataFld (e d : BitVec 5) : Fld := if e.toNat ≤ 7 then .s d.toNat else .v d.toNat

/-! ### What each instruction reads and writes (the encoding tables of the chapters) -/

/-- The register fields that an instruction reads, in the order A, B, then D (R138). -/
def Instr.reads : Instr → List Fld
  | .add _ a b i => [.s a.toNat] ++ (if i = 0 then [.s b.toNat] else [])
  | .sub _ a b i => [.s a.toNat] ++ (if i = 0 then [.s b.toNat] else [])
  | .mul _ a b i => [.s a.toNat] ++ (if i = 0 then [.s b.toNat] else [])
  | .mulh _ a b i => [.s a.toNat] ++ (if i = 0 then [.s b.toNat] else [])
  | .mulhn _ a b i => [.s a.toNat] ++ (if i = 0 then [.s b.toNat] else [])
  | .div _ a b i => [.s a.toNat] ++ (if i = 0 then [.s b.toNat] else [])
  | .divn _ a b i => [.s a.toNat] ++ (if i = 0 then [.s b.toNat] else [])
  | .rem _ a b i => [.s a.toNat] ++ (if i = 0 then [.s b.toNat] else [])
  | .remn _ a b i => [.s a.toNat] ++ (if i = 0 then [.s b.toNat] else [])
  | .and _ a b i => [.s a.toNat] ++ (if i = 0 then [.s b.toNat] else [])
  | .or _ a b i => [.s a.toNat] ++ (if i = 0 then [.s b.toNat] else [])
  | .xor _ a b i => [.s a.toNat] ++ (if i = 0 then [.s b.toNat] else [])
  | .andn _ a b i => [.s a.toNat] ++ (if i = 0 then [.s b.toNat] else [])
  | .shl _ a b i => [.s a.toNat] ++ (if i = 0 then [.s b.toNat] else [])
  | .shr _ a b i => [.s a.toNat] ++ (if i = 0 then [.s b.toNat] else [])
  | .sra _ a b i => [.s a.toNat] ++ (if i = 0 then [.s b.toNat] else [])
  | .rot _ a b i => [.s a.toNat] ++ (if i = 0 then [.s b.toNat] else [])
  | .clz _ a => [.s a.toNat]
  | .ctz _ a => [.s a.toNat]
  | .popc _ a => [.s a.toNat]
  | .min _ a b i => [.s a.toNat] ++ (if i = 0 then [.s b.toNat] else [])
  | .max _ a b i => [.s a.toNat] ++ (if i = 0 then [.s b.toNat] else [])
  | .minn _ a b i => [.s a.toNat] ++ (if i = 0 then [.s b.toNat] else [])
  | .maxn _ a b i => [.s a.toNat] ++ (if i = 0 then [.s b.toNat] else [])
  | .slt _ a b i => [.s a.toNat] ++ (if i = 0 then [.s b.toNat] else [])
  | .sltn _ a b i => [.s a.toNat] ++ (if i = 0 then [.s b.toNat] else [])
  | .seq _ a b i => [.s a.toNat] ++ (if i = 0 then [.s b.toNat] else [])
  | .sel _ a b i => [.s a.toNat] ++ (if i = 0 then [.s b.toNat] else [])
  | .lea _ a b _ i => [.s a.toNat] ++ (if i = 0 then [.s b.toNat] else [])
  | .bfx _ a b _ i _ => [.s a.toNat] ++ (if i = 0 then [.s b.toNat] else [])
  | .bfi _ a b i _ => [.s a.toNat] ++ (if i = 0 then [.s b.toNat] else [])
  | .addi _ a _ => [.s a.toNat]
  | .andi _ a _ => [.s a.toNat]
  | .lih _ _ _ => []
  | .beq a b _ => [.s a.toNat, .s b.toNat]
  | .bne a b _ => [.s a.toNat, .s b.toNat]
  | .blt a b _ => [.s a.toNat, .s b.toNat]
  | .bge a b _ => [.s a.toNat, .s b.toNat]
  | .bltn a b _ => [.s a.toNat, .s b.toNat]
  | .bgen a b _ => [.s a.toNat, .s b.toNat]
  | .jal _ _ => []
  | .jalr _ a _ => [.s a.toNat]
  | .repf _ _ _ _ _ => []
  | .spawn _ a b i _ _ => [.s a.toNat] ++ (if i = 0 then [.s b.toNat] else [])
  | .reap _ a _ i => if i = 0 then [.s a.toNat] else []
  | .exit a _ i => if i = 0 then [.s a.toNat] else []
  | .launch _ a b => [.s a.toNat, .s b.toNat]
  | .done _ a b i => [.s a.toNat] ++ (if i = 0 then [.s b.toNat] else [])
  | .cancel _ a => [.s a.toNat]
  | .lcntCmp _ a => [.s a.toNat]
  | .lcntExp _ a => [.s a.toNat]
  | .lcntSt _ a => [.s a.toNat]
  | .lwait _ a b i => [.s a.toNat] ++ (if i = 0 then [.s b.toNat] else [])
  | .place _ a b => [.s a.toNat, .s b.toNat]
  | .qbind _ _ b _ => [.s b.toNat]
  | .qunb _ _ => []
  | .qtry _ _ _ => []
  | .qpeek _ _ _ => []
  | .qawn _ a _ => [.s a.toNat]
  | .qlen _ _ => []
  | .qend _ a => [.s a.toNat]
  | .rres _ _ b i => (if i = 0 then [.s b.toNat] else [])
  | .rpub d a b _ => [dataFld d a, .s b.toNat]
  | .rcurGet _ _ => []
  | .rcurSkip _ _ b => [.s b.toNat]
  | .tokh _ _ => []
  | .txb _ => []
  | .txo _ => []
  | .txa _ => []
  | .watch a _ => [.s a.toNat]
  | .ld _ a _ => [.s a.toNat]
  | .st d a _ => [.s a.toNat, .s d.toNat]
  | .ldx _ a b _ _ => [.s a.toNat, .s b.toNat]
  | .stx d a b _ => [.s a.toNat, .s b.toNat, .s d.toNat]
  | .vld _ a _ => [.s a.toNat]
  | .vst d a _ => [.s a.toNat, .v d.toNat]
  | .vlds _ a b _ _ _ => [.s a.toNat, .s b.toNat]
  | .vsts d a b _ _ => [.s a.toNat, .s b.toNat, .v d.toNat]
  | .vgth _ a b _ _ _ => [.s a.toNat, .ab b.toNat]
  | .vsct d a b _ _ => [.s a.toNat, .ab b.toNat, .v d.toNat]
  | .prfL2 a _ => [.s a.toNat]
  | .prfL1 a _ => [.s a.toNat]
  | .cfl a _ => [.s a.toNat]
  | .cinvD a _ => [.s a.toNat]
  | .cinvI a _ => [.s a.toNat]
  | .cinvDi a _ => [.s a.toNat]
  | .stm d a _ => [.s a.toNat, .s d.toNat]
  | .ldaq _ a _ _ _ => [.s a.toNat]
  | .strl d a _ _ _ => [.s a.toNat, .s d.toNat]
  | .fence _ _ => []
  | .amoadd _ a b _ _ _ => [.s a.toNat, .s b.toNat]
  | .amoswp _ a b _ _ _ => [.s a.toNat, .s b.toNat]
  | .amocas _ a b _ _ _ => [.s a.toNat, .s b.toNat]
  | .amomin _ a b _ _ _ => [.s a.toNat, .s b.toNat]
  | .amomax _ a b _ _ _ => [.s a.toNat, .s b.toNat]
  | .amoand _ a b _ _ _ => [.s a.toNat, .s b.toNat]
  | .amoor _ a b _ _ _ => [.s a.toNat, .s b.toNat]
  | .amoxor _ a b _ _ _ => [.s a.toNat, .s b.toNat]
  | .red _ a b _ _ _ => [.s a.toNat, .s b.toNat]
  | .migrantLand _ => []
  | .migrantRecall _ => []
  | .migrantKill _ => []
  | .vcvt _ a _ _ _ _ => [.ab a.toNat]
  | .vpack _ a b _ _ _ => [.ab a.toNat, .ab b.toNat]
  | .vunpk _ a _ _ _ _ _ => [.ab a.toNat]
  | .vscl _ a b _ _ _ => [.ab a.toNat, .ab b.toNat]
  | .vclsExp _ a _ _ => [.ab a.toNat]
  | .vclsCls _ a _ _ => [.ab a.toNat]
  | .vtriD2 _ a _ => [.ab a.toNat]
  | .vtriD5 _ a _ => [.ab a.toNat]
  | .vtriE2 _ a _ => [.ab a.toNat]
  | .vtriE5 _ a _ => [.ab a.toNat]
  | .vadd _ a b _ _ _ => [.ab a.toNat, .ab b.toNat]
  | .vsub _ a b _ _ _ => [.ab a.toNat, .ab b.toNat]
  | .vmul _ a b _ _ _ => [.ab a.toNat, .ab b.toNat]
  | .vfma _ a b _ _ _ => [.ab a.toNat, .ab b.toNat]
  | .vfms _ a b _ _ _ => [.ab a.toNat, .ab b.toNat]
  | .vmin _ a b _ _ => [.ab a.toNat, .ab b.toNat]
  | .vmax _ a b _ _ => [.ab a.toNat, .ab b.toNat]
  | .vabs _ a _ _ => [.ab a.toNat]
  | .vneg _ a _ _ => [.ab a.toNat]
  | .vrcp _ a _ _ _ => [.ab a.toNat]
  | .vrsq _ a _ _ _ => [.ab a.toNat]
  | .vexp2 _ a _ _ _ => [.ab a.toNat]
  | .vlog2 _ a _ _ _ => [.ab a.toNat]
  | .vcmp _ a b _ _ => [.ab a.toNat, .ab b.toNat]
  | .vsel _ a b _ _ => [.ab a.toNat, .ab b.toNat]
  | .vand _ a b _ _ => [.ab a.toNat, .ab b.toNat]
  | .vor _ a b _ _ => [.ab a.toNat, .ab b.toNat]
  | .vxor _ a b _ _ => [.ab a.toNat, .ab b.toNat]
  | .vshl _ a b _ _ => [.ab a.toNat, .ab b.toNat]
  | .vshr _ a b _ _ => [.ab a.toNat, .ab b.toNat]
  | .vsra _ a b _ _ => [.ab a.toNat, .ab b.toNat]
  | .vperm _ a b _ _ => [.ab a.toNat, .ab b.toNat]
  | .vbcst _ _ _ => []
  | .vaddi _ _ _ => []
  | .vmuli _ _ _ => []
  | .vmvs _ a b _ => [.ab a.toNat, .ab b.toNat]
  | .vmsv _ a b _ => [.ab a.toNat, .ab b.toNat]
  | .vred _ a _ _ _ _ => [.ab a.toNat]
  | .vscan _ a _ _ _ _ => [.ab a.toNat]
  | .vpopc _ a b _ _ => [.ab a.toNat, .ab b.toNat]
  | .vcmpr _ a _ _ => [.ab a.toNat]
  | .vxpnd _ a _ _ => [.ab a.toNat]
  | .vdot _ a b _ _ => [.ab a.toNat, .ab b.toNat]
  | .mand _ _ _ => []
  | .mor _ _ _ => []
  | .mnot _ _ => []
  | .tacq _ a _ i => if i = 0 then [.s a.toNat] else []
  | .trel _ a => [.s a.toNat]
  | .tzro _ => []
  | .tmma _ _ _ _ _ _ _ => []
  | .tmmt _ _ _ _ _ _ _ => []
  | .tlda _ a b _ => [.s a.toNat, .s b.toNat]
  | .tsta _ a b _ _ _ _ => [.s a.toNat, .s b.toNat]
  | .tgeo _ a b => [.s a.toNat, .s b.toNat]
  | .bsum _ a b => [.s a.toNat, .s b.toNat]
  | .bacc _ a b => [.s a.toNat, .s b.toNat]
  | .tileStaging _ => []
  | .tileCommandComplete _ => []
  | .leaseRearbitration _ => []
  | .spmma _ a b _ _ => [.s a.toNat, .s b.toNat]
  | .sppre _ a b => [.s a.toNat, .s b.toNat]
  | .spinvOne _ a b => [.s a.toNat, .s b.toNat]
  | .spinvAll _ => []
  | .spqry _ a b => [.s a.toNat, .s b.toNat]
  | .mrgcStat _ _ => []
  | .mrgcClr _ _ => []
  | .mzkey _ a b => [.s a.toNat, .s b.toNat]
  | .mzkeyInv _ a => [.s a.toNat]
  | .patternCompileStart _ => []
  | .patternCompileEnd _ => []
  | .mergeEmit _ => []
  | .cpy _ a b i => [.s a.toNat] ++ (if i = 0 then [.s b.toNat] else [])
  | .cpym _ a b => [.s a.toNat, .s b.toNat]
  | .tffr _ a => [.s a.toNat]
  | .wany _ a => [.s a.toNat]
  | .wall _ a => [.s a.toNat]
  | .aexp _ a b i => [.s a.toNat] ++ (if i = 0 then [.s b.toNat] else [])
  | .arrv _ a b i => [.s a.toNat] ++ (if i = 0 then [.s b.toNat] else [])
  | .wphsWait _ a b i => [.s a.toNat] ++ (if i = 0 then [.s b.toNat] else [])
  | .wphsTest _ a b i => [.s a.toNat] ++ (if i = 0 then [.s b.toNat] else [])
  | .bjoin _ a => [.s a.toNat]
  | .bleav _ a => [.s a.toNat]
  | .copyStart _ => []
  | .copyTransfer _ => []
  | .copyComplete _ => []
  | .copyFaultReply _ _ => []
  | .mfs _ _ => []
  | .mts d _ => [.s d.toNat]
  | .lsplitWrite d => [.s d.toNat]
  | .swzWrite d => [.s d.toNat]
  | .tringWrite d _ => [.s d.toNat]
  | .fstatClear d => [.s d.toNat]
  | .svcmapWrite d => [.s d.toNat]
  | .wdogWrite d => [.s d.toNat]
  | .sysc _ => []
  | .brk _ => []
  | .tlbf _ a b => [.s a.toNat, .s b.toNat]
  | .tlbiVa _ a => [.s a.toNat]
  | .tlbiPart _ => []
  | .mbxr _ a _ _ => [.s a.toNat]
  | .mbxsFrep _ a b => [.s a.toNat, .s b.toNat]
  | .mbxsCrep _ a b => [.s a.toNat, .s b.toNat]
  | .mbxsErep _ a b => [.s a.toNat, .s b.toNat]
  | .mbxsResume _ a b => [.s a.toNat, .s b.toNat]
  | .mbxsIntr _ a b => [.s a.toNat, .s b.toNat]
  | .mbxsUser _ a b => [.s a.toNat, .s b.toNat]
  | .mailboxDelivery _ _ => []
  | .csaveSave _ a => [.s a.toNat]
  | .csaveRest _ a => [.s a.toNat]
  | .pcnt _ b i => (if i = 0 then [.s b.toNat] else [])
  | .pcntCtx _ a b i => [.s a.toNat] ++ (if i = 0 then [.s b.toNat] else [])
  | .strandStart _ => []
  | .strandWake _ => []
  | .changeNotice _ _ => []
  | .faultReply _ _ => []
  | .engineFetchComplete _ _ => []
  | .engineReply _ _ => []
  | .streamReadElement _ _ => []
  | .streamStoreElement _ _ => []
  | .elementArrival _ => []
  | .extensionMove _ => []
  | .creditGrant _ => []
  | .queueEntryTake _ => []
  | .launchReady _ => []
  | .dispatchAttempt _ => []
  | .shareReserve _ => []
  | .cancelNotice _ _ _ => []
  | .budgetPublish _ _ _ => []
  | .droopResponse _ => []
  | .droopEnd _ => []
  | .watchdogExpire _ => []
  | .uncorrectableError _ => []
  | .peerLinkDown _ => []
  | .flitReplay _ => []
  | .ucieEdgeDown _ => []
  | .thermalThrottle _ _ => []
  | .coreClockCycle _ => []
  | .unassignedOpcode _ => []
  | .tlbEntryDisplaced _ _ _ => []
  | .peerLinkUp _ => []
  | .xmodCopyWrite _ _ _ _ => []
  | .tret => []
  | .txe => []
  | .txr => []
  | .tlse => []
  | .tlrl => []
  | .powerGood => []
  | .rdmaWrite => []
  | .rdmaRead => []
  | .invalidRequest => []
  | .partCreate => []
  | .partDestroy => []
  | .partSwap => []
  | .hold => []
  | .unhold => []
  | .qtable => []
  | .attest => []
  | .fwload => []
  | .events => []
  | .peermap => []
  | .clkset => []
  | .thermalShutdown => []
  | .i3cDynamicAddress => []
  | .i3cRead => []
  | .orderlyShutdown => []
  | .commandPortIntr => []

/-- The register fields that an instruction writes and does not read. -/
def Instr.writes : Instr → List Fld
  | .add d _ _ _ => [.s d.toNat]
  | .sub d _ _ _ => [.s d.toNat]
  | .mul d _ _ _ => [.s d.toNat]
  | .mulh d _ _ _ => [.s d.toNat]
  | .mulhn d _ _ _ => [.s d.toNat]
  | .div d _ _ _ => [.s d.toNat]
  | .divn d _ _ _ => [.s d.toNat]
  | .rem d _ _ _ => [.s d.toNat]
  | .remn d _ _ _ => [.s d.toNat]
  | .and d _ _ _ => [.s d.toNat]
  | .or d _ _ _ => [.s d.toNat]
  | .xor d _ _ _ => [.s d.toNat]
  | .andn d _ _ _ => [.s d.toNat]
  | .shl d _ _ _ => [.s d.toNat]
  | .shr d _ _ _ => [.s d.toNat]
  | .sra d _ _ _ => [.s d.toNat]
  | .rot d _ _ _ => [.s d.toNat]
  | .clz d _ => [.s d.toNat]
  | .ctz d _ => [.s d.toNat]
  | .popc d _ => [.s d.toNat]
  | .min d _ _ _ => [.s d.toNat]
  | .max d _ _ _ => [.s d.toNat]
  | .minn d _ _ _ => [.s d.toNat]
  | .maxn d _ _ _ => [.s d.toNat]
  | .slt d _ _ _ => [.s d.toNat]
  | .sltn d _ _ _ => [.s d.toNat]
  | .seq d _ _ _ => [.s d.toNat]
  | .sel _ _ _ _ => []
  | .lea d _ _ _ _ => [.s d.toNat]
  | .bfx d _ _ _ _ _ => [.s d.toNat]
  | .bfi _ _ _ _ _ => []
  | .addi d _ _ => [.s d.toNat]
  | .andi d _ _ => [.s d.toNat]
  | .lih d _ _ => [.s d.toNat]
  | .beq _ _ _ => []
  | .bne _ _ _ => []
  | .blt _ _ _ => []
  | .bge _ _ _ => []
  | .bltn _ _ _ => []
  | .bgen _ _ _ => []
  | .jal d _ => [.s d.toNat]
  | .jalr d _ _ => [.s d.toNat]
  | .repf _ _ _ _ _ => []
  | .spawn d _ _ _ _ _ => [.s d.toNat]
  | .reap d _ _ _ => [.s d.toNat]
  | .exit _ _ _ => []
  | .launch d _ _ => [.s d.toNat]
  | .done d _ _ _ => [.s d.toNat]
  | .cancel d _ => [.s d.toNat]
  | .lcntCmp d _ => [.s d.toNat]
  | .lcntExp d _ => [.s d.toNat]
  | .lcntSt d _ => [.s d.toNat]
  | .lwait d _ _ _ => [.s d.toNat]
  | .place d _ _ => [.s d.toNat]
  | .qbind d _ _ _ => [.s d.toNat]
  | .qunb d _ => [.s d.toNat]
  | .qtry d a b => [dataFld a d, .s b.toNat]
  | .qpeek d a b => [dataFld a d, .s b.toNat]
  | .qawn _ _ _ => []
  | .qlen d _ => [.s d.toNat]
  | .qend _ _ => []
  | .rres d _ _ _ => [.s d.toNat]
  | .rpub _ _ _ _ => []
  | .rcurGet d _ => [.s d.toNat]
  | .rcurSkip d _ _ => [.s d.toNat]
  | .tokh _ _ => []
  | .txb _ => []
  | .txo _ => []
  | .txa _ => []
  | .watch _ _ => []
  | .ld d _ _ => [.s d.toNat]
  | .st _ _ _ => []
  | .ldx d _ _ _ _ => [.s d.toNat]
  | .stx _ _ _ _ => []
  | .vld d _ _ => [.v d.toNat]
  | .vst _ _ _ => []
  | .vlds d _ _ _ _ _ => [.v d.toNat]
  | .vsts _ _ _ _ _ => []
  | .vgth d _ _ _ _ _ => [.v d.toNat]
  | .vsct _ _ _ _ _ => []
  | .prfL2 _ _ => []
  | .prfL1 _ _ => []
  | .cfl _ _ => []
  | .cinvD _ _ => []
  | .cinvI _ _ => []
  | .cinvDi _ _ => []
  | .stm _ _ _ => []
  | .ldaq d _ _ _ _ => [.s d.toNat]
  | .strl _ _ _ _ _ => []
  | .fence _ _ => []
  | .amoadd d _ _ _ _ _ => [.s d.toNat]
  | .amoswp d _ _ _ _ _ => [.s d.toNat]
  | .amocas _ _ _ _ _ _ => []
  | .amomin d _ _ _ _ _ => [.s d.toNat]
  | .amomax d _ _ _ _ _ => [.s d.toNat]
  | .amoand d _ _ _ _ _ => [.s d.toNat]
  | .amoor d _ _ _ _ _ => [.s d.toNat]
  | .amoxor d _ _ _ _ _ => [.s d.toNat]
  | .red _ _ _ _ _ _ => []
  | .migrantLand _ => []
  | .migrantRecall _ => []
  | .migrantKill _ => []
  | .vcvt d _ _ _ _ _ => [.v d.toNat]
  | .vpack d _ _ _ _ _ => [.v d.toNat]
  | .vunpk d _ _ _ _ _ _ => [.v d.toNat]
  | .vscl d _ _ _ _ _ => [.v d.toNat]
  | .vclsExp d _ _ _ => [.v d.toNat]
  | .vclsCls d _ _ _ => [.v d.toNat]
  | .vtriD2 d _ _ => [.v d.toNat]
  | .vtriD5 d _ _ => [.v d.toNat]
  | .vtriE2 d _ _ => [.v d.toNat]
  | .vtriE5 d _ _ => [.v d.toNat]
  | .vadd d _ _ _ _ _ => [.v d.toNat]
  | .vsub d _ _ _ _ _ => [.v d.toNat]
  | .vmul d _ _ _ _ _ => [.v d.toNat]
  | .vfma _ _ _ _ _ _ => []
  | .vfms _ _ _ _ _ _ => []
  | .vmin d _ _ _ _ => [.v d.toNat]
  | .vmax d _ _ _ _ => [.v d.toNat]
  | .vabs d _ _ _ => [.v d.toNat]
  | .vneg d _ _ _ => [.v d.toNat]
  | .vrcp d _ _ _ _ => [.v d.toNat]
  | .vrsq d _ _ _ _ => [.v d.toNat]
  | .vexp2 d _ _ _ _ => [.v d.toNat]
  | .vlog2 d _ _ _ _ => [.v d.toNat]
  | .vcmp _ _ _ _ _ => []
  | .vsel d _ _ _ _ => [.v d.toNat]
  | .vand d _ _ _ _ => [.v d.toNat]
  | .vor d _ _ _ _ => [.v d.toNat]
  | .vxor d _ _ _ _ => [.v d.toNat]
  | .vshl d _ _ _ _ => [.v d.toNat]
  | .vshr d _ _ _ _ => [.v d.toNat]
  | .vsra d _ _ _ _ => [.v d.toNat]
  | .vperm d _ _ _ _ => [.v d.toNat]
  | .vbcst d _ _ => [.v d.toNat]
  | .vaddi _ _ _ => []
  | .vmuli _ _ _ => []
  | .vmvs d _ _ _ => [.s d.toNat]
  | .vmsv _ _ _ _ => []
  | .vred d _ _ _ _ _ => [.v d.toNat]
  | .vscan d _ _ _ _ _ => [.v d.toNat]
  | .vpopc d _ _ _ _ => [.s d.toNat]
  | .vcmpr d _ _ _ => [.v d.toNat]
  | .vxpnd d _ _ _ => [.v d.toNat]
  | .vdot _ _ _ _ _ => []
  | .mand _ _ _ => []
  | .mor _ _ _ => []
  | .mnot _ _ => []
  | .tacq d _ _ _ => [.s d.toNat]
  | .trel d _ => [.s d.toNat]
  | .tzro _ => []
  | .tmma _ _ _ _ _ _ _ => []
  | .tmmt _ _ _ _ _ _ _ => []
  | .tlda _ _ _ _ => []
  | .tsta _ _ _ _ _ _ _ => []
  | .tgeo _ _ _ => []
  | .bsum _ _ _ => []
  | .bacc _ _ _ => []
  | .tileStaging _ => []
  | .tileCommandComplete _ => []
  | .leaseRearbitration _ => []
  | .spmma _ _ _ _ _ => []
  | .sppre d _ _ => [.s d.toNat]
  | .spinvOne d _ _ => [.s d.toNat]
  | .spinvAll d => [.s d.toNat]
  | .spqry d _ _ => [.s d.toNat]
  | .mrgcStat d _ => [.s d.toNat]
  | .mrgcClr d _ => [.s d.toNat]
  | .mzkey d _ _ => [.s d.toNat]
  | .mzkeyInv d _ => [.s d.toNat]
  | .patternCompileStart _ => []
  | .patternCompileEnd _ => []
  | .mergeEmit _ => []
  | .cpy d _ _ _ => [.s d.toNat]
  | .cpym d _ _ => [.s d.toNat]
  | .tffr d _ => [.s d.toNat]
  | .wany d _ => [.s d.toNat]
  | .wall d _ => [.s d.toNat]
  | .aexp d _ _ _ => [.s d.toNat]
  | .arrv d _ _ _ => [.s d.toNat]
  | .wphsWait d _ _ _ => [.s d.toNat]
  | .wphsTest d _ _ _ => [.s d.toNat]
  | .bjoin d _ => [.s d.toNat]
  | .bleav d _ => [.s d.toNat]
  | .copyStart _ => []
  | .copyTransfer _ => []
  | .copyComplete _ => []
  | .copyFaultReply _ _ => []
  | .mfs d _ => [.s d.toNat]
  | .mts _ _ => []
  | .lsplitWrite _ => []
  | .swzWrite _ => []
  | .tringWrite _ _ => []
  | .fstatClear _ => []
  | .svcmapWrite _ => []
  | .wdogWrite _ => []
  | .sysc _ => []
  | .brk _ => []
  | .tlbf d _ _ => [.s d.toNat]
  | .tlbiVa d _ => [.s d.toNat]
  | .tlbiPart d => [.s d.toNat]
  | .mbxr d _ _ _ => [.s d.toNat]
  | .mbxsFrep d _ _ => [.s d.toNat]
  | .mbxsCrep d _ _ => [.s d.toNat]
  | .mbxsErep d _ _ => [.s d.toNat]
  | .mbxsResume d _ _ => [.s d.toNat]
  | .mbxsIntr d _ _ => [.s d.toNat]
  | .mbxsUser d _ _ => [.s d.toNat]
  | .mailboxDelivery _ _ => []
  | .csaveSave d _ => [.s d.toNat]
  | .csaveRest d _ => [.s d.toNat]
  | .pcnt d _ _ => [.s d.toNat]
  | .pcntCtx d _ _ _ => [.s d.toNat]
  | .strandStart _ => []
  | .strandWake _ => []
  | .changeNotice _ _ => []
  | .faultReply _ _ => []
  | .engineFetchComplete _ _ => []
  | .engineReply _ _ => []
  | .streamReadElement _ _ => []
  | .streamStoreElement _ _ => []
  | .elementArrival _ => []
  | .extensionMove _ => []
  | .creditGrant _ => []
  | .queueEntryTake _ => []
  | .launchReady _ => []
  | .dispatchAttempt _ => []
  | .shareReserve _ => []
  | .cancelNotice _ _ _ => []
  | .budgetPublish _ _ _ => []
  | .droopResponse _ => []
  | .droopEnd _ => []
  | .watchdogExpire _ => []
  | .uncorrectableError _ => []
  | .peerLinkDown _ => []
  | .flitReplay _ => []
  | .ucieEdgeDown _ => []
  | .thermalThrottle _ _ => []
  | .coreClockCycle _ => []
  | .unassignedOpcode _ => []
  | .tlbEntryDisplaced _ _ _ => []
  | .peerLinkUp _ => []
  | .xmodCopyWrite _ _ _ _ => []
  | .tret => []
  | .txe => []
  | .txr => []
  | .tlse => []
  | .tlrl => []
  | .powerGood => []
  | .rdmaWrite => []
  | .rdmaRead => []
  | .invalidRequest => []
  | .partCreate => []
  | .partDestroy => []
  | .partSwap => []
  | .hold => []
  | .unhold => []
  | .qtable => []
  | .attest => []
  | .fwload => []
  | .events => []
  | .peermap => []
  | .clkset => []
  | .thermalShutdown => []
  | .i3cDynamicAddress => []
  | .i3cRead => []
  | .orderlyShutdown => []
  | .commandPortIntr => []

/-- The D field of an instruction that both reads and writes it: a bound end there raises ILLEGAL (R36). -/
def Instr.readsAndWrites : Instr → List Fld
  | .add _ _ _ _ => []
  | .sub _ _ _ _ => []
  | .mul _ _ _ _ => []
  | .mulh _ _ _ _ => []
  | .mulhn _ _ _ _ => []
  | .div _ _ _ _ => []
  | .divn _ _ _ _ => []
  | .rem _ _ _ _ => []
  | .remn _ _ _ _ => []
  | .and _ _ _ _ => []
  | .or _ _ _ _ => []
  | .xor _ _ _ _ => []
  | .andn _ _ _ _ => []
  | .shl _ _ _ _ => []
  | .shr _ _ _ _ => []
  | .sra _ _ _ _ => []
  | .rot _ _ _ _ => []
  | .clz _ _ => []
  | .ctz _ _ => []
  | .popc _ _ => []
  | .min _ _ _ _ => []
  | .max _ _ _ _ => []
  | .minn _ _ _ _ => []
  | .maxn _ _ _ _ => []
  | .slt _ _ _ _ => []
  | .sltn _ _ _ _ => []
  | .seq _ _ _ _ => []
  | .sel d _ _ _ => [.s d.toNat]
  | .lea _ _ _ _ _ => []
  | .bfx _ _ _ _ _ _ => []
  | .bfi d _ _ _ _ => [.s d.toNat]
  | .addi _ _ _ => []
  | .andi _ _ _ => []
  | .lih _ _ _ => []
  | .beq _ _ _ => []
  | .bne _ _ _ => []
  | .blt _ _ _ => []
  | .bge _ _ _ => []
  | .bltn _ _ _ => []
  | .bgen _ _ _ => []
  | .jal _ _ => []
  | .jalr _ _ _ => []
  | .repf _ _ _ _ _ => []
  | .spawn _ _ _ _ _ _ => []
  | .reap _ _ _ _ => []
  | .exit _ _ _ => []
  | .launch _ _ _ => []
  | .done _ _ _ _ => []
  | .cancel _ _ => []
  | .lcntCmp _ _ => []
  | .lcntExp _ _ => []
  | .lcntSt _ _ => []
  | .lwait _ _ _ _ => []
  | .place _ _ _ => []
  | .qbind _ _ _ _ => []
  | .qunb _ _ => []
  | .qtry _ _ _ => []
  | .qpeek _ _ _ => []
  | .qawn _ _ _ => []
  | .qlen _ _ => []
  | .qend _ _ => []
  | .rres _ _ _ _ => []
  | .rpub _ _ _ _ => []
  | .rcurGet _ _ => []
  | .rcurSkip _ _ _ => []
  | .tokh _ _ => []
  | .txb _ => []
  | .txo _ => []
  | .txa _ => []
  | .watch _ _ => []
  | .ld _ _ _ => []
  | .st _ _ _ => []
  | .ldx _ _ _ _ _ => []
  | .stx _ _ _ _ => []
  | .vld _ _ _ => []
  | .vst _ _ _ => []
  | .vlds _ _ _ _ _ _ => []
  | .vsts _ _ _ _ _ => []
  | .vgth _ _ _ _ _ _ => []
  | .vsct _ _ _ _ _ => []
  | .prfL2 _ _ => []
  | .prfL1 _ _ => []
  | .cfl _ _ => []
  | .cinvD _ _ => []
  | .cinvI _ _ => []
  | .cinvDi _ _ => []
  | .stm _ _ _ => []
  | .ldaq _ _ _ _ _ => []
  | .strl _ _ _ _ _ => []
  | .fence _ _ => []
  | .amoadd _ _ _ _ _ _ => []
  | .amoswp _ _ _ _ _ _ => []
  | .amocas d _ _ _ _ _ => [.s d.toNat]
  | .amomin _ _ _ _ _ _ => []
  | .amomax _ _ _ _ _ _ => []
  | .amoand _ _ _ _ _ _ => []
  | .amoor _ _ _ _ _ _ => []
  | .amoxor _ _ _ _ _ _ => []
  | .red _ _ _ _ _ _ => []
  | .migrantLand _ => []
  | .migrantRecall _ => []
  | .migrantKill _ => []
  | .vcvt _ _ _ _ _ _ => []
  | .vpack _ _ _ _ _ _ => []
  | .vunpk _ _ _ _ _ _ _ => []
  | .vscl _ _ _ _ _ _ => []
  | .vclsExp _ _ _ _ => []
  | .vclsCls _ _ _ _ => []
  | .vtriD2 _ _ _ => []
  | .vtriD5 _ _ _ => []
  | .vtriE2 _ _ _ => []
  | .vtriE5 _ _ _ => []
  | .vadd _ _ _ _ _ _ => []
  | .vsub _ _ _ _ _ _ => []
  | .vmul _ _ _ _ _ _ => []
  | .vfma d _ _ _ _ _ => [.v d.toNat]
  | .vfms d _ _ _ _ _ => [.v d.toNat]
  | .vmin _ _ _ _ _ => []
  | .vmax _ _ _ _ _ => []
  | .vabs _ _ _ _ => []
  | .vneg _ _ _ _ => []
  | .vrcp _ _ _ _ _ => []
  | .vrsq _ _ _ _ _ => []
  | .vexp2 _ _ _ _ _ => []
  | .vlog2 _ _ _ _ _ => []
  | .vcmp _ _ _ _ _ => []
  | .vsel _ _ _ _ _ => []
  | .vand _ _ _ _ _ => []
  | .vor _ _ _ _ _ => []
  | .vxor _ _ _ _ _ => []
  | .vshl _ _ _ _ _ => []
  | .vshr _ _ _ _ _ => []
  | .vsra _ _ _ _ _ => []
  | .vperm _ _ _ _ _ => []
  | .vbcst _ _ _ => []
  | .vaddi d _ _ => [.v d.toNat]
  | .vmuli d _ _ => [.v d.toNat]
  | .vmvs _ _ _ _ => []
  | .vmsv d _ _ _ => [.v d.toNat]
  | .vred _ _ _ _ _ _ => []
  | .vscan _ _ _ _ _ _ => []
  | .vpopc _ _ _ _ _ => []
  | .vcmpr _ _ _ _ => []
  | .vxpnd _ _ _ _ => []
  | .vdot d _ _ _ _ => [.v d.toNat]
  | .mand _ _ _ => []
  | .mor _ _ _ => []
  | .mnot _ _ => []
  | .tacq _ _ _ _ => []
  | .trel _ _ => []
  | .tzro _ => []
  | .tmma _ _ _ _ _ _ _ => []
  | .tmmt _ _ _ _ _ _ _ => []
  | .tlda _ _ _ _ => []
  | .tsta _ _ _ _ _ _ _ => []
  | .tgeo _ _ _ => []
  | .bsum _ _ _ => []
  | .bacc _ _ _ => []
  | .tileStaging _ => []
  | .tileCommandComplete _ => []
  | .leaseRearbitration _ => []
  | .spmma _ _ _ _ _ => []
  | .sppre _ _ _ => []
  | .spinvOne _ _ _ => []
  | .spinvAll _ => []
  | .spqry _ _ _ => []
  | .mrgcStat _ _ => []
  | .mrgcClr _ _ => []
  | .mzkey _ _ _ => []
  | .mzkeyInv _ _ => []
  | .patternCompileStart _ => []
  | .patternCompileEnd _ => []
  | .mergeEmit _ => []
  | .cpy _ _ _ _ => []
  | .cpym _ _ _ => []
  | .tffr _ _ => []
  | .wany _ _ => []
  | .wall _ _ => []
  | .aexp _ _ _ _ => []
  | .arrv _ _ _ _ => []
  | .wphsWait _ _ _ _ => []
  | .wphsTest _ _ _ _ => []
  | .bjoin _ _ => []
  | .bleav _ _ => []
  | .copyStart _ => []
  | .copyTransfer _ => []
  | .copyComplete _ => []
  | .copyFaultReply _ _ => []
  | .mfs _ _ => []
  | .mts _ _ => []
  | .lsplitWrite _ => []
  | .swzWrite _ => []
  | .tringWrite _ _ => []
  | .fstatClear _ => []
  | .svcmapWrite _ => []
  | .wdogWrite _ => []
  | .sysc _ => []
  | .brk _ => []
  | .tlbf _ _ _ => []
  | .tlbiVa _ _ => []
  | .tlbiPart _ => []
  | .mbxr _ _ _ _ => []
  | .mbxsFrep _ _ _ => []
  | .mbxsCrep _ _ _ => []
  | .mbxsErep _ _ _ => []
  | .mbxsResume _ _ _ => []
  | .mbxsIntr _ _ _ => []
  | .mbxsUser _ _ _ => []
  | .mailboxDelivery _ _ => []
  | .csaveSave _ _ => []
  | .csaveRest _ _ => []
  | .pcnt _ _ _ => []
  | .pcntCtx _ _ _ _ => []
  | .strandStart _ => []
  | .strandWake _ => []
  | .changeNotice _ _ => []
  | .faultReply _ _ => []
  | .engineFetchComplete _ _ => []
  | .engineReply _ _ => []
  | .streamReadElement _ _ => []
  | .streamStoreElement _ _ => []
  | .elementArrival _ => []
  | .extensionMove _ => []
  | .creditGrant _ => []
  | .queueEntryTake _ => []
  | .launchReady _ => []
  | .dispatchAttempt _ => []
  | .shareReserve _ => []
  | .cancelNotice _ _ _ => []
  | .budgetPublish _ _ _ => []
  | .droopResponse _ => []
  | .droopEnd _ => []
  | .watchdogExpire _ => []
  | .uncorrectableError _ => []
  | .peerLinkDown _ => []
  | .flitReplay _ => []
  | .ucieEdgeDown _ => []
  | .thermalThrottle _ _ => []
  | .coreClockCycle _ => []
  | .unassignedOpcode _ => []
  | .tlbEntryDisplaced _ _ _ => []
  | .peerLinkUp _ => []
  | .xmodCopyWrite _ _ _ _ => []
  | .tret => []
  | .txe => []
  | .txr => []
  | .tlse => []
  | .tlrl => []
  | .powerGood => []
  | .rdmaWrite => []
  | .rdmaRead => []
  | .invalidRequest => []
  | .partCreate => []
  | .partDestroy => []
  | .partSwap => []
  | .hold => []
  | .unhold => []
  | .qtable => []
  | .attest => []
  | .fwload => []
  | .events => []
  | .peermap => []
  | .clkset => []
  | .thermalShutdown => []
  | .i3cDynamicAddress => []
  | .i3cRead => []
  | .orderlyShutdown => []
  | .commandPortIntr => []

/-- What a MIG strand may execute, MFS by its number apart (R88). -/
def Instr.migOk : Instr → Bool
  | .add _ _ _ _ => true
  | .sub _ _ _ _ => true
  | .mul _ _ _ _ => true
  | .mulh _ _ _ _ => true
  | .mulhn _ _ _ _ => true
  | .div _ _ _ _ => true
  | .divn _ _ _ _ => true
  | .rem _ _ _ _ => true
  | .remn _ _ _ _ => true
  | .and _ _ _ _ => true
  | .or _ _ _ _ => true
  | .xor _ _ _ _ => true
  | .andn _ _ _ _ => true
  | .shl _ _ _ _ => true
  | .shr _ _ _ _ => true
  | .sra _ _ _ _ => true
  | .rot _ _ _ _ => true
  | .clz _ _ => true
  | .ctz _ _ => true
  | .popc _ _ => true
  | .min _ _ _ _ => true
  | .max _ _ _ _ => true
  | .minn _ _ _ _ => true
  | .maxn _ _ _ _ => true
  | .slt _ _ _ _ => true
  | .sltn _ _ _ _ => true
  | .seq _ _ _ _ => true
  | .sel _ _ _ _ => true
  | .lea _ _ _ _ _ => true
  | .bfx _ _ _ _ _ _ => true
  | .bfi _ _ _ _ _ => true
  | .addi _ _ _ => true
  | .andi _ _ _ => true
  | .lih _ _ _ => true
  | .beq _ _ _ => true
  | .bne _ _ _ => true
  | .blt _ _ _ => true
  | .bge _ _ _ => true
  | .bltn _ _ _ => true
  | .bgen _ _ _ => true
  | .jal _ _ => true
  | .jalr _ _ _ => true
  | .repf _ _ _ _ _ => true
  | .spawn _ _ _ _ _ _ => false
  | .reap _ _ _ _ => false
  | .exit _ _ _ => true
  | .launch _ _ _ => false
  | .done _ _ _ _ => false
  | .cancel _ _ => false
  | .lcntCmp _ _ => false
  | .lcntExp _ _ => false
  | .lcntSt _ _ => false
  | .lwait _ _ _ _ => false
  | .place _ _ _ => false
  | .qbind _ _ _ _ => false
  | .qunb _ _ => false
  | .qtry _ _ _ => false
  | .qpeek _ _ _ => false
  | .qawn _ _ _ => false
  | .qlen _ _ => false
  | .qend _ _ => false
  | .rres _ _ _ _ => false
  | .rpub _ _ _ _ => false
  | .rcurGet _ _ => false
  | .rcurSkip _ _ _ => false
  | .tokh _ _ => false
  | .txb _ => false
  | .txo _ => false
  | .txa _ => false
  | .watch _ _ => false
  | .ld _ _ _ => true
  | .st _ _ _ => true
  | .ldx _ _ _ _ _ => true
  | .stx _ _ _ _ => true
  | .vld _ _ _ => false
  | .vst _ _ _ => false
  | .vlds _ _ _ _ _ _ => false
  | .vsts _ _ _ _ _ => false
  | .vgth _ _ _ _ _ _ => false
  | .vsct _ _ _ _ _ => false
  | .prfL2 _ _ => true
  | .prfL1 _ _ => true
  | .cfl _ _ => false
  | .cinvD _ _ => false
  | .cinvI _ _ => false
  | .cinvDi _ _ => false
  | .stm _ _ _ => false
  | .ldaq _ _ _ _ _ => true
  | .strl _ _ _ _ _ => true
  | .fence _ _ => true
  | .amoadd _ _ _ _ _ _ => true
  | .amoswp _ _ _ _ _ _ => true
  | .amocas _ _ _ _ _ _ => true
  | .amomin _ _ _ _ _ _ => true
  | .amomax _ _ _ _ _ _ => true
  | .amoand _ _ _ _ _ _ => true
  | .amoor _ _ _ _ _ _ => true
  | .amoxor _ _ _ _ _ _ => true
  | .red _ _ _ _ _ _ => true
  | .migrantLand _ => false
  | .migrantRecall _ => false
  | .migrantKill _ => false
  | .vcvt _ _ _ _ _ _ => false
  | .vpack _ _ _ _ _ _ => false
  | .vunpk _ _ _ _ _ _ _ => false
  | .vscl _ _ _ _ _ _ => false
  | .vclsExp _ _ _ _ => false
  | .vclsCls _ _ _ _ => false
  | .vtriD2 _ _ _ => false
  | .vtriD5 _ _ _ => false
  | .vtriE2 _ _ _ => false
  | .vtriE5 _ _ _ => false
  | .vadd _ _ _ _ _ _ => false
  | .vsub _ _ _ _ _ _ => false
  | .vmul _ _ _ _ _ _ => false
  | .vfma _ _ _ _ _ _ => false
  | .vfms _ _ _ _ _ _ => false
  | .vmin _ _ _ _ _ => false
  | .vmax _ _ _ _ _ => false
  | .vabs _ _ _ _ => false
  | .vneg _ _ _ _ => false
  | .vrcp _ _ _ _ _ => false
  | .vrsq _ _ _ _ _ => false
  | .vexp2 _ _ _ _ _ => false
  | .vlog2 _ _ _ _ _ => false
  | .vcmp _ _ _ _ _ => false
  | .vsel _ _ _ _ _ => false
  | .vand _ _ _ _ _ => false
  | .vor _ _ _ _ _ => false
  | .vxor _ _ _ _ _ => false
  | .vshl _ _ _ _ _ => false
  | .vshr _ _ _ _ _ => false
  | .vsra _ _ _ _ _ => false
  | .vperm _ _ _ _ _ => false
  | .vbcst _ _ _ => false
  | .vaddi _ _ _ => false
  | .vmuli _ _ _ => false
  | .vmvs _ _ _ _ => false
  | .vmsv _ _ _ _ => false
  | .vred _ _ _ _ _ _ => false
  | .vscan _ _ _ _ _ _ => false
  | .vpopc _ _ _ _ _ => false
  | .vcmpr _ _ _ _ => false
  | .vxpnd _ _ _ _ => false
  | .vdot _ _ _ _ _ => false
  | .mand _ _ _ => false
  | .mor _ _ _ => false
  | .mnot _ _ => false
  | .tacq _ _ _ _ => false
  | .trel _ _ => false
  | .tzro _ => false
  | .tmma _ _ _ _ _ _ _ => false
  | .tmmt _ _ _ _ _ _ _ => false
  | .tlda _ _ _ _ => false
  | .tsta _ _ _ _ _ _ _ => false
  | .tgeo _ _ _ => false
  | .bsum _ _ _ => false
  | .bacc _ _ _ => false
  | .tileStaging _ => false
  | .tileCommandComplete _ => false
  | .leaseRearbitration _ => false
  | .spmma _ _ _ _ _ => false
  | .sppre _ _ _ => false
  | .spinvOne _ _ _ => false
  | .spinvAll _ => false
  | .spqry _ _ _ => false
  | .mrgcStat _ _ => false
  | .mrgcClr _ _ => false
  | .mzkey _ _ _ => false
  | .mzkeyInv _ _ => false
  | .patternCompileStart _ => false
  | .patternCompileEnd _ => false
  | .mergeEmit _ => false
  | .cpy _ _ _ _ => false
  | .cpym _ _ _ => false
  | .tffr _ _ => false
  | .wany _ _ => false
  | .wall _ _ => false
  | .aexp _ _ _ _ => false
  | .arrv _ _ _ _ => false
  | .wphsWait _ _ _ _ => false
  | .wphsTest _ _ _ _ => false
  | .bjoin _ _ => false
  | .bleav _ _ => false
  | .copyStart _ => false
  | .copyTransfer _ => false
  | .copyComplete _ => false
  | .copyFaultReply _ _ => false
  | .mfs _ k => k.toNat ≤ 2
  | .mts _ _ => false
  | .lsplitWrite _ => false
  | .swzWrite _ => false
  | .tringWrite _ _ => false
  | .fstatClear _ => false
  | .svcmapWrite _ => false
  | .wdogWrite _ => false
  | .sysc _ => false
  | .brk _ => false
  | .tlbf _ _ _ => false
  | .tlbiVa _ _ => false
  | .tlbiPart _ => false
  | .mbxr _ _ _ _ => false
  | .mbxsFrep _ _ _ => false
  | .mbxsCrep _ _ _ => false
  | .mbxsErep _ _ _ => false
  | .mbxsResume _ _ _ => false
  | .mbxsIntr _ _ _ => false
  | .mbxsUser _ _ _ => false
  | .mailboxDelivery _ _ => false
  | .csaveSave _ _ => false
  | .csaveRest _ _ => false
  | .pcnt _ _ _ => false
  | .pcntCtx _ _ _ _ => false
  | .strandStart _ => false
  | .strandWake _ => false
  | .changeNotice _ _ => false
  | .faultReply _ _ => false
  | .engineFetchComplete _ _ => false
  | .engineReply _ _ => false
  | .streamReadElement _ _ => false
  | .streamStoreElement _ _ => false
  | .elementArrival _ => false
  | .extensionMove _ => false
  | .creditGrant _ => false
  | .queueEntryTake _ => false
  | .launchReady _ => false
  | .dispatchAttempt _ => false
  | .shareReserve _ => false
  | .cancelNotice _ _ _ => false
  | .budgetPublish _ _ _ => false
  | .droopResponse _ => false
  | .droopEnd _ => false
  | .watchdogExpire _ => false
  | .uncorrectableError _ => false
  | .peerLinkDown _ => false
  | .flitReplay _ => false
  | .ucieEdgeDown _ => false
  | .thermalThrottle _ _ => false
  | .coreClockCycle _ => false
  | .unassignedOpcode _ => true
  | .tlbEntryDisplaced _ _ _ => false
  | .peerLinkUp _ => false
  | .xmodCopyWrite _ _ _ _ => false
  | .tret => false
  | .txe => false
  | .txr => false
  | .tlse => false
  | .tlrl => false
  | .powerGood => false
  | .rdmaWrite => false
  | .rdmaRead => false
  | .invalidRequest => false
  | .partCreate => false
  | .partDestroy => false
  | .partSwap => false
  | .hold => false
  | .unhold => false
  | .qtable => false
  | .attest => false
  | .fwload => false
  | .events => false
  | .peermap => false
  | .clkset => false
  | .thermalShutdown => false
  | .i3cDynamicAddress => false
  | .i3cRead => false
  | .orderlyShutdown => false
  | .commandPortIntr => false

/-- What is content inside an attempt (R173). -/
def Instr.content : Instr → Bool
  | .add _ _ _ _ => false
  | .sub _ _ _ _ => false
  | .mul _ _ _ _ => false
  | .mulh _ _ _ _ => false
  | .mulhn _ _ _ _ => false
  | .div _ _ _ _ => false
  | .divn _ _ _ _ => false
  | .rem _ _ _ _ => false
  | .remn _ _ _ _ => false
  | .and _ _ _ _ => false
  | .or _ _ _ _ => false
  | .xor _ _ _ _ => false
  | .andn _ _ _ _ => false
  | .shl _ _ _ _ => false
  | .shr _ _ _ _ => false
  | .sra _ _ _ _ => false
  | .rot _ _ _ _ => false
  | .clz _ _ => false
  | .ctz _ _ => false
  | .popc _ _ => false
  | .min _ _ _ _ => false
  | .max _ _ _ _ => false
  | .minn _ _ _ _ => false
  | .maxn _ _ _ _ => false
  | .slt _ _ _ _ => false
  | .sltn _ _ _ _ => false
  | .seq _ _ _ _ => false
  | .sel _ _ _ _ => false
  | .lea _ _ _ _ _ => false
  | .bfx _ _ _ _ _ _ => false
  | .bfi _ _ _ _ _ => false
  | .addi _ _ _ => false
  | .andi _ _ _ => false
  | .lih _ _ _ => false
  | .beq _ _ _ => false
  | .bne _ _ _ => false
  | .blt _ _ _ => false
  | .bge _ _ _ => false
  | .bltn _ _ _ => false
  | .bgen _ _ _ => false
  | .jal _ _ => false
  | .jalr _ _ _ => false
  | .repf _ _ _ _ _ => true
  | .spawn _ _ _ _ _ _ => true
  | .reap _ _ _ _ => true
  | .exit _ _ _ => true
  | .launch _ _ _ => true
  | .done _ _ _ _ => true
  | .cancel _ _ => true
  | .lcntCmp _ _ => false
  | .lcntExp _ _ => false
  | .lcntSt _ _ => false
  | .lwait _ _ _ _ => true
  | .place _ _ _ => true
  | .qbind _ _ _ _ => true
  | .qunb _ _ => true
  | .qtry _ _ _ => false
  | .qpeek _ _ _ => false
  | .qawn _ _ _ => false
  | .qlen _ _ => false
  | .qend _ _ => false
  | .rres _ _ _ _ => true
  | .rpub _ _ _ _ => true
  | .rcurGet _ _ => false
  | .rcurSkip _ _ _ => false
  | .tokh _ _ => true
  | .txb _ => true
  | .txo _ => false
  | .txa _ => false
  | .watch _ _ => false
  | .ld _ _ _ => false
  | .st _ _ _ => false
  | .ldx _ _ _ _ _ => false
  | .stx _ _ _ _ => false
  | .vld _ _ _ => false
  | .vst _ _ _ => false
  | .vlds _ _ _ _ _ _ => false
  | .vsts _ _ _ _ _ => false
  | .vgth _ _ _ _ _ _ => false
  | .vsct _ _ _ _ _ => false
  | .prfL2 _ _ => false
  | .prfL1 _ _ => false
  | .cfl _ _ => true
  | .cinvD _ _ => true
  | .cinvI _ _ => true
  | .cinvDi _ _ => true
  | .stm _ _ _ => false
  | .ldaq _ _ _ _ _ => false
  | .strl _ _ _ _ _ => false
  | .fence _ _ => false
  | .amoadd _ _ _ _ _ _ => false
  | .amoswp _ _ _ _ _ _ => false
  | .amocas _ _ _ _ _ _ => false
  | .amomin _ _ _ _ _ _ => false
  | .amomax _ _ _ _ _ _ => false
  | .amoand _ _ _ _ _ _ => false
  | .amoor _ _ _ _ _ _ => false
  | .amoxor _ _ _ _ _ _ => false
  | .red _ _ _ _ _ _ => false
  | .migrantLand _ => false
  | .migrantRecall _ => false
  | .migrantKill _ => false
  | .vcvt _ _ _ _ _ _ => false
  | .vpack _ _ _ _ _ _ => false
  | .vunpk _ _ _ _ _ _ _ => false
  | .vscl _ _ _ _ _ _ => false
  | .vclsExp _ _ _ _ => false
  | .vclsCls _ _ _ _ => false
  | .vtriD2 _ _ _ => false
  | .vtriD5 _ _ _ => false
  | .vtriE2 _ _ _ => false
  | .vtriE5 _ _ _ => false
  | .vadd _ _ _ _ _ _ => false
  | .vsub _ _ _ _ _ _ => false
  | .vmul _ _ _ _ _ _ => false
  | .vfma _ _ _ _ _ _ => false
  | .vfms _ _ _ _ _ _ => false
  | .vmin _ _ _ _ _ => false
  | .vmax _ _ _ _ _ => false
  | .vabs _ _ _ _ => false
  | .vneg _ _ _ _ => false
  | .vrcp _ _ _ _ _ => false
  | .vrsq _ _ _ _ _ => false
  | .vexp2 _ _ _ _ _ => false
  | .vlog2 _ _ _ _ _ => false
  | .vcmp _ _ _ _ _ => false
  | .vsel _ _ _ _ _ => false
  | .vand _ _ _ _ _ => false
  | .vor _ _ _ _ _ => false
  | .vxor _ _ _ _ _ => false
  | .vshl _ _ _ _ _ => false
  | .vshr _ _ _ _ _ => false
  | .vsra _ _ _ _ _ => false
  | .vperm _ _ _ _ _ => false
  | .vbcst _ _ _ => false
  | .vaddi _ _ _ => false
  | .vmuli _ _ _ => false
  | .vmvs _ _ _ _ => false
  | .vmsv _ _ _ _ => false
  | .vred _ _ _ _ _ _ => false
  | .vscan _ _ _ _ _ _ => false
  | .vpopc _ _ _ _ _ => false
  | .vcmpr _ _ _ _ => false
  | .vxpnd _ _ _ _ => false
  | .vdot _ _ _ _ _ => false
  | .mand _ _ _ => false
  | .mor _ _ _ => false
  | .mnot _ _ => false
  | .tacq _ _ _ _ => true
  | .trel _ _ => true
  | .tzro _ => true
  | .tmma _ _ _ _ _ _ _ => true
  | .tmmt _ _ _ _ _ _ _ => true
  | .tlda _ _ _ _ => true
  | .tsta _ _ _ _ _ _ _ => true
  | .tgeo _ _ _ => true
  | .bsum _ _ _ => true
  | .bacc _ _ _ => true
  | .tileStaging _ => false
  | .tileCommandComplete _ => false
  | .leaseRearbitration _ => false
  | .spmma _ _ _ _ _ => true
  | .sppre _ _ _ => true
  | .spinvOne _ _ _ => true
  | .spinvAll _ => true
  | .spqry _ _ _ => true
  | .mrgcStat _ _ => true
  | .mrgcClr _ _ => true
  | .mzkey _ _ _ => true
  | .mzkeyInv _ _ => true
  | .patternCompileStart _ => false
  | .patternCompileEnd _ => false
  | .mergeEmit _ => false
  | .cpy _ _ _ _ => true
  | .cpym _ _ _ => true
  | .tffr _ _ => true
  | .wany _ _ => false
  | .wall _ _ => false
  | .aexp _ _ _ _ => false
  | .arrv _ _ _ _ => false
  | .wphsWait _ _ _ _ => false
  | .wphsTest _ _ _ _ => false
  | .bjoin _ _ => false
  | .bleav _ _ => false
  | .copyStart _ => false
  | .copyTransfer _ => false
  | .copyComplete _ => false
  | .copyFaultReply _ _ => false
  | .mfs _ _ => false
  | .mts _ _ => true
  | .lsplitWrite _ => true
  | .swzWrite _ => true
  | .tringWrite _ _ => true
  | .fstatClear _ => true
  | .svcmapWrite _ => true
  | .wdogWrite _ => true
  | .sysc _ => true
  | .brk _ => true
  | .tlbf _ _ _ => true
  | .tlbiVa _ _ => true
  | .tlbiPart _ => true
  | .mbxr _ _ _ _ => true
  | .mbxsFrep _ _ _ => true
  | .mbxsCrep _ _ _ => true
  | .mbxsErep _ _ _ => true
  | .mbxsResume _ _ _ => true
  | .mbxsIntr _ _ _ => true
  | .mbxsUser _ _ _ => true
  | .mailboxDelivery _ _ => false
  | .csaveSave _ _ => true
  | .csaveRest _ _ => true
  | .pcnt _ _ _ => false
  | .pcntCtx _ _ _ _ => false
  | .strandStart _ => false
  | .strandWake _ => false
  | .changeNotice _ _ => false
  | .faultReply _ _ => false
  | .engineFetchComplete _ _ => false
  | .engineReply _ _ => false
  | .streamReadElement _ _ => false
  | .streamStoreElement _ _ => false
  | .elementArrival _ => false
  | .extensionMove _ => false
  | .creditGrant _ => false
  | .queueEntryTake _ => false
  | .launchReady _ => false
  | .dispatchAttempt _ => false
  | .shareReserve _ => false
  | .cancelNotice _ _ _ => false
  | .budgetPublish _ _ _ => false
  | .droopResponse _ => false
  | .droopEnd _ => false
  | .watchdogExpire _ => false
  | .uncorrectableError _ => false
  | .peerLinkDown _ => false
  | .flitReplay _ => false
  | .ucieEdgeDown _ => false
  | .thermalThrottle _ _ => false
  | .coreClockCycle _ => false
  | .unassignedOpcode _ => false
  | .tlbEntryDisplaced _ _ _ => false
  | .peerLinkUp _ => false
  | .xmodCopyWrite _ _ _ _ => false
  | .tret => true
  | .txe => false
  | .txr => false
  | .tlse => true
  | .tlrl => true
  | .powerGood => false
  | .rdmaWrite => false
  | .rdmaRead => false
  | .invalidRequest => false
  | .partCreate => false
  | .partDestroy => false
  | .partSwap => false
  | .hold => false
  | .unhold => false
  | .qtable => false
  | .attest => false
  | .fwload => false
  | .events => false
  | .peermap => false
  | .clkset => false
  | .thermalShutdown => false
  | .i3cDynamicAddress => false
  | .i3cRead => false
  | .orderlyShutdown => false
  | .commandPortIntr => false

end Sys2Proof
end

