-- ==== Sys2Proof/WellFormed.lean ====
section
/-! DEFINITION. Which field values each encoding row admits: the limits that R29 to R38 and the encoding tables of the
class chapters give. A word whose fields break a limit raises ILLEGAL (R29). Fields that a row fixes are no argument
of its constructor, so only the limits on the free fields stand here. An event has no encoding and no limit. -/

namespace Sys2Proof

/-- Primary opcodes that R39 assigns no mnemonic (R40). -/
def unassigned (op : Nat) : Bool :=
  op == 0 || (0x23 ≤ op && op ≤ 0x2F) || (0x3C ≤ op && op ≤ 0x3F) || op == 0x46 || op == 0x47 ||
  (0x54 ≤ op && op ≤ 0x57) || op == 0x5E || op == 0x5F || (0x6E ≤ op && op ≤ 0x77) || (0x84 ≤ op && op ≤ 0x87) ||
  op == 0x8E || op == 0x8F || (0xB4 ≤ op && op ≤ 0xBF) || (0xCC ≤ op && op ≤ 0xCF) || op == 0xD6 || op == 0xD7 ||
  (0xE2 ≤ op && op ≤ 0xE7) || 0xF2 ≤ op

/-- A vector destination field, v0 to v15 (R35). -/
def isVec (d : BitVec 5) : Bool := d.toNat ≤ 15
/-- A mask register field, m0 to m7 (R35). -/
def isMask (d : BitVec 5) : Bool := d.toNat ≤ 7
/-- An accumulator number (R321, R339). -/
def isAcc (d : BitVec 5) : Bool := d.toNat ≤ 7
/-- A q end number (R321, R339). -/
def isQ (d : BitVec 5) : Bool := d.toNat ≤ 7
/-- An end number (R36). -/
def isEnd (e : BitVec 5) : Bool := e.toNat ≤ 11
/-- A binding kind of QBIND (R155). -/
def isKind (k : BitVec 5) : Bool := 1 ≤ k.toNat && k.toNat ≤ 4
/-- The data field of QTRY, QPEEK and RPUB: v0 to v15 for a vq end, s0 to s31 otherwise (R156). -/
def dataField (e d : BitVec 5) : Bool := e.toNat ≤ 7 || d.toNat ≤ 15
/-- An immediate target of SPAWN (R84). -/
def userCtx (b : BitVec 5) : Bool := 1 ≤ b.toNat && b.toNat ≤ 14
/-- Any element type (R37). -/
def anyType (t : BitVec 4) : Bool := t.toNat ≤ 12
/-- FP2 to FP4: f32, bf16 and f16 (R291). -/
def fpType (t : BitVec 4) : Bool := t == 2 || t == 3 || t == 4
/-- The integer types of R291. -/
def intType (t : BitVec 4) : Bool :=
  t == 0 || t == 1 || (5 ≤ t.toNat && t.toNat ≤ 8) || t == 11 || t == 12
/-- Every floating type, GF8 and GF8W with the three of R291 (R286, R321). -/
def floatType (t : BitVec 4) : Bool := fpType t || t == 9 || t == 10
/-- The types of VRED and VSCAN (R291). -/
def wideType (t : BitVec 4) : Bool := t.toNat ≤ 6 || t == 11 || t == 12
/-- The destination types of VPACK (R280). -/
def packType (t : BitVec 4) : Bool := t == 0 || t == 1 || (3 ≤ t.toNat && t.toNat ≤ 10)
/-- Lanes of a 512-bit register under an element type (R37). -/
def lanesOf (t : Nat) : Nat :=
  if t ≤ 2 then 16 else if t ≤ 6 then 32 else if t ≤ 10 then 64 else 8
/-- VUNPK: a listed destination and a source with exactly twice its lanes (R280, R284). -/
def unpackPair (t s : BitVec 4) : Bool :=
  wideType t && anyType s && lanesOf s.toNat == 2 * lanesOf t.toNat
/-- A cache hint (R30). -/
def hintOk (h : BitVec 2) : Bool := h != 3
/-- A scope code (R31). -/
def scopeOk (s : BitVec 3) : Bool := s.toNat ≤ 5
/-- The widths of RED by its operation (R267). -/
def redWidth (p : BitVec 5) (w : BitVec 3) : Bool :=
  if p == 0 then w.toNat ≤ 5 else if p.toNat ≤ 2 then w.toNat ≤ 4 else p.toNat ≤ 5 && w.toNat ≤ 3
/-- A special register number (R377). -/
def isSpecial (k : Nat) : Bool :=
  k ≤ 3 || (0x10 ≤ k && k ≤ 0x1A) || (0x20 ≤ k && k ≤ 0x26) || (0x30 ≤ k && k ≤ 0x37) ||
  (0x40 ≤ k && k ≤ 0x4F) || (0x80 ≤ k && k ≤ 0x83)
/-- A special register whose write has a row of its own in the opcode table: FSTAT, TRING0 to TRING15, LSPLIT, SWZ,
SVCMAP and WDOG. -/
def ownStep (k : Nat) : Bool := k == 0x13 || (0x40 ≤ k && k ≤ 0x4F) || (0x80 ≤ k && k ≤ 0x83)

/-- Does every field hold a value that the instruction's encoding row admits (R29, R30)? -/
def Instr.wellFormed : Instr → Bool
  | .add _ _ _ _ => true
  | .sub _ _ _ _ => true
  | .mul _ _ _ _ => true
  | .mulh _ _ _ _ => true
  | .mulhn _ _ _ _ => true
  | .div _ _ _ _ => true
  | .divn _ _ _ _ => true
  | .rem _ _ _ _ => true
  | .remn _ _ _ _ => true
  | .and _ _ _ _ => true
  | .or _ _ _ _ => true
  | .xor _ _ _ _ => true
  | .andn _ _ _ _ => true
  | .shl _ _ _ _ => true
  | .shr _ _ _ _ => true
  | .sra _ _ _ _ => true
  | .rot _ _ _ _ => true
  | .clz _ _ => true
  | .ctz _ _ => true
  | .popc _ _ => true
  | .min _ _ _ _ => true
  | .max _ _ _ _ => true
  | .minn _ _ _ _ => true
  | .maxn _ _ _ _ => true
  | .slt _ _ _ _ => true
  | .sltn _ _ _ _ => true
  | .seq _ _ _ _ => true
  | .sel _ _ _ _ => true
  | .lea _ _ _ _ _ => true
  | .bfx _ _ _ _ i w => i == 1 || w == 0
  | .bfi _ _ _ i w => i == 1 || w == 0
  | .addi _ _ _ => true
  | .andi _ _ _ => true
  | .lih _ t _ => t == 0 || t == 1 || t == 6
  | .beq _ _ _ => true
  | .bne _ _ _ => true
  | .blt _ _ _ => true
  | .bge _ _ _ => true
  | .bltn _ _ _ => true
  | .bgen _ _ _ => true
  | .jal _ _ => true
  | .jalr _ _ _ => true
  | .repf _ _ _ _ _ => true
  | .spawn _ _ b i t g => !(t == 1 && g == 1) && (i == 0 || userCtx b)
  | .reap _ a b i => if i == 1 then a == 0 else b == 0
  | .exit a b i => if i == 1 then a == 0 else b == 0
  | .launch _ _ _ => true
  | .done _ _ _ _ => true
  | .cancel _ _ => true
  | .lcntCmp _ _ => true
  | .lcntExp _ _ => true
  | .lcntSt _ _ => true
  | .lwait _ _ _ _ => true
  | .place _ _ _ => true
  | .qbind _ a _ k => isEnd a && isKind k
  | .qunb _ a => isEnd a
  | .qtry d a _ => isEnd a && dataField a d
  | .qpeek d a _ => isEnd a && dataField a d
  | .qawn d _ b => isEnd d && b.toNat ≤ 6
  | .qlen _ a => isEnd a
  | .qend d _ => isEnd d
  | .rres _ a _ _ => isEnd a
  | .rpub d a _ _ => isEnd d && dataField d a
  | .rcurGet _ a => isEnd a
  | .rcurSkip _ a _ => isEnd a
  | .tokh d _ => isEnd d
  | .txb _ => true
  | .txo _ => true
  | .txa _ => true
  | .watch _ _ => true
  | .ld _ _ _ => true
  | .st _ _ _ => true
  | .ldx _ _ _ t h => anyType t && hintOk h
  | .stx _ _ _ t => anyType t
  | .vld d _ _ => isVec d
  | .vst d _ _ => isVec d
  | .vlds d _ _ t h _ => isVec d && anyType t && hintOk h
  | .vsts d _ _ t _ => isVec d && anyType t
  | .vgth d _ _ t h _ => isVec d && anyType t && hintOk h
  | .vsct d _ _ t _ => isVec d && anyType t
  | .prfL2 _ _ => true
  | .prfL1 _ _ => true
  | .cfl _ _ => true
  | .cinvD _ _ => true
  | .cinvI _ _ => true
  | .cinvDi _ _ => true
  | .stm _ _ _ => true
  | .ldaq _ _ s o w => scopeOk s && (o == 1 || o == 4) && w.toNat ≤ 3
  | .strl _ _ s o w => scopeOk s && (o == 2 || o == 4) && w.toNat ≤ 3
  | .fence s o => scopeOk s && 1 ≤ o.toNat && o.toNat ≤ 4
  | .amoadd _ _ _ s o w => scopeOk s && o.toNat ≤ 4 && w.toNat ≤ 5
  | .amoswp _ _ _ s o w => scopeOk s && o.toNat ≤ 4 && w.toNat ≤ 3
  | .amocas _ _ _ s o w => scopeOk s && o.toNat ≤ 4 && w.toNat ≤ 3
  | .amomin _ _ _ s o w => scopeOk s && o.toNat ≤ 4 && w.toNat ≤ 4
  | .amomax _ _ _ s o w => scopeOk s && o.toNat ≤ 4 && w.toNat ≤ 4
  | .amoand _ _ _ s o w => scopeOk s && o.toNat ≤ 4 && w.toNat ≤ 3
  | .amoor _ _ _ s o w => scopeOk s && o.toNat ≤ 4 && w.toNat ≤ 3
  | .amoxor _ _ _ s o w => scopeOk s && o.toNat ≤ 4 && w.toNat ≤ 3
  | .red p _ _ s o w => scopeOk s && (o == 0 || o == 2) && redWidth p w
  | .migrantLand _ => true
  | .migrantRecall _ => true
  | .migrantKill _ => true
  | .vcvt d _ b t _ _ => isVec d && anyType t && b.toNat ≤ 12
  | .vpack d _ _ t _ _ => isVec d && anyType t && packType t
  | .vunpk d _ _ s t _ _ => isVec d && unpackPair t s
  | .vscl d _ _ t _ _ => isVec d && (t == 0 || (2 ≤ t.toNat && t.toNat ≤ 5))
  | .vclsExp d _ t _ => isVec d && floatType t
  | .vclsCls d _ t _ => isVec d && floatType t
  | .vtriD2 d _ _ => isVec d
  | .vtriD5 d _ _ => isVec d
  | .vtriE2 d _ _ => isVec d
  | .vtriE5 d _ _ => isVec d
  | .vadd d _ _ t r _ => isVec d && (fpType t || (intType t && r == 0))
  | .vsub d _ _ t r _ => isVec d && (fpType t || (intType t && r == 0))
  | .vmul d _ _ t r _ => isVec d && (fpType t || (intType t && r == 0))
  | .vfma d _ _ t _ _ => isVec d && fpType t
  | .vfms d _ _ t _ _ => isVec d && fpType t
  | .vmin d _ _ t _ => isVec d && (fpType t || intType t)
  | .vmax d _ _ t _ => isVec d && (fpType t || intType t)
  | .vabs d _ t _ => isVec d && anyType t
  | .vneg d _ t _ => isVec d && anyType t
  | .vrcp d _ t _ _ => isVec d && fpType t
  | .vrsq d _ t _ _ => isVec d && fpType t
  | .vexp2 d _ t _ _ => isVec d && fpType t
  | .vlog2 d _ t _ _ => isVec d && fpType t
  | .vcmp d _ _ t _ => isMask d && (fpType t || intType t)
  | .vsel d _ _ t _ => isVec d && anyType t
  | .vand d _ _ t _ => isVec d && anyType t
  | .vor d _ _ t _ => isVec d && anyType t
  | .vxor d _ _ t _ => isVec d && anyType t
  | .vshl d _ _ t _ => isVec d && intType t
  | .vshr d _ _ t _ => isVec d && intType t
  | .vsra d _ _ t _ => isVec d && intType t
  | .vperm d _ _ t _ => isVec d && anyType t
  | .vbcst d t _ => isVec d && t != 7
  | .vaddi d t _ => isVec d && t != 4 && t != 5 && t != 7
  | .vmuli d t _ => isVec d && t != 4 && t != 5 && t != 7
  | .vmvs _ _ _ t => anyType t
  | .vmsv d _ _ t => isVec d && anyType t
  | .vred d _ p t r _ => isVec d && wideType t && p.toNat ≤ 5 && (if fpType t then p.toNat ≤ 2 else r == 0)
  | .vscan d _ p t r _ => isVec d && wideType t && p.toNat ≤ 5 && (if fpType t then p.toNat ≤ 2 else r == 0)
  | .vpopc _ _ _ t _ => anyType t
  | .vcmpr d _ t _ => isVec d && anyType t
  | .vxpnd d _ t _ => isVec d && anyType t
  | .vdot d _ _ t _ => isVec d && (t == 7 || t == 8)
  | .mand d a b => isMask d && isMask a && isMask b
  | .mor d a b => isMask d && isMask a && isMask b
  | .mnot d a => isMask d && isMask a
  | .tacq _ a b i => if i == 1 then a == 0 && 1 ≤ b.toNat && b.toNat ≤ 8 else b == 0
  | .trel _ _ => true
  | .tzro d => isAcc d
  | .tmma _ _ _ _ f _ _ => f.toNat ≤ 11 || f == 15
  | .tmmt _ _ _ _ f _ _ => f.toNat ≤ 11 || f == 15
  | .tlda d _ _ _ => isAcc d
  | .tsta d _ _ _ r i t => isAcc d && t.toNat ≤ 10 && !(i == 1 && floatType t && r != 0)
  | .tgeo d _ _ => isAcc d
  | .bsum d _ _ => isQ d
  | .bacc d _ _ => d.toNat % 2 == 0 && d != 0
  | .tileStaging _ => true
  | .tileCommandComplete _ => true
  | .leaseRearbitration _ => true
  | .spmma d _ _ _ _ => isAcc d
  | .sppre _ _ _ => true
  | .spinvOne _ _ _ => true
  | .spinvAll _ => true
  | .spqry _ _ _ => true
  | .mrgcStat _ a => isQ a
  | .mrgcClr _ a => isQ a
  | .mzkey _ _ _ => true
  | .mzkeyInv _ _ => true
  | .patternCompileStart _ => true
  | .patternCompileEnd _ => true
  | .mergeEmit _ => true
  | .cpy _ _ _ _ => true
  | .cpym _ _ _ => true
  | .tffr _ _ => true
  | .wany _ _ => true
  | .wall _ _ => true
  | .aexp _ _ _ _ => true
  | .arrv _ _ _ _ => true
  | .wphsWait _ _ b i => i == 0 || b.toNat ≤ 1
  | .wphsTest _ _ b i => i == 0 || b.toNat ≤ 1
  | .bjoin _ _ => true
  | .bleav _ _ => true
  | .copyStart _ => true
  | .copyTransfer _ => true
  | .copyComplete _ => true
  | .copyFaultReply _ _ => true
  | .mfs _ k => isSpecial k.toNat
  | .mts _ k => isSpecial k.toNat && !ownStep k.toNat
  | .lsplitWrite _ => true
  | .swzWrite _ => true
  | .tringWrite _ _ => true
  | .fstatClear _ => true
  | .svcmapWrite _ => true
  | .wdogWrite _ => true
  | .sysc _ => true
  | .brk _ => true
  | .tlbf _ _ _ => true
  | .tlbiVa _ _ => true
  | .tlbiPart _ => true
  | .mbxr _ _ _ x => x != 3
  | .mbxsFrep _ _ _ => true
  | .mbxsCrep _ _ _ => true
  | .mbxsErep _ _ _ => true
  | .mbxsResume _ _ _ => true
  | .mbxsIntr _ _ _ => true
  | .mbxsUser _ _ _ => true
  | .mailboxDelivery _ _ => true
  | .csaveSave _ _ => true
  | .csaveRest _ _ => true
  | .pcnt _ _ _ => true
  | .pcntCtx _ _ _ _ => true
  | .strandStart _ => true
  | .strandWake _ => true
  | .changeNotice _ _ => true
  | .faultReply _ _ => true
  | .engineFetchComplete _ _ => true
  | .engineReply _ _ => true
  | .streamReadElement _ _ => true
  | .streamStoreElement _ _ => true
  | .elementArrival _ => true
  | .extensionMove _ => true
  | .creditGrant _ => true
  | .queueEntryTake _ => true
  | .launchReady _ => true
  | .dispatchAttempt _ => true
  | .shareReserve _ => true
  | .cancelNotice _ _ _ => true
  | .budgetPublish _ _ _ => true
  | .droopResponse _ => true
  | .droopEnd _ => true
  | .watchdogExpire _ => true
  | .uncorrectableError _ => true
  | .peerLinkDown _ => true
  | .flitReplay _ => true
  | .ucieEdgeDown _ => true
  | .thermalThrottle _ _ => true
  | .coreClockCycle _ => true
  | .unassignedOpcode w => unassigned (w.extractLsb' 24 8).toNat
  | .tlbEntryDisplaced _ _ _ => true
  | .peerLinkUp _ => true
  | .xmodCopyWrite _ _ _ _ => true
  | .tret => true
  | .txe => true
  | .txr => true
  | .tlse => true
  | .tlrl => true
  | .powerGood => true
  | .rdmaWrite => true
  | .rdmaRead => true
  | .invalidRequest => true
  | .partCreate => true
  | .partDestroy => true
  | .partSwap => true
  | .hold => true
  | .unhold => true
  | .qtable => true
  | .attest => true
  | .fwload => true
  | .events => true
  | .peermap => true
  | .clkset => true
  | .thermalShutdown => true
  | .i3cDynamicAddress => true
  | .i3cRead => true
  | .orderlyShutdown => true
  | .commandPortIntr => true

end Sys2Proof
end

