-- ==== Sys2Proof/Decode.lean ====
section
/-! DEFINITION. From instruction words to instructions and back: the decoder (R27 to R40) and an encoder written from
the same encoding rows. -/

namespace Sys2Proof

/-- Why a word is no instruction. -/
inductive DecodeErr where
  /-- Fewer than four bytes are given. -/
  | short
  /-- A bit that the encoding row fixes holds another value (R29). -/
  | fixedBits (w : IWord)
  /-- A field holds a value that its row does not allow (R29 to R37). -/
  | fieldValue (w : IWord)
  deriving DecidableEq, Repr

/-- One encoding row: the word must hold the row's fixed bits (R29). -/
def row (w mask pattern : IWord) (i : Instr) : Option Instr :=
  if w &&& mask = pattern then some i else none

/-- MTS by its register number. Registers whose write has behaviour of its own have rows of their own in the table. -/
def mtsRow (d : BitVec 5) (k : BitVec 16) : Instr :=
  if k = 0x13 then .fstatClear d
  else if k.extractLsb' 4 12 = 4 then .tringWrite d (k.extractLsb' 0 4)
  else if k = 0x80 then .lsplitWrite d
  else if k = 0x81 then .swzWrite d
  else if k = 0x82 then .svcmapWrite d
  else if k = 0x83 then .wdogWrite d
  else .mts d k

/-- Bits [23:19] (R28). -/
def fD (w : IWord) : BitVec 5 := w.extractLsb' 19 5
/-- Bits [18:14] (R28). -/
def fA (w : IWord) : BitVec 5 := w.extractLsb' 14 5
/-- Bits [13:9] (R28). -/
def fB (w : IWord) : BitVec 5 := w.extractLsb' 9 5

/-- The encoding rows by primary opcode (R39); an opcode without a row is R40's. -/
def decodeRow (w : IWord) : Option Instr :=
  match (w.extractLsb' 24 8).toNat with
  | 0x01 => row w 0xFF0001DF 0x01000000 (.add (fD w) (fA w) (fB w) (w.extractLsb' 5 1))
  | 0x02 => row w 0xFF0001DF 0x02000000 (.sub (fD w) (fA w) (fB w) (w.extractLsb' 5 1))
  | 0x03 => row w 0xFF0001DF 0x03000000 (.mul (fD w) (fA w) (fB w) (w.extractLsb' 5 1))
  | 0x04 => row w 0xFF0001DF 0x04000000 (.mulh (fD w) (fA w) (fB w) (w.extractLsb' 5 1))
  | 0x05 => row w 0xFF0001DF 0x05000000 (.mulhn (fD w) (fA w) (fB w) (w.extractLsb' 5 1))
  | 0x06 => row w 0xFF0001DF 0x06000000 (.div (fD w) (fA w) (fB w) (w.extractLsb' 5 1))
  | 0x07 => row w 0xFF0001DF 0x07000000 (.divn (fD w) (fA w) (fB w) (w.extractLsb' 5 1))
  | 0x08 => row w 0xFF0001DF 0x08000000 (.rem (fD w) (fA w) (fB w) (w.extractLsb' 5 1))
  | 0x09 => row w 0xFF0001DF 0x09000000 (.remn (fD w) (fA w) (fB w) (w.extractLsb' 5 1))
  | 0x0A => row w 0xFF0001DF 0x0A000000 (.and (fD w) (fA w) (fB w) (w.extractLsb' 5 1))
  | 0x0B => row w 0xFF0001DF 0x0B000000 (.or (fD w) (fA w) (fB w) (w.extractLsb' 5 1))
  | 0x0C => row w 0xFF0001DF 0x0C000000 (.xor (fD w) (fA w) (fB w) (w.extractLsb' 5 1))
  | 0x0D => row w 0xFF0001DF 0x0D000000 (.andn (fD w) (fA w) (fB w) (w.extractLsb' 5 1))
  | 0x0E => row w 0xFF0001DF 0x0E000000 (.shl (fD w) (fA w) (fB w) (w.extractLsb' 5 1))
  | 0x0F => row w 0xFF0001DF 0x0F000000 (.shr (fD w) (fA w) (fB w) (w.extractLsb' 5 1))
  | 0x10 => row w 0xFF0001DF 0x10000000 (.sra (fD w) (fA w) (fB w) (w.extractLsb' 5 1))
  | 0x11 => row w 0xFF0001DF 0x11000000 (.rot (fD w) (fA w) (fB w) (w.extractLsb' 5 1))
  | 0x12 => row w 0xFF003FFF 0x12000000 (.clz (fD w) (fA w))
  | 0x13 => row w 0xFF003FFF 0x13000000 (.ctz (fD w) (fA w))
  | 0x14 => row w 0xFF003FFF 0x14000000 (.popc (fD w) (fA w))
  | 0x15 => row w 0xFF0001DF 0x15000000 (.min (fD w) (fA w) (fB w) (w.extractLsb' 5 1))
  | 0x16 => row w 0xFF0001DF 0x16000000 (.max (fD w) (fA w) (fB w) (w.extractLsb' 5 1))
  | 0x17 => row w 0xFF0001DF 0x17000000 (.minn (fD w) (fA w) (fB w) (w.extractLsb' 5 1))
  | 0x18 => row w 0xFF0001DF 0x18000000 (.maxn (fD w) (fA w) (fB w) (w.extractLsb' 5 1))
  | 0x19 => row w 0xFF0001DF 0x19000000 (.slt (fD w) (fA w) (fB w) (w.extractLsb' 5 1))
  | 0x1A => row w 0xFF0001DF 0x1A000000 (.sltn (fD w) (fA w) (fB w) (w.extractLsb' 5 1))
  | 0x1B => row w 0xFF0001DF 0x1B000000 (.seq (fD w) (fA w) (fB w) (w.extractLsb' 5 1))
  | 0x1C => row w 0xFF0001DF 0x1C000000 (.sel (fD w) (fA w) (fB w) (w.extractLsb' 5 1))
  | 0x1D => row w 0xFF00001F 0x1D000000 (.lea (fD w) (fA w) (fB w) (w.extractLsb' 6 3) (w.extractLsb' 5 1))
  | 0x1E => row w 0xFF000180 0x1E000000 (.bfx (fD w) (fA w) (fB w) (w.extractLsb' 6 1) (w.extractLsb' 5 1) (w.extractLsb' 0 5))
  | 0x1F => row w 0xFF0001C0 0x1F000000 (.bfi (fD w) (fA w) (fB w) (w.extractLsb' 5 1) (w.extractLsb' 0 5))
  | 0x20 => row w 0xFF000000 0x20000000 (.addi (fD w) (fA w) (w.extractLsb' 0 14))
  | 0x21 => row w 0xFF000000 0x21000000 (.andi (fD w) (fA w) (w.extractLsb' 0 14))
  | 0x22 => row w 0xFF000000 0x22000000 (.lih (fD w) (w.extractLsb' 16 3) (w.extractLsb' 0 16))
  | 0x30 => row w 0xFF000000 0x30000000 (.beq (fD w) (fA w) (w.extractLsb' 0 14))
  | 0x31 => row w 0xFF000000 0x31000000 (.bne (fD w) (fA w) (w.extractLsb' 0 14))
  | 0x32 => row w 0xFF000000 0x32000000 (.blt (fD w) (fA w) (w.extractLsb' 0 14))
  | 0x33 => row w 0xFF000000 0x33000000 (.bge (fD w) (fA w) (w.extractLsb' 0 14))
  | 0x34 => row w 0xFF000000 0x34000000 (.bltn (fD w) (fA w) (w.extractLsb' 0 14))
  | 0x35 => row w 0xFF000000 0x35000000 (.bgen (fD w) (fA w) (w.extractLsb' 0 14))
  | 0x36 => row w 0xFF000000 0x36000000 (.jal (fD w) (w.extractLsb' 0 19))
  | 0x37 => row w 0xFF000000 0x37000000 (.jalr (fD w) (fA w) (w.extractLsb' 0 14))
  | 0x38 => row w 0xFF000000 0x38000000 (.repf (w.extractLsb' 20 4) (w.extractLsb' 12 8) (w.extractLsb' 8 4) (w.extractLsb' 4 4) (w.extractLsb' 0 4))
  | 0x39 => row w 0xFF0001DC 0x39000000 (.spawn (fD w) (fA w) (fB w) (w.extractLsb' 5 1) (w.extractLsb' 1 1) (w.extractLsb' 0 1))
  | 0x3A => row w 0xFF0001DF 0x3A000000 (.reap (fD w) (fA w) (fB w) (w.extractLsb' 5 1))
  | 0x3B => row w 0xFFF801DF 0x3B000000 (.exit (fA w) (fB w) (w.extractLsb' 5 1))
  | 0x40 => row w 0xFF0001FF 0x40000000 (.launch (fD w) (fA w) (fB w))
  | 0x41 => row w 0xFF0001DF 0x41000000 (.done (fD w) (fA w) (fB w) (w.extractLsb' 5 1))
  | 0x42 => row w 0xFF003FFF 0x42000000 (.cancel (fD w) (fA w))
  | 0x43 =>
    row w 0xFF003FFF 0x43000000 (.lcntCmp (fD w) (fA w)) <|>
    row w 0xFF003FFF 0x43000001 (.lcntExp (fD w) (fA w)) <|>
    row w 0xFF003FFF 0x43000002 (.lcntSt (fD w) (fA w))
  | 0x44 => row w 0xFF0001DF 0x44000000 (.lwait (fD w) (fA w) (fB w) (w.extractLsb' 5 1))
  | 0x45 => row w 0xFF0001FF 0x45000000 (.place (fD w) (fA w) (fB w))
  | 0x48 => row w 0xFF0001E0 0x48000000 (.qbind (fD w) (fA w) (fB w) (w.extractLsb' 0 5))
  | 0x49 => row w 0xFF003FFF 0x49000000 (.qunb (fD w) (fA w))
  | 0x4A => row w 0xFF0001FF 0x4A000000 (.qtry (fD w) (fA w) (fB w))
  | 0x4B => row w 0xFF0001FF 0x4B000000 (.qpeek (fD w) (fA w) (fB w))
  | 0x4C => row w 0xFF0001FF 0x4C000020 (.qawn (fD w) (fA w) (fB w))
  | 0x4D => row w 0xFF003FFF 0x4D000000 (.qlen (fD w) (fA w))
  | 0x4E => row w 0xFF003FFF 0x4E000000 (.qend (fD w) (fA w))
  | 0x4F => row w 0xFF0001DF 0x4F000000 (.rres (fD w) (fA w) (fB w) (w.extractLsb' 5 1))
  | 0x50 => row w 0xFF0001FE 0x50000000 (.rpub (fD w) (fA w) (fB w) (w.extractLsb' 0 1))
  | 0x51 =>
    row w 0xFF003FFF 0x51000000 (.rcurGet (fD w) (fA w)) <|>
    row w 0xFF0001FF 0x51000001 (.rcurSkip (fD w) (fA w) (fB w))
  | 0x52 => row w 0xFF000000 0x52000000 (.tokh (fD w) (w.extractLsb' 0 19))
  | 0x58 => row w 0xFFF80000 0x58000000 (.txb (w.extractLsb' 0 19))
  | 0x59 => row w 0xFFF80000 0x59000000 (.txo (w.extractLsb' 0 19))
  | 0x5C => row w 0xFFFF0000 0x5C010000 (.txa (w.extractLsb' 0 16))
  | 0x5D => row w 0xFFF80000 0x5D000000 (.watch (fA w) (w.extractLsb' 0 14))
  | 0x60 => row w 0xFF000000 0x60000000 (.ld (fD w) (fA w) (w.extractLsb' 0 14))
  | 0x61 => row w 0xFF000000 0x61000000 (.st (fD w) (fA w) (w.extractLsb' 0 14))
  | 0x62 => row w 0xFF000007 0x62000000 (.ldx (fD w) (fA w) (fB w) (w.extractLsb' 5 4) (w.extractLsb' 3 2))
  | 0x63 => row w 0xFF00001F 0x63000000 (.stx (fD w) (fA w) (fB w) (w.extractLsb' 5 4))
  | 0x64 => row w 0xFF000000 0x64000000 (.vld (fD w) (fA w) (w.extractLsb' 0 14))
  | 0x65 => row w 0xFF000000 0x65000000 (.vst (fD w) (fA w) (w.extractLsb' 0 14))
  | 0x66 => row w 0xFF000000 0x66000000 (.vlds (fD w) (fA w) (fB w) (w.extractLsb' 5 4) (w.extractLsb' 3 2) (w.extractLsb' 0 3))
  | 0x67 => row w 0xFF000018 0x67000000 (.vsts (fD w) (fA w) (fB w) (w.extractLsb' 5 4) (w.extractLsb' 0 3))
  | 0x68 => row w 0xFF000000 0x68000000 (.vgth (fD w) (fA w) (fB w) (w.extractLsb' 5 4) (w.extractLsb' 3 2) (w.extractLsb' 0 3))
  | 0x69 => row w 0xFF000018 0x69000000 (.vsct (fD w) (fA w) (fB w) (w.extractLsb' 5 4) (w.extractLsb' 0 3))
  | 0x6A =>
    row w 0xFFF80000 0x6A000000 (.prfL2 (fA w) (w.extractLsb' 0 14)) <|>
    row w 0xFFF80000 0x6A080000 (.prfL1 (fA w) (w.extractLsb' 0 14))
  | 0x6B => row w 0xFFF80000 0x6B000000 (.cfl (fA w) (w.extractLsb' 0 14))
  | 0x6C =>
    row w 0xFFF80000 0x6C000000 (.cinvD (fA w) (w.extractLsb' 0 14)) <|>
    row w 0xFFF80000 0x6C080000 (.cinvI (fA w) (w.extractLsb' 0 14)) <|>
    row w 0xFFF80000 0x6C100000 (.cinvDi (fA w) (w.extractLsb' 0 14))
  | 0x6D => row w 0xFF000000 0x6D000000 (.stm (fD w) (fA w) (w.extractLsb' 0 14))
  | 0x78 => row w 0xFF003E00 0x78000000 (.ldaq (fD w) (fA w) (w.extractLsb' 6 3) (w.extractLsb' 3 3) (w.extractLsb' 0 3))
  | 0x79 => row w 0xFF003E00 0x79000000 (.strl (fD w) (fA w) (w.extractLsb' 6 3) (w.extractLsb' 3 3) (w.extractLsb' 0 3))
  | 0x7A => row w 0xFFFFFE07 0x7A000000 (.fence (w.extractLsb' 6 3) (w.extractLsb' 3 3))
  | 0x7B => row w 0xFF000000 0x7B000000 (.amoadd (fD w) (fA w) (fB w) (w.extractLsb' 6 3) (w.extractLsb' 3 3) (w.extractLsb' 0 3))
  | 0x7C => row w 0xFF000000 0x7C000000 (.amoswp (fD w) (fA w) (fB w) (w.extractLsb' 6 3) (w.extractLsb' 3 3) (w.extractLsb' 0 3))
  | 0x7D => row w 0xFF000000 0x7D000000 (.amocas (fD w) (fA w) (fB w) (w.extractLsb' 6 3) (w.extractLsb' 3 3) (w.extractLsb' 0 3))
  | 0x7E => row w 0xFF000000 0x7E000000 (.amomin (fD w) (fA w) (fB w) (w.extractLsb' 6 3) (w.extractLsb' 3 3) (w.extractLsb' 0 3))
  | 0x7F => row w 0xFF000000 0x7F000000 (.amomax (fD w) (fA w) (fB w) (w.extractLsb' 6 3) (w.extractLsb' 3 3) (w.extractLsb' 0 3))
  | 0x80 => row w 0xFF000000 0x80000000 (.amoand (fD w) (fA w) (fB w) (w.extractLsb' 6 3) (w.extractLsb' 3 3) (w.extractLsb' 0 3))
  | 0x81 => row w 0xFF000000 0x81000000 (.amoor (fD w) (fA w) (fB w) (w.extractLsb' 6 3) (w.extractLsb' 3 3) (w.extractLsb' 0 3))
  | 0x82 => row w 0xFF000000 0x82000000 (.amoxor (fD w) (fA w) (fB w) (w.extractLsb' 6 3) (w.extractLsb' 3 3) (w.extractLsb' 0 3))
  | 0x83 => row w 0xFF000000 0x83000000 (.red (fD w) (fA w) (fB w) (w.extractLsb' 6 3) (w.extractLsb' 3 3) (w.extractLsb' 0 3))
  | 0x88 => row w 0xFF000000 0x88000000 (.vcvt (fD w) (fA w) (fB w) (w.extractLsb' 5 4) (w.extractLsb' 3 2) (w.extractLsb' 0 3))
  | 0x89 => row w 0xFF000000 0x89000000 (.vpack (fD w) (fA w) (fB w) (w.extractLsb' 5 4) (w.extractLsb' 3 2) (w.extractLsb' 0 3))
  | 0x8A => row w 0xFF000000 0x8A000000 (.vunpk (fD w) (fA w) (w.extractLsb' 13 1) (w.extractLsb' 9 4) (w.extractLsb' 5 4) (w.extractLsb' 3 2) (w.extractLsb' 0 3))
  | 0x8B => row w 0xFF000000 0x8B000000 (.vscl (fD w) (fA w) (fB w) (w.extractLsb' 5 4) (w.extractLsb' 3 2) (w.extractLsb' 0 3))
  | 0x8C =>
    row w 0xFF003E18 0x8C000000 (.vclsExp (fD w) (fA w) (w.extractLsb' 5 4) (w.extractLsb' 0 3)) <|>
    row w 0xFF003E18 0x8C000200 (.vclsCls (fD w) (fA w) (w.extractLsb' 5 4) (w.extractLsb' 0 3))
  | 0x8D =>
    row w 0xFF003FF8 0x8D0000E0 (.vtriD2 (fD w) (fA w) (w.extractLsb' 0 3)) <|>
    row w 0xFF003FF8 0x8D0002E0 (.vtriD5 (fD w) (fA w) (w.extractLsb' 0 3)) <|>
    row w 0xFF003FF8 0x8D0004E0 (.vtriE2 (fD w) (fA w) (w.extractLsb' 0 3)) <|>
    row w 0xFF003FF8 0x8D0006E0 (.vtriE5 (fD w) (fA w) (w.extractLsb' 0 3))
  | 0x90 => row w 0xFF000000 0x90000000 (.vadd (fD w) (fA w) (fB w) (w.extractLsb' 5 4) (w.extractLsb' 3 2) (w.extractLsb' 0 3))
  | 0x91 => row w 0xFF000000 0x91000000 (.vsub (fD w) (fA w) (fB w) (w.extractLsb' 5 4) (w.extractLsb' 3 2) (w.extractLsb' 0 3))
  | 0x92 => row w 0xFF000000 0x92000000 (.vmul (fD w) (fA w) (fB w) (w.extractLsb' 5 4) (w.extractLsb' 3 2) (w.extractLsb' 0 3))
  | 0x93 => row w 0xFF000000 0x93000000 (.vfma (fD w) (fA w) (fB w) (w.extractLsb' 5 4) (w.extractLsb' 3 2) (w.extractLsb' 0 3))
  | 0x94 => row w 0xFF000000 0x94000000 (.vfms (fD w) (fA w) (fB w) (w.extractLsb' 5 4) (w.extractLsb' 3 2) (w.extractLsb' 0 3))
  | 0x95 => row w 0xFF000018 0x95000000 (.vmin (fD w) (fA w) (fB w) (w.extractLsb' 5 4) (w.extractLsb' 0 3))
  | 0x96 => row w 0xFF000018 0x96000000 (.vmax (fD w) (fA w) (fB w) (w.extractLsb' 5 4) (w.extractLsb' 0 3))
  | 0x97 => row w 0xFF003E18 0x97000000 (.vabs (fD w) (fA w) (w.extractLsb' 5 4) (w.extractLsb' 0 3))
  | 0x98 => row w 0xFF003E18 0x98000000 (.vneg (fD w) (fA w) (w.extractLsb' 5 4) (w.extractLsb' 0 3))
  | 0x99 => row w 0xFF003E00 0x99000000 (.vrcp (fD w) (fA w) (w.extractLsb' 5 4) (w.extractLsb' 3 2) (w.extractLsb' 0 3))
  | 0x9A => row w 0xFF003E00 0x9A000000 (.vrsq (fD w) (fA w) (w.extractLsb' 5 4) (w.extractLsb' 3 2) (w.extractLsb' 0 3))
  | 0x9B => row w 0xFF003E00 0x9B000000 (.vexp2 (fD w) (fA w) (w.extractLsb' 5 4) (w.extractLsb' 3 2) (w.extractLsb' 0 3))
  | 0x9C => row w 0xFF003E00 0x9C000000 (.vlog2 (fD w) (fA w) (w.extractLsb' 5 4) (w.extractLsb' 3 2) (w.extractLsb' 0 3))
  | 0x9D => row w 0xFF000018 0x9D000000 (.vcmp (fD w) (fA w) (fB w) (w.extractLsb' 5 4) (w.extractLsb' 0 3))
  | 0x9E => row w 0xFF000018 0x9E000000 (.vsel (fD w) (fA w) (fB w) (w.extractLsb' 5 4) (w.extractLsb' 0 3))
  | 0x9F => row w 0xFF000018 0x9F000000 (.vand (fD w) (fA w) (fB w) (w.extractLsb' 5 4) (w.extractLsb' 0 3))
  | 0xA0 => row w 0xFF000018 0xA0000000 (.vor (fD w) (fA w) (fB w) (w.extractLsb' 5 4) (w.extractLsb' 0 3))
  | 0xA1 => row w 0xFF000018 0xA1000000 (.vxor (fD w) (fA w) (fB w) (w.extractLsb' 5 4) (w.extractLsb' 0 3))
  | 0xA2 => row w 0xFF000018 0xA2000000 (.vshl (fD w) (fA w) (fB w) (w.extractLsb' 5 4) (w.extractLsb' 0 3))
  | 0xA3 => row w 0xFF000018 0xA3000000 (.vshr (fD w) (fA w) (fB w) (w.extractLsb' 5 4) (w.extractLsb' 0 3))
  | 0xA4 => row w 0xFF000018 0xA4000000 (.vsra (fD w) (fA w) (fB w) (w.extractLsb' 5 4) (w.extractLsb' 0 3))
  | 0xA5 => row w 0xFF000018 0xA5000000 (.vperm (fD w) (fA w) (fB w) (w.extractLsb' 5 4) (w.extractLsb' 0 3))
  | 0xA6 => row w 0xFF000000 0xA6000000 (.vbcst (fD w) (w.extractLsb' 16 3) (w.extractLsb' 0 16))
  | 0xA7 => row w 0xFF000000 0xA7000000 (.vaddi (fD w) (w.extractLsb' 16 3) (w.extractLsb' 0 16))
  | 0xA8 => row w 0xFF000000 0xA8000000 (.vmuli (fD w) (w.extractLsb' 16 3) (w.extractLsb' 0 16))
  | 0xA9 => row w 0xFF00001F 0xA9000000 (.vmvs (fD w) (fA w) (fB w) (w.extractLsb' 5 4))
  | 0xAA => row w 0xFF00001F 0xAA000000 (.vmsv (fD w) (fA w) (fB w) (w.extractLsb' 5 4))
  | 0xAB => row w 0xFF000000 0xAB000000 (.vred (fD w) (fA w) (fB w) (w.extractLsb' 5 4) (w.extractLsb' 3 2) (w.extractLsb' 0 3))
  | 0xAC => row w 0xFF000000 0xAC000000 (.vscan (fD w) (fA w) (fB w) (w.extractLsb' 5 4) (w.extractLsb' 3 2) (w.extractLsb' 0 3))
  | 0xAD => row w 0xFF000018 0xAD000000 (.vpopc (fD w) (fA w) (fB w) (w.extractLsb' 5 4) (w.extractLsb' 0 3))
  | 0xAE => row w 0xFF003E18 0xAE000000 (.vcmpr (fD w) (fA w) (w.extractLsb' 5 4) (w.extractLsb' 0 3))
  | 0xAF => row w 0xFF003E18 0xAF000000 (.vxpnd (fD w) (fA w) (w.extractLsb' 5 4) (w.extractLsb' 0 3))
  | 0xB0 => row w 0xFF000018 0xB0000000 (.vdot (fD w) (fA w) (fB w) (w.extractLsb' 5 4) (w.extractLsb' 0 3))
  | 0xB1 => row w 0xFF0001FF 0xB1000000 (.mand (fD w) (fA w) (fB w))
  | 0xB2 => row w 0xFF0001FF 0xB2000000 (.mor (fD w) (fA w) (fB w))
  | 0xB3 => row w 0xFF003FFF 0xB3000000 (.mnot (fD w) (fA w))
  | 0xC2 => row w 0xFF0001DF 0xC2000000 (.tacq (fD w) (fA w) (fB w) (w.extractLsb' 5 1))
  | 0xC3 => row w 0xFF003FFF 0xC3000000 (.trel (fD w) (fA w))
  | 0xC4 => row w 0xFF07FFFF 0xC4000000 (.tzro (fD w))
  | 0xC5 => row w 0xFF00000C 0xC5000000 (.tmma (w.extractLsb' 20 4) (w.extractLsb' 16 4) (w.extractLsb' 13 3) (w.extractLsb' 8 5) (w.extractLsb' 4 4) (w.extractLsb' 1 1) (w.extractLsb' 0 1))
  | 0xC6 => row w 0xFF00000C 0xC6000000 (.tmmt (w.extractLsb' 20 4) (w.extractLsb' 16 4) (w.extractLsb' 13 3) (w.extractLsb' 8 5) (w.extractLsb' 4 4) (w.extractLsb' 1 1) (w.extractLsb' 0 1))
  | 0xC7 => row w 0xFF0000FF 0xC7000000 (.tlda (fD w) (fA w) (fB w) (w.extractLsb' 8 1))
  | 0xC8 => row w 0xFF000020 0xC8000000 (.tsta (fD w) (fA w) (fB w) (w.extractLsb' 8 1) (w.extractLsb' 6 2) (w.extractLsb' 4 1) (w.extractLsb' 0 4))
  | 0xC9 => row w 0xFF0001FF 0xC9000000 (.tgeo (fD w) (fA w) (fB w))
  | 0xCA => row w 0xFF0001FF 0xCA000000 (.bsum (fD w) (fA w) (fB w))
  | 0xCB => row w 0xFF0001FF 0xCB000000 (.bacc (fD w) (fA w) (fB w))
  | 0xD0 => row w 0xFF0001BE 0xD0000000 (.spmma (fD w) (fA w) (fB w) (w.extractLsb' 6 1) (w.extractLsb' 0 1))
  | 0xD1 => row w 0xFF0001FF 0xD1000000 (.sppre (fD w) (fA w) (fB w))
  | 0xD2 =>
    row w 0xFF0001FF 0xD2000000 (.spinvOne (fD w) (fA w) (fB w)) <|>
    row w 0xFF07FFFF 0xD2000001 (.spinvAll (fD w))
  | 0xD3 => row w 0xFF0001FF 0xD3000000 (.spqry (fD w) (fA w) (fB w))
  | 0xD4 =>
    row w 0xFF003FFF 0xD4000000 (.mrgcStat (fD w) (fA w)) <|>
    row w 0xFF003FFF 0xD4000001 (.mrgcClr (fD w) (fA w))
  | 0xD5 =>
    row w 0xFF0001FF 0xD5000000 (.mzkey (fD w) (fA w) (fB w)) <|>
    row w 0xFF003FFF 0xD5000001 (.mzkeyInv (fD w) (fA w))
  | 0xD8 => row w 0xFF0001DF 0xD8000000 (.cpy (fD w) (fA w) (fB w) (w.extractLsb' 5 1))
  | 0xD9 => row w 0xFF0001FF 0xD9000000 (.cpym (fD w) (fA w) (fB w))
  | 0xDA => row w 0xFF003FFF 0xDA000000 (.tffr (fD w) (fA w))
  | 0xDB => row w 0xFF003FFF 0xDB000000 (.wany (fD w) (fA w))
  | 0xDC => row w 0xFF003FFF 0xDC000000 (.wall (fD w) (fA w))
  | 0xDD => row w 0xFF0001DF 0xDD000000 (.aexp (fD w) (fA w) (fB w) (w.extractLsb' 5 1))
  | 0xDE => row w 0xFF0001DF 0xDE000000 (.arrv (fD w) (fA w) (fB w) (w.extractLsb' 5 1))
  | 0xDF =>
    row w 0xFF0001DF 0xDF000000 (.wphsWait (fD w) (fA w) (fB w) (w.extractLsb' 5 1)) <|>
    row w 0xFF0001DF 0xDF000001 (.wphsTest (fD w) (fA w) (fB w) (w.extractLsb' 5 1))
  | 0xE0 => row w 0xFF003FFF 0xE0000000 (.bjoin (fD w) (fA w))
  | 0xE1 => row w 0xFF003FFF 0xE1000000 (.bleav (fD w) (fA w))
  | 0xE8 => row w 0xFF070000 0xE8010000 (.mfs (fD w) (w.extractLsb' 0 16))
  | 0xE9 => row w 0xFF070000 0xE9010000 (mtsRow (fD w) (w.extractLsb' 0 16))
  | 0xEA => row w 0xFFFF0000 0xEA010000 (.sysc (w.extractLsb' 0 16))
  | 0xEB => row w 0xFFFF0000 0xEB010000 (.brk (w.extractLsb' 0 16))
  | 0xEC => row w 0xFF0001FF 0xEC000000 (.tlbf (fD w) (fA w) (fB w))
  | 0xED => row w 0xFF003FFF 0xED000000 (.tlbiVa (fD w) (fA w)) <|> row w 0xFF07FFFF 0xED000001 (.tlbiPart (fD w))
  | 0xEE => row w 0xFF003FF8 0xEE000000 (.mbxr (fD w) (fA w) (w.extractLsb' 2 1) (w.extractLsb' 0 2))
  | 0xEF =>
    row w 0xFF0001FF 0xEF000000 (.mbxsFrep (fD w) (fA w) (fB w)) <|>
    row w 0xFF0001FF 0xEF000001 (.mbxsCrep (fD w) (fA w) (fB w)) <|>
    row w 0xFF0001FF 0xEF000002 (.mbxsErep (fD w) (fA w) (fB w)) <|>
    row w 0xFF0001FF 0xEF000003 (.mbxsResume (fD w) (fA w) (fB w)) <|>
    row w 0xFF0001FF 0xEF000004 (.mbxsIntr (fD w) (fA w) (fB w)) <|>
    row w 0xFF0001FF 0xEF000005 (.mbxsUser (fD w) (fA w) (fB w))
  | 0xF0 =>
    row w 0xFF003FFF 0xF0000000 (.csaveSave (fD w) (fA w)) <|>
    row w 0xFF003FFF 0xF0000001 (.csaveRest (fD w) (fA w))
  | 0xF1 =>
    row w 0xFF07C1DF 0xF1000000 (.pcnt (fD w) (fB w) (w.extractLsb' 5 1)) <|>
    row w 0xFF0001DF 0xF1000001 (.pcntCtx (fD w) (fA w) (fB w) (w.extractLsb' 5 1))
  | 0x53 => row w 0xFFFFFFFF 0x53000000 .tret
  | 0x5A => row w 0xFFFFFFFF 0x5A000000 .txe
  | 0x5B => row w 0xFFFFFFFF 0x5B000000 .txr
  | 0xC0 => row w 0xFFFFFFFF 0xC0000000 .tlse
  | 0xC1 => row w 0xFFFFFFFF 0xC1000000 .tlrl
  | _ => some (.unassignedOpcode w)

/-- The instruction of a word, or why it is none. -/
def decode (w : IWord) : Except DecodeErr Instr :=
  match decodeRow w with
  | none => .error (.fixedBits w)
  | some i => if i.wellFormed then .ok i else .error (.fieldValue w)

/-- A word from its four bytes, little-endian (R27). -/
def wordOfBytes (a b c d : Byte) : IWord := d ++ c ++ b ++ a

/-- The instruction at the head of a byte string, and the rest of it. -/
def decodeBytes : List Byte → Except DecodeErr (Instr × List Byte)
  | a :: b :: c :: d :: rest => (decode (wordOfBytes a b c d)).map (fun i => (i, rest))
  | _ => .error .short

/-- The words of an instruction, from the encoding tables of the chapters. An event has none. -/
def encode : Instr → List IWord
  | .add d a b i => [0x01#8 ++ d ++ a ++ b ++ 0#3 ++ i ++ 0#5]
  | .sub d a b i => [0x02#8 ++ d ++ a ++ b ++ 0#3 ++ i ++ 0#5]
  | .mul d a b i => [0x03#8 ++ d ++ a ++ b ++ 0#3 ++ i ++ 0#5]
  | .mulh d a b i => [0x04#8 ++ d ++ a ++ b ++ 0#3 ++ i ++ 0#5]
  | .mulhn d a b i => [0x05#8 ++ d ++ a ++ b ++ 0#3 ++ i ++ 0#5]
  | .div d a b i => [0x06#8 ++ d ++ a ++ b ++ 0#3 ++ i ++ 0#5]
  | .divn d a b i => [0x07#8 ++ d ++ a ++ b ++ 0#3 ++ i ++ 0#5]
  | .rem d a b i => [0x08#8 ++ d ++ a ++ b ++ 0#3 ++ i ++ 0#5]
  | .remn d a b i => [0x09#8 ++ d ++ a ++ b ++ 0#3 ++ i ++ 0#5]
  | .and d a b i => [0x0A#8 ++ d ++ a ++ b ++ 0#3 ++ i ++ 0#5]
  | .or d a b i => [0x0B#8 ++ d ++ a ++ b ++ 0#3 ++ i ++ 0#5]
  | .xor d a b i => [0x0C#8 ++ d ++ a ++ b ++ 0#3 ++ i ++ 0#5]
  | .andn d a b i => [0x0D#8 ++ d ++ a ++ b ++ 0#3 ++ i ++ 0#5]
  | .shl d a b i => [0x0E#8 ++ d ++ a ++ b ++ 0#3 ++ i ++ 0#5]
  | .shr d a b i => [0x0F#8 ++ d ++ a ++ b ++ 0#3 ++ i ++ 0#5]
  | .sra d a b i => [0x10#8 ++ d ++ a ++ b ++ 0#3 ++ i ++ 0#5]
  | .rot d a b i => [0x11#8 ++ d ++ a ++ b ++ 0#3 ++ i ++ 0#5]
  | .clz d a => [0x12#8 ++ d ++ a ++ 0#14]
  | .ctz d a => [0x13#8 ++ d ++ a ++ 0#14]
  | .popc d a => [0x14#8 ++ d ++ a ++ 0#14]
  | .min d a b i => [0x15#8 ++ d ++ a ++ b ++ 0#3 ++ i ++ 0#5]
  | .max d a b i => [0x16#8 ++ d ++ a ++ b ++ 0#3 ++ i ++ 0#5]
  | .minn d a b i => [0x17#8 ++ d ++ a ++ b ++ 0#3 ++ i ++ 0#5]
  | .maxn d a b i => [0x18#8 ++ d ++ a ++ b ++ 0#3 ++ i ++ 0#5]
  | .slt d a b i => [0x19#8 ++ d ++ a ++ b ++ 0#3 ++ i ++ 0#5]
  | .sltn d a b i => [0x1A#8 ++ d ++ a ++ b ++ 0#3 ++ i ++ 0#5]
  | .seq d a b i => [0x1B#8 ++ d ++ a ++ b ++ 0#3 ++ i ++ 0#5]
  | .sel d a b i => [0x1C#8 ++ d ++ a ++ b ++ 0#3 ++ i ++ 0#5]
  | .lea d a b s i => [0x1D#8 ++ d ++ a ++ b ++ s ++ i ++ 0#5]
  | .bfx d a b x i w => [0x1E#8 ++ d ++ a ++ b ++ 0#2 ++ x ++ i ++ w]
  | .bfi d a b i w => [0x1F#8 ++ d ++ a ++ b ++ 0#3 ++ i ++ w]
  | .addi d a k => [0x20#8 ++ d ++ a ++ k]
  | .andi d a k => [0x21#8 ++ d ++ a ++ k]
  | .lih d t k => [0x22#8 ++ d ++ t ++ k]
  | .beq a b k => [0x30#8 ++ a ++ b ++ k]
  | .bne a b k => [0x31#8 ++ a ++ b ++ k]
  | .blt a b k => [0x32#8 ++ a ++ b ++ k]
  | .bge a b k => [0x33#8 ++ a ++ b ++ k]
  | .bltn a b k => [0x34#8 ++ a ++ b ++ k]
  | .bgen a b k => [0x35#8 ++ a ++ b ++ k]
  | .jal d k => [0x36#8 ++ d ++ k]
  | .jalr d a k => [0x37#8 ++ d ++ a ++ k]
  | .repf n c d a b => [0x38#8 ++ n ++ c ++ d ++ a ++ b]
  | .spawn d a b i t g => [0x39#8 ++ d ++ a ++ b ++ 0#3 ++ i ++ 0#3 ++ t ++ g]
  | .reap d a b i => [0x3A#8 ++ d ++ a ++ b ++ 0#3 ++ i ++ 0#5]
  | .exit a b i => [0x3B#8 ++ 0#5 ++ a ++ b ++ 0#3 ++ i ++ 0#5]
  | .launch d a b => [0x40#8 ++ d ++ a ++ b ++ 0#9]
  | .done d a b i => [0x41#8 ++ d ++ a ++ b ++ 0#3 ++ i ++ 0#5]
  | .cancel d a => [0x42#8 ++ d ++ a ++ 0#14]
  | .lcntCmp d a => [0x43#8 ++ d ++ a ++ 0#14]
  | .lcntExp d a => [0x43#8 ++ d ++ a ++ 1#14]
  | .lcntSt d a => [0x43#8 ++ d ++ a ++ 2#14]
  | .lwait d a b i => [0x44#8 ++ d ++ a ++ b ++ 0#3 ++ i ++ 0#5]
  | .place d a b => [0x45#8 ++ d ++ a ++ b ++ 0#9]
  | .qbind d a b k => [0x48#8 ++ d ++ a ++ b ++ 0#4 ++ k]
  | .qunb d a => [0x49#8 ++ d ++ a ++ 0#14]
  | .qtry d a b => [0x4A#8 ++ d ++ a ++ b ++ 0#9]
  | .qpeek d a b => [0x4B#8 ++ d ++ a ++ b ++ 0#9]
  | .qawn d a b => [0x4C#8 ++ d ++ a ++ b ++ 32#9]
  | .qlen d a => [0x4D#8 ++ d ++ a ++ 0#14]
  | .qend d a => [0x4E#8 ++ d ++ a ++ 0#14]
  | .rres d a b i => [0x4F#8 ++ d ++ a ++ b ++ 0#3 ++ i ++ 0#5]
  | .rpub d a b w => [0x50#8 ++ d ++ a ++ b ++ 0#8 ++ w]
  | .rcurGet d a => [0x51#8 ++ d ++ a ++ 0#14]
  | .rcurSkip d a b => [0x51#8 ++ d ++ a ++ b ++ 1#9]
  | .tokh d k => [0x52#8 ++ d ++ k]
  | .txb k => [0x58#8 ++ 0#5 ++ k]
  | .txo k => [0x59#8 ++ 0#5 ++ k]
  | .txa k => [0x5C#8 ++ 1#8 ++ k]
  | .watch a k => [0x5D#8 ++ 0#5 ++ a ++ k]
  | .ld d a k => [0x60#8 ++ d ++ a ++ k]
  | .st d a k => [0x61#8 ++ d ++ a ++ k]
  | .ldx d a b t h => [0x62#8 ++ d ++ a ++ b ++ t ++ h ++ 0#3]
  | .stx d a b t => [0x63#8 ++ d ++ a ++ b ++ t ++ 0#5]
  | .vld d a k => [0x64#8 ++ d ++ a ++ k]
  | .vst d a k => [0x65#8 ++ d ++ a ++ k]
  | .vlds d a b t h m => [0x66#8 ++ d ++ a ++ b ++ t ++ h ++ m]
  | .vsts d a b t m => [0x67#8 ++ d ++ a ++ b ++ t ++ 0#2 ++ m]
  | .vgth d a b t h m => [0x68#8 ++ d ++ a ++ b ++ t ++ h ++ m]
  | .vsct d a b t m => [0x69#8 ++ d ++ a ++ b ++ t ++ 0#2 ++ m]
  | .prfL2 a k => [0x6A#8 ++ 0#5 ++ a ++ k]
  | .prfL1 a k => [0x6A#8 ++ 1#5 ++ a ++ k]
  | .cfl a k => [0x6B#8 ++ 0#5 ++ a ++ k]
  | .cinvD a k => [0x6C#8 ++ 0#5 ++ a ++ k]
  | .cinvI a k => [0x6C#8 ++ 1#5 ++ a ++ k]
  | .cinvDi a k => [0x6C#8 ++ 2#5 ++ a ++ k]
  | .stm d a k => [0x6D#8 ++ d ++ a ++ k]
  | .ldaq d a s o w => [0x78#8 ++ d ++ a ++ 0#5 ++ s ++ o ++ w]
  | .strl d a s o w => [0x79#8 ++ d ++ a ++ 0#5 ++ s ++ o ++ w]
  | .fence s o => [0x7A#8 ++ 0#15 ++ s ++ o ++ 0#3]
  | .amoadd d a b s o w => [0x7B#8 ++ d ++ a ++ b ++ s ++ o ++ w]
  | .amoswp d a b s o w => [0x7C#8 ++ d ++ a ++ b ++ s ++ o ++ w]
  | .amocas d a b s o w => [0x7D#8 ++ d ++ a ++ b ++ s ++ o ++ w]
  | .amomin d a b s o w => [0x7E#8 ++ d ++ a ++ b ++ s ++ o ++ w]
  | .amomax d a b s o w => [0x7F#8 ++ d ++ a ++ b ++ s ++ o ++ w]
  | .amoand d a b s o w => [0x80#8 ++ d ++ a ++ b ++ s ++ o ++ w]
  | .amoor d a b s o w => [0x81#8 ++ d ++ a ++ b ++ s ++ o ++ w]
  | .amoxor d a b s o w => [0x82#8 ++ d ++ a ++ b ++ s ++ o ++ w]
  | .red p a b s o w => [0x83#8 ++ p ++ a ++ b ++ s ++ o ++ w]
  | .migrantLand _ => []
  | .migrantRecall _ => []
  | .migrantKill _ => []
  | .vcvt d a b t r m => [0x88#8 ++ d ++ a ++ b ++ t ++ r ++ m]
  | .vpack d a b t r m => [0x89#8 ++ d ++ a ++ b ++ t ++ r ++ m]
  | .vunpk d a h s t r m => [0x8A#8 ++ d ++ a ++ h ++ s ++ t ++ r ++ m]
  | .vscl d a b t r m => [0x8B#8 ++ d ++ a ++ b ++ t ++ r ++ m]
  | .vclsExp d a t m => [0x8C#8 ++ d ++ a ++ 0#5 ++ t ++ 0#2 ++ m]
  | .vclsCls d a t m => [0x8C#8 ++ d ++ a ++ 1#5 ++ t ++ 0#2 ++ m]
  | .vtriD2 d a m => [0x8D#8 ++ d ++ a ++ 28#11 ++ m]
  | .vtriD5 d a m => [0x8D#8 ++ d ++ a ++ 92#11 ++ m]
  | .vtriE2 d a m => [0x8D#8 ++ d ++ a ++ 156#11 ++ m]
  | .vtriE5 d a m => [0x8D#8 ++ d ++ a ++ 220#11 ++ m]
  | .vadd d a b t r m => [0x90#8 ++ d ++ a ++ b ++ t ++ r ++ m]
  | .vsub d a b t r m => [0x91#8 ++ d ++ a ++ b ++ t ++ r ++ m]
  | .vmul d a b t r m => [0x92#8 ++ d ++ a ++ b ++ t ++ r ++ m]
  | .vfma d a b t r m => [0x93#8 ++ d ++ a ++ b ++ t ++ r ++ m]
  | .vfms d a b t r m => [0x94#8 ++ d ++ a ++ b ++ t ++ r ++ m]
  | .vmin d a b t m => [0x95#8 ++ d ++ a ++ b ++ t ++ 0#2 ++ m]
  | .vmax d a b t m => [0x96#8 ++ d ++ a ++ b ++ t ++ 0#2 ++ m]
  | .vabs d a t m => [0x97#8 ++ d ++ a ++ 0#5 ++ t ++ 0#2 ++ m]
  | .vneg d a t m => [0x98#8 ++ d ++ a ++ 0#5 ++ t ++ 0#2 ++ m]
  | .vrcp d a t r m => [0x99#8 ++ d ++ a ++ 0#5 ++ t ++ r ++ m]
  | .vrsq d a t r m => [0x9A#8 ++ d ++ a ++ 0#5 ++ t ++ r ++ m]
  | .vexp2 d a t r m => [0x9B#8 ++ d ++ a ++ 0#5 ++ t ++ r ++ m]
  | .vlog2 d a t r m => [0x9C#8 ++ d ++ a ++ 0#5 ++ t ++ r ++ m]
  | .vcmp d a b t m => [0x9D#8 ++ d ++ a ++ b ++ t ++ 0#2 ++ m]
  | .vsel d a b t m => [0x9E#8 ++ d ++ a ++ b ++ t ++ 0#2 ++ m]
  | .vand d a b t m => [0x9F#8 ++ d ++ a ++ b ++ t ++ 0#2 ++ m]
  | .vor d a b t m => [0xA0#8 ++ d ++ a ++ b ++ t ++ 0#2 ++ m]
  | .vxor d a b t m => [0xA1#8 ++ d ++ a ++ b ++ t ++ 0#2 ++ m]
  | .vshl d a b t m => [0xA2#8 ++ d ++ a ++ b ++ t ++ 0#2 ++ m]
  | .vshr d a b t m => [0xA3#8 ++ d ++ a ++ b ++ t ++ 0#2 ++ m]
  | .vsra d a b t m => [0xA4#8 ++ d ++ a ++ b ++ t ++ 0#2 ++ m]
  | .vperm d a b t m => [0xA5#8 ++ d ++ a ++ b ++ t ++ 0#2 ++ m]
  | .vbcst d t k => [0xA6#8 ++ d ++ t ++ k]
  | .vaddi d t k => [0xA7#8 ++ d ++ t ++ k]
  | .vmuli d t k => [0xA8#8 ++ d ++ t ++ k]
  | .vmvs d a b t => [0xA9#8 ++ d ++ a ++ b ++ t ++ 0#5]
  | .vmsv d a b t => [0xAA#8 ++ d ++ a ++ b ++ t ++ 0#5]
  | .vred d a p t r m => [0xAB#8 ++ d ++ a ++ p ++ t ++ r ++ m]
  | .vscan d a p t r m => [0xAC#8 ++ d ++ a ++ p ++ t ++ r ++ m]
  | .vpopc d a b t m => [0xAD#8 ++ d ++ a ++ b ++ t ++ 0#2 ++ m]
  | .vcmpr d a t m => [0xAE#8 ++ d ++ a ++ 0#5 ++ t ++ 0#2 ++ m]
  | .vxpnd d a t m => [0xAF#8 ++ d ++ a ++ 0#5 ++ t ++ 0#2 ++ m]
  | .vdot d a b t m => [0xB0#8 ++ d ++ a ++ b ++ t ++ 0#2 ++ m]
  | .mand d a b => [0xB1#8 ++ d ++ a ++ b ++ 0#9]
  | .mor d a b => [0xB2#8 ++ d ++ a ++ b ++ 0#9]
  | .mnot d a => [0xB3#8 ++ d ++ a ++ 0#14]
  | .tacq d a b i => [0xC2#8 ++ d ++ a ++ b ++ 0#3 ++ i ++ 0#5]
  | .trel d a => [0xC3#8 ++ d ++ a ++ 0#14]
  | .tzro d => [0xC4#8 ++ d ++ 0#19]
  | .tmma a b c n f y x => [0xC5#8 ++ a ++ b ++ c ++ n ++ f ++ 0#2 ++ y ++ x]
  | .tmmt a b c n f y x => [0xC6#8 ++ a ++ b ++ c ++ n ++ f ++ 0#2 ++ y ++ x]
  | .tlda d a b x => [0xC7#8 ++ d ++ a ++ b ++ x ++ 0#8]
  | .tsta d a b x r i t => [0xC8#8 ++ d ++ a ++ b ++ x ++ r ++ 0#1 ++ i ++ t]
  | .tgeo d a b => [0xC9#8 ++ d ++ a ++ b ++ 0#9]
  | .bsum d a b => [0xCA#8 ++ d ++ a ++ b ++ 0#9]
  | .bacc d a b => [0xCB#8 ++ d ++ a ++ b ++ 0#9]
  | .tileStaging _ => []
  | .tileCommandComplete _ => []
  | .leaseRearbitration _ => []
  | .spmma d a b f p => [0xD0#8 ++ d ++ a ++ b ++ 0#2 ++ f ++ 0#5 ++ p]
  | .sppre d a b => [0xD1#8 ++ d ++ a ++ b ++ 0#9]
  | .spinvOne d a b => [0xD2#8 ++ d ++ a ++ b ++ 0#9]
  | .spinvAll d => [0xD2#8 ++ d ++ 1#19]
  | .spqry d a b => [0xD3#8 ++ d ++ a ++ b ++ 0#9]
  | .mrgcStat d a => [0xD4#8 ++ d ++ a ++ 0#14]
  | .mrgcClr d a => [0xD4#8 ++ d ++ a ++ 1#14]
  | .mzkey d a b => [0xD5#8 ++ d ++ a ++ b ++ 0#9]
  | .mzkeyInv d a => [0xD5#8 ++ d ++ a ++ 1#14]
  | .patternCompileStart _ => []
  | .patternCompileEnd _ => []
  | .mergeEmit _ => []
  | .cpy d a b i => [0xD8#8 ++ d ++ a ++ b ++ 0#3 ++ i ++ 0#5]
  | .cpym d a b => [0xD9#8 ++ d ++ a ++ b ++ 0#9]
  | .tffr d a => [0xDA#8 ++ d ++ a ++ 0#14]
  | .wany d a => [0xDB#8 ++ d ++ a ++ 0#14]
  | .wall d a => [0xDC#8 ++ d ++ a ++ 0#14]
  | .aexp d a b i => [0xDD#8 ++ d ++ a ++ b ++ 0#3 ++ i ++ 0#5]
  | .arrv d a b i => [0xDE#8 ++ d ++ a ++ b ++ 0#3 ++ i ++ 0#5]
  | .wphsWait d a b i => [0xDF#8 ++ d ++ a ++ b ++ 0#3 ++ i ++ 0#5]
  | .wphsTest d a b i => [0xDF#8 ++ d ++ a ++ b ++ 0#3 ++ i ++ 1#5]
  | .bjoin d a => [0xE0#8 ++ d ++ a ++ 0#14]
  | .bleav d a => [0xE1#8 ++ d ++ a ++ 0#14]
  | .copyStart _ => []
  | .copyTransfer _ => []
  | .copyComplete _ => []
  | .copyFaultReply _ _ => []
  | .mfs d k => [0xE8#8 ++ d ++ 1#3 ++ k]
  | .mts d k => [0xE9#8 ++ d ++ 1#3 ++ k]
  | .lsplitWrite d => [0xE9#8 ++ d ++ 1#3 ++ 0x80#16]
  | .swzWrite d => [0xE9#8 ++ d ++ 1#3 ++ 0x81#16]
  | .tringWrite d n => [0xE9#8 ++ d ++ 1#3 ++ 4#12 ++ n]
  | .fstatClear d => [0xE9#8 ++ d ++ 1#3 ++ 0x13#16]
  | .svcmapWrite d => [0xE9#8 ++ d ++ 1#3 ++ 0x82#16]
  | .wdogWrite d => [0xE9#8 ++ d ++ 1#3 ++ 0x83#16]
  | .sysc k => [0xEA#8 ++ 1#8 ++ k]
  | .brk k => [0xEB#8 ++ 1#8 ++ k]
  | .tlbf d a b => [0xEC#8 ++ d ++ a ++ b ++ 0#9]
  | .tlbiVa d a => [0xED#8 ++ d ++ a ++ 0#14]
  | .tlbiPart d => [0xED#8 ++ d ++ 1#19]
  | .mbxr d a y x => [0xEE#8 ++ d ++ a ++ 0#11 ++ y ++ x]
  | .mbxsFrep d a b => [0xEF#8 ++ d ++ a ++ b ++ 0#9]
  | .mbxsCrep d a b => [0xEF#8 ++ d ++ a ++ b ++ 1#9]
  | .mbxsErep d a b => [0xEF#8 ++ d ++ a ++ b ++ 2#9]
  | .mbxsResume d a b => [0xEF#8 ++ d ++ a ++ b ++ 3#9]
  | .mbxsIntr d a b => [0xEF#8 ++ d ++ a ++ b ++ 4#9]
  | .mbxsUser d a b => [0xEF#8 ++ d ++ a ++ b ++ 5#9]
  | .mailboxDelivery _ _ => []
  | .csaveSave d a => [0xF0#8 ++ d ++ a ++ 0#14]
  | .csaveRest d a => [0xF0#8 ++ d ++ a ++ 1#14]
  | .pcnt d b i => [0xF1#8 ++ d ++ 0#5 ++ b ++ 0#3 ++ i ++ 0#5]
  | .pcntCtx d a b i => [0xF1#8 ++ d ++ a ++ b ++ 0#3 ++ i ++ 1#5]
  | .strandStart _ => []
  | .strandWake _ => []
  | .changeNotice _ _ => []
  | .faultReply _ _ => []
  | .engineFetchComplete _ _ => []
  | .engineReply _ _ => []
  | .streamReadElement _ _ => []
  | .streamStoreElement _ _ => []
  | .elementArrival _ => []
  | .extensionMove _ => []
  | .creditGrant _ => []
  | .queueEntryTake _ => []
  | .launchReady _ => []
  | .dispatchAttempt _ => []
  | .shareReserve _ => []
  | .cancelNotice _ _ _ => []
  | .budgetPublish _ _ _ => []
  | .droopResponse _ => []
  | .droopEnd _ => []
  | .watchdogExpire _ => []
  | .uncorrectableError _ => []
  | .peerLinkDown _ => []
  | .flitReplay _ => []
  | .ucieEdgeDown _ => []
  | .thermalThrottle _ _ => []
  | .coreClockCycle _ => []
  | .unassignedOpcode w => [w]
  | .tlbEntryDisplaced _ _ _ => []
  | .peerLinkUp _ => []
  | .xmodCopyWrite _ _ _ _ => []
  | .tret => [0x53#8 ++ 0#24]
  | .txe => [0x5A#8 ++ 0#24]
  | .txr => [0x5B#8 ++ 0#24]
  | .tlse => [0xC0#8 ++ 0#24]
  | .tlrl => [0xC1#8 ++ 0#24]
  | .powerGood => []
  | .rdmaWrite => []
  | .rdmaRead => []
  | .invalidRequest => []
  | .partCreate => []
  | .partDestroy => []
  | .partSwap => []
  | .hold => []
  | .unhold => []
  | .qtable => []
  | .attest => []
  | .fwload => []
  | .events => []
  | .peermap => []
  | .clkset => []
  | .thermalShutdown => []
  | .i3cDynamicAddress => []
  | .i3cRead => []
  | .orderlyShutdown => []
  | .commandPortIntr => []

/-- The four bytes of a word, little-endian (R27). -/
def wordBytes (w : IWord) : List Byte :=
  [w.extractLsb' 0 8, w.extractLsb' 8 8, w.extractLsb' 16 8, w.extractLsb' 24 8]

/-- What the decoder reads from an instruction given as the opcode table numbers its bits: one word of 32 bits. -/
def decodeTableWord (nbits w : Nat) : Option Instr :=
  match decodeBytes (wordBytes (BitVec.ofNat 32 (w % 2 ^ nbits))) with
  | .ok (i, _) => some i
  | .error _ => none

end Sys2Proof
end

