-- ==== Sys2Proof/Config.lean ====
section
/-! DEFINITION. What an implementation fixes and what the manual leaves open. A free value is a constant without a
body, applied to a counter of the state, so that no proof can know it (log 6). -/

namespace Sys2Proof.Config

/-- A 64-bit unspecified value (R5). -/
opaque freeWord : Nat → Word

/-- A 32-bit unspecified value: an accumulator element after a tile error (R320, R343). -/
opaque freeElem : Nat → Nat → BitVec 32

/-- The byte at a location whose content is an unspecified value, by the stamp of the event that made it so. -/
opaque freeByte : Nat → Nat → Byte

/-- A choice the device makes among two allowed outcomes. -/
opaque freeBool : Nat → Bool

/-- A choice the device makes among several (which bank is sampled, which entry a fill displaces). -/
opaque freeNat : Nat → Nat

/-- The set of the L1 data cache that a physical line maps to, which the device does not specify (R209): by the
number of sets and the line. -/
opaque l1Set : Nat → Nat → Nat

/-- Mesh hops between a tiller and an L2 slice of the module, whose places on the mesh the manual does not give (R212). -/
opaque sliceHops : Nat → Nat → Nat

/-- The physical address of the top table of a partition's page tables, which Pengal chooses and the manual does not give
(R217). -/
opaque tableRoot : Nat → Nat

/-- Where a partition's extension pool begins in its global space, which Pengal sets (R140): the pool's base, not 0, is 64 times
one more than this number, taken below 2^45. -/
opaque xpoolBase : Nat → Nat

/-- The virtual base at which Pengal maps a queue block into its partition, by partition and block (R93). -/
opaque blockBase : Nat → Nat → Nat

/-- The table that Pengal gives a partition's page tables where they have none, by partition, level and the bits of the virtual
address above it: a number of a 64 KiB page (R93, R217). -/
opaque tablePage : Nat → Nat → Nat → Nat

/-- CAP of a ring of another module, by the ring, which that module knows (R128, R162). -/
opaque peerCap : Nat → Nat

/-- The first bytes of an attestation report: its MAGIC, family and part, whose values the manual does not give (R418). -/
opaque reportHead : List Byte

/-- SHA3-512 of a byte string (R417, R394). -/
opaque sha3 : List Byte → BitVec 512

/-- Does the ML-DSA-87 signature over these bytes verify under the Tvedric public key (R417)? -/
opaque mldsaVerify : List Byte → List Byte → Bool

/-- The ML-DSA-87 signature of these bytes under the module's identity key (R418). -/
opaque mldsaSign : List Byte → List Byte

/-- The security version that a signed image's payload sets as the fused minimum, when it sets one (R417). -/
opaque imageMinimum : List Byte → Option Nat

/-- The stepping code of stepping B0 (R418). -/
def stepping : Nat := 0xB0

end Sys2Proof.Config
end

