-- ==== Sys2Proof/Machine/State.lean ====
section
/-! DEFINITION. The state of one module as plain data (R7 to R26, and the chapter each field cites), and the state after
reset (R419). Contexts, cores, tillers and dies are listed sparsely, by number: an unlisted one is as reset leaves it. -/

namespace Sys2Proof.Machine

/-! ### Locations

Every byte the module holds has one number. Physical memory comes first (R19), then the local SRAM of each tiller
(R9, R202), then the queue SRAM of each core (R15). -/

/-- A byte of a tiller's local SRAM. -/
def locSpad (til off : Nat) : Nat := 2 ^ 50 + til * 2 ^ 20 + off
/-- A byte of a core's queue SRAM, the core by its number in the module. -/
def locQ (core off : Nat) : Nat := 2 ^ 51 + core * 2 ^ 14 + off
/-- The 64-byte line of a location. -/
def lineOf (loc : Nat) : Nat := loc / 64
/-- The tiller whose local SRAM holds the location, if one does. -/
def spadTil (loc : Nat) : Option Nat :=
  if 2 ^ 50 ≤ loc ∧ loc < 2 ^ 50 + 2 ^ 30 then some ((loc - 2 ^ 50) / 2 ^ 20) else none
/-- The core whose queue SRAM holds the location, if one does. -/
def qCore (loc : Nat) : Option Nat :=
  if 2 ^ 51 ≤ loc ∧ loc < 2 ^ 51 + 2 ^ 26 then some ((loc - 2 ^ 51) / 2 ^ 14) else none

/-! ### Contexts -/

/-- The context states of R78. -/
inductive Life where
  | free | starting | running | stopped | migrated | killing | exited | saved
  deriving DecidableEq, Repr

/-- An element of a channel: its awn bit and its data, a scalar in the low 64 bits (R122). -/
structure Elem where
  awn : Bool
  data : VReg
  deriving DecidableEq, Repr

/-- The access kinds of R221. -/
inductive Acc where
  | load | store | fetch | atomic | stm
  deriving DecidableEq, Repr

/-- What a FENCE or CINV drops as it ends: what an acquire at a scope drops (R250, R264), or a line in the L1 or the instruction
cache (R235). -/
inductive Flush where
  | none
  | acquire (scope : Nat)
  | line (l : Nat) (data code : Bool)
  deriving DecidableEq, Repr

/-- Why a context does not issue: a sleep (R165), or one of the holds of R75. -/
inductive Wait where
  /-- It issues. -/
  | none
  /-- A one-instruction transaction sleeps, with its registered keys (R189). -/
  | sleep (cause : Nat) (keys : List Key)
  /-- Asleep after TXR, with the keys of the read set (R185). -/
  | retry (keys : List Key)
  /-- A miss record is with the walker: the access kind, its lane and address, and whether an access of a prefetch
  kind drops a declared fault (R219, R233). -/
  | miss (k : Acc) (lane : Nat) (va : Word) (quiet : Bool)
  /-- A fault message awaits its reply (R221). -/
  | fault (k : Acc) (lane : Nat) (va : Word)
  /-- The mailbox it waits at (R385). -/
  | box (b : Nat)
  /-- A message held for a full box of a core (R382). -/
  | post (core box : Nat)
  /-- STARTING: it becomes ready after this cycle (R78). -/
  | begin_ (at_ : Word)
  /-- The line of its pc is on its way to the instruction cache, until this cycle (R75 cause 9, log 53). -/
  | code (until_ : Word)
  /-- Its store, AMO or arrival is held by the holder of a tiller's token (R180). -/
  | tokenHold (til : Nat)
  /-- Held for CSAVE.save by the drains of R395 (R392). -/
  | drain
  /-- Held by a FENCE, CINV or TLBI (R264, R235, R391): until no earlier access of the context is outstanding, or no load of it,
  or none to a line, and not before a cycle; and what is dropped then. -/
  | order (loads : Bool) (line : Option Nat) (at_ : Word) (flush : Flush)
  /-- An EXIT with its code, or a migration to a tiller, that waits for the strand's earlier accesses (R89, R255). -/
  | ending (code : BitVec 32)
  | moving (til : Nat)
  /-- A MIG strand refused at a landing queue, or in transit (R258). -/
  | ticket
  deriving DecidableEq, Repr

/-- A tentative operation at a channel end (R173). -/
inductive TxOp where
  | deq (e : Nat)
  /-- The element, and the cycle before which no instruction reads it (R68). -/
  | enq (e : Nat) (x : Elem) (due : Word)
  deriving DecidableEq, Repr

/-- A point in an attempt's tentative state (R173, R174, R183). -/
structure TxPoint where
  /-- Bytes of the tiller's own near space, latest first: location and value. -/
  cells : List (Nat × Byte)
  /-- What stores have written: location and number of bytes. The cells of counter operations are not among it. -/
  stores : List (Nat × Nat)
  /-- Elements dequeued and enqueued, in program order. -/
  ops : List TxOp
  /-- The strand's entry for an arrival counter as the attempt leaves it, latest first: the counter's offset, and ARRD
  and APH, or none where it has left (R364). -/
  membs : List (Nat × Option (Bool × Bool))
  deriving DecidableEq, Repr

/-- The transaction buffer and TXST (R166, R167). -/
structure Tx where
  active : Bool
  sole : Bool
  /-- The flag RST. -/
  rst : Bool
  /-- A notice met the holder of the token (R437), or a key that is no line has changed since it was read (R185): a sleep
  after TXR ends at once. -/
  marked : Bool
  txbpc : Word
  fail : Word
  /-- Open alternatives, innermost first: the target and the point of its opening. -/
  alts : List (Word × TxPoint)
  point : TxPoint
  /-- The read set: the keys, in order of entry. -/
  reads : List Key
  /-- The write set's entries, by line or end. -/
  writes : List Key
  nconf : Nat
  cause : Nat
  acode : BitVec 16
  rcnt : Nat
  wcnt : Nat
  deriving DecidableEq, Repr

/-- The repeat-frame buffer and replay index (R44, R45). -/
structure Frame where
  on : Bool
  /-- The REPF that began it ran in a handler (R44, R45). -/
  handler : Bool
  /-- Address of the first captured word. -/
  base : Word
  n : Nat
  count : Nat
  sd : BitVec 4
  sa : BitVec 4
  sb : BitVec 4
  words : List IWord
  k : Nat
  i : Nat
  deriving DecidableEq, Repr

/-- A register that an instruction issued earlier still writes (R56): the cycle from which an instruction that names it may
issue, and the cycle it would be if the instruction's scratchpad access took one wave and met no delay (R75 cause 8).
Registers are numbered s0 to s31, v0 to v15, m0 to m7, and 56 for the flags of FSTAT (R278). -/
structure Due where
  reg : Nat
  at_ : Word
  plain : Word
  deriving DecidableEq, Repr

/-- One hardware context (R15, R78). Its counters 0 to 15, ISSUED and ELIGIBLE stand in `cnt` in that order. -/
structure Ctx where
  life : Life
  s : Vector Word 32
  v : Vector VReg 16
  m : Vector Word 8
  fmt : Word
  scla : Word
  sclb : Word
  pc : Word
  af : Bool
  ef : Bool
  hmode : Bool
  bind : Vector Word 12
  /-- For each end, how many times peer ports had been marked down when it was bound (R414). -/
  boundAt : Vector Nat 12
  handler : Vector (Option Word) 12
  tokv : Word
  tokpc : Word
  tx : Tx
  frame : Frame
  fstat : BitVec 6
  cnt : Vector (BitVec 48) 18
  /-- The launch object latched at SPAWN, zero for none (R104). -/
  lobj : Word
  mig : Bool
  tile : Bool
  gen : BitVec 12
  status : Word
  wait : Wait
  /-- The group of an ORDERED DEAL wire that the strand has open, and groups dealt to it over ends it has unbound
(R142). -/
  group : Option Nat
  owed : List Nat
  /-- A hosting context: the home context of its migrant (R257). -/
  home : Option Nat
  /-- A home context that is MIGRATED or KILLING: the tiller its migrant is at or is sent to (R255). -/
  away : Option Nat
  /-- The landing ticket its migrant holds, 0 for none, and the tiller it was refused at (R258). -/
  ticket : BitVec 32
  refused : Option Nat
  /-- The cycle of the last issue (R69), and the registers still being written (R56). -/
  lastIssue : Option Word
  ready : List Due
  /-- No captured word issues before this cycle: the interval after REPF (R46). -/
  capture : Word
  /-- Cycles slept in this wait without issuing (R402). -/
  slept : Nat
  /-- The next word of a context that is ready, and its address: a context that is ready stays ready (R69). -/
  word : Option (Word × IWord)
  deriving DecidableEq, Repr

/-! ### Cores -/

/-- A translation: the page's base and size in bytes, and the entry of R218. -/
structure TlbEntry where
  va : Nat
  size : Nat
  entry : Word
  deriving DecidableEq, Repr

/-- A message: the header of R383 and its body. -/
structure Msg where
  header : Word
  body : Body
  deriving DecidableEq, Repr

/-- A result that an instruction has sent to an end (R68): an element of a ring by its number, one on its way to a far ring, or one
that the attempt holds, by its place among the tentative operations. -/
inductive Sent where
  | elem (ring seq : Nat)
  | far (ring : Nat)
  | held (op : Nat)
  /-- One on its way to an engine, the merge unit or a store stream, by the end. -/
  | unit (e : Nat)
  deriving DecidableEq, Repr

/-- A wave of a scratchpad access that has not been served (R206): the context, the registers its instruction writes and the results
that it has sent to ends, the cycles at which the lanes of the own scratchpad and the whole result are there, the banks it needs,
and the cycle in which it was first refused (R207). -/
structure Wave where
  cid : Nat
  regs : List Nat
  sent : List Sent
  spad : Word
  at_ : Word
  banks : List Nat
  late : Option Word
  deriving DecidableEq, Repr

/-- An outstanding access of a load-store unit: the context, whether it goes to remote near space or to global space, whether the
L1 serves it, which is no request that R215 counts, whether it is a load's, its line, and when it retires. -/
structure Req where
  cid : Nat
  far : Bool
  hit : Bool
  load : Bool
  line : Nat
  until_ : Word
  deriving DecidableEq, Repr

/-- One core (R12, R13). -/
structure Core where
  /-- The rotation pointer (R70). -/
  rot : BitVec 4
  cycle : Word
  /-- Whether the cycle that CYCLE names has been entered, and whether issue was permitted in it (R70, R404). -/
  ran : Option Bool
  /-- Waves still to be served, oldest first (R206). -/
  waves : List Wave
  /-- Outstanding requests of the load-store unit (R215). -/
  reqs : List Req
  svcmap : BitVec 16
  /-- LIMIT of WDOG (R402). -/
  wdog : BitVec 16
  tags : Word
  tagb : Word
  tage : Word
  itlb : List TlbEntry
  dtlb : List TlbEntry
  /-- The steward, fault and miss boxes, oldest first (R382). -/
  stw : List Msg
  flt : List Msg
  mis : List Msg
  /-- Messages that senders hold for a full box, oldest first, by box number. -/
  held : List (Nat × Msg)
  /-- A trap of context 0 or 15 has halted the core (R381). -/
  halted : Bool
  /-- A halt or a save has stopped the core's user contexts; a save has translated its area, and these are the pieces (R392). -/
  saving : Option (List Nat)
  deriving DecidableEq, Repr

/-! ### Tillers -/

/-- A line of an L1 data cache, as filled (R209), or of an instruction cache (R236). -/
structure CacheLine where
  line : Nat
  data : VReg
  deriving DecidableEq, Repr

/-- An entry of a wake table or of a watch directory: the key, the contexts and the tillers recorded (R191). -/
structure Watcher where
  key : Key
  ctxs : List Nat
  tils : List Nat
  overflow : Bool
  deriving DecidableEq, Repr

/-- An overflow bucket (R193, R194). -/
structure Bucket where
  index : Nat
  ctxs : List Nat
  tils : List Nat
  deriving DecidableEq, Repr

/-- The transaction token and its requests in order (R180). -/
structure Token where
  holder : Option Nat
  queue : List Nat
  deriving DecidableEq, Repr

/-- The state of one fetch of a reference engine (R146, R147). -/
inductive Fetch where
  /-- Accepted while the engine had its 256 fetches outstanding: it begins when one of them returns. -/
  | queued (va : Word)
  /-- Not yet returned: the element's address. -/
  | pending (va : Word)
  /-- Faulted, a reply is awaited. -/
  | faulted (va : Word)
  /-- Returned, with its result. -/
  | done (x : Elem)
  /-- An awn written to the index end. -/
  | mark (x : Elem)
  deriving DecidableEq, Repr

/-- A reference-engine binding (R145): the descriptor, and results in index order. -/
structure RefBind where
  cid : Nat
  /-- The index end, and the result end when it is bound. -/
  idx : Nat
  res : Option Nat
  desc : Nat
  eng : Nat
  base : Word
  rsize : Nat
  fetches : List Fetch
  /-- Values gathered for a packed vector, oldest first. -/
  pack : List Word
  /-- Results ready to read, each with the number of indices it answers. -/
  out : List (Elem × Nat)
  deriving DecidableEq, Repr

/-- A stream binding (R149): the pattern as read at binding, the next element and the awns still due. -/
structure StreamBind where
  cid : Nat
  e : Nat
  desc : Nat
  write : Bool
  awn1 : Bool
  awn2 : Bool
  base : Word
  c0 : Nat
  c1 : Nat
  c2 : Nat
  s0 : Int
  s1 : Int
  s2 : Int
  /-- Elements read, or stored, so far. -/
  pos : Nat
  /-- A read stream's elements read ahead; a store stream's elements not yet stored. -/
  buf : List Elem
  /-- The end-of-stream awn has been put into the buffer. -/
  ended : Bool
  /-- A copy fault awaits its reply. -/
  stalled : Bool
  deriving DecidableEq, Repr

/-- A producer end's credits for one target of its producer block (R129). -/
structure Credit where
  cid : Nat
  e : Nat
  ring : Nat
  held : Nat
  deriving DecidableEq, Repr

/-- A migrant in flight or in a landing queue (R256). -/
structure Migrant where
  home : Nat
  sid : BitVec 32
  flags : BitVec 32
  s : List Word
  pc : Word
  ticket : BitVec 32
  /-- The frame that travels with it when it captures integer words (R88). -/
  frame : Frame
  /-- The context it left, and the tiller of its target. -/
  src : Nat
  target : Nat
  /-- It is sent home by a CSAVE and its home generation increases (R259). -/
  recalled : Bool
  /-- A kill request follows it (R90). -/
  doomed : Bool
  /-- The cycle at which it reaches its target (R256). -/
  due : Word
  deriving DecidableEq, Repr

/-- The landing unit of a tiller (R257, R258): queued migrants and ticket counters; reserved entries are ticket
numbers. -/
structure Landing where
  queue : List Migrant
  arriving : List Migrant
  tnext : BitVec 32
  tserve : BitVec 32
  reserved : List (BitVec 32)
  /-- Tickets of holders that ended before their recall. -/
  skip : List (BitVec 32)
  deriving DecidableEq, Repr

/-! ### Channels

What a ring holds that its control block does not (R130, R134 to R136, R142 to R144). -/

/-- An element in a ring's extension: its index there, and what its hidden tag says (R130). -/
structure ExtElem where
  seq : Nat
  idx : Nat
  x : Elem
  grp : Option Nat
  deriving DecidableEq, Repr

/-- The shape of a channel, as the device has read it from its control block (R126): the slots' location, DEPTH, XBASE, XSIZE
and CFLAGS[4:0]. -/
structure Geometry where
  base : Nat
  depth : Nat
  xbase : Nat
  xsize : Nat
  flags : Nat
  deriving DecidableEq, Repr

/-- The hidden state of one ring, by the location of its control block. -/
structure Ring where
  ring : Nat
  /-- The shape that the ring has had since the device took it up. -/
  geo : Option Geometry
  ext : List ExtElem
  /-- Sequence numbers that the device has published in the window and not freed (R126). -/
  pubd : List Nat
  /-- Results sent to the ring that are not published before a cycle: sequence number and cycle (R68). -/
  soon : List (Nat × Word)
  /-- Sequence numbers reserved and not published: the context, its end and the number (R135). -/
  resv : List (Nat × Nat × Nat)
  /-- Producer ends that wait for credit, or on an XORD ring for their next element to be accepted (R129, R143); and those
that hold no credit, in the order in which they ran out of it. -/
  waiters : List (Nat × Nat)
  dry : List (Nat × Nat)
  /-- The group that an element carries, by sequence number (R142), and the group that it was dealt in (R141). -/
  grps : List (Nat × Nat)
  deals : List (Nat × Nat)
  /-- A target of a DEAL wire (R141). -/
  dealt : Bool
  /-- XORD: the delivery position of the first entry of `order`. -/
  base : Nat
  /-- XORD: the sequence numbers with a fixed place, in delivery order (R144). -/
  order : List Nat
  /-- XORD: elements without a fixed place: sequence number and group. -/
  loose : List (Nat × Nat)
  /-- XORD: the window slots taken: slot and sequence number. -/
  slots : List (Nat × Nat)
  /-- XORD: the contexts of the order-restoring stage's replicas, and those that have ended (R142). -/
  prods : List Nat
  ended : List Nat
  /-- XORD: the replicas whose level-7 awn is held, and the code of the last (R142). -/
  sent7 : List Nat
  code7 : Option (BitVec 32)
  /-- XORD: groups at or above NEXTG that have closed. -/
  closed : List Nat
  deriving DecidableEq, Repr

/-- What travels to a ring on behalf of a producer end. -/
inductive Cargo where
  /-- An element: the strand's open group (R142), the group it was dealt in over a DEAL wire (R141), whether it comes over such
  a wire, and the number that was reserved for it in a ring of another module (R135). -/
  | elem (x : Elem) (grp deal : Option Nat) (dealt : Bool) (seq : Option Nat)
  /-- The replica has closed a group (R142). -/
  | close (g : Nat)
  /-- The replica has ended (R142). -/
  | ended
  deriving DecidableEq, Repr

/-- Cargo under way to a ring, and the cycle before which no instruction reads it there (R68). -/
structure Flight where
  ring : Nat
  cid : Nat
  cargo : Cargo
  due : Word
  deriving DecidableEq, Repr

/-- An element diverted to a spill queue, with the sequence number it has been given (R154). -/
structure Spilled where
  ring : Nat
  seq : Nat
  x : Elem
  grp : Option Nat
  /-- The group that its tag names: its own, or NEXTG at its arrival (R438). -/
  tag : Nat
  deriving DecidableEq, Repr

/-- A result sent to an engine, the merge unit or a store stream that is not there before a cycle (R68). -/
structure Intake where
  cid : Nat
  e : Nat
  x : Elem
  due : Word
  deriving DecidableEq, Repr

/-! ### Tile unit, sparse unit, copies -/

/-- The tile lease (R308): its holder, the commands and the cycle its counts started at, the strands that wait for it in
order, and those of them that lost it to re-arbitration. -/
structure Lease where
  holder : Option Nat
  cmds : Nat
  since : Word
  waiting : List Nat
  lost : List Nat
  deriving DecidableEq, Repr

/-- A staged slot (R317): its ring and sequence number, where it lies, the slot's bytes, the 512-byte blocks of it that are
staged, and those of them in which poison was met. -/
structure Staged where
  ring : Nat
  seq : Nat
  off : Nat
  bytes : List Byte
  held : List Nat
  bad : List Nat
  deriving DecidableEq, Repr

/-- What a tile command does when it completes (R318, R319). Operand bytes are those staged at its issue. -/
inductive TileOp where
  | zero
  | mul (code kv : Nat) (transposed : Bool) (a b : List Byte) (ea eb : List Int) (bad : Bool)
  | load (words : List (BitVec 32)) (bad : Bool)
  /-- The conversion and the address of its store: near offset, pitch, type, rounding, source format, transposition. -/
  | store (off pitch ty rnd : Nat) (int tr : Bool)
  | geom (w : Word)
  /-- A sparse multiply: the format, stored entries by row, column and value, the B slot, the pattern entry held, whether
  poison was met, and whether metadata was still being written (R343). -/
  | sparse (int : Bool) (terms : List (Nat × Nat × Nat)) (b : List Byte) (ent : Nat) (bad loose : Bool)
  | free
  deriving DecidableEq, Repr

/-- A tile command issued and not complete: accumulator, issuing context, its SID and pc (R318, R320). -/
structure TileCmd where
  acc : Nat
  cid : Nat
  sid : BitVec 32
  pc : Word
  op : TileOp
  deriving DecidableEq, Repr

/-- A block that a multiply is to have staged (R317): in the A buffer (0), the B buffer (1) or among the values of a sparse tile
(2), the ring and sequence number of its slot, or the pattern entry and the offset of the first block of values, and the
block. -/
structure Wanted where
  buf : Nat
  ring : Nat
  seq : Nat
  block : Nat
  deriving DecidableEq, Repr

/-- A transfer of the tile port for TLDA or TSTA (R318): the accumulator, whether it loads, and the blocks not begun, each as
the offsets of its 8-byte words. -/
structure TileJob where
  acc : Nat
  load : Bool
  left : List (List Nat)
  deriving DecidableEq, Repr

/-- What is done once a block has moved whole (R208): a block of the oldest job, or the staging of a block for a context's
next instruction. -/
inductive HalfOf where
  | job
  | stage (cid : Nat) (what : Wanted)
  deriving DecidableEq, Repr

/-- The second half of a block that the tile port has begun: the near offsets of its words, and whether the block counts as
staged already, since the staging began while the port was moving (R317, log 22). -/
structure Half where
  words : List Nat
  what : HalfOf
  counted : Bool
  deriving DecidableEq, Repr

/-- A request of the stream port: the copy or the stream end whose bytes it moves, and the words they lie in (R207). -/
structure StreamReq where
  work : Instr
  words : List Nat
  deriving DecidableEq, Repr

/-- States of a pattern-cache entry (R334). -/
inductive PatState where
  | queued | compiling | sparse | dense | bad
  deriving DecidableEq, Repr

/-- An entry of the pattern cache (R334 to R336). -/
structure Pattern where
  ent : Nat
  base : Nat
  index : Nat
  version : BitVec 32
  state : PatState
  /-- Stored entries in Z order: row, column and position of the value. -/
  prog : List (Nat × Nat × Nat)
  /-- Watched lines (R336). -/
  lines : List Nat
  /-- Issued SPMMAs that hold it. -/
  held : Nat
  /-- To be freed when the last of them completes (R336). -/
  dying : Bool
  /-- Order of request, and of last use. -/
  stamp : Nat
  /-- The cycle at which a compilation ends, and what it comes to. -/
  due : Word
  result : PatState
  /-- While it is compiled: the words of scratchpad that the compiler is still to read, one a cycle (R335, log 40). -/
  reads : List Nat
  deriving DecidableEq, Repr

/-- The merge unit (R350 to R352): the descriptor and ends while bound, and its buffers. -/
structure Merge where
  desc : Nat
  cid : Nat
  ina : Option Nat
  inb : Option Nat
  out : Option Nat
  mmode : BitVec 8
  bufa : List Elem
  bufb : List Elem
  bufo : List Elem
  /-- The last index taken from each input within the fibre. -/
  lasta : Option Nat
  lastb : Option Nat
  deriving DecidableEq, Repr

/-- How far a copy has come (R355 to R361). -/
inductive CopyState where
  | queued | running
  /-- Awaits a fault reply: the failing kind, cause and address. -/
  | faulted (kind cause : Nat) (va : Word)
  /-- Every byte sent to another module, whose acknowledgement is awaited (R413). -/
  | sent
  /-- Every byte written, or failed: by a COPYERR code, or 0 for a fault reply. -/
  | landed
  | failed (code : Nat)
  deriving DecidableEq, Repr

/-- Slots that a copy has claimed in a tile ring (R314): the tiller, the ring, the number of the first slot, the ring's
register as it was then, and whether the ring has not been rewritten since (R313). -/
structure Claim where
  til : Nat
  ring : Nat
  first : Nat
  reg : Word
  live : Bool
  deriving DecidableEq, Repr

/-- One destination of a copy: its address, its counter when it credits one, its claim, and whether it has failed (R370). -/
structure Dest where
  va : Word
  ctra : Option Word
  claim : Option Claim
  failed : Bool
  deriving DecidableEq, Repr

/-- A copy in flight (R354). -/
structure Copy where
  id : Nat
  cid : Nat
  sid : BitVec 32
  pc : Word
  tag : Nat
  src : Word
  c0 : Nat
  c1 : Nat
  c2 : Nat
  ss1 : Int
  ss2 : Int
  ds1 : Int
  ds2 : Int
  dring : Bool
  /-- Issued by CPYM. -/
  multi : Bool
  xmod : Option Nat
  dests : List Dest
  state : CopyState
  /-- Bytes moved, in copy order (R356, log 21). -/
  pos : Nat
  /-- The cycle at which the copy may leave the port's queue (log 11). -/
  due : Word
  /-- Destination bytes that hold unspecified values, since they overlap the copy's source or another copy's destination
  (R355): location and length. -/
  loose : List (Nat × Nat)
  /-- What its source held where bytes came to hold unspecified values while it ran: it reads that (R355). -/
  kept : List (Nat × Byte)
  deriving DecidableEq, Repr

/-- A member of an arrival counter (R364). -/
structure Member where
  cid : Nat
  off : Nat
  arrd : Bool
  aph : Bool
  deriving DecidableEq, Repr

/-- Bytes that hold an unspecified value: the range from `lo` up to `hi`, and the stamp of the event that made it so
(R5). -/
structure Span where
  lo : Nat
  hi : Nat
  stamp : Nat
  deriving DecidableEq, Repr

/-- What a reservation takes local SRAM for (R109): the SPAD run and the spawn block of a replica, by its key, channel
storage of the launch, and such storage in the queue SRAM of a core of the tiller. -/
inductive Use where
  | spad (rep : Nat)
  | block (rep : Nat)
  | channel
  | queue (core : Nat)
  deriving DecidableEq, Repr

/-- Local SRAM reserved for a launch: its use, offset and length. -/
structure Grant where
  launch : Nat
  use : Use
  off : Nat
  len : Nat
  deriving DecidableEq, Repr

/-- What a shadow array and a save area hold of a tiller of a partition that is swapped out (R398, log 24). -/
structure Shadow where
  part : Nat
  ctxs : List (Nat × Ctx)
  /-- TAGS, TAGB and TAGE of each core. -/
  tags : List (Nat × Word × Word × Word)
  acc : List (Nat × BitVec 32)
  accFree : List (Nat × Nat)
  geom : Vector Word 8
  holders : List (Nat × Nat)
  owner : Option Nat
  /-- Its strands that lost the tile lease to re-arbitration (R308). -/
  lost : List Nat
  /-- The scratchpad, what of it is unspecified and poisoned; the queue SRAM of each core. -/
  cells : List Host.Cell
  loose : List Span
  poison : List Nat
  queues : List (Nat × List Host.Cell × List Span)
  tring : Vector Word 16
  thead : Vector Nat 16
  landed : List (Nat × Nat)
  members : List Member
  credits : List Credit
  landing : Landing
  merge : Option Merge
  refs : List RefBind
  streams : List StreamBind
  rings : List Ring
  /-- Local SRAM reserved for its launches (R109). -/
  spad : List Grant
  deriving DecidableEq, Repr

/-- One tiller (R9). -/
structure Tiller where
  /-- Its active partition (R397). -/
  part : Option Nat
  l1sz : Nat
  swz : BitVec 16
  /-- L1SZ and SWZ as written, until the accesses of the tiller that are in flight have completed (R203, R205). -/
  newL1 : Option Nat
  newSwz : Option (BitVec 16)
  tring : Vector Word 16
  /-- Slots retired from each tile ring since its register was last written; the register shows the number modulo 256. -/
  thead : Vector Nat 16
  /-- Landed slots, by ring and slot number, that TAIL has not passed yet (R314). -/
  landed : List (Nat × Nat)
  /-- Accumulator elements that are not zero, by 1024 x accumulator + 32 x row + column (R310). -/
  acc : List (Nat × BitVec 32)
  /-- Accumulators whose elements are unspecified, and since which event (R320, R343). -/
  accFree : List (Nat × Nat)
  geom : Vector Word 8
  /-- Accumulator and holding context. -/
  holders : List (Nat × Nat)
  lease : Lease
  /-- The owner of the tile unit (R309). -/
  owner : Option Nat
  stageA : Option Staged
  stageB : Option Staged
  /-- Values of a sparse tile staged for the strand's next SPMMA, by pattern entry (R343). -/
  stageV : Option Staged
  cmds : List TileCmd
  /-- The cycle from which the next TMMA, TMMT or SPMMA issues, and per accumulator the next TSTA (R318, R344). -/
  mulNext : Word
  storeNext : List (Nat × Word)
  /-- Transfers of the tile port, oldest first, and the half block on its way (R208, R318). -/
  jobs : List TileJob
  half : Option Half
  /-- The port has moved something in the last cycle (R317). -/
  moved : Bool
  /-- The cycle in which a request of the tile port was first refused, and that of the stream port (R207). -/
  tileLate : Option Word
  streamReq : Option StreamReq
  streamLate : Option Word
  members : List Member
  pats : List Pattern
  wake : List Watcher
  buckets : List Bucket
  token : Token
  landing : Landing
  stlb : List TlbEntry
  l1 : List CacheLine
  icache : List CacheLine
  merge : Option Merge
  refs : List RefBind
  streams : List StreamBind
  /-- Results on their way to the units, oldest first (R68). -/
  intake : List Intake
  credits : List Credit
  stalerep : BitVec 48
  spcecc : BitVec 48
  spuecc : BitVec 48
  migref : BitVec 48
  wtovf : BitVec 48
  pccomp : BitVec 48
  leasearb : BitVec 48
  hold : Bool
  shadow : Option Shadow
  /-- Local SRAM that the distributor has reserved (R109). -/
  spad : List Grant
  deriving DecidableEq, Repr

/-- One L2 slice's watch directory (R191, R194). -/
structure Directory where
  slice : Nat
  entries : List Watcher
  buckets : List Bucket
  deriving DecidableEq, Repr

/-- One die (R7). -/
structure Die where
  lltlb : List TlbEntry
  budget : BitVec 3
  throt : BitVec 4
  withheld : BitVec 48
  droopev : BitVec 48
  droopcyc : BitVec 48
  throtcyc : BitVec 48
  l2cecc : BitVec 48
  hbmcecc : BitVec 48
  hbmuecc : BitVec 48
  /-- Cycles are being lengthened by the droop response, and for how many cycles so far (R24). -/
  droop : Option Nat
  /-- The setting of CLKSET (R410). -/
  clk : BitVec 4
  deriving DecidableEq, Repr

/-- A partition (R397, R410). -/
structure Part where
  tils : List Nat
  /-- The service cores, by core number in the module. -/
  services : List Nat
  key : BitVec 28
  blocks : List Nat
  xpool : Nat
  /-- Capacity of its spill queue in bytes. -/
  spill : Nat
  deriving DecidableEq, Repr

/-! ### Launches (R96 to R114) -/

/-- A stage entry of R97. -/
structure Stage where
  entry : Word
  minrep : Nat
  maxrep : Nat
  tile : Bool
  dies : List Nat
  spad : Nat
  near : Nat
  fmt : Word
  scla : Word
  sclb : Word
  deriving DecidableEq, Repr

/-- A wire entry of R98: the consumer slots as stage and end. -/
structure Wire where
  pstage : Nat
  pend : Nat
  deal : Bool
  ordered : Bool
  vector : Bool
  depth : Nat
  cons : List (Nat × Nat)
  deriving DecidableEq, Repr

/-- A launch record as the distributor has read it (R96). -/
structure Record where
  prio : Nat
  energy : Nat
  obj : Nat
  graph : Nat
  phase : Nat
  job : Nat
  arg : Word
  stages : List Stage
  wires : List Wire
  deps : List (Nat × Nat)
  deriving DecidableEq, Repr

/-- A replica of a sheaf (R109, R110): where it is to stand and what has become of it. -/
structure Replica where
  stage : Nat
  /-- Its number among those its stage may have. -/
  idx : Nat
  /-- One of the MINREP replicas of its stage. -/
  needed : Bool
  die : Nat
  /-- Its context once its share is taken, and the offset of its spawn block and its SPAD run. -/
  cid : Option Nat
  block : Nat
  run : Nat
  /-- The placement message has been sent; PLACE has come. -/
  sent : Bool
  acked : Bool
  /-- Its context has been reaped, or it will never be placed. -/
  gone : Bool
  deriving DecidableEq, Repr

/-- A channel of a launch wire (R140): the wire, the consumer replica's key for a dealing wire, the location of its control
block, its DEPTH, and the offset of its extension in the partition's pool and the bytes it takes there, for a FAR ring. -/
structure Chan where
  wire : Nat
  key : Nat
  loc : Nat
  depth : Nat
  ext : Option (Nat × Nat)
  deriving DecidableEq, Repr

/-- A producer block of a launch wire (R129): the wire, the replica's key, and its location. -/
structure PBlock where
  wire : Nat
  key : Nat
  loc : Nat
  deriving DecidableEq, Repr

/-- How far a launch has come (R95, R105, R108, R110). -/
inductive Phase where
  | pool | bank | slot | complete
  deriving DecidableEq, Repr

/-- A launch that a distributor holds. -/
structure Launch where
  id : Nat
  part : Nat
  /-- The queue number, which gives the die and the bank (R92, R105). -/
  queue : Nat
  lrec : Nat
  record : Record
  at_ : Phase
  /-- The cycle at which it entered a bank (R105). -/
  since : Word
  /-- Released from its slot to the head of its bank (R112). -/
  front : Bool
  /-- In its slot: spanning, and the dies whose shares are still to be taken, in order. -/
  spanning : Bool
  shares : List Nat
  reps : List Replica
  /-- Channels and producer blocks of its wires. -/
  chans : List Chan
  blocks : List PBlock
  /-- Channel storage is still held. -/
  storage : Bool
  /-- Its replicas are being killed (R113, R121). -/
  doomed : Bool
  deriving DecidableEq, Repr

/-! ### The ports (R407 to R421) -/

/-- The header of a management command (R410): OP, TAG and LEN, the number of bytes that follow it, and whether those are a
body that the command can have. -/
structure SendHeader where
  op : Nat
  tag : Nat
  len : Nat
  body : Nat
  ok : Bool
  deriving DecidableEq, Repr

/-- What a host or a board controller asks, in order of arrival: RDMA operations and SENDs by queue pair, an INTR message
(R384), and what comes over the board bus to an address. A SEND stands under the command that its sender means; one whose
header names another OP, or whose body does not fit, is malformed. -/
inductive Request where
  | write (qp : Nat) (key : BitVec 32) (va : Nat) (data : List Byte)
  | read (qp : Nat) (key : BitVec 32) (va len : Nat)
  | unsupported (qp : Nat)
  | partCreate (qp : Nat) (h : SendHeader) (p : Nat) (part : Part)
  | partDestroy (qp : Nat) (h : SendHeader) (p : Nat)
  | partSwap (qp : Nat) (h : SendHeader) (tils : List Nat)
  | hold (qp : Nat) (h : SendHeader) (til : Nat)
  | unhold (qp : Nat) (h : SendHeader) (til : Nat)
  | qtable (qp : Nat) (h : SendHeader) (p : Nat)
  | attest (qp : Nat) (h : SendHeader) (nonce : List Byte)
  | fwload (qp : Nat) (h : SendHeader) (image : List Byte)
  | events (qp : Nat) (h : SendHeader)
  | peermap (qp : Nat) (h : SendHeader) (own : Nat) (peers : List (Nat × Nat × Nat))
  | clkset (qp : Nat) (h : SendHeader) (die n : Nat)
  | intr (core : Nat) (body : Body)
  | i3cRead (at_ : BitVec 7) (what : Nat)
  | i3cAddress (at_ a : BitVec 7)
  | shutdown (at_ : BitVec 7)
  /-- A producer end of a peer module sends an element to a ring, named as TGT0 names it, under a number that it has reserved
  there or under none (R129, R135, R413). -/
  | peerElement (module ref : Nat) (seq : Option Nat) (x : Elem)
  /-- A producer end of a peer module waits for credit of a ring, returns credits, or reserves numbers (R129, R162, R413). -/
  | peerCredit (module ref k : Nat)
  | peerReturn (module ref n : Nat)
  | peerReserve (module ref k n : Nat)
  deriving DecidableEq, Repr

/-- The queue pair of a request, if it comes over one. -/
def Request.qp : Request → Option Nat
  | .write q _ _ _ => some q
  | .read q _ _ _ => some q
  | .unsupported q => some q
  | .partCreate q _ _ _ => some q
  | .partDestroy q _ _ => some q
  | .partSwap q _ _ => some q
  | .hold q _ _ => some q
  | .unhold q _ _ => some q
  | .qtable q _ _ => some q
  | .attest q _ _ => some q
  | .fwload q _ _ => some q
  | .events q _ => some q
  | .peermap q _ _ _ => some q
  | .clkset q _ _ _ => some q
  | .intr _ _ => none
  | .i3cRead _ _ => none
  | .i3cAddress _ _ => none
  | .shutdown _ => none
  | .peerElement _ _ _ _ => none
  | .peerCredit _ _ _ => none
  | .peerReturn _ _ _ => none
  | .peerReserve _ _ _ _ => none

/-- An event record (R411). -/
structure EventRecord where
  code : Nat
  part : Nat
  cycle : Word
  lost : Nat
  deriving DecidableEq, Repr

/-- What the module has answered, latest last. -/
inductive Answer where
  | ack (qp : Nat)
  | data (qp : Nat) (bytes : List Byte)
  | nakInvalid (qp : Nat)
  | nakAccess (qp : Nat)
  /-- The answer to a command: queue pair, TAG, OP with bit 15 set, STATUS and what it returns (R410). -/
  | status (qp tag op st : Nat) (info : List Nat)
  /-- The answer to ATTEST: queue pair, TAG, OP with bit 15 set, STATUS, the report and its signature (R410, R418). -/
  | report (qp tag op st : Nat) (bytes signature : List Byte)
  /-- An event record: the queue pair and the OP of its SEND (R411). -/
  | event (qp op : Nat) (r : EventRecord)
  | i3c (what : Nat) (value : Word)
  deriving DecidableEq, Repr

/-- What the module sends to another (R413): an element for a ring there, under a number reserved there or none; credits that an
end returns to a ring there; a credit, and numbers reserved, for a producer end of that module; bytes of a copy for an
address there; and on a port, the acknowledgement of a copy that has come from there, or its refusal with a code. -/
inductive PeerMsg where
  | elem (ring : Nat) (seq : Option Nat) (x : Elem)
  | returned (ring n : Nat)
  | credit (module ring k : Nat)
  | reserved (module ring k : Nat) (seq : Option Nat)
  | bytes (module : Nat) (va : Word) (data : List Byte)
  | acked (port copy : Nat)
  | refused (port copy code : Nat)
  deriving DecidableEq, Repr

/-- A copy of another module that writes here: its port and its number there, the partition that it names, the bytes that have
come, where they have landed, and its claim with DRING (R356, R413). -/
structure PeerCopy where
  port : Nat
  id : Nat
  part : Nat
  pos : Nat
  landed : List (Nat × Nat)
  claim : Option Claim
  deriving DecidableEq, Repr

/-- The ports, the package's links and the firmware. -/
structure Port where
  inbox : List Request
  sent : List Answer
  /-- Connections are accepted (R419 step 6). -/
  openPort : Bool
  /-- Queue pairs in the error state (R407). -/
  broken : List Nat
  eventsQp : Option Nat
  events : List EventRecord
  lost : Nat
  /-- The module's own number and its peers: module number, port, Ethernet address (R412). -/
  own : Option Nat
  peers : List (Nat × Nat × Nat)
  /-- What has been sent to other modules, latest last (R413). -/
  peerOut : List PeerMsg
  /-- Copies of other modules that have begun to arrive (R413). -/
  peerCopies : List PeerCopy
  /-- Peer ports marked down, those of them whose link is up again, and each time a port was marked down, latest last (R414). -/
  portsDown : List Nat
  linksUp : List Nat
  failures : List Nat
  /-- Replays in a row of the flit in each edge's retry buffer, and edges marked down (R415). -/
  replays : List (Nat × Nat)
  edgesDown : List Nat
  /-- Stacks that failed to train (R416). -/
  untrained : List Nat
  /-- Security version of the running image, the fused minimum, the accepted image, the staged one (R417). -/
  svn : Nat
  svnMin : Nat
  image : List Byte
  staged : Option (List Byte)
  release : Nat
  /-- The dynamic address on the board bus, and the fault summary by event code (R420). -/
  i3c : Option (BitVec 7)
  faults : List Nat
  /-- A firmware image that is being loaded: queue pair, header, image, and the cycle at which it is staged (R417). -/
  loading : Option (Nat × SendHeader × List Byte × Word)
  /-- A partition swap whose cores are being halted: queue pair, header and tillers (R398). -/
  swap : Option (Nat × SendHeader × List Nat)
  /-- The module has shut down (R421). -/
  down : Bool
  deriving DecidableEq, Repr

/-- What CSAVE.save has written of one core. Its records are device-defined: the area then holds unspecified bytes, and a
restore knows them again by their stamps (R394, log 20). -/
structure Saved where
  part : Nat
  core : Nat
  mask : Nat
  /-- The 4 KiB pieces of the area: location and stamp. -/
  image : List (Nat × Nat)
  ctxs : List (Nat × Ctx)
  /-- The queue SRAM, and what of it was unspecified. -/
  queue : List Host.Cell
  loose : List Span
  tags : Word
  tagb : Word
  tage : Word
  refs : List RefBind
  streams : List StreamBind
  merge : Option Merge
  credits : List Credit
  /-- What the rings of the queue SRAM hold that their blocks do not. -/
  rings : List Ring
  deriving DecidableEq, Repr

/-- The whole machine. -/
structure State where
  mem : List Host.Cell
  unspec : List Span
  /-- Poisoned units by their first location: a 64-byte line of HBM4 or an 8-byte word of scratchpad (R214). -/
  poison : List Nat
  /-- The partition that last wrote a line of package memory, by line (R399). -/
  owners : List (Nat × Nat)
  ctxs : List (Nat × Ctx)
  cores : List (Nat × Core)
  tils : List (Nat × Tiller)
  dies : List (Nat × Die)
  dirs : List Directory
  rings : List Ring
  flights : List Flight
  spills : List (Nat × List Spilled)
  parts : List (Nat × Part)
  copies : List Copy
  /-- Launches that the distributors hold, in order of entry; the numbers given so far (R95, R110). -/
  launches : List Launch
  nextLaunch : Nat
  port : Port
  saves : List Saved
  /-- The context whose instruction the step performs (log 4). -/
  cur : Nat
  /-- The context that issues next (log 4). -/
  issue : Option Nat
  /-- Device steps to be taken before the next issue, in order (log 4). -/
  agenda : List Instr
  /-- The core whose clock cycle comes next (log 4). -/
  clock : Nat
  /-- The counter that free values are drawn by (log 6). -/
  nonce : Nat
  /-- The cycle before which no instruction reads the results that are being sent to ends (R68). -/
  due : Word
  deriving DecidableEq, Repr

/-- Why the machine stops. -/
inductive Fault where
  /-- A step of a module that has shut down (R421). Raised by the step function; safe, since no instruction is
  given an effect it does not have. -/
  | moduleDown
  deriving DecidableEq, Repr

/-- Why the model gives no meaning. -/
inductive Refusal where
  /-- An instruction without a meaning in this model, raised by the dispatcher; safe. -/
  | notModelled (mnemonic : String)
  deriving DecidableEq, Repr

/-! ### Sparse tables -/

/-- The entry of a key in a table sorted by key. -/
def tget {α : Type} : List (Nat × α) → Nat → Option α
  | [], _ => none
  | (k, x) :: r, n => if n = k then some x else tget r n

/-- The table with an entry set. -/
def tset {α : Type} : List (Nat × α) → Nat → α → List (Nat × α)
  | [], n, x => [(n, x)]
  | (k, y) :: r, n, x => if n < k then (n, x) :: (k, y) :: r else if n = k then (n, x) :: r else (k, y) :: tset r n x

/-- The table without an entry. -/
def tdel {α : Type} (l : List (Nat × α)) (n : Nat) : List (Nat × α) := l.filter (fun p => p.1 ≠ n)

/-! ### Reset -/

def TxPoint.empty : TxPoint := { cells := [], stores := [], ops := [], membs := [] }

def Tx.reset : Tx :=
  { active := false, sole := false, rst := false, marked := false, txbpc := 0, fail := 0, alts := []
    point := .empty, reads := [], writes := [], nconf := 0, cause := 0, acode := 0, rcnt := 0, wcnt := 0 }

def Frame.clear : Frame :=
  { on := false, handler := false, base := 0, n := 0, count := 0, sd := 0, sa := 0, sb := 0, words := [], k := 0, i := 0 }

/-- A context as reset leaves it: contexts 0 and 15 run (R78, R419); registers without a reset value are zero
(log 2). -/
def Ctx.reset (cid : Nat) : Ctx :=
  { life := if cid % 16 = 0 ∨ cid % 16 = 15 then .running else .free
    s := Vector.replicate 32 0, v := Vector.replicate 16 0, m := Vector.replicate 8 0
    fmt := 0, scla := 0, sclb := 0, pc := 0, af := false, ef := false, hmode := false
    bind := Vector.replicate 12 0, boundAt := Vector.replicate 12 0, handler := Vector.replicate 12 none, tokv := 0, tokpc := 0
    tx := .reset, frame := .clear, fstat := 0, cnt := Vector.replicate 18 0, lobj := 0
    mig := false, tile := false, gen := 0, status := 0, wait := .none, group := none, owed := [], home := none, away := none
    ticket := 0, refused := none, lastIssue := none, ready := [], capture := 0, slept := 0, word := none }

def Core.reset : Core :=
  { rot := 0, cycle := 0, ran := none, waves := [], reqs := [], svcmap := 0, wdog := 0, tags := 0, tagb := 0, tage := 0, itlb := [], dtlb := []
    stw := [], flt := [], mis := [], held := [], halted := false, saving := none }

/-- GEOM after reset: 32 valid rows and columns (R311). -/
def geomReset : Word := 0x2020

def Landing.reset : Landing :=
  { queue := [], arriving := [], tnext := 1, tserve := 1, reserved := [], skip := [] }

def Tiller.reset : Tiller :=
  { part := none, l1sz := 2, swz := 0, newL1 := none, newSwz := none, tring := Vector.replicate 16 0, thead := Vector.replicate 16 0
    landed := [], acc := [], accFree := []
    geom := Vector.replicate 8 geomReset, holders := []
    lease := { holder := none, cmds := 0, since := 0, waiting := [], lost := [] }, owner := none
    stageA := none, stageB := none, stageV := none, cmds := [], mulNext := 0, storeNext := [], jobs := [], half := none, moved := false
    tileLate := none, streamReq := none, streamLate := none, members := [], pats := [], wake := [], buckets := []
    token := { holder := none, queue := [] }, landing := .reset, stlb := [], l1 := [], icache := []
    merge := none, refs := [], streams := [], intake := [], credits := []
    stalerep := 0, spcecc := 0, spuecc := 0, migref := 0, wtovf := 0, pccomp := 0, leasearb := 0
    hold := false, shadow := none, spad := [] }

/-- Budget level 7 and throttle level 0 until the controller publishes others (log 12). -/
def Die.reset : Die :=
  { lltlb := [], budget := 7, throt := 0, withheld := 0, droopev := 0, droopcyc := 0, throtcyc := 0
    l2cecc := 0, hbmcecc := 0, hbmuecc := 0, droop := none, clk := 0 }

def Port.reset : Port :=
  { inbox := [], sent := [], openPort := true, broken := [], eventsQp := none, events := [], lost := 0, own := none
    peers := [], peerOut := [], peerCopies := [], portsDown := [], linksUp := [], failures := [], replays := [], edgesDown := []
    untrained := [], svn := 0, svnMin := 0
    image := [], staged := none, release := 4, i3c := none, faults := [], loading := none, swap := none, down := false }

def State.reset : State :=
  { mem := [], unspec := [], poison := [], owners := [], ctxs := [], cores := [], tils := [], dies := [], dirs := []
    rings := [], flights := [], spills := [], parts := [], copies := [], launches := [], nextLaunch := 0
    port := .reset, saves := [], cur := 0, issue := none, agenda := [], clock := 0
    nonce := 0, due := 0 }

end Sys2Proof.Machine
end

