-- ==== Sys2Proof/Machine/Ops.lean ====
section
/-! DEFINITION. The named operations over the state: memory bytes, messages, wake tables and watch directories, traps,
the undoing of a transaction, free values. -/

namespace Sys2Proof.Machine

/-! ### Access to the sparse tables -/

def State.ctx (s : State) (c : Nat) : Ctx := (tget s.ctxs c).getD (Ctx.reset c)
def State.setCtx (s : State) (c : Nat) (x : Ctx) : State := { s with ctxs := tset s.ctxs c x }
def State.modCtx (s : State) (c : Nat) (f : Ctx → Ctx) : State := s.setCtx c (f (s.ctx c))
def State.core (s : State) (k : Nat) : Core := (tget s.cores k).getD Core.reset
def State.setCore (s : State) (k : Nat) (x : Core) : State := { s with cores := tset s.cores k x }
def State.modCore (s : State) (k : Nat) (f : Core → Core) : State := s.setCore k (f (s.core k))
def State.til (s : State) (t : Nat) : Tiller := (tget s.tils t).getD Tiller.reset
def State.setTil (s : State) (t : Nat) (x : Tiller) : State := { s with tils := tset s.tils t x }
def State.modTil (s : State) (t : Nat) (f : Tiller → Tiller) : State := s.setTil t (f (s.til t))
def State.die (s : State) (d : Nat) : Die := (tget s.dies d).getD Die.reset
def State.setDie (s : State) (d : Nat) (x : Die) : State := { s with dies := tset s.dies d x }
def State.modDie (s : State) (d : Nat) (f : Die → Die) : State := s.setDie d (f (s.die d))

/-- A context's number: tiller, core and context (R16). -/
def cidOf (til core ctx : Nat) : Nat := til * 64 + core * 16 + ctx
def coreOf (c : Nat) : Nat := c / 16
def tilOf (c : Nat) : Nat := c / 64
def ctxNo (c : Nat) : Nat := c % 16
def dieOfTil (t : Nat) : Nat := t / 256
/-- The privileged contexts (R376). -/
def privileged (c : Nat) : Bool := ctxNo c = 0 ∨ ctxNo c = 15

/-- The context that acts. -/
def State.me (s : State) : Ctx := s.ctx s.cur
def State.setMe (s : State) (x : Ctx) : State := s.setCtx s.cur x
def State.modMe (s : State) (f : Ctx → Ctx) : State := s.modCtx s.cur f
def State.myTil (s : State) : Nat := tilOf s.cur
def State.myCore (s : State) : Nat := coreOf s.cur

/-- The partition of a tiller; one without a partition uses number 0 (log 15). -/
def State.partOf (s : State) (t : Nat) : Nat := (s.til t).part.getD 0

/-- The partition that an event of a tiller names: 0xFF for none (R411). -/
def State.eventPart (s : State) (t : Nat) : Nat := (s.til t).part.getD 0xFF

/-- The home context of the strand in a context: itself, but for a hosted migrant (R88). -/
def State.homeOf (s : State) (c : Nat) : Nat := (s.ctx c).home.getD c

/-- The SID of the strand in a context (R16); a MIG strand keeps that of its home. -/
def State.sid (s : State) (c : Nat) : BitVec 32 :=
  let h := s.homeOf c
  BitVec.ofNat 32 (s.partOf (tilOf h) * 2 ^ 28 + h * 2 ^ 12 + (s.ctx h).gen.toNat)

/-- The context a SID names (R16). -/
def cidOfSid (sid : BitVec 32) : Nat := (sid.extractLsb' 12 16).toNat
def genOfSid (sid : BitVec 32) : BitVec 12 := sid.extractLsb' 0 12

/-- A message or reply that names this SID is live: its generation is the context's, which is neither FREE nor EXITED
(R17, R78). -/
def State.sidLive (s : State) (sid : BitVec 32) : Bool :=
  let x := s.ctx (cidOfSid sid)
  s.sid (cidOfSid sid) = sid ∧ x.life ≠ .free ∧ x.life ≠ .exited ∧ x.home = none

/-- The generation of the strand in a context, as a wake names it (R17, R78). -/
def State.genOf (s : State) (c : Nat) : BitVec 12 := (s.ctx (s.homeOf c)).gen

/-- Queue a device step. -/
def State.later (s : State) (i : Instr) : State := { s with agenda := s.agenda ++ [i] }
/-- Queue a device step that is not queued yet. -/
def State.laterOnce (s : State) (i : Instr) : State := if i ∈ s.agenda then s else s.later i

/-- Send a wake to the strand in a context (R196). -/
def State.wakeCtx (s : State) (c : Nat) : State := s.laterOnce (.strandWake (c, s.genOf c))

/-- Advance the counter of free values (log 6). -/
def State.tick (s : State) : State := { s with nonce := s.nonce + 1 }

/-! ### Bytes -/

/-- The byte listed at an address; an unlisted one reads zero (log 1). -/
def memGet : List Host.Cell → Nat → Byte
  | [], _ => 0
  | (k, b) :: r, a => if a < k then 0 else if a = k then b else memGet r a

/-- The memory with one byte written, in canonical form. -/
def memSet : List Host.Cell → Nat → Byte → List Host.Cell
  | [], a, b => if b = 0 then [] else [(a, b)]
  | (k, c) :: r, a, b =>
    if a < k then (if b = 0 then (k, c) :: r else (a, b) :: (k, c) :: r)
    else if a = k then (if b = 0 then r else (a, b) :: r)
    else (k, c) :: memSet r a b

/-- Memory in canonical form: addresses strictly rising, no zero byte listed. -/
def memWf : List Host.Cell → Bool
  | [] => true
  | [(_, b)] => b ≠ 0
  | (a, b) :: (k, c) :: r => b ≠ 0 && a < k && memWf ((k, c) :: r)

/-- A range without one address. -/
def Span.cut (a : Nat) (r : Span) : List Span :=
  if r.lo ≤ a ∧ a < r.hi then
    (if r.lo < a then [{ r with hi := a }] else []) ++ (if a + 1 < r.hi then [{ r with lo := a + 1 }] else [])
  else [r]

/-- The byte at a location: the last one written, or the free value of the event that left it unspecified (R5). -/
def State.byteAt (s : State) (a : Nat) : Byte :=
  match s.unspec.find? (fun r => r.lo ≤ a && a < r.hi) with
  | some r => Config.freeByte r.stamp a
  | none => memGet s.mem a

def State.setByte (s : State) (a : Nat) (b : Byte) : State :=
  { s with mem := memSet s.mem a b, unspec := s.unspec.flatMap (Span.cut a) }

/-- `n` bytes from a location, lowest first. -/
def State.bytes (s : State) (a : Nat) : Nat → List Byte
  | 0 => []
  | n + 1 => s.byteAt a :: s.bytes (a + 1) n

/-- A little-endian number of `n` bytes. -/
def State.rd (s : State) (a : Nat) : Nat → Nat
  | 0 => 0
  | n + 1 => (s.byteAt a).toNat + 256 * s.rd (a + 1) n

def natOfBytes : List Byte → Nat
  | [] => 0
  | b :: r => b.toNat + 256 * natOfBytes r

def bytesOfNat : Nat → Nat → List Byte
  | 0, _ => []
  | n + 1, x => BitVec.ofNat 8 (x % 256) :: bytesOfNat n (x / 256)

/-- Write bytes from a location on. -/
def State.putBytes (s : State) (a : Nat) : List Byte → State
  | [] => s
  | b :: r => (s.setByte a b).putBytes (a + 1) r

/-- Write a little-endian number of `n` bytes. -/
def State.wr (s : State) (a n x : Nat) : State := s.putBytes a (bytesOfNat n x)

/-- Make a range of bytes unspecified (R5). -/
def State.scramble (s : State) (lo hi : Nat) : State :=
  if lo < hi then { s with unspec := { lo := lo, hi := hi, stamp := s.nonce } :: s.unspec, nonce := s.nonce + 1 } else s

/-- The unit that ECC protects at a location: a line of HBM4 or a word of scratchpad (R214). -/
def eccUnit (a : Nat) : Nat := if a < 2 ^ 50 then a / 64 * 64 else a / 8 * 8

/-- Does any of these bytes lie in a poisoned unit? -/
def State.poisoned (s : State) (a n : Nat) : Bool :=
  s.poison.any (fun u => a < u + (if u < 2 ^ 50 then 64 else 8) && u < a + n)

/-- A write of these bytes clears the poison of a unit that it covers whole (R214). -/
def State.cleanse (s : State) (a n : Nat) : State :=
  { s with poison := s.poison.filter (fun u => !(a ≤ u && u + (if u < 2 ^ 50 then 64 else 8) ≤ a + n)) }

/-- A list with a number in it. -/
def addOnce (x : Nat) (l : List Nat) : List Nat := if x ∈ l then l else l ++ [x]

/-! ### Messages (R382 to R384) -/

/-- A body from its fields: offset, size in bytes, value. -/
def bodyOf (fs : List (Nat × Nat × Nat)) : Body :=
  BitVec.ofNat 256 (fs.foldl (fun acc f => acc + f.2.2 % 2 ^ (8 * f.2.1) * 2 ^ (8 * f.1)) 0)

/-- A field of a body. -/
def Body.field (b : Body) (off size : Nat) : Nat := b.toNat / 2 ^ (8 * off) % 2 ^ (8 * size)

/-- The header of R383. -/
def header (type len til core ctx : Nat) : Word :=
  BitVec.ofNat 64 (type + len * 2 ^ 8 + til * 2 ^ 16 + core * 2 ^ 26 + ctx * 2 ^ 28)

/-- The header of a message that a context's core sends on its behalf. -/
def headerFrom (c type : Nat) : Word := header type 32 (tilOf c) (coreOf c % 4) (ctxNo c)

/-- The header of a message from a unit of a tiller. -/
def headerUnit (t type : Nat) : Word := header type 32 t 0 0

/-- The boxes by number, as MBXR gives them: 0 steward, 1 fault, 2 miss (R385). -/
def Core.box (k : Core) (b : Nat) : List Msg := if b = 0 then k.stw else if b = 1 then k.flt else k.mis
def Core.setBox (k : Core) (b : Nat) (q : List Msg) : Core :=
  if b = 0 then { k with stw := q } else if b = 1 then { k with flt := q } else { k with mis := q }
def boxCap (b : Nat) : Nat := if b = 2 then 16 else 64

/-- Wake the contexts of a core that wait at a box. -/
def State.ring (s : State) (k b : Nat) : State :=
  (List.range 16).foldl (fun s j =>
    if (s.ctx (k * 16 + j)).wait = .box b then s.modCtx (k * 16 + j) (fun x => { x with wait := .none }) else s) s

/-- Is there room in a box, with no message held before? -/
def State.boxRoom (s : State) (k b : Nat) : Bool :=
  ((s.core k).box b).length < boxCap b && !((s.core k).held.any (fun h => h.1 == b))

/-- A message for a box of a core: it enters, or its sender holds it behind those held before (R382). -/
def State.send (s : State) (k b : Nat) (m : Msg) : State :=
  if s.boxRoom k b then (s.modCore k (fun x => x.setBox b (x.box b ++ [m]))).ring k b
  else s.modCore k (fun x => { x with held := x.held ++ [(b, m)] })

/-! ### Event records (R411) -/

/-- The OP of an event record's SEND (R411). -/
def eventOp : Nat := 0x80

/-- Send an event record, or hold it until EVENTS names a queue pair that is not in the error state (R407). A full queue loses
its oldest record, and the new one says how many have been lost before it. -/
def State.event (s : State) (code part : Nat) : State :=
  let p := s.port
  let r : EventRecord := { code := code, part := part, cycle := (s.core 0).cycle, lost := 0 }
  let p := { p with faults := addOnce code p.faults }
  match p.eventsQp.filter (fun q => !p.broken.contains q) with
  | some qp => { s with port := { p with sent := p.sent ++ [.event qp eventOp r] } }
  | none =>
    if p.events.length < 256 then { s with port := { p with events := p.events ++ [r] } }
    else
      let n := p.lost + 1
      { s with port := { p with events := p.events.drop 1 ++ [{ r with lost := n }], lost := n } }

/-! ### Keys, wake tables and watch directories (R191 to R197, R437) -/

/-- The home slice of a physical address, numbered 64 to a die (R211). -/
def homeSlice (pa : Nat) : Nat :=
  pa / 2 ^ 38 % 4 * 64 + ((pa / 2 ^ 6 % 64) ^^^ (pa / 2 ^ 12 % 64) ^^^ (pa / 2 ^ 18 % 64))

/-- Where a key is registered: with a tiller, or with an L2 slice. -/
inductive Owner where
  | til (t : Nat)
  | slice (n : Nat)
  deriving DecidableEq, Repr

def lineOwner (l : Nat) : Owner :=
  match spadTil (l * 64), qCore (l * 64) with
  | some t, _ => .til t
  | none, some k => .til (k / 4)
  | none, none => .slice (homeSlice (l * 64))

/-- The key under which tables and directories hold a key: an end's key is the line of the block it names (R192). -/
def regKey : Key → Key
  | .chan l => .line l
  | k => k

/-- Where a key is registered. -/
def keyOwner : Key → Owner
  | .line l => lineOwner l
  | .chan l => lineOwner l
  | .tags k => .til (k / 4)
  | .tring t _ => .til t
  | .lease t => .til t
  | .pat t _ => .til t
  | .token t => .til t

/-- The number K of a key (R192). -/
def keyNum : Key → Nat
  | .line l => if l * 64 < 2 ^ 50 then l else if l * 64 < 2 ^ 51 then l % 2 ^ 14 else l % 2 ^ 8
  | .chan l => if l * 64 < 2 ^ 50 then l else if l * 64 < 2 ^ 51 then l % 2 ^ 14 else l % 2 ^ 8
  | .tags k => k % 4
  | .tring _ n => n
  | .lease _ => 0
  | .pat _ e => e
  | .token _ => 0

/-- The overflow bucket of a key (R193). -/
def bucketOf (k : Key) : Nat := (keyNum k % 64) ^^^ (keyNum k / 64 % 64) ^^^ (keyNum k / 4096 % 64)

/-- Record a context in a bucket. -/
def bucketCtx (i c : Nat) : List Bucket → List Bucket
  | [] => [{ index := i, ctxs := [c], tils := [] }]
  | b :: r => if b.index = i then { b with ctxs := addOnce c b.ctxs } :: r else b :: bucketCtx i c r

/-- Record a tiller in a bucket. -/
def bucketTil (i t : Nat) : List Bucket → List Bucket
  | [] => [{ index := i, ctxs := [], tils := [t] }]
  | b :: r => if b.index = i then { b with tils := addOnce t b.tils } :: r else b :: bucketTil i t r

/-- Register a context for a key, as tables hold it, in its own tiller's wake table (R193). -/
def registerLocal (t : Tiller) (key : Key) (c : Nat) : Tiller :=
  if t.wake.any (fun w => w.key == key) then
    { t with wake := t.wake.map (fun w => if w.key = key then { w with ctxs := addOnce c w.ctxs } else w) }
  else if t.wake.length < 1024 then
    { t with wake := t.wake ++ [{ key := key, ctxs := [c], tils := [], overflow := false }] }
  else { t with buckets := bucketCtx (bucketOf key) c t.buckets, wtovf := t.wtovf + 1 }

/-- Record a watching tiller with an entry list of the given capacities (R194). -/
def recordTil (cap ids : Nat) (es : List Watcher) (bs : List Bucket) (key : Key) (t : Nat) :
    List Watcher × List Bucket :=
  if es.any (fun w => w.key == key) then
    (es.map (fun w => if w.key = key then
      (if t ∈ w.tils then w else if w.tils.length < ids then { w with tils := w.tils ++ [t] }
       else { w with overflow := true }) else w), bs)
  else if es.length < cap then (es ++ [{ key := key, ctxs := [], tils := [t], overflow := false }], bs)
  else (es, bucketTil (bucketOf key) t bs)

def State.directory (s : State) (n : Nat) : Directory :=
  (s.dirs.find? (fun d => d.slice == n)).getD { slice := n, entries := [], buckets := [] }
def State.setDirectory (s : State) (d : Directory) : State :=
  { s with dirs := if s.dirs.any (fun e => e.slice == d.slice) then s.dirs.map (fun e => if e.slice = d.slice then d else e)
                   else s.dirs ++ [d] }

/-- Register a key at its owner for a tiller that watches it (R194). -/
def State.registerOwner (s : State) (key : Key) (t : Nat) : State :=
  match keyOwner key with
  | .til o =>
    if o = t then s
    else s.modTil o (fun x =>
      let r := recordTil 1024 4 x.wake x.buckets (regKey key) t
      { x with wake := r.1, buckets := r.2 })
  | .slice n =>
    let d := s.directory n
    let r := recordTil 4096 8 d.entries d.buckets (regKey key) t
    s.setDirectory { d with entries := r.1, buckets := r.2 }

/-- Register a key with a context, and with its owner (R193, R194). -/
def State.register (s : State) (c : Nat) (key : Key) : State :=
  (s.modTil (tilOf c) (fun t => registerLocal t (regKey key) c)).registerOwner key (tilOf c)

/-- Withdraw every key of a context from its tiller's wake table (R193). -/
def State.withdraw (s : State) (c : Nat) : State :=
  s.modTil (tilOf c) (fun t => { t with
    wake := (t.wake.map (fun w => { w with ctxs := w.ctxs.filter (· ≠ c) })).filter
      (fun w => !(w.ctxs.isEmpty && w.tils.isEmpty && !w.overflow))
    buckets := (t.buckets.map (fun b => { b with ctxs := b.ctxs.filter (· ≠ c) })).filter
      (fun b => !(b.ctxs.isEmpty && b.tils.isEmpty)) })

/-! ### Changes (R177, R195, R196) -/

/-- The contexts that a tiller's table or bucket holds for a key. -/
def Tiller.watchers (t : Tiller) (key : Key) : List Nat :=
  (t.wake.filter (fun w => w.key == regKey key)).flatMap (·.ctxs) ++
  (t.buckets.filter (fun b => b.index == bucketOf key)).flatMap (·.ctxs)

/-- The attempts of a tiller that hold a key in their read sets. -/
def State.holders (s : State) (t : Nat) (key : Key) : List Nat :=
  (s.ctxs.filter (fun e => tilOf e.1 == t && e.2.tx.active && e.2.tx.reads.contains key)).map (·.1)

/-- Wake the contexts registered with a tiller for a key. -/
def State.wakeAt (s : State) (t : Nat) (key : Key) : State :=
  ((s.til t).watchers key).foldl (fun s c => s.wakeCtx c) s

/-- The tillers of the partition that owns a tiller, for an entry that overflowed (R194). -/
def State.partTils (s : State) (t : Nat) : List Nat :=
  let p := (s.til t).part
  (s.tils.filter (fun e => e.2.part == p)).map (·.1)

/-- The notices that a key's entry or bucket calls for. -/
def noticeTils (es : List Watcher) (bs : List Bucket) (all : List Nat) (key : Key) : List Nat :=
  (es.filter (fun w => w.key == regKey key)).flatMap (fun w => if w.overflow then all else w.tils) ++
  (bs.filter (fun b => b.index == bucketOf key)).flatMap (·.tils)

/-- The owner forgets the tillers it has notified. -/
def clearTils (es : List Watcher) (key : Key) : List Watcher :=
  (es.map (fun w => if w.key = regKey key then { w with tils := [], overflow := false } else w)).filter
    (fun w => !(w.ctxs.isEmpty && w.tils.isEmpty && !w.overflow))

/-- Notices of a key to the tillers recorded at its owner (R194). DESIGN CHOICE: those recorded in a bucket stay recorded there: the
rule has only the key's entry forget them (log 36). -/
def State.notify (s : State) (key : Key) : State :=
  match keyOwner key with
  | .til o =>
    let t := s.til o
    let ts := noticeTils t.wake t.buckets (s.partTils o) key
    let s := s.setTil o { t with wake := clearTils t.wake key }
    ts.foldl (fun s u => if u = o then s else s.laterOnce (.changeNotice u (regKey key))) s
  | .slice n =>
    let d := s.directory n
    let ts := noticeTils d.entries d.buckets (s.tils.map (·.1)) key
    let s := if d.entries.isEmpty then s else s.setDirectory { d with entries := clearTils d.entries key }
    ts.foldl (fun s u => s.laterOnce (.changeNotice u (regKey key))) s

/-- Attempts that hold a key, as a line or as an end of that line, learn of its change when they come to sleep (R166,
R185). -/
def State.markAt (s : State) (t : Nat) (key : Key) : State :=
  { s with ctxs := s.ctxs.map (fun e =>
      if tilOf e.1 = t ∧ e.2.tx.active ∧ e.2.tx.reads.any (fun k => regKey k == regKey key) then
        (e.1, { e.2 with tx := { e.2.tx with marked := true } })
      else e) }

/-- The change of a key that is not a line: it wakes and aborts nothing (R177). -/
def State.changeKey (s : State) (key : Key) : State :=
  match keyOwner key with
  | .til o => ((s.markAt o key).wakeAt o key).notify key
  | .slice _ => s.notify key

/-! ### Undoing an attempt (R170) -/

/-- Common to every abort and restart: the tentative state and the read set go, the token is given up. The next request
for the token is granted by the wake of its strand. -/
def Tx.undo (t : Tx) (cause : Nat) : Tx :=
  { t with active := false, sole := false, marked := false, alts := [], point := .empty, reads := [], writes := []
           cause := cause }

/-- What the holder of a tiller's token kept out goes on: instructions held, and grants of credit (R180). -/
def State.freeHeld (s : State) (til : Nat) : State :=
  let s : State := { s with ctxs := s.ctxs.map (fun p =>
    if p.2.wait = .tokenHold til then (p.1, { p.2 with wait := .none }) else p) }
  s.rings.foldl (fun s y => if y.waiters.isEmpty then s else s.laterOnce (.creditGrant y.ring)) s

/-- Give up the tiller's token, or a request for it. A release is a change of its key, and so is the end of the request
that was to be granted next (R180, R195). -/
def State.dropToken (s : State) (c : Nat) : State :=
  let til := tilOf c
  let t := s.til til
  if t.token.holder = some c then
    ((s.setTil til { t with token := { t.token with holder := none } }).freeHeld til).changeKey (.token til)
  else
    let next := t.token.holder.isNone && t.token.queue.head? == some c
    let s := s.setTil til { t with token := { t.token with queue := t.token.queue.filter (· ≠ c) } }
    if next then s.changeKey (.token til) else s

/-- A restart costs the context 4 cycles before its TXB issues again (R170). -/
def State.restartCycle (s : State) (c : Nat) : Word := (s.core (coreOf c)).cycle

/-- What an instruction of an undone attempt waited for is not waited for: a translation, or a line of code (R169, R170). -/
def Wait.undone : Wait → Wait
  | .miss _ _ _ _ => .none
  | .code _ => .none
  | .order _ _ _ _ => .none
  | .moving _ => .none
  | w => w

/-- The choice of a context to issue in this cycle is withdrawn: the cycle counts as ELIGIBLE for it. -/
def State.withdrawIssue (s : State) (c : Nat) : State :=
  if s.issue = some c then
    let s := s.modCtx c (fun x =>
      let n := x.cnt.setIfInBounds 16 ((x.cnt[16]?).getD 0 - 1)
      { x with cnt := n.setIfInBounds 17 ((n[17]?).getD 0 + 1) })
    { s with issue := none }
  else s

/-- A restart: the tentative state goes, and the TXB executes again after 4 cycles (R170). -/
def State.restart (s : State) (c : Nat) (f : Tx → Tx) : State :=
  ((s.modCtx c (fun x => { x with
    tx := { f x.tx with rst := true }, pc := x.tx.txbpc, wait := x.wait.undone
    lastIssue := some (s.restartCycle c) })).withdrawIssue c).dropToken c

/-- A restart with CONFLICT (R170). DESIGN CHOICE: NCONF stays 4 where it is 4 already, the most that R167 lets it be
(log 55). -/
def State.restartConflict (s : State) (c : Nat) : State :=
  s.restart c (fun t => { t.undo 1 with nconf := Nat.min 4 (t.nconf + 1) })

/-- A restart with PREEMPT (R170). -/
def State.restartPreempt (s : State) (c : Nat) : State := s.restart c (fun t => t.undo 8)

/-- An abort to the fail target (R170). -/
def State.abortTx (s : State) (c cause : Nat) (acode : BitVec 16) : State :=
  (s.modCtx c (fun x => { x with
    tx := { x.tx.undo cause with acode := if cause = 7 then acode else x.tx.acode, nconf := 0, rst := false }
    pc := x.tx.fail })).dropToken c

/-! ### Conflicts and notices (R176, R194, R437) -/

/-- Restart the attempts of a tiller that hold the key, but for the acting party `who`. -/
def State.conflictAt (s : State) (t : Nat) (key : Key) (who : Option Nat) : State :=
  (s.holders t key).foldl (fun s c => if some c = who then s else s.restartConflict c) s

/-- A change notice consumes every registration of its key (R437): registered contexts wake, attempts that hold the line
restart but for one that holds the token, and that one and attempts that hold an end of the line are marked. -/
def State.notice (s : State) (t : Nat) (key : Key) : State :=
  (s.holders t key).foldl (fun s c =>
    if (s.ctx c).tx.sole then s else s.restartConflict c) ((s.markAt t key).wakeAt t key)

/-- A pattern entry is freed, or dies when the SPMMA that holds it completes (R336). -/
def State.freePattern (s : State) (t e : Nat) : State :=
  let p := (s.til t).pats.find? (fun p => p.ent == e)
  match p with
  | none => s
  | some p =>
    if 0 < p.held then
      s.modTil t (fun x => { x with pats := x.pats.map (fun q => if q.ent = e then { q with dying := true } else q) })
    else
      (s.modTil t (fun x => { x with
        pats := x.pats.filter (fun q => q.ent ≠ e), stageV := x.stageV.filter (fun g => g.ring ≠ e) })).changeKey (.pat t e)

/-- Does a staged slot of a tiller have bytes in a line (R317)? -/
def stagedOn (t l : Nat) : Option Staged → Bool
  | none => false
  | some g => 0 < g.bytes.length && (locSpad t g.off) / 64 ≤ l && l ≤ (locSpad t g.off + g.bytes.length - 1) / 64

/-- What is staged of slots with bytes in a line is discarded (R317); values of a sparse tile among it release their pattern entry
(R195). -/
def State.unstageLine (s : State) (t l : Nat) : State :=
  let x := s.til t
  let keep := fun (g : Option Staged) => if stagedOn t l g then none else g
  if stagedOn t l x.stageA || stagedOn t l x.stageB || stagedOn t l x.stageV then
    let s := s.setTil t { x with stageA := keep x.stageA, stageB := keep x.stageB, stageV := keep x.stageV }
    match x.stageV with
    | some g => if stagedOn t l x.stageV then s.changeKey (.pat t g.ring) else s
    | none => s
  else s

/-- A queue descriptor of a die's table, which Pengal puts into the last 2 MiB of the die's memory (R92, log 8). -/
def queueDesc (q : Nat) : Nat := q / 2 ^ 15 * 2 ^ 38 + (2 ^ 38 - 2 ^ 21) + q % 2 ^ 15 * 64

/-- The queue whose descriptor is a line of memory, where a partition owns it (R93). -/
def State.queueAt (s : State) (l : Nat) : Option Nat :=
  let a := l * 64
  if a < 2 ^ 40 ∧ 2 ^ 38 - 2 ^ 21 ≤ a % 2 ^ 38 then
    let q := a / 2 ^ 38 * 2 ^ 15 + (a % 2 ^ 38 - (2 ^ 38 - 2 ^ 21)) / 64
    if s.parts.any (fun p => p.2.blocks.contains (q / 1024)) then some q else none
  else none

/-- A write of a line: conflicts, wakes, notices, watched patterns and staged blocks (R176, R195, R317, R336), and the
distributor's watch of queue descriptors (R94). A strand asleep on an end of the line is registered under it too
(R192). -/
def State.changeLine (s : State) (l : Nat) (who : Option Nat) : State :=
  match lineOwner l with
  | .til t =>
    let s := s.conflictAt t (.line l) who
    let s := (((s.markAt t (.chan l)).wakeAt t (.line l)).notify (.line l))
    let s := ((s.til t).pats.filter (fun p => p.lines.contains l)).foldl (fun s p => s.freePattern t p.ent) s
    s.unstageLine t l
  | .slice _ =>
    let s := s.notify (.line l)
    match s.queueAt l with
    | none => s
    | some q => s.laterOnce (.queueEntryTake q)

/-- The lines that bytes touch. -/
def linesOf (a n : Nat) : List Nat := if n = 0 then [] else (List.range ((a + n - 1) / 64 - a / 64 + 1)).map (a / 64 + ·)

/-- A write of bytes of a scratchpad, whatever its kind, discards what is staged of them (R317). -/
def State.unstageAt (s : State) (a n : Nat) : State :=
  match spadTil a with
  | none => s
  | some t => (linesOf a n).foldl (fun s l => s.unstageLine t l) s

/-- A write of a structure in local SRAM by a unit of the device: what is staged of its bytes goes (R317). -/
def State.devWr (s : State) (a n x : Nat) : State := (s.wr a n x).unstageAt a n

/-- A write by a party: the bytes, the poison it clears, and the change of every line touched. -/
def State.store (s : State) (a : Nat) (bs : List Byte) (who : Option Nat) : State :=
  (linesOf a bs.length).foldl (fun s l => s.changeLine l who) ((s.putBytes a bs).cleanse a bs.length)

/-- The change of a channel: the key of its ends, which is the line of its control block (R187, R192, R195). -/
def State.changeChan (s : State) (ring : Nat) : State := s.changeKey (.chan (lineOf ring))

/-! ### Traps (R380, R381, R384) -/

def Cause.illegal : Nat := 1
def Cause.priv : Nat := 2
def Cause.addr : Nat := 3
def Cause.align : Nat := 4
def Cause.bounds : Nat := 5
def Cause.awn : Nat := 6
def Cause.nolease : Nat := 7
def Cause.repl : Nat := 10
def Cause.poison : Nat := 11
def Cause.watchdog : Nat := 13
def Cause.break_ : Nat := 14
def Cause.syscall : Nat := 15

/-- The step that charges a partition with an error that damaged no location, as a trap of context 0 or 15 does
(R381): locations from 2^52 on stand for the partitions. -/
def chargeLoc (part : Nat) : Nat := 2 ^ 52 + part

/-- The body of a TRAP message (R384). -/
def State.trapBody (s : State) (c cause aux : Nat) (va : Word) (word : IWord) (pc : Word) : Body :=
  let x := s.ctx c
  bodyOf [(0, 4, (s.sid c).toNat), (4, 1, cause),
    (5, 1, (if x.hmode then 1 else 0) + (if x.frame.on then 2 else 0)), (6, 1, x.frame.k), (7, 1, x.frame.i),
    (8, 8, pc.toNat), (16, 4, word.toNat), (20, 4, aux), (24, 8, va.toNat)]

/-- A strand whose first instruction cannot be fetched without a reply is RUNNING, since only a RUNNING context takes one
(R223, log 53). -/
def Ctx.began (x : Ctx) : Ctx := if x.life = .starting then { x with life := .running } else x

/-- A context waits for no credit any more. -/
def State.dropThirst (s : State) (c : Nat) : State :=
  { s with rings := s.rings.map (fun y => { y with waiters := y.waiters.filter (fun w => w.1 ≠ c) }) }

/-- A context of a tiller, or a reservation for one, has become free: a migrant that waits there may land (R257). -/
def State.letIn (s : State) (til : Nat) : State :=
  if (s.til til).landing.queue.isEmpty then s else s.laterOnce (.migrantLand til)

/-- Where the strand of a context stands when it is sent home at once (R381, R259): its home context takes its state
and the hosting context becomes FREE. -/
def State.goHome (s : State) (c : Nat) : State :=
  match (s.ctx c).home with
  | none => s
  | some h =>
    let x := s.ctx c
    let y := s.ctx h
    let s := s.setCtx h { y with
      life := .running, s := x.s, pc := x.pc, af := x.af, ef := x.ef, fstat := x.fstat, frame := x.frame
      away := none, wait := .none, word := none }
    let s := s.setCtx c { Ctx.reset c with life := .free, cnt := x.cnt, gen := x.gen }
    s.letIn (tilOf c)

/-- Taking a trap. A user context stops and its steward is told; a migrant stops in its home context. A trap of
context 0 or 15 halts the core and is charged to its partition (R381). -/
def State.takeTrap (s : State) (c cause aux : Nat) (va : Word) (word : IWord) : State :=
  if privileged c then
    (s.modCore (coreOf c) (fun k => { k with halted := true })).later
      (.uncorrectableError (chargeLoc (s.eventPart (tilOf c))))
  else
    let h := s.homeOf c
    let s := s.goHome c
    let b := s.trapBody h cause aux va word (s.ctx h).pc
    (s.modCtx h (fun x => { x with life := .stopped, wait := .none, slept := 0 })).send (coreOf h) 0
      { header := headerFrom h 1, body := b }

/-- The step to the next word of a running frame, or out of it (R44, R45). -/
def Frame.next (f : Frame) : Frame :=
  if f.i + 1 < f.n then { f with i := f.i + 1 }
  else if f.k + 1 < f.count then { f with k := f.k + 1, i := 0 }
  else .clear

/-- Does the context run inside its frame? A handler entered from a captured word runs outside the frame, and a frame that a
handler begins runs in that handler (R44, R45). -/
def Ctx.framed (x : Ctx) : Bool := x.frame.on && x.frame.handler == x.hmode

/-- Past the instruction: the next (k, i) of a frame, or the next word. -/
def Ctx.advance (x : Ctx) : Ctx :=
  if x.framed then
    let f := x.frame.next
    { x with frame := f
             pc := if f.on then f.base + BitVec.ofNat 64 (4 * f.i) else x.frame.base + BitVec.ofNat 64 (4 * x.frame.n) }
  else { x with pc := x.pc + 4 }

end Sys2Proof.Machine
end

