-- ==== Sys2Proof/Machine/Access.lean ====
section
/-! DEFINITION. Instruction bodies as steps that may stop, and what a data access does: the spaces (R200, R201), the checks
in their order (R220), translation (R216 to R219), the caches (R209, R210, R250), and what an attempt's buffer adds
(R171 to R174). -/

namespace Sys2Proof.Machine

/-- Why an instruction does not complete. -/
inductive Stop where
  | trap (cause aux : Nat) (va : Word)
  /-- A one-instruction transaction with an unmet condition: cause, keys, and the unmet ends (R189). -/
  | sleep (cause : Nat) (keys : List Key) (ends : List Nat)
  /-- The translation of a lane is not in any TLB (R219). -/
  | miss (k : Acc) (lane : Nat) (va : Word) (quiet : Bool)
  /-- A translation fault with a cause of R221. -/
  | fault (k : Acc) (cause lane : Nat) (va : Word)
  /-- An awn at the head of an end that an ordinary instruction reads (R137, R138). -/
  | awn (e : Nat) (x : Elem)
  | hold (w : Wait)
  /-- An abort of the attempt to its fail target (R170). -/
  | abort (cause : Nat) (acode : BitVec 16)
  /-- A restart with CONFLICT (R170). -/
  | conflict
  /-- A MIG strand moves to a tiller (R255). -/
  | migrate (til : Nat)
  deriving DecidableEq, Repr

/-- The body of an instruction: it acts on a state and may stop. What it did to the state before a stop is discarded. -/
abbrev Op := StateT State (Except Stop)

/-- Where control goes after an instruction that completes. -/
inductive Flow where
  | next
  | jump (pc : Word)
  | stay
  deriving DecidableEq, Repr

def stop {α : Type} (e : Stop) : Op α := fun _ => .error e
def raise {α : Type} (cause : Nat) : Op α := stop (.trap cause 0 0)
def raiseAt {α : Type} (cause lane : Nat) (va : Word) : Op α := stop (.trap cause lane va)
def upd (f : State → State) : Op Unit := modify f
def ask {α : Type} (f : State → α) : Op α := do return f (← get)

/-- A free value: the counter's value, which is advanced (log 6). -/
def fresh : Op Nat := do
  let n ← ask (·.nonce)
  upd State.tick
  return n

/-! ### Spaces and checks -/

/-- Where an effective address lies. -/
inductive Place where
  | near (til off : Nat)
  | global (va : Nat)
  deriving DecidableEq, Repr

/-- Bytes of scratchpad that a tiller has (R202). -/
def Tiller.spadSize (t : Tiller) : Nat := 2 ^ 20 - 65536 * t.l1sz

/-- The space of an address, or none where it raises ADDR: R200 and R201, for a strand that runs in tiller `me`. -/
def State.place (s : State) (me : Nat) (va : Word) : Option Place :=
  let top := (va.extractLsb' 56 8).toNat
  if top = 0 then (if (va.extractLsb' 52 4) = 0 then some (.global va.toNat) else none)
  else if top = 0xF0 ∧ va.extractLsb' 43 13 = 0 ∧ va.extractLsb' 20 12 = 0 then
    let til := (va.extractLsb' 32 10).toNat
    let off := (va.extractLsb' 0 20).toNat
    if va.getLsbD 42 then (if til = 0 then some (.near me off) else none)
    else if (s.til til).part = (s.til me).part then some (.near til off)
    else none
  else none

/-- The space, alignment and bounds of one lane, in that order (R220 check 2). -/
def State.check (s : State) (me : Nat) (va : Word) (n : Nat) : Except Nat Place :=
  match s.place me va with
  | none => .error Cause.addr
  | some p =>
    if va.toNat % n ≠ 0 then .error Cause.align
    else match p with
      | .near t off => if off + n ≤ (s.til t).spadSize then .ok p else .error Cause.bounds
      | .global _ => .ok p

/-! ### Translation -/

def entPart (e : Word) : Nat := (e.extractLsb' 52 4).toNat
def entPa (e : Word) : Nat := (e.extractLsb' 16 30).toNat * 65536
def entNc (e : Word) : Bool := e.getLsbD 7
def entRepl (e : Word) : Bool := e.getLsbD 6
def entCont (e : Word) : Bool := e.getLsbD 5
def entEx (e : Word) : Bool := e.getLsbD 4
def entWr (e : Word) : Bool := e.getLsbD 3
def entRd (e : Word) : Bool := e.getLsbD 2
def entLeaf (e : Word) : Bool := e.getLsbD 1
def entV (e : Word) : Bool := e.getLsbD 0
/-- Reserved bits of an entry (R218). -/
def entReserved (e : Word) : Bool := e.extractLsb' 56 8 ≠ 0 ∨ e.extractLsb' 46 6 ≠ 0 ∨ e.extractLsb' 8 8 ≠ 0

/-- The physical address of a byte of a page, in the replica of a die if the page is replicated (R224). -/
def TlbEntry.pa (t : TlbEntry) (va die : Nat) : Nat :=
  let pa := entPa t.entry + (va - t.va)
  if entRepl t.entry then pa / 2 ^ 40 * 2 ^ 40 + die * 2 ^ 38 + pa % 2 ^ 38 else pa

def TlbEntry.hits (t : TlbEntry) (part va : Nat) : Bool := entPart t.entry == part && t.va ≤ va && va < t.va + t.size

def tlbFind (l : List TlbEntry) (part va : Nat) : Option TlbEntry := l.find? (fun t => t.hits part va)

/-- A fill of a TLB of a given capacity. A full one loses an entry of the device's choosing (R20). -/
def tlbFill (cap nonce : Nat) (l : List TlbEntry) (e : TlbEntry) : List TlbEntry :=
  let l := l.filter (fun t => !(t.va == e.va && t.size == e.size && entPart t.entry == entPart e.entry))
  if l.length < cap then e :: l else e :: l.eraseIdx (Config.freeNat nonce % cap)

/-- Fill an entry into the TLBs above the level at which it stands (R216). -/
def State.fillTlb (s : State) (c : Nat) (fetch : Bool) (e : TlbEntry) : State :=
  let s := (s.modCore (coreOf c) (fun k =>
    if fetch then { k with itlb := tlbFill 32 s.nonce k.itlb e } else { k with dtlb := tlbFill 64 s.nonce k.dtlb e })).tick
  (s.modTil (tilOf c) (fun t => { t with stlb := tlbFill 1024 s.nonce t.stlb e })).tick

/-- The translation of an address for a context, and the state with the entry filled into the higher levels. -/
def State.lookup (s : State) (c : Nat) (fetch : Bool) (va : Nat) : Option TlbEntry × State :=
  let p := s.partOf (tilOf c)
  let k := s.core (coreOf c)
  match tlbFind (if fetch then k.itlb else k.dtlb) p va with
  | some e => (some e, s)
  | none =>
    match tlbFind (s.til (tilOf c)).stlb p va with
    | some e => (some e, s.fillTlb c fetch e)
    | none =>
      match tlbFind (s.die (dieOfTil (tilOf c))).lltlb p va with
      | some e => (some e, s.fillTlb c fetch e)
      | none => (none, s)

/-- The permission an access needs, and the cause of R221 when it is missing (R219). -/
def permFault (k : Acc) (e : Word) : Option Nat :=
  match k with
  | .load => if entRd e then none else some 2
  | .fetch => if entEx e then none else some 4
  | .store => if entWr e then none else some 3
  | .atomic => if entWr e then none else some 3
  | .stm => if entWr e then none else some 3

/-- One active lane, checked and translated: its address, its location, and its page's attributes. -/
structure Lane where
  i : Nat
  va : Word
  loc : Nat
  n : Nat
  own : Bool
  global : Bool
  nc : Bool
  repl : Bool
  deriving DecidableEq, Repr

/-- Does a near address of another tiller send the strand there (R255)? -/
def migrates (s : State) (p : Place) : Option Nat :=
  match p with
  | .near t _ => if s.me.mig ∧ t ≠ s.myTil then some t else none
  | .global _ => none

/-- Checks 2 of R220 for every active lane in order. -/
def checkLanes (n : Nat) : List (Nat × Word) → Op (List (Nat × Word × Place))
  | [] => return []
  | (i, va) :: r => do
    let s ← get
    match s.place s.myTil va with
    | some p => match migrates s p with
      | some t => if va.toNat % n = 0 then stop (.migrate t) else raiseAt Cause.align i va
      | none => pure ()
    | none => pure ()
    match s.check s.myTil va n with
    | .error cause => raiseAt cause i va
    | .ok p => return (i, va, p) :: (← checkLanes n r)

/-- Check 3 of R220: translation and permission of each global lane in order. Context 15 addresses memory itself (R200);
beyond package memory it meets ADDR (R19). -/
def translateLanes (k : Acc) (n : Nat) : List (Nat × Word × Place) → Op (List Lane)
  | [] => return []
  | (i, va, .near t off) :: r => do
    let me ← ask State.myTil
    let l : Lane := { i := i, va := va, loc := locSpad t off, n := n, own := t = me, global := false, nc := false, repl := false }
    return l :: (← translateLanes k n r)
  | (i, va, .global a) :: r => do
    let s ← get
    if ctxNo s.cur = 15 then
      if a < 2 ^ 40 then
        let l : Lane := { i := i, va := va, loc := a, n := n, own := false, global := true, nc := false, repl := false }
        return l :: (← translateLanes k n r)
      else raiseAt Cause.addr i va
    else
      match s.lookup s.cur false a with
      | (none, _) => stop (.miss k i va false)
      | (some e, s') =>
        match permFault k e.entry with
        | some cause => stop (.fault k cause i va)
        | none =>
          set s'
          let l : Lane := { i := i, va := va, loc := e.pa a (dieOfTil s.myTil), n := n, own := false, global := true
                            nc := entNc e.entry, repl := entRepl e.entry }
          return l :: (← translateLanes k n r)

/-- Every check of R220 before any access is performed. -/
def resolve (k : Acc) (n : Nat) (vas : List (Nat × Word)) : Op (List Lane) := do
  translateLanes k n (← checkLanes n vas)

/-! ### The attempt's sets (R174) -/

/-- Enter a key into the read set (R174). -/
def readKey (key : Key) : Op Unit := do
  let x ← ask State.me
  if x.tx.reads.contains key then return ()
  else if x.tx.rcnt = 32 then stop (.abort 2 0)
  else upd (fun s => s.modMe (fun x => { x with
    tx := { x.tx with reads := x.tx.reads ++ [key], rcnt := x.tx.rcnt + 1 } }))

/-- Enter a key into the write set (R174). -/
def writeKey (key : Key) : Op Unit := do
  let x ← ask State.me
  if x.tx.writes.contains key then return ()
  else if x.tx.wcnt = 16 then stop (.abort 2 0)
  else upd (fun s => s.modMe (fun x => { x with
    tx := { x.tx with writes := x.tx.writes ++ [key], wcnt := x.tx.wcnt + 1 } }))

def inTx : Op Bool := ask (fun s => s.me.tx.active)

/-- The bytes an attempt sees at locations of its own near space: its own tentative writes first (R173). -/
def overlay (cells : List (Nat × Byte)) (a : Nat) : List Byte → List Byte
  | [] => []
  | b :: r => ((tget cells a).getD b) :: overlay cells (a + 1) r

/-- Add tentative bytes, latest first. -/
def putCells (cells : List (Nat × Byte)) (a : Nat) : List Byte → List (Nat × Byte)
  | [] => cells
  | b :: r => putCells ((a, b) :: cells) (a + 1) r

/-- Does the holder of a tiller's token, another context than the one that acts, have one of these lines in its sets? -/
def State.soleLines (s : State) (t a n : Nat) : Bool :=
  match (s.til t).token.holder with
  | none => false
  | some h =>
    let tx := (s.ctx h).tx
    h ≠ s.cur && tx.sole && (linesOf a n).any (fun l => tx.reads.contains (.line l) || tx.writes.contains (.line l))

/-- A change to a line that the token's holder has read or written is held: by another context of the holder's tiller, or by
one of another tiller to near space of the holder's (R180). The hold registers nothing (R165). -/
def soleHold (a n : Nat) : Op Unit := do
  let s ← get
  match (s.myTil :: (spadTil a).toList).find? (fun t => s.soleLines t a n) with
  | none => return ()
  | some t => stop (.hold (.tokenHold t))

/-! ### Caches -/

/-- The bytes of a location within a cached line. -/
def CacheLine.get (l : CacheLine) (a n : Nat) : List Byte :=
  (List.range n).map (fun j => l.data.extractLsb' (8 * (a + j - l.line * 64)) 8)

def CacheLine.put (l : CacheLine) (a : Nat) (bs : List Byte) : CacheLine :=
  { l with data := BitVec.ofNat 512 (natOfBytes ((List.range 64).map (fun j =>
      let b := l.line * 64 + j
      if a ≤ b ∧ b < a + bs.length then bs.getD (b - a) 0 else l.data.extractLsb' (8 * j) 8))) }

/-- A line as memory holds it now. -/
def State.lineNow (s : State) (l : Nat) : CacheLine := { line := l, data := BitVec.ofNat 512 (s.rd (l * 64) 64) }

/-- The set of a line, one of those the L1 has (R209). -/
def l1Set (sets : Nat) (l : CacheLine) : Nat := Config.l1Set sets l.line % sets

/-- A fill of the L1: most recently used first. Eight lines fit in any set; beyond that the least recently used line of
the filled line's set goes (R209, log 10). DESIGN CHOICE: of several lines of a set filled under .strm, each of which the spec
calls the least recently used, the one filled last goes first (log 55). -/
def l1Fill (sets : Nat) (strm : Bool) (ls : List CacheLine) (l : CacheLine) : List CacheLine :=
  let ls := ls.filter (fun x => x.line ≠ l.line)
  let set := l1Set sets
  let ls :=
    if ls.length < 8 then ls
    else if (ls.filter (fun x => set x == set l)).length < 8 then ls
    else match (ls.filter (fun x => set x == set l)).getLast? with
      | none => ls
      | some v => ls.filter (fun x => x.line ≠ v.line)
  if strm then ls ++ [l] else l :: ls

/-- Drop the whole L1 of a tiller (R250). -/
def State.flashL1 (s : State) (t : Nat) : State := s.modTil t (fun x => { x with l1 := [] })

/-- An acquire at a scope: at DIE scope and wider the whole L1 of the tiller goes (R250). -/
def State.acquire (s : State) (t scope : Nat) : State := if 3 ≤ scope then s.flashL1 t else s

/-- Drop lines from the L1 of a tiller. -/
def State.dropL1 (s : State) (t a n : Nat) : State :=
  s.modTil t (fun x => { x with l1 := x.l1.filter (fun l => !((linesOf a n).contains l.line)) })

/-- A line of the L1 is hit by a store: it takes the bytes and becomes the most recently used (R209). -/
def Tiller.l1Hit (t : Tiller) (l a : Nat) (bs : List Byte) : Tiller :=
  match t.l1.find? (fun x => x.line == l) with
  | none => t
  | some x => { t with l1 := x.put a bs :: t.l1.filter (fun y => y.line ≠ l) }

/-- A store updates the lines of the tiller's own L1 that it hits (R209). -/
def State.l1Store (s : State) (t a : Nat) (bs : List Byte) : State :=
  s.modTil t (fun x => (linesOf a bs.length).foldl (fun x l => x.l1Hit l a bs) x)

/-- A load from global space: the L1 unless the access does not use it, else L2 with a fill under the hint; poison is met
where memory is read (R209, R210, R214). -/
def globalLoad (l : Lane) (hint : Nat) (useL1 : Bool) : Op (List Byte) := do
  let s ← get
  let t := s.til s.myTil
  let hit := if useL1 ∧ t.l1sz ≠ 0 then t.l1.find? (fun x => x.line == l.loc / 64) else none
  match hit with
  | some c =>
    upd (fun s => s.modTil s.myTil (fun t => { t with l1 := c :: t.l1.filter (fun x => x.line ≠ c.line) }))
    return c.get l.loc l.n
  | none =>
    if s.poisoned l.loc l.n then raiseAt Cause.poison l.i l.va
    if useL1 ∧ t.l1sz ≠ 0 ∧ hint ≠ 2 ∧ !l.nc ∧ !(s.poisoned (l.loc / 64 * 64) 64) then
      upd (fun s => s.modTil s.myTil (fun t => { t with
        l1 := l1Fill (128 * t.l1sz) (hint == 1) t.l1 (s.lineNow (l.loc / 64)) }))
    return s.bytes l.loc l.n

/-- Would a load of the acting strand meet poison? A word that its attempt has written whole is not poisoned for it (R173,
R214). -/
def State.meetsPoison (s : State) (a n : Nat) : Bool :=
  s.poison.any (fun u => decide (a < u + (if u < 2 ^ 50 then 64 else 8) ∧ u < a + n) &&
    !(s.me.tx.active && (List.range 8).all (fun j => (tget s.me.tx.point.cells (u + j)).isSome)))

/-- A strand's load of one lane (R171, R172, R209, R214). -/
def loadLane (hint : Nat) (useL1 : Bool) (l : Lane) : Op (List Byte) := do
  let s ← get
  if s.me.tx.active then
    readKey (.line (l.loc / 64))
    if !l.own then upd (fun s => s.registerOwner (.line (l.loc / 64)) s.myTil)
    if s.meetsPoison l.loc l.n then raiseAt Cause.poison l.i l.va
    let bs := s.bytes l.loc l.n
    return if l.own then overlay s.me.tx.point.cells l.loc bs else bs
  else if l.global then
    globalLoad l hint (useL1 && ctxNo s.cur ≠ 15 && !s.me.mig)
  else
    if s.poisoned l.loc l.n then raiseAt Cause.poison l.i l.va
    return s.bytes l.loc l.n

/-- The four replicas of a location, or the one of a page that is not replicated (R224). -/
def replicas (repl all : Bool) (loc : Nat) : List Nat :=
  if repl ∧ all then (List.range 4).map (fun d => loc / 2 ^ 40 * 2 ^ 40 + d * 2 ^ 38 + loc % 2 ^ 38) else [loc]

/-- The partition that the lines of a range of package memory were last written under (R399). -/
def State.own (s : State) (a n part : Nat) : State :=
  if a < 2 ^ 50 then { s with owners := (linesOf a n).foldl (fun o l => tset o l part) s.owners } else s

/-- A device's or strand's write of global memory under a partition. -/
def State.globalStore (s : State) (a part : Nat) (bs : List Byte) (who : Option Nat) : State :=
  (s.store a bs who).own a bs.length part

/-- A strand's store of one lane. In an attempt only its own near space may be written, and tentatively (R171, R173). -/
def storeLane (all : Bool) (l : Lane) (bs : List Byte) : Op Unit := do
  let s ← get
  if s.me.tx.active then
    if !l.own then stop (.abort 3 0)
    writeKey (.line (l.loc / 64))
    upd (fun s => s.modMe (fun x => { x with
      tx := { x.tx with point := { x.tx.point with
        cells := putCells x.tx.point.cells l.loc bs, stores := (l.loc, bs.length) :: x.tx.point.stores } } }))
  else
    soleHold l.loc l.n
    if l.global then
      upd (fun s => (replicas l.repl all l.loc).foldl (fun s a =>
        (s.globalStore a (s.partOf s.myTil) bs (some s.cur)).l1Store s.myTil a bs) s)
    else upd (fun s => s.store l.loc bs (some s.cur))

/-- Inside an attempt a store outside the strand's own near space is remote (R173). -/
def remoteCheck (ps : List (Nat × Word × Place)) : Op Unit := do
  let s ← get
  if s.me.tx.active ∧ ps.any (fun p => match p.2.2 with
      | .near t _ => t ≠ s.myTil
      | .global _ => true) then stop (.abort 3 0)
  else return ()

/-- Lanes of a store, checked and translated. -/
def resolveStore (k : Acc) (n : Nat) (vas : List (Nat × Word)) : Op (List Lane) := do
  let ps ← checkLanes n vas
  remoteCheck ps
  translateLanes k n ps

/-- One scalar load of `n` bytes. -/
def loadScalar (n : Nat) (va : Word) (hint : Nat) : Op Nat := do
  match ← resolve .load n [(0, va)] with
  | l :: _ => return natOfBytes (← loadLane hint true l)
  | [] => return 0

end Sys2Proof.Machine
end

