-- ==== Sys2Proof/Machine/Rings.lean ====
section
/-! DEFINITION. Channels as the ring logic of a tiller keeps them: control blocks and slots (R126 to R128), producer blocks
and credits (R129), extensions (R130), dealing (R141), order restoration (R142 to R144, R438), diversion (R154). -/

namespace Sys2Proof.Machine

/-! ### Translation for the tiller's units -/

/-- A walk of the tables that Pengal's walker reads (R217): from a table at a level, the leaf that maps an address, or
the cause of R221. -/
def walkFrom (s : State) (va : Nat) : Nat → Nat → Except Nat TlbEntry
  | 0, _ => .error 5
  | f + 1, tbl =>
    let lev := 4 - f
    let e := BitVec.ofNat 64 (s.rd (tbl + 8 * (va / 2 ^ (16 + 9 * f) % 512)) 8)
    if !entV e then .error 1
    else if entReserved e ∨ entPa e ≥ 2 ^ 40 then .error 5
    else if entLeaf e then
      let base := if lev = 4 then (if entCont e then 2 ^ 21 else 2 ^ 16) else (if entCont e then 2 ^ 30 else 2 ^ 25)
      if lev < 3 ∨ entPa e % base ≠ 0 then .error 5
      else .ok { va := va / base * base, size := base, entry := e }
    else walkFrom s va f (entPa e)

/-- The translation that a unit of a tiller, the distributor of its die or the command port uses: the second-level and
last-level TLBs, then the tables. It serves no instruction and fills nothing. -/
def State.devEntry (s : State) (part til va : Nat) : Except Nat TlbEntry :=
  if va ≥ 2 ^ 52 then .error 1
  else match tlbFind (s.til til).stlb part va with
    | some e => .ok e
    | none => match tlbFind (s.die (dieOfTil til)).lltlb part va with
      | some e => .ok e
      | none => walkFrom s va 4 (Config.tableRoot part)

/-- A unit's global access: its physical address and entry, or the cause of R221. -/
def State.devXlate (s : State) (part til va : Nat) (k : Acc) : Except Nat (Nat × Word) :=
  match s.devEntry part til va with
  | .error c => .error c
  | .ok e => match permFault k e.entry with
    | some c => .error c
    | none => .ok (e.pa va (dieOfTil til), e.entry)

/-- The physical address of a level object. -/
def State.objAt (s : State) (part til va : Nat) : Option Nat :=
  match s.devXlate part til va .load with
  | .ok (pa, _) => some pa
  | .error _ => none

/-- Every dependence is met (R99). -/
def State.depsMet (s : State) (l : Launch) : Bool :=
  l.record.deps.all (fun d => match s.objAt l.part (l.queue / 2 ^ 15 * 256) d.1 with
    | none => d.2 = 0
    | some o => d.2 ≤ s.rd (o + 8) 8)

/-! ### Control blocks -/

/-- A ring of which the device keeps nothing. -/
def Ring.fresh (r : Nat) : Ring :=
  { ring := r, geo := none, ext := [], pubd := [], soon := [], resv := [], waiters := [], dry := [], grps := [], deals := []
    dealt := false, base := 0, order := [], loose := [], slots := [], prods := [], ended := [], sent7 := []
    code7 := none, closed := [] }

def State.ringX (s : State) (r : Nat) : Ring := (s.rings.find? (fun x => x.ring == r)).getD (Ring.fresh r)
def State.setRing (s : State) (x : Ring) : State :=
  { s with rings := if s.rings.any (fun y => y.ring == x.ring) then s.rings.map (fun y => if y.ring = x.ring then x else y)
                    else s.rings ++ [x] }

/-- A ring of another module, by the module and the reference that TGT0 gives (R129). -/
def xring (module ref : Nat) : Nat := 2 ^ 54 + module * 2 ^ 24 + ref
def isXring (r : Nat) : Bool := 2 ^ 54 ≤ r
def xringModule (r : Nat) : Nat := (r - 2 ^ 54) / 2 ^ 24

/-- The tiller that holds a ring. -/
def ringTil (r : Nat) : Nat := (spadTil r).getD (((qCore r).getD 0) / 4)

/-- Bits `lo` to `lo + n - 1` of a number. -/
def fld (x lo n : Nat) : Nat := x / 2 ^ lo % 2 ^ n

/-- The shape of a channel as its control block gives it (R126). -/
def State.geometry (s : State) (r : Nat) : Geometry :=
  let b := s.rd r 4
  { base := if fld b 20 1 = 1 then locQ (ringTil r * 4 + fld b 21 2) (fld b 0 14) else locSpad (ringTil r) (fld b 0 20)
    depth := s.rd (r + 4) 4, xbase := s.rd (r + 32) 8, xsize := s.rd (r + 40) 4, flags := s.rd (r + 48) 4 % 32 }

/-- The shape of a channel: the one that it was taken up with, so that a store into its control block affects no other channel or
state (R126). -/
def State.geo (s : State) (r : Nat) : Geometry := (s.ringX r).geo.getD (s.geometry r)

def State.rBase (s : State) (r : Nat) : Nat := (s.geo r).base
def State.rDepth (s : State) (r : Nat) : Nat := (s.geo r).depth
def State.rPseq (s : State) (r : Nat) : Nat := s.rd (r + 8) 4
def State.rRseq (s : State) (r : Nat) : Nat := s.rd (r + 12) 4
def State.rCur (s : State) (r i : Nat) : Nat := s.rd (r + 16 + 4 * i) 4
def State.rXbase (s : State) (r : Nat) : Nat := (s.geo r).xbase
def State.rXsize (s : State) (r : Nat) : Nat := (s.geo r).xsize
def State.rGrant (s : State) (r : Nat) : Nat := s.rd (r + 44) 4
def State.rFlags (s : State) (r : Nat) : Nat := s.rd (r + 48) 4
def State.rNextg (s : State) (r : Nat) : Nat := s.rd (r + 52) 4
def State.rVector (s : State) (r : Nat) : Bool := fld (s.geo r).flags 0 1 = 1
def State.rXord (s : State) (r : Nat) : Bool := fld (s.geo r).flags 2 1 = 1
/-- Number of cursors (R126). -/
def State.rCursors (s : State) (r : Nat) : Nat := fld (s.geo r).flags 3 2 + 1
/-- Is a cursor held by a bound end, or for a replica not yet spawned (R126, R134)? -/
def State.rHeld (s : State) (r i : Nat) : Bool := fld (s.rFlags r) (5 + i) 1 = 1
def State.rWidth (s : State) (r : Nat) : Nat := if s.rVector r then 64 else 8

/-- A control-block field written by the channel logic: no store of a strand. -/
def State.rPut (s : State) (r off : Nat) (x : Nat) : State := s.devWr (r + off) 4 (x % 2 ^ 32)

/-- The signed difference of sequence numbers (R126). -/
def sdiff (a b : Nat) : Int := (BitVec.ofNat 32 a - BitVec.ofNat 32 b).toInt

/-- LOW (R128). -/
def State.rLow (s : State) (r : Nat) : Nat :=
  ((List.range 4).filter (fun i => s.rHeld r i)).foldl
    (fun low i => if sdiff (s.rCur r i) low < 0 then s.rCur r i else low) (s.rPseq r)

/-- Slots free to a producer (R128). -/
def State.rFree (s : State) (r : Nat) : Int :=
  (s.rDepth r + s.rXsize r : Nat) - (sdiff (s.rRseq r) (s.rLow r) + s.rGrant r)

def State.slotLoc (s : State) (r k : Nat) : Nat := s.rBase r + s.rWidth r * k
def State.tagLoc (s : State) (r k : Nat) : Nat := s.rBase r + s.rWidth r * s.rDepth r + 8 * k

/-- The element of a window slot, when the device has published it there and its tag says that it holds this sequence number
(R126, R127). -/
def State.slotElem (s : State) (r k seq : Nat) : Option Elem :=
  let t := s.rd (s.tagLoc r k) 8
  if (s.ringX r).pubd.contains seq ∧ fld t 32 1 = 1 ∧ fld t 0 32 = seq then
    some { awn := fld t 33 1 = 1, data := BitVec.ofNat 512 (s.rd (s.slotLoc r k) (s.rWidth r)) }
  else none

/-- Is an element a result that is not published yet (R68)? -/
def Ring.early (x : Ring) (seq : Nat) : Bool := x.soon.any (fun p => p.1 == seq)

/-- Do these bytes of a structure hold zero (R4)? -/
def State.zeros (s : State) (a n : Nat) : Bool := s.rd a n = 0

/-- Is a ring control block well formed (R126)? -/
def State.ringOk (s : State) (r : Nat) : Bool :=
  fld (s.rd r 4) 23 9 = 0 && fld (s.rFlags r) 9 23 = 0 && 1 ≤ s.rDepth r && s.rDepth r ≤ 65536 &&
  s.rXsize r ≤ 2 ^ 24 && (s.rXbase r ≠ 0 || s.rXsize r = 0) && s.rXbase r % 64 = 0 &&
  1 ≤ s.rd (r + 56) 4 && s.rd (r + 56) 4 ≤ 5 && s.zeros (r + 60) 4

/-- Do these locations hold zero, and nothing unspecified? -/
def State.blank (s : State) (lo hi : Nat) : Bool :=
  s.mem.all (fun p => p.1 < lo || hi ≤ p.1) && s.unspec.all (fun r => r.hi ≤ lo || hi ≤ r.lo)

/-- The device takes up a channel that software has built, as an end first names it or credit is first asked of it, and reads its
shape: where a field or a tag is not as R126 asks, its elements, cursors and sequence numbers are unspecified. A block with a
reserved bit set, or a field out of its range, is rejected (R4): it is not taken up. Ends that have asked for credit since are
served then. -/
def State.adopt (s : State) (r : Nat) : State :=
  if (s.ringX r).geo.isSome ∨ !s.ringOk r then s
  else
    let t := s.setRing { s.ringX r with geo := some (s.geometry r) }
    let t := if (s.ringX r).waiters.isEmpty then t else t.laterOnce (.creditGrant r)
    let tags := s.rBase r + s.rWidth r * s.rDepth r
    if s.blank (r + 8) (r + 32) ∧ s.rGrant r = 0 ∧ s.rNextg r = 0 ∧ fld (s.rFlags r) 5 4 = 0 ∧
        s.blank tags (tags + 8 * s.rDepth r) then t
    else (t.scramble (r + 8) (r + 32)).scramble (s.rBase r) (tags + 8 * s.rDepth r)

/-- A result that goes to a ring is not published before its cycle (R68). -/
def State.markSoon (s : State) (r seq : Nat) : State :=
  if s.due.toNat ≤ (s.core (ringTil r * 4)).cycle.toNat then s
  else s.setRing { s.ringX r with soon := (s.ringX r).soon ++ [(seq, s.due)] }

/-- Write an element and its tag into a window slot. -/
def State.fillSlot (s : State) (r k seq : Nat) (x : Elem) (grp : Nat) : State :=
  let a := s.slotLoc r k
  let g := s.tagLoc r k
  (((s.wr a (s.rWidth r) x.data.toNat).wr g 8 (seq + 2 ^ 32 + (if x.awn then 2 ^ 33 else 0) + grp % 2 ^ 16 * 2 ^ 48)).unstageAt a
    (s.rWidth r)).unstageAt g 8

/-- The window slot of a sequence number (R127, R144). -/
def State.slotOf (s : State) (r seq : Nat) : Option Nat :=
  if s.rXord r then ((s.ringX r).slots.find? (fun p => p.2 == seq)).map (·.1)
  else if s.rDepth r = 0 then none else some (seq % s.rDepth r)

/-- The value of a key in an unsorted table. -/
def tassoc {α : Type} (l : List (Nat × α)) (k : Nat) : Option α := (l.find? (fun p => p.1 == k)).map (·.2)

/-- The `j`-th element from a cursor that a reading end could take, if it is there (R128, R144) and no result still on its
way (R68). -/
def State.ringHead (s : State) (r cur j : Nat) : Option Elem :=
  let x := s.ringX r
  if s.rXord r then
    let p := sdiff (s.rCur r cur + j) x.base
    if p < 0 then none
    else match x.order[p.toNat]? with
      | none => none
      | some seq => if x.early seq then none else match s.slotOf r seq with
        | none => none
        | some k => s.slotElem r k seq
  else
    let seq := (s.rCur r cur + j) % 2 ^ 32
    if (j : Int) < sdiff (s.rPseq r) (s.rCur r cur) ∧ !x.early seq then
      match s.slotOf r seq with
      | none => none
      | some k => s.slotElem r k seq
    else none

/-- The group in which the `j`-th element from a cursor was dealt (R141). -/
def State.headGroup (s : State) (r cur j : Nat) : Option Nat :=
  let x := s.ringX r
  if s.rXord r then (x.order[(sdiff (s.rCur r cur + j) x.base).toNat]?).bind (tassoc x.deals)
  else tassoc x.deals ((s.rCur r cur + j) % 2 ^ 32)

/-- Write an element to the extension: to the line that holds it, and to the hidden tag (R130). -/
def State.toExt (s : State) (r seq idx : Nat) (x : Elem) (grp : Option Nat) : State :=
  let w := s.rWidth r
  let s := match s.devXlate (s.partOf (ringTil r)) (ringTil r) (s.rXbase r + w * idx) .store with
    | .ok (pa, _) => s.globalStore pa (s.partOf (ringTil r)) (bytesOfNat w x.data.toNat) none
    | .error _ => s
  let y := s.ringX r
  s.setRing { y with ext := y.ext ++ [{ seq := seq, idx := idx, x := x, grp := grp }] }

/-- The lowest number below a bound that a list lacks. -/
def firstFree (n : Nat) (l : List Nat) : Option Nat := (List.range n).find? (fun i => !l.contains i)

/-- Elements without a fixed place in the window (R144). -/
def Ring.looseInWindow (x : Ring) : Nat := (x.slots.filter (fun p => x.loose.any (fun q => q.1 == p.2))).length

/-- Give a sequence number of an XORD ring its place in delivery order: fixed behind those that are, or among the elements
of later groups (R144, R438). A number that has its place already, from its reservation or its diversion, keeps it unless
its group is another. -/
def Ring.orderIn (x : Ring) (nextg seq : Nat) (grp : Option Nat) : Ring :=
  if tget x.grps seq = grp ∧ (x.order.contains seq ∨ x.loose.any (fun p => p.1 == seq)) then x
  else
    let x := { x with order := x.order.filter (· ≠ seq), loose := x.loose.filter (fun p => p.1 ≠ seq) }
    match grp with
    | none => { x with order := x.order ++ [seq], grps := tdel x.grps seq }
    | some g =>
      if sdiff g nextg ≤ 0 then { x with order := x.order ++ [seq], grps := tset x.grps seq g }
      else { x with loose := x.loose ++ [(seq, g)], grps := tset x.grps seq g }

/-- The group that an element's tag names as it arrives: its own, or NEXTG (R144, R438). -/
def State.arrivalTag (s : State) (r : Nat) (grp : Option Nat) : Nat := grp.getD (s.rNextg r)

/-- Put an element that has its sequence number where it goes: the window or the extension (R127, R130, R144). On an XORD ring its
tag names group `g`. -/
def State.ringPlace (s : State) (r seq : Nat) (x : Elem) (grp : Option Nat) (g : Nat) : State :=
  let s := s.markSoon r seq
  if s.rXord r then
    let y := (s.ringX r).orderIn (s.rNextg r) seq grp
    let s := s.setRing y
    match firstFree (s.rDepth r) (y.slots.map (·.1)) with
    | some k =>
      if y.order.contains seq ∨ y.looseInWindow ≤ (s.rDepth r + 1) / 2 - 1 then
        (s.fillSlot r k seq x g).setRing { y with slots := y.slots ++ [(k, seq)], pubd := y.pubd ++ [seq] }
      else s.toExt r seq ((firstFree (s.rXsize r) (y.ext.map (·.idx))).getD 0) x (some g)
    | none => s.toExt r seq ((firstFree (s.rXsize r) (y.ext.map (·.idx))).getD 0) x (some g)
  else if sdiff seq (s.rLow r) < s.rDepth r then
    let y := s.ringX r
    (s.fillSlot r (seq % s.rDepth r) seq x 0).setRing { y with pubd := y.pubd ++ [seq] }
  else s.toExt r seq (if s.rXsize r = 0 then 0 else seq % s.rXsize r) x grp

/-- Is the element of a sequence number published: there, and no result still on its way (R68)? -/
def State.isPublished (s : State) (r seq : Nat) : Bool :=
  ((s.ringX r).pubd.contains seq || (s.ringX r).ext.any (fun e => e.seq == seq)) && !(s.ringX r).early seq

/-- PSEQ advances over every published element (R135). -/
def State.advancePseq (s : State) (r : Nat) : Nat → State
  | 0 => s
  | f + 1 => if s.rPseq r ≠ s.rRseq r ∧ s.isPublished r (s.rPseq r) then
      (s.rPut r 8 (s.rPseq r + 1)).advancePseq r f else s

/-- Are reading ends of the ring bound by saved contexts (R154)? -/
def bindKind (b : Word) : Nat := (b.extractLsb' 0 3).toNat
def bindWr (b : Word) : Bool := b.getLsbD 3
def bindPort (b : Word) : Nat := (b.extractLsb' 4 2).toNat
def bindEng (b : Word) : Nat := (b.extractLsb' 6 1).toNat
def bindQs (b : Word) : Bool := b.getLsbD 7
def bindTil (b : Word) : Nat := (b.extractLsb' 8 10).toNat
def bindOff (b : Word) : Nat := (b.extractLsb' 18 14).toNat * 64
/-- The location of the block that a binding of a context names. -/
def bindLoc (c : Nat) (b : Word) : Nat :=
  if bindQs b then locQ (coreOf c) (bindOff b % 2 ^ 14) else locSpad (bindTil b) (bindOff b)

def State.diverted (s : State) (r : Nat) : Bool :=
  s.ctxs.any (fun e => e.2.life == .saved &&
    e.2.bind.toList.any (fun b => bindKind b == 1 && !bindWr b && bindLoc e.1 b == r))

/-- Bytes that an element takes in a spill queue (R154). -/
def State.spillBytes (s : State) (r : Nat) : Nat := if s.rVector r then 72 else 16

/-- Bytes that the spill queue of a partition holds. -/
def State.spillUsed (s : State) (p : Nat) : Nat := ((tget s.spills p).getD []).foldl (fun a x => a + s.spillBytes x.ring) 0
def State.spillCap (s : State) (p : Nat) : Nat := ((tget s.parts p).map (·.spill)).getD 0

/-- Is cargo an element? -/
def Cargo.isElem : Cargo → Bool
  | .elem _ _ _ _ _ => true
  | .close _ => false
  | .ended => false

/-- Bytes that elements on their way to diverted rings of a partition will take there. -/
def State.spillComing (s : State) (p : Nat) : Nat :=
  (s.flights.filter (fun f => f.cargo.isElem && s.partOf (ringTil f.ring) == p && s.diverted f.ring)).foldl (fun a f => a + s.spillBytes f.ring) 0

/-- Would so many more elements of a ring fit into the spill queue, if they were diverted: beside those on their way (R154)? -/
def State.spillRoom (s : State) (r n : Nat) : Bool :=
  let p := s.partOf (ringTil r)
  !s.diverted r || s.spillUsed p + s.spillComing p + n * s.spillBytes r ≤ s.spillCap p

/-- Does one element of a ring that has arrived fit? -/
def State.spillFits (s : State) (r : Nat) : Bool :=
  let p := s.partOf (ringTil r)
  !s.diverted r || s.spillUsed p + s.spillBytes r ≤ s.spillCap p

/-- Elements on their way to a ring that will take a number there. -/
def State.coming (s : State) (r : Nat) : Nat :=
  (s.flights.filter (fun f => f.ring == r && (match f.cargo with
    | .elem _ _ _ _ none => true
    | _ => false))).length

/-- Would an XORD ring accept so many elements of a group, beside those it holds and those on their way (R143)? -/
def State.xordAccepts (s : State) (r : Nat) (grp : Option Nat) (n : Nat) : Bool :=
  if s.rXord r then
    match grp with
    | none => true
    | some g => sdiff g (s.rNextg r) ≤ 0 ||
      (sdiff g (s.rNextg r) < 64 &&
        2 * (sdiff (s.rRseq r) (s.rLow r) + (s.coming r : Int) + (n : Int) - 1) < (s.rDepth r + s.rXsize r : Nat))
  else true

/-- Would a ring take one more element of a group, for which its producer has a place (R143, R154)? -/
def State.takes (s : State) (r : Nat) (grp : Option Nat) : Bool := s.xordAccepts r grp 1 && s.spillRoom r 1

/-- Would a ring take an element under a number that is reserved, and so held, already (R143, R154, R162)? -/
def State.takesOwn (s : State) (r : Nat) (grp : Option Nat) : Bool := s.xordAccepts r grp 0 && s.spillRoom r 1

/-- Is there room for so many elements in a ring itself (R128, R143, R154)? -/
def State.ringRoom (s : State) (r n : Nat) (grp : Option Nat) : Bool :=
  (n : Int) ≤ s.rFree r && s.xordAccepts r grp n && s.spillRoom r n

/-- The level and code of an awn (R122). -/
def Elem.level (x : Elem) : Nat := (x.data.extractLsb' 32 3).toNat
def Elem.code (x : Elem) : BitVec 32 := x.data.extractLsb' 0 32
def awnElem (level : Nat) (code : BitVec 32) : Elem :=
  { awn := true, data := BitVec.ofNat 512 (code.toNat + level % 8 * 2 ^ 32) }
def fetchFail : Elem := awnElem 0 0xFFFFFFF1
def voidAwn : Elem := awnElem 0 0xFFFFFFF2

/-- The elements that are not to stay leave a ring. -/
def Ring.keep (y : Ring) (stays : Nat → Bool) : Ring :=
  { y with slots := y.slots.filter (fun p => stays p.2), pubd := y.pubd.filter stays
           grps := y.grps.filter (fun p => stays p.1), deals := y.deals.filter (fun p => stays p.1)
           soon := y.soon.filter (fun p => stays p.1), ext := y.ext.filter (fun e => stays e.seq) }

/-- After LOW has advanced: places passed are dropped, and the window and the producers move up (R128 to R130, R144). An XORD
ring without a bound cursor keeps only numbers that are not published (R134). -/
def State.freePassed (s : State) (r : Nat) : State :=
  let y := s.ringX r
  let low := s.rLow r
  let s :=
    if s.rXord r ∧ fld (s.rFlags r) 5 4 = 0 then
      let stays := fun q => y.early q || y.resv.any (fun p => p.2.2 == q)
      s.setRing { (y.keep stays) with base := low, order := y.order.filter stays, loose := y.loose.filter (fun p => stays p.1) }
    else if s.rXord r then
      let k := (sdiff low y.base).toNat
      let gone := y.order.take k
      let stays := fun q => !gone.contains q
      s.setRing { (y.keep stays) with base := y.base + min k y.order.length, order := y.order.drop k }
    else s.setRing (y.keep (fun q => decide (0 ≤ sdiff q low)))
  let s := if (s.ringX r).ext.isEmpty then s else s.laterOnce (.extensionMove r)
  let s := if (s.ringX r).waiters.isEmpty then s else s.laterOnce (.creditGrant r)
  s.changeChan r

/-- PSEQ passes what is published, `n` elements of an XORD ring among it (R135, R144); readers are told (R195). Where no cursor is
bound the elements are freed at once (R134). -/
def State.passPublished (s : State) (r n : Nat) : State :=
  let s := if s.rXord r then s.rPut r 8 (s.rPseq r + n)
           else s.advancePseq r ((sdiff (s.rRseq r) (s.rPseq r)).toNat)
  if fld (s.rFlags r) 5 4 = 0 then s.freePassed r else s.changeChan r

/-- Publish an element under a number it has been given (R135), its tag naming group `g` on an XORD ring (R438); a result no
earlier than it is there (R68). -/
def State.publish (s : State) (r seq : Nat) (x : Elem) (grp : Option Nat) (g : Nat) : State :=
  let s := s.ringPlace r seq x grp g
  s.passPublished r (if (s.ringX r).early seq then 0 else 1)

/-- Publish an element under a number it has been given, or divert it: its place in delivery order is fixed as though it were
there, and so is the group of its tag (R135, R154, R438). -/
def State.publishAt (s : State) (r seq : Nat) (x : Elem) (grp : Option Nat) : State :=
  if s.diverted r then
    let p := s.partOf (ringTil r)
    let s := if s.rXord r then s.setRing ((s.ringX r).orderIn (s.rNextg r) seq grp) else s
    { s with spills := tset s.spills p (((tget s.spills p).getD []) ++
      [{ ring := r, seq := seq, x := x, grp := grp, tag := s.arrivalTag r grp }]) }
  else s.publish r seq x grp (s.arrivalTag r grp)

/-- A new element takes the next sequence number (R135); one that comes over a DEAL wire keeps the group it was dealt in
(R141). -/
def State.ringAppend (s : State) (r : Nat) (x : Elem) (grp deal : Option Nat) (dealt : Bool) : State :=
  let seq := s.rRseq r
  let s := s.rPut r 12 (seq + 1)
  let y := s.ringX r
  let s := if dealt then s.setRing { y with dealt := true, deals := y.deals ++ (deal.map (fun g => (seq, g))).toList } else s
  s.publishAt r seq x grp

/-- The held level-7 awns of an order-restoring stage go out as one once every replica has sent one or ended, and the ring
has room for it (R142, R130). -/
def State.release7 (s : State) (r : Nat) : State :=
  let y := s.ringX r
  match y.code7 with
  | none => s
  | some code =>
    if y.prods.all (fun c => y.sent7.contains c || y.ended.contains c) ∧ s.ringRoom r 1 none then
      { (({ (s.setRing { y with sent7 := [], code7 := none }) with due := 0 } : State).ringAppend r (awnElem 7 code) none none
          false) with due := s.due }
    else s

/-- After LOW has advanced. -/
def State.afterLow (s : State) (r : Nat) : State := (s.freePassed r).release7 r

/-- An element reaches its ring (R135, R142). -/
def State.ringEnqueue (s : State) (r c : Nat) (x : Elem) (grp deal : Option Nat) (dealt : Bool) : State :=
  let y := s.ringX r
  if s.rXord r ∧ x.awn ∧ x.level = 7 ∧ y.prods.contains c then
    (s.setRing { y with sent7 := addOnce c y.sent7, code7 := some x.code }).release7 r
  else s.ringAppend r x grp deal dealt

/-- NEXTG passes every closed group (R142). -/
def nextGroup (closed : List Nat) : Nat → Nat → Nat
  | 0, g => g
  | f + 1, g => if closed.contains g then nextGroup closed f ((g + 1) % 2 ^ 32) else g

/-- Elements in the order of their groups and, within a group, of their numbers (R144). -/
def insertLoose (g0 : Nat) (x : Nat × Nat) : List (Nat × Nat) → List (Nat × Nat)
  | [] => [x]
  | y :: r =>
    if sdiff x.2 g0 < sdiff y.2 g0 ∨ (x.2 = y.2 ∧ sdiff x.1 y.1 < 0) then x :: y :: r else y :: insertLoose g0 x r

/-- A group closes at an XORD ring: NEXTG advances, and elements of the groups it reaches have their places (R142,
R144). -/
def State.closeGroup (s : State) (r g : Nat) : State :=
  let y := s.ringX r
  if !s.rXord r ∨ sdiff g (s.rNextg r) < 0 then s
  else
    let closed := if y.closed.contains g then y.closed else y.closed ++ [g]
    let g0 := s.rNextg r
    let n := nextGroup closed closed.length g0
    let now := (y.loose.filter (fun p => sdiff p.2 n ≤ 0)).foldr (insertLoose g0) []
    let s := s.setRing { y with
      closed := closed.filter (fun h => !(sdiff h n < 0)), order := y.order ++ now.map (·.1)
      loose := y.loose.filter (fun p => !(sdiff p.2 n ≤ 0)) }
    let s := s.rPut r 52 n
    let s := if n = g0 then s else s.changeChan r
    let s := if n = g0 ∨ y.waiters.isEmpty then s else s.laterOnce (.creditGrant r)
    if (s.ringX r).ext.isEmpty then s else s.laterOnce (.extensionMove r)

/-- Does something of a context travel to a ring? -/
def State.flying (s : State) (r c : Nat) : Bool := s.flights.any (fun f => f.ring == r && f.cid == c)

/-- Something sets out to a ring; an element that is a result is read there no earlier than a register would be (R68). -/
def State.launchCargo (s : State) (r c : Nat) (x : Cargo) : State :=
  let due := match x with
    | .elem _ _ _ _ _ => s.due
    | _ => 0
  ({ s with flights := s.flights ++ [{ ring := r, cid := c, cargo := x, due := due }] } : State).later (.elementArrival r)

/-- A replica closes its open group: every ring of its stage learns it, behind what the replica has sent there
(R142). -/
def State.closeFor (s : State) (c g : Nat) : State :=
  (s.rings.filter (fun y => y.prods.contains c)).foldl (fun s y =>
    if s.flying y.ring c then s.launchCargo y.ring c (.close g) else s.closeGroup y.ring g) s

/-- A replica ends, as its rings learn it (R142). -/
def State.endFor (s : State) (c : Nat) : State :=
  (s.rings.filter (fun y => y.prods.contains c)).foldl (fun s y =>
    if s.flying y.ring c then s.launchCargo y.ring c .ended
    else (s.setRing { s.ringX y.ring with ended := addOnce c (s.ringX y.ring).ended }).release7 y.ring) s

/-- A cursor passes elements (R134). -/
def State.advanceCursor (s : State) (r cur n : Nat) : State :=
  let low := s.rLow r
  let s := s.rPut r (16 + 4 * cur) (s.rCur r cur + n)
  if s.rLow r = low then s else s.afterLow r

/-- A cursor is bound or released in CFLAGS (R126). -/
def State.holdCursor (s : State) (r cur : Nat) (on : Bool) : State :=
  let f := s.rFlags r
  if s.rHeld r cur = on then s
  else s.devWr (r + 48) 4 (if on then f + 2 ^ (5 + cur) else f - 2 ^ (5 + cur))

/-! ### Moves of the extension and grants (R129, R130, R144) -/

/-- Move one element of the extension into the window, if one may move. DESIGN CHOICE: what moves is the element as it was sent, also
where another party has stored over its bytes in the extension since (R130; log 16). -/
def State.moveOne (s : State) (r : Nat) : Option State :=
  let y := s.ringX r
  if s.rXord r then
    match firstFree (s.rDepth r) (y.slots.map (·.1)) with
    | none => none
    | some k =>
      let pick := match y.order.findSome? (fun q => y.ext.find? (fun e => e.seq == q)) with
        | some e => some e
        | none =>
          if y.looseInWindow ≤ (s.rDepth r + 1) / 2 - 1 then
            y.ext.foldl (fun best e => match best with
              | none => some e
              | some b => if sdiff e.seq b.seq < 0 then some e else some b) none
          else none
      match pick with
      | none => none
      | some e =>
        some ((s.fillSlot r k e.seq e.x (e.grp.getD 0)).setRing { y with
          slots := y.slots ++ [(k, e.seq)], pubd := y.pubd ++ [e.seq], ext := y.ext.filter (fun f => f.seq ≠ e.seq) })
  else
    match y.ext.find? (fun e => sdiff e.seq (s.rLow r) < s.rDepth r) with
    | none => none
    | some e =>
      some ((s.fillSlot r (e.seq % s.rDepth r) e.seq e.x 0).setRing { y with
        pubd := y.pubd ++ [e.seq], ext := y.ext.filter (fun f => f.seq ≠ e.seq) })

/-- Move as many as may move. -/
def State.moveAll (s : State) (r : Nat) : Nat → State
  | 0 => s
  | f + 1 => match s.moveOne r with
    | none => s
    | some s => s.moveAll r f

/-! ### Producer blocks (R129, R141) -/

def State.pFlags (s : State) (b : Nat) : Nat := s.rd (b + 48) 4
def State.pVector (s : State) (b : Nat) : Bool := fld (s.pFlags b) 0 1 = 1
def State.pDeal (s : State) (b : Nat) : Bool := fld (s.pFlags b) 1 1 = 1
def State.pTargets (s : State) (b : Nat) : Nat := fld (s.pFlags b) 2 4 + 1
def State.pXmod (s : State) (b : Nat) : Bool := fld (s.pFlags b) 6 1 = 1
/-- The ring that a target of a producer block is, of this module or, with XMOD, of another. -/
def State.pTarget (s : State) (b i : Nat) : Nat :=
  let x := s.rd (b + 3 * i) 3
  if s.pXmod b then xring (fld (s.rd (b + 60) 4) 0 13) x else locSpad (fld x 0 10) (fld x 10 14 * 64)
def State.pGseq (s : State) (b : Nat) : Nat := s.rd (b + 52) 4
def State.pOpen (s : State) (b : Nat) : Option Nat :=
  let x := s.rd (b + 56) 4
  if fld x 4 1 = 1 then some (fld x 0 4) else none

/-- A target is live while its ring has a bound cursor (R141); one of another module is taken to be (log 54). -/
def State.rLive (s : State) (r : Nat) : Bool := isXring r || fld (s.rFlags r) 5 4 ≠ 0

def State.liveTargets (s : State) (b : Nat) : List Nat :=
  (List.range (s.pTargets b)).filter (fun i => s.rLive (s.pTarget b i))

/-- Elements a target holds or is being sent, and not yet read. -/
def State.backlog (s : State) (r : Nat) : Nat :=
  (sdiff (s.rRseq r) (s.rLow r)).toNat + (s.flights.filter (fun f => f.ring == r && f.cargo.isElem)).length

/-- The live target with the fewest elements not yet read, the lowest number first (R141). -/
def State.dealChoice (s : State) (b : Nat) : Option Nat :=
  (s.liveTargets b).foldl (fun best i => match best with
    | none => some i
    | some j => if s.backlog (s.pTarget b i) < s.backlog (s.pTarget b j) then some i else some j) none

/-! ### Credits (R129) -/

/-- Credits that a producer end holds for a ring (R129). -/
def State.credit (s : State) (c e r : Nat) : Nat :=
  (((s.til (tilOf c)).credits.find? (fun k => k.cid == c && k.e == e && k.ring == r)).map (·.held)).getD 0

def State.setCredit (s : State) (c e r n : Nat) : State :=
  s.modTil (tilOf c) (fun t => { t with
    credits := (t.credits.filter (fun k => !(k.cid == c && k.e == e && k.ring == r))) ++
      (if n = 0 then [] else [{ cid := c, e := e, ring := r, held := n }]) })

/-- The producer block that a bound end names. -/
def State.endLoc (s : State) (c e : Nat) : Nat := bindLoc c ((s.ctx c).bind.toList.getD e 0)

/-- An end waits for credit for a ring, or for more of it (R129). -/
def State.thirst (s : State) (c e r : Nat) : State :=
  let y := s.ringX r
  (s.setRing { y with
    waiters := if y.waiters.contains (c, e) then y.waiters else y.waiters ++ [(c, e)]
    dry := if s.credit c e r ≠ 0 ∨ y.dry.contains (c, e) then y.dry else y.dry ++ [(c, e)] }).laterOnce (.creditGrant r)

/-- The rings that an enqueue to an end may reach. -/
def State.endRings (s : State) (c e : Nat) : List Nat :=
  let w := (s.ctx c).bind.toList.getD e 0
  let b := bindLoc c w
  if bindKind w ≠ 1 ∨ !bindWr w then []
  else if bindPort w = 0 then [b]
  else if s.pDeal b then (match s.pOpen b with
    | some i => [s.pTarget b i]
    | none => (List.range (s.pTargets b)).map (s.pTarget b))
  else [s.pTarget b 0]

/-- Enqueues among tentative operations. -/
def enqsOf (l : List TxOp) : List (Nat × Elem) := l.filterMap (fun o => match o with
  | .deq _ => none
  | .enq e x _ => some (e, x))

/-- Does the holder of the token of a ring's tiller, another strand than `c`, have a tentative enqueue to it (R180)? -/
def State.tokenOn (s : State) (c r : Nat) : Bool :=
  !isXring r && (match (s.til (ringTil r)).token.holder with
    | none => false
    | some h => h ≠ c && (s.ctx h).tx.sole && (enqsOf (s.ctx h).tx.point.ops).any (fun p => (s.endRings h p.1).contains r))

/-- The producer ends of another module are known by their module and a number of its own. -/
def peerCid (module : Nat) : Nat := 2 ^ 17 + module
def isPeer (c : Nat) : Bool := 2 ^ 17 ≤ c

/-- The reference by which another module names a ring (R129), and the ring. -/
def ringRef (r : Nat) : Nat := ringTil r + (r - 2 ^ 50) % 2 ^ 20 / 64 * 2 ^ 10
def refRing (ref : Nat) : Nat := locSpad (fld ref 0 10) (fld ref 10 14 * 64)

def State.toPeer (s : State) (m : PeerMsg) : State := { s with port := { s.port with peerOut := s.port.peerOut ++ [m] } }

/-- A waiting end gets a credit; one of another module is sent it (R129, R413). -/
def State.giveCredit (s : State) (r : Nat) (w : Nat × Nat) : State :=
  if isPeer w.1 then
    let y := s.ringX r
    (s.setRing { y with waiters := y.waiters.erase w, dry := y.dry.erase w }).toPeer (.credit (w.1 - peerCid 0) (ringRef r) w.2)
  else s.setCredit w.1 w.2 r (s.credit w.1 w.2 r + 1)

/-- One credit for a waiting end, where the ring has a place for it and, if it is an XORD ring, would accept the end's next
element beside all the places granted (R129, R143; log 16). An end that waits with a credit, or to publish a number that it has
reserved, is told when its element would be taken (R143, R154, R162). No place goes to an end that a token holder keeps out (R180). -/
def State.grantTo (s : State) (r : Nat) (w : Nat × Nat) : Option State :=
  let g := (s.ctx w.1).group
  if s.tokenOn w.1 r then none
  else if 0 < s.rFree r ∧ s.xordAccepts r g (s.rGrant r + 1 - s.coming r) then
    some ((s.giveCredit r w).rPut r 44 (s.rGrant r + 1))
  else if 0 < s.credit w.1 w.2 r ∧ s.takes r g then some s
  else if (s.ringX r).resv.any (fun p => p.1 == w.1 && p.2.1 == w.2) ∧ s.takesOwn r g then some s
  else none

/-- One credit to each of the ends in their order, as far as it goes; each that is served looks at its channel again. -/
def State.grantEach (s : State) (r : Nat) : List (Nat × Nat) → State
  | [] => s
  | w :: ws => match s.grantTo r w with
    | none => s.grantEach r ws
    | some t => (if isPeer w.1 then t else t.changeChan (t.endLoc w.1 w.2)).grantEach r ws

/-- Does a strand sleep? -/
def Ctx.asleep (x : Ctx) : Bool :=
  match x.wait with
  | .sleep _ _ => true
  | .retry _ => true
  | _ => false

/-- The write ends of a ring. -/
def State.writersOf (s : State) (r : Nat) : Nat :=
  s.ctxs.foldl (fun n p => n + ((List.range 12).filter (fun e => (s.endRings p.1 e).contains r)).length) 0

/-- What is left of the free places goes to the ends that sleep, one more to each in turn, but for one place kept for each
other write end (log 16). -/
def State.grantMore (s : State) (r : Nat) (ws : List (Nat × Nat)) (keep : Nat) : Nat → State
  | 0 => s
  | f + 1 =>
    if (keep : Int) < s.rFree r then
      let t := s.grantEach r ws
      if t.rFree r < s.rFree r then t.grantMore r ws keep f else s
    else s

/-- A ring grants free places to the ends that wait for credit: those without any in the order in which they ran out of it,
then the others (R129). An end that has credit, and whose next element the ring would take, waits no longer. A ring whose block
is rejected grants nothing (R4, log 27). -/
def State.grant (s : State) (r : Nat) : State :=
  let s := s.adopt r
  if (s.ringX r).geo.isNone then s else
  let y := s.ringX r
  let ws := y.dry.filter y.waiters.contains ++ y.waiters.filter (fun w => !y.dry.contains w)
  let s := s.grantEach r ws
  let s := s.grantMore r (ws.filter (fun w => (s.ctx w.1).asleep)) (s.writersOf r - 1) (s.rFree r).toNat
  let y := s.ringX r
  let has := fun (w : Nat × Nat) => s.credit w.1 w.2 r ≠ 0
  s.setRing { y with dry := y.dry.filter (fun w => !has w)
                     waiters := y.waiters.filter (fun w => !(has w && s.takes r (s.ctx w.1).group)) }

/-- Was a port that leads to a ring's module marked down after an end was bound (R414)? -/
def State.isCut (s : State) (c e r : Nat) : Bool :=
  isXring r && (s.port.failures.drop ((s.ctx c).boundAt.toList.getD e 0)).any (fun p =>
    s.port.peers.any (fun q => q.1 == xringModule r && q.2.1 == p))

/-- An element of an end sets out to a ring, unless the end is cut off from it: it is lost then (R414). -/
def State.sendFar (s : State) (c e r : Nat) (x : Cargo) : State := if s.isCut c e r then s else s.launchCargo r c x

/-- Send one element to a target of a producer block: a credit is used (R129). An end whose last credit it was has run out
of it. -/
def State.sendTo (s : State) (c e r : Nat) (x : Elem) (grp deal : Option Nat) (dealt : Bool) : State :=
  let n := s.credit c e r - 1
  let y := s.ringX r
  let s := if 0 < n ∨ y.dry.contains (c, e) then s else s.setRing { y with dry := y.dry ++ [(c, e)] }
  (s.setCredit c e r n).sendFar c e r (.elem x grp deal dealt none)

end Sys2Proof.Machine
end

