-- ==== Sys2Proof/Machine/Operands.lean ====
section
/-! DEFINITION. Register operands and channel ends: reads that dequeue and writes that enqueue (R36), what is examined
before an instruction acts (R133, R138, R189), token handlers (R137, R139), what stops an instruction (R165, R169, R220,
R381), and the frame all instructions share (`perform`). -/

namespace Sys2Proof.Machine

/-! ### Registers -/

def Ctx.getS (x : Ctx) (n : Nat) : Word := if n = 0 then 0 else (x.s[n]?).getD 0
def Ctx.setS (x : Ctx) (n : Nat) (w : Word) : Ctx := if n = 0 then x else { x with s := x.s.setIfInBounds n w }
def Ctx.getV (x : Ctx) (n : Nat) : VReg := (x.v[n]?).getD 0
def Ctx.setV (x : Ctx) (n : Nat) (w : VReg) : Ctx := { x with v := x.v.setIfInBounds n w }
/-- m0 reads all ones (R15). -/
def Ctx.getM (x : Ctx) (n : Nat) : Word := if n = 0 then BitVec.allOnes 64 else (x.m[n]?).getD 0
def Ctx.setM (x : Ctx) (n : Nat) (w : Word) : Ctx := if n = 0 then x else { x with m := x.m.setIfInBounds n w }
def Ctx.getBind (x : Ctx) (e : Nat) : Word := (x.bind[e]?).getD 0
def Ctx.bound (x : Ctx) (e : Nat) : Bool := x.getBind e ≠ 0

/-- The bound end that a field names, if it names one (R36). -/
def Ctx.endOf (x : Ctx) : Fld → Option Nat
  | .s n => if 24 ≤ n ∧ x.bound (n - 24) then some (n - 24) else none
  | .v n => if 12 ≤ n ∧ n < 16 ∧ x.bound (n - 4) then some (n - 4) else none
  | .ab n =>
    if n < 16 then (if 12 ≤ n ∧ x.bound (n - 4) then some (n - 4) else none)
    else if 24 ≤ n ∧ x.bound (n - 24) then some (n - 24) else none

/-- Does a field name one of s16 to s31 (R88)? -/
def Fld.high : Fld → Bool
  | .s n => 16 ≤ n
  | .v _ => false
  | .ab n => 16 ≤ n

/-- A bound end's direction (R133). -/
def readEnd (b : Word) : Bool :=
  if bindKind b = 1 ∨ bindKind b = 4 then !bindWr b else if bindKind b = 2 then bindPort b = 1 else bindPort b = 2

/-! ### Reference engines, streams and the merge unit as ends -/

def State.refOf (s : State) (c e : Nat) : Option RefBind :=
  (s.til (tilOf c)).refs.find? (fun r => r.cid == c && (r.idx == e || r.res == some e))
def State.setRef (s : State) (r : RefBind) : State :=
  s.modTil (tilOf r.cid) (fun t => { t with
    refs := t.refs.map (fun q => if q.cid = r.cid ∧ q.idx = r.idx then r else q) })
def State.streamOf (s : State) (c e : Nat) : Option StreamBind :=
  (s.til (tilOf c)).streams.find? (fun r => r.cid == c && r.e == e)
def State.setStream (s : State) (r : StreamBind) : State :=
  s.modTil (tilOf r.cid) (fun t => { t with
    streams := t.streams.map (fun q => if q.cid = r.cid ∧ q.e = r.e then r else q) })

/-- Indices of a descriptor that are to be fetched, fetched or await delivery (R146). -/
def RefBind.held (r : RefBind) : Nat :=
  (r.fetches.filter (fun f => match f with
    | .mark _ => false
    | _ => true)).length + r.pack.length + r.out.foldl (fun a p => a + p.2) 0
/-- Fetches of an engine that are outstanding, over its descriptors (R146). -/
def Tiller.inflight (t : Tiller) (eng : Nat) : Nat :=
  (t.refs.filter (fun r => r.eng == eng)).foldl (fun a r => a + (r.fetches.filter (fun f => match f with
    | .done _ => false
    | .mark _ => false
    | .queued _ => false
    | _ => true)).length) 0

/-- A partly filled vector goes out, its unfilled lanes zero (R146). -/
def RefBind.flush (r : RefBind) : RefBind :=
  if r.pack.isEmpty then r
  else
    let w := if r.rsize = 0 then 32 else 64
    let x := (List.range r.pack.length).foldl (fun a j => a + (r.pack.getD j 0).toNat % 2 ^ w * 2 ^ (w * j)) 0
    { r with pack := [], out := r.out ++ [({ awn := false, data := BitVec.ofNat 512 x }, r.pack.length)] }

/-- Deliver results in index order, up to the first fetch that has not returned (R146). -/
def RefBind.deliver (r : RefBind) : List Fetch → RefBind
  | .mark x :: fs => RefBind.deliver { r.flush with out := r.flush.out ++ [(x, 0)] } fs
  | .done x :: fs =>
    let packed := r.res.any (8 ≤ ·) && r.rsize ≤ 1
    if x.awn then
      let r := r.flush
      RefBind.deliver { r with out := r.out ++ [(x, 1)] } fs
    else if packed then
      let r := { r with pack := r.pack ++ [x.data.extractLsb' 0 64] }
      RefBind.deliver (if r.pack.length = (if r.rsize = 0 then 16 else 8) then r.flush else r) fs
    else RefBind.deliver { r with out := r.out ++ [(x, 1)] } fs
  | fs => { r with fetches := fs }

/-- Delivery of a descriptor's results, once its result end is bound; readers are told (R195). -/
def State.refDeliver (s : State) (r : RefBind) : State :=
  if r.res.isNone then s.setRef r
  else
    let r' := r.deliver r.fetches
    let s := s.setRef r'
    if r'.out.length = r.out.length then s else s.changeKey (.chan (lineOf (locSpad (tilOf r.cid) r.desc)))

/-- The first index that waits to be fetched becomes a fetch. -/
def beginFirst : List Fetch → List Fetch
  | [] => []
  | .queued va :: r => .pending va :: r
  | f :: r => f :: beginFirst r

/-- Indices that an engine has accepted are fetched as its outstanding ones fall below 256 (R146). -/
def State.startQueued (s : State) (til eng : Nat) : Nat → State
  | 0 => s
  | f + 1 =>
    let t := s.til til
    match t.refs.find? (fun r => r.eng == eng && r.fetches.any (fun x => match x with
      | .queued _ => true
      | _ => false)) with
    | none => s
    | some r =>
      if 256 ≤ t.inflight eng then s
      else (((s.setRef { r with fetches := beginFirst r.fetches }).later (.engineFetchComplete r.cid r.idx))).startQueued
        til eng f

/-- Elements of a pattern (R149). -/
def StreamBind.total (b : StreamBind) : Nat := b.c0 * b.c1 * b.c2
def StreamBind.addr (b : StreamBind) (p : Nat) : Word :=
  b.base + BitVec.ofInt 64 ((p % b.c0 : Nat) * b.s0 + (p / b.c0 % b.c1 : Nat) * b.s1 + (p / b.c0 / b.c1 : Nat) * b.s2)

/-! ### Reading and writing an end -/

/-- What a reading end has to offer. -/
inductive Head where
  | elem (x : Elem)
  | empty
  /-- An exhausted stream (R150). -/
  | over
  deriving DecidableEq, Repr

/-- The `j`-th element of a read end. -/
def State.endHead (s : State) (c e j : Nat) : Head :=
  let b := (s.ctx c).getBind e
  let opt := fun (o : Option Elem) => match o with
    | some x => Head.elem x
    | none => Head.empty
  match bindKind b with
  | 1 => opt (s.ringHead (bindLoc c b) (bindPort b) j)
  | 2 => opt (match s.refOf c e with
    | some r => (r.out[j]?).map (·.1)
    | none => none)
  | 3 => opt (match (s.til (tilOf c)).merge with
    | some m => m.bufo[j]?
    | none => none)
  | _ => match s.streamOf c e with
    | none => .over
    | some r => match r.buf[j]? with
      | some x => .elem x
      | none => if r.ended then .over else .empty

/-- What a dequeue from a dealt end does to the replica's open group (R142). -/
def State.regroup (s : State) (c r cur : Nat) (x : Elem) : State :=
  if (s.ringX r).dealt then
    if x.awn ∧ x.level = 7 then
      match (s.ctx c).group with
      | none => s
      | some g => (s.modCtx c (fun y => { y with group := none })).closeFor c g
    else match s.headGroup r cur 0 with
      | none => s
      | some g => match (s.ctx c).group with
        | none => s.modCtx c (fun y => { y with group := some g })
        | some h => if h = g then s else (s.modCtx c (fun y => { y with group := some g })).closeFor c h
  else s

/-- Consume the head element of a read end: an acquire at the channel's scope (R153). -/
def State.endTake (s : State) (c e : Nat) : State :=
  let b := (s.ctx c).getBind e
  match bindKind b with
  | 1 =>
    let r := bindLoc c b
    match s.ringHead r (bindPort b) 0 with
    | none => s
    | some x => ((s.regroup c r (bindPort b) x).advanceCursor r (bindPort b) 1).acquire (tilOf c) (s.rd (r + 56) 4)
  | 2 => match s.refOf c e with
    | none => s
    | some r => (s.setRef { r with out := r.out.drop 1 }).changeKey (.chan (lineOf (locSpad (tilOf c) r.desc)))
  | 3 => match (s.til (tilOf c)).merge with
    | none => s
    | some m => (s.modTil (tilOf c) (fun t => { t with merge := some { m with bufo := m.bufo.drop 1 } })).laterOnce
        (.mergeEmit (tilOf c))
  | _ => match s.streamOf c e with
    | none => s
    | some r => s.setStream { r with buf := r.buf.drop 1 }

/-- What an enqueue meets. -/
inductive Put where
  | done (s : State)
  | full
  /-- A store stream past its last address (R151). -/
  | over

/-- An enqueue through a producer block (R129, R141, R413). -/
def State.blockPut (s : State) (c e : Nat) (b : Nat) (x : Elem) : Put :=
  let grp := (s.ctx c).group
  if s.pDeal b then
    if x.awn ∧ x.level = 7 then
      let live := s.liveTargets b
      match live.foldl (fun (t : Option State) i => t.bind (fun s =>
          if 0 < s.credit c e (s.pTarget b i) ∧ s.takes (s.pTarget b i) none then
            some (s.sendTo c e (s.pTarget b i) x none none true) else none)) (some (s.devWr (b + 56) 4 0)) with
      | some s => .done s
      | none => .full
    else
      let s := match s.pOpen b with
        | some _ => s
        | none => (s.devWr (b + 56) 4 ((s.dealChoice b).getD 0 + 16)).devWr (b + 52) 4 ((s.pGseq b + 1) % 2 ^ 32)
      let i := (s.pOpen b).getD 0
      let r := s.pTarget b i
      let g := (s.pGseq b + 2 ^ 32 - 1) % 2 ^ 32
      let s' := if x.awn then s.devWr (b + 56) 4 i else s
      if !s.rLive r then .done s'
      else if 0 < s.credit c e r ∧ s.takes r grp then .done (s'.sendTo c e r x grp (some g) true)
      else .full
  else
    let r := s.pTarget b 0
    if 0 < s.credit c e r ∧ s.takes r grp then .done (s.sendTo c e r x grp none false) else .full

/-- The targets of a producer block that an end which waits wants credit for, or to be told of room: the target of the open group,
or the one that a new group would take; where that one would take an element, every live target without credit, as a level-7
awn needs (R129, R141, R143, R154). -/
def State.creditTargets (s : State) (c e b : Nat) : List Nat :=
  if s.pDeal b then
    match (s.pOpen b).orElse (fun _ => s.dealChoice b) with
    | none => []
    | some i =>
      let r := s.pTarget b i
      if (s.credit c e r = 0 ∨ !s.takes r (s.ctx c).group) ∧ s.rLive r then [r]
      else ((s.liveTargets b).map (s.pTarget b)).filter (fun r => s.credit c e r == 0)
  else [s.pTarget b 0]

/-- A reference engine takes an index or an awn; the index waits in the engine while its 256 fetches are outstanding
(R146). -/
def State.refPut (s : State) (c e : Nat) (x : Elem) : Put :=
  match s.refOf c e with
  | none => .full
  | some r =>
    if 256 ≤ r.held then .full
    else if x.awn then .done (s.refDeliver { r with fetches := r.fetches ++ [.mark x] })
    else
      let size := if r.rsize = 0 then 4 else if r.rsize = 1 then 8 else 64
      let va : Word := r.base + x.data.extractLsb' 0 64 * BitVec.ofNat 64 size
      if va.toNat ≥ 2 ^ 52 then .done (s.refDeliver { r with fetches := r.fetches ++ [.done fetchFail] })
      else if 256 ≤ (s.til (tilOf c)).inflight r.eng then .done (s.setRef { r with fetches := r.fetches ++ [.queued va] })
      else .done ((s.setRef { r with fetches := r.fetches ++ [.pending va] }).later (.engineFetchComplete c r.idx))

/-- The merge unit takes an element on an input (R352). -/
def State.mergePut (s : State) (c port : Nat) (x : Elem) : Put :=
  match (s.til (tilOf c)).merge with
  | none => .full
  | some m =>
    if 32 ≤ (if port = 0 then m.bufa else m.bufb).length then .full
    else
      let m := if port = 0 then { m with bufa := m.bufa ++ [x] } else { m with bufb := m.bufb ++ [x] }
      .done ((s.modTil (tilOf c) (fun t => { t with merge := some m })).laterOnce (.mergeEmit (tilOf c)))

/-- A store stream takes an element; an awn of level 0 to 6 is discarded, and QEND completes once nothing is left to
store (R151). The port holds at most 64 elements not yet stored (log 17). -/
def State.streamPut (s : State) (c e : Nat) (x : Elem) : Put :=
  match s.streamOf c e with
  | none => .over
  | some r =>
    if x.awn then (if x.level = 7 ∧ !r.buf.isEmpty then .full else .done s)
    else if r.total ≤ r.pos + r.buf.length then .over
    else if 64 ≤ r.buf.length then .full
    else .done (s.setStream { r with buf := r.buf ++ [x] })

/-- A unit takes an element. -/
def State.putUnit (s : State) (c e : Nat) (x : Elem) : Put :=
  let b := (s.ctx c).getBind e
  match bindKind b with
  | 2 => s.refPut c e x
  | 3 => s.mergePut c (bindPort b) x
  | _ => s.streamPut c e x

def State.putUnits (s : State) (c e : Nat) : List Elem → Put
  | [] => .done s
  | x :: l => match s.putUnit c e x with
    | .done s => s.putUnits c e l
    | .full => .full
    | .over => .over

/-- What has been sent to an end's unit and is not there yet (R68). -/
def State.intakeOf (s : State) (c e : Nat) : List Elem :=
  ((s.til (tilOf c)).intake.filter (fun i => i.cid == c && i.e == e)).map (·.x)

/-- An element for a unit: at once, or as the result that it is once that is there, behind what is on its way to the same end
(R68). The unit has room for all of it. -/
def State.unitPut (s : State) (c e : Nat) (x : Elem) : Put :=
  let late := s.intakeOf c e
  if late.isEmpty ∧ s.due.toNat ≤ (s.core (coreOf c)).cycle.toNat then s.putUnit c e x
  else match s.putUnits c e (late ++ [x]) with
    | .done _ => .done (s.modTil (tilOf c) (fun t => { t with intake := t.intake ++ [{ cid := c, e := e, x := x, due := s.due }] }))
    | p => p

/-- An element on its way to a unit gets there. -/
def State.takeIn (s : State) (i : Intake) : State :=
  match (s.modTil (tilOf i.cid) (fun t => { t with intake := t.intake.erase i })).putUnit i.cid i.e i.x with
  | .done t => t
  | _ => s

/-- Everything on its way to a unit over an end gets there. -/
def State.takeAll (s : State) (c e : Nat) : State :=
  ((s.til (tilOf c)).intake.filter (fun i => i.cid == c && i.e == e)).foldl (fun s i => s.takeIn i) s

/-- One enqueue to a write end. -/
def State.endPut (s : State) (c e : Nat) (x : Elem) : Put :=
  let b := (s.ctx c).getBind e
  match bindKind b with
  | 1 =>
    if bindPort b = 0 then
      let r := bindLoc c b
      if s.ringRoom r 1 (s.ctx c).group then .done (s.ringEnqueue r c x (s.ctx c).group none false) else .full
    else s.blockPut c e (bindLoc c b) x
  | _ => s.unitPut c e x

/-- Enqueues in order, all or none. -/
def State.putAll (s : State) (c : Nat) : List (Nat × Elem) → Put
  | [] => .done s
  | (e, x) :: r => match s.endPut c e x with
    | .done s => s.putAll c r
    | .full => .full
    | .over => .over

/-- The key of an end (R192). -/
def State.endKey (s : State) (c e : Nat) : Key := .chan (lineOf (bindLoc c ((s.ctx c).getBind e)))

/-- The end's block lies in the strand's own tiller (R171). -/
def State.endLocal (s : State) (c e : Nat) : Bool :=
  let b := (s.ctx c).getBind e
  bindKind b ≠ 1 || bindQs b || bindTil b == tilOf c

/-- Dequeues from an end that the attempt has made (R173). -/
def Ctx.deqs (x : Ctx) (e : Nat) : Nat := if x.tx.active then x.tx.point.ops.count (.deq e) else 0
/-- Enqueues that the attempt holds (R173). -/
def Ctx.enqs (x : Ctx) : List (Nat × Elem) := if x.tx.active then enqsOf x.tx.point.ops else []

/-- Tentative operations performed in program order (R173). Their results are there: a commit waits for them (R68, R178). -/
def State.runOps (s : State) (c : Nat) : List TxOp → Put
  | [] => .done s
  | .deq e :: r => (s.endTake c e).runOps c r
  | .enq e x _ :: r => match ({ s with due := 0 } : State).endPut c e x with
    | .done t => ({ t with due := s.due } : State).runOps c r
    | .full => .full
    | .over => .over

/-- Elements of earlier fields at the same end (R138). -/
def earlier (e : Nat) (l : List Nat) : Nat := (l.filter (· == e)).length

/-! ### What is examined before an instruction acts -/

/-- The ends among those to be read that lack an element. -/
def emptyEnds (s : State) : List Nat → List Nat → List Nat
  | _, [] => []
  | seen, e :: r => match s.endHead s.cur e (s.me.deqs e + earlier e seen) with
    | .empty => e :: emptyEnds s (e :: seen) r
    | _ => emptyEnds s (e :: seen) r

/-- The ends to be read, examined in order: the first that has no element makes the instruction wait for every one that lacks
one (R68), and the first that has an awn at its head decides (R138). An exhausted stream traps (R150). -/
def scanReads (s : State) : List Nat → List Nat → Except Stop (List Nat)
  | _, [] => .ok []
  | seen, e :: r =>
    match s.endHead s.cur e (s.me.deqs e + earlier e seen) with
    | .over => .error (.trap Cause.bounds 0 0)
    | .empty => .ok (e :: emptyEnds s (e :: seen) r)
    | .elem x =>
      if x.awn then .error (if seen.contains e ∨ r.contains e then .trap Cause.awn 0 0 else .awn e x)
      else scanReads s (e :: seen) r

/-- The tiller whose token holder keeps an enqueue to an end out (R180). -/
def State.tokenAt (s : State) (c e : Nat) : Option Nat :=
  ((s.endRings c e).find? (s.tokenOn c)).map ringTil

/-- Another strand holds the token with a tentative enqueue to the same ring (R180). -/
def State.tokenBlocks (s : State) (c e : Nat) : Bool := (s.tokenAt c e).isSome

/-- The ends that lack room among those to be written, given what each would receive. -/
def scanWrites (s : State) : List (Nat × Elem) → List (Nat × Elem) → Except Stop (List Nat)
  | _, [] => .ok []
  | done, (e, x) :: r =>
    if s.tokenBlocks s.cur e then (scanWrites s done r).map (e :: ·)
    else match s.putAll s.cur (s.me.enqs ++ done ++ [(e, x)]) with
      | .over => .error (.trap Cause.bounds 0 0)
      | .full => (scanWrites s done r).map (e :: ·)
      | .done _ => scanWrites s (done ++ [(e, x)]) r

/-- The key a write end waits on: its own, or the token that keeps it out (R180, R190). -/
def State.waitKey (s : State) (e : Nat) : Key :=
  match s.tokenAt s.cur e with
  | some t => .token t
  | none => s.endKey s.cur e

def dataElem : Elem := { awn := false, data := 0 }

/-- Examine every end an instruction reads, in order, and every end it writes, with what that end would receive. Nothing
is dequeued or enqueued (R36, R133, R138, R189). The read ends are examined before the written ones: an awn decides whether the
ends written have room or not, but not behind an empty end (log 25). In an attempt the ends of an instruction that does not wait
join the two sets; of one that waits only those that it lacks do (R174, R188). -/
def examine (rd : List Nat) (wr : List (Nat × Elem)) : Op Unit := do
  let s ← get
  let x := s.me
  if rd.any (fun e => !readEnd (x.getBind e)) ∨ wr.any (fun p => readEnd (x.getBind p.1)) then raise Cause.illegal
  if x.tx.active then
    if rd.any (fun e => !s.endLocal s.cur e) then stop (.abort 3 0)
  match scanReads s [] rd, scanWrites s [] wr with
  | .error e, _ => stop e
  | .ok [], .error e => stop e
  | .ok [], .ok [] =>
    if x.tx.active then
      rd.forM (fun e => readKey (s.endKey s.cur e))
      wr.forM (fun p => writeKey (s.endKey s.cur p.1))
  | .ok [], .ok ws => stop (.sleep 3 (ws.map s.waitKey) ws)
  | .ok rs, ws =>
    let ws := ws.toOption.getD []
    stop (.sleep 2 (rs.map (s.endKey s.cur) ++ ws.map s.waitKey) (rs ++ ws))

/-! ### Operand values -/

/-- Dequeue from an end that has been examined; in an attempt, tentatively (R36, R173). -/
def deq (e : Nat) : Op VReg := do
  let s ← get
  let x := s.me
  match s.endHead s.cur e (x.deqs e) with
  | .elem y =>
    if x.tx.active then
      set (s.modMe (fun x => { x with tx := { x.tx with point := { x.tx.point with
        ops := x.tx.point.ops ++ [.deq e] } } }))
    else set (s.endTake s.cur e)
    return y.data
  | _ => stop (.sleep 2 [s.endKey s.cur e] [e])

/-- Enqueue to an end that has been examined; in an attempt, tentatively (R36, R173). -/
def enq (e : Nat) (x : Elem) : Op Unit := do
  let s ← get
  if s.me.tx.active then
    let ops := s.me.tx.point.ops ++ [.enq e x s.due]
    match s.runOps s.cur ops with
    | .full => stop (.sleep 3 [s.endKey s.cur e] [e])
    | .over => raise Cause.bounds
    | .done _ => set (s.modMe (fun y => { y with tx := { y.tx with point := { y.tx.point with ops := ops } } }))
  else match s.endPut s.cur e x with
    | .done s => set s
    | .full => stop (.sleep 3 [s.endKey s.cur e] [e])
    | .over => raise Cause.bounds

/-- ReadOp of a scalar field. -/
def rdS (n : BitVec 5) : Op Word := do
  let x ← ask State.me
  match x.endOf (.s n.toNat) with
  | some e => return (← deq e).extractLsb' 0 64
  | none => return x.getS n.toNat

/-- WriteOp of a scalar field. -/
def wrS (n : BitVec 5) (w : Word) : Op Unit := do
  let x ← ask State.me
  match x.endOf (.s n.toNat) with
  | some e => enq e { awn := false, data := w.setWidth 512 }
  | none => upd (fun s => s.modMe (fun x => x.setS n.toNat w))

/-- The second operand of a format-A word: the immediate or a register (R30). -/
def rdB (i : BitVec 1) (b : BitVec 5) : Op Word := if i = 1 then return b.setWidth 64 else rdS b

/-- ReadOp of a vector field. -/
def rdV (n : BitVec 5) : Op VReg := do
  let x ← ask State.me
  match x.endOf (.v n.toNat) with
  | some e => deq e
  | none => return x.getV n.toNat

/-- WriteOp of a vector field. -/
def wrV (n : BitVec 5) (w : VReg) : Op Unit := do
  let x ← ask State.me
  match x.endOf (.v n.toNat) with
  | some e => enq e { awn := false, data := w }
  | none => upd (fun s => s.modMe (fun x => x.setV n.toNat w))

/-- A scalar's low bits in every lane of a width (R35). -/
def broadcast (w : Nat) (x : Word) : VReg :=
  BitVec.ofNat 512 ((List.range (512 / w)).foldl (fun a j => a + x.toNat % 2 ^ w * 2 ^ (w * j)) 0)

/-- ReadOp of an A or B field of the vector classes, for lanes of a width (R35). -/
def rdAB (n : BitVec 5) (w : Nat) : Op VReg := do
  if n.toNat < 16 then rdV n else return broadcast w (← rdS n)

def rdM (n : Nat) : Op Word := ask (fun s => s.me.getM n)
def wrM (n : Nat) (w : Word) : Op Unit := upd (fun s => s.modMe (fun x => x.setM n w))

/-! ### Accesses that are outstanding (R215, R264) -/

/-- What a store to the own scratchpad has the next instruction wait for, whatever that names (R72, R206). -/
def regNext : Nat := 57

/-- Is an earlier access of a context outstanding in a cycle: any, or a load, or a store to a line? -/
def Core.outstanding (k : Core) (c : Nat) (cycle : Nat) (loads : Bool) (line : Option Nat) : Bool :=
  k.reqs.any (fun r => r.cid == c && decide (cycle < r.until_.toNat) && (!loads || r.load) &&
    line.all (fun l => !r.far && !r.load && r.line == l)) ||
  (line.isNone && k.waves.any (fun w => w.cid == c && (!loads || w.regs != [regNext])))

/-- What a FENCE or CINV drops in a tiller. -/
def State.flush (s : State) (til : Nat) : Flush → State
  | .none => s
  | .acquire scope => s.acquire til scope
  | .line l data code => s.modTil til (fun t => { t with
      l1 := if data then t.l1.filter (fun x => x.line ≠ l) else t.l1
      icache := if code then t.icache.filter (fun x => x.line ≠ l) else t.icache })

/-- The acting context is held until its earlier accesses are performed and a cycle has come (R75 cause 15), and drops what it is to
then; where nothing is waited for it does so at once and goes on. -/
def State.holdOrder (s : State) (loads : Bool) (line : Option Nat) (at_ : Word) (flush : Flush) : State :=
  let k := s.core s.myCore
  if k.outstanding s.cur k.cycle.toNat loads line ∨ k.cycle.toNat < at_.toNat then
    s.modMe (fun x => { x with wait := .order loads line at_ flush })
  else s.flush s.myTil flush

/-! ### Distances (R213, R256) -/

/-- Absolute difference of two numbers. -/
def apart (a b : Nat) : Nat := (a - b) + (b - a)

/-- The latency of a load from another tiller's near space on an idle package (R213): h is counted as if both were on one
die. -/
def meshCycles (a b : Nat) : Nat :=
  let far := dieOfTil a ^^^ dieOfTil b
  (if far = 0 then 24 else if far = 3 then 214 else 174) + 4 * (apart (a / 16 % 16) (b / 16 % 16) + apart (a % 16) (b % 16))

/-- Is the package idle, as R212, R213 and R256 mean it: no copy, nothing on its way to a ring, and no request outstanding? -/
def State.quiet (s : State) : Bool :=
  s.copies.isEmpty && s.flights.isEmpty &&
  s.cores.all (fun k => k.2.reqs.all (fun q => q.hit || q.until_.toNat ≤ k.2.cycle.toNat))

/-- The cycle at which a migrant that leaves a tiller now reaches another (R256): later by a free number where the package is not
idle. -/
def State.landsAt (s : State) (src target : Nat) : Word :=
  (s.core (src * 4)).cycle + BitVec.ofNat 64 (meshCycles src target - 8 + if s.quiet then 0 else Config.freeNat s.nonce)

/-! ### Stops -/

/-- Post a miss record to the miss box of the core (R219). -/
def kindCode : Acc → Nat
  | .load => 0
  | .store => 1
  | .fetch => 2
  | .atomic => 3
  | .stm => 4

def State.postMiss (s : State) (c : Nat) (k : Acc) (lane : Nat) (va : Word) (quiet : Bool) : State :=
  let b := bodyOf [(0, 4, (s.sid c).toNat), (4, 1, kindCode k), (8, 8, va.toNat), (16, 8, (s.ctx c).pc.toNat)]
  (s.modCtx c (fun x => { x with wait := .miss k lane va quiet })).send (coreOf c) 2
    { header := headerFrom c 24, body := b }

/-- The service core for a tiller's partition on its die (R14), the first of the creation's list that lies there (log 56); a
tiller without a partition has its own core 0 (log 15). -/
def State.service (s : State) (t : Nat) : Nat :=
  match tget s.parts (s.partOf t) with
  | none => t * 4
  | some p => (p.services.find? (fun k => k / 1024 == dieOfTil t)).getD (t * 4)

/-- Post a fault message and wait for its reply (R221). -/
def State.postFault (s : State) (c : Nat) (k : Acc) (cause lane : Nat) (va : Word) : State :=
  let b := bodyOf [(0, 4, (s.sid c).toNat), (4, 1, kindCode k), (5, 1, cause), (6, 2, lane), (8, 8, va.toNat),
    (16, 8, (s.ctx c).pc.toNat), (24, 4, tilOf c)]
  (s.modCtx c (fun x => { x with wait := .fault k lane va })).send (s.service (tilOf c)) 1
    { header := headerFrom c 16, body := b }

/-- What a wait on an end asks of the device: credit for a producer (R129, log 16). -/
def State.nudge (s : State) (c e : Nat) : State :=
  let b := (s.ctx c).getBind e
  if bindKind b = 1 ∧ bindWr b ∧ bindPort b = 1 then
    (s.creditTargets c e (bindLoc c b)).foldl (fun s r => s.thirst c e r) s
  else s

/-- A one-instruction transaction sleeps (R189, R193). -/
def State.sleepOn (s : State) (c cause : Nat) (keys : List Key) (ends : List Nat) : State :=
  let s := s.modCtx c (fun x => { x with wait := .sleep cause keys })
  ends.foldl (fun s e => s.nudge c e) (keys.foldl (fun s k => s.register c k) s)

/-- TXR: the innermost alternative goes, or the whole attempt sleeps (R185). -/
def State.txRetry (s : State) (c : Nat) : State :=
  let x := s.ctx c
  match x.tx.alts with
  | (t, p) :: r => s.setCtx c { x with tx := { x.tx with alts := r, point := p }, pc := t }
  | [] =>
    let keys := x.tx.reads
    let marked := x.tx.marked
    let s := s.setCtx c { x with
      tx := { x.tx.undo x.tx.cause with nconf := 0, rst := true }, wait := .retry keys, pc := x.tx.txbpc }
    let s := (keys.foldl (fun s k => s.register c k) s).dropToken c
    if marked then s.wakeCtx c else s

/-- A wait inside an attempt: its keys join the read set, with their owners told where they lie elsewhere (R172), and it acts
as TXR (R188). -/
def State.txWait (s : State) (c : Nat) (keys : List Key) (ends : List Nat) : State :=
  let s := keys.foldl (fun s k => s.registerOwner k (tilOf c)) (ends.foldl (fun s e => s.nudge c e) s)
  let x := s.ctx c
  let new := keys.foldl (fun l k => if l.contains k then l else l ++ [k]) x.tx.reads
  if 32 < x.tx.rcnt + (new.length - x.tx.reads.length) then s.abortTx c 2 0
  else (s.setCtx c { x with tx := { x.tx with reads := new, rcnt := x.tx.rcnt + (new.length - x.tx.reads.length) } }).txRetry c

/-- Send a strand's state to a tiller (R255, R256). A strand leaves its home MIGRATED; a hosting context stays taken until
the migrant has landed, since it may be refused (R257, R258). -/
def State.depart (s : State) (c target : Nat) (recalled : Bool) : State :=
  let x := s.ctx c
  let h := s.homeOf c
  let m : Migrant :=
    { home := h, sid := s.sid c
      flags := BitVec.ofNat 32 ((if x.af then 1 else 0) + (if x.ef then 2 else 0) + x.fstat.toNat * 2 ^ 16)
      s := (List.range 15).map (fun j => x.getS (j + 1)), pc := x.pc, ticket := x.ticket, frame := x.frame
      src := c, target := target, recalled := recalled, doomed := (s.ctx h).life == .killing
      due := s.landsAt (tilOf c) target }
  let s := s.modTil target (fun t => { t with landing := { t.landing with arriving := t.landing.arriving ++ [m] } })
  let s := s.modCtx c (fun x => { x with life := .migrated, wait := .none, slept := 0 })
  (s.modCtx h (fun x => { x with life := if x.life = .killing then .killing else .migrated, away := some target })).tick

/-- A MIG strand migrates once its earlier accesses are performed (R255). -/
def State.moveOut (s : State) (c target : Nat) : State :=
  if (s.core (coreOf c)).outstanding c (s.core (coreOf c)).cycle.toNat false none then
    s.modCtx c (fun x => { x with wait := .moving target })
  else s.depart c target false

/-- Enter the handler of an end for an awn that it consumes (R137), or trap: there is none, or a handler runs
(R138, R139). -/
def State.meetAwn (s : State) (c e : Nat) (x : Elem) (word : IWord) : State :=
  let y := s.ctx c
  match (if y.hmode then none else (y.handler[e]?).getD none) with
  | none => s.takeTrap c Cause.awn 0 0 word
  | some h =>
    (s.endTake c e).modCtx c (fun y => { y with
      tokv := BitVec.ofNat 64 (e * 2 ^ 36 + x.level * 2 ^ 32 + x.code.toNat), tokpc := y.pc, hmode := true, pc := h })

/-- What comes of an instruction that stops, from the state before it. DESIGN CHOICE: RCNT and WCNT after a CAPACITY abort are the
counts before the instruction, though several keys of it may have found room (log 55). -/
def State.onStop (s : State) (word : IWord) (e : Stop) : State :=
  let c := s.cur
  if s.me.tx.active then
    match e with
    | .trap cause _ _ =>
      if cause = Cause.illegal ∨ cause = Cause.priv then s.abortTx c 4 0
      else if cause = Cause.awn then s.abortTx c 6 0 else s.abortTx c 5 0
    | .sleep _ keys ends => s.txWait c keys ends
    | .miss k lane va quiet => s.postMiss c k lane va quiet
    | .fault _ _ _ _ => s.abortTx c 5 0
    | .awn _ _ => s.abortTx c 6 0
    | .hold w => s.modCtx c (fun x => { x with wait := w })
    | .abort cause acode => s.abortTx c cause acode
    | .conflict => s.restartConflict c
    | .migrate t => s.moveOut c t
  else
    match e with
    | .trap cause aux va => s.takeTrap c cause aux va word
    | .sleep cause keys ends => s.sleepOn c cause keys ends
    | .miss k lane va quiet => s.postMiss c k lane va quiet
    | .fault k cause lane va => s.postFault c k cause lane va
    | .awn e x => s.meetAwn c e x word
    | .hold w => s.modCtx c (fun x => { x with wait := w })
    | .abort _ _ => s
    | .conflict => s
    | .migrate t => s.moveOut c t

/-! ### The frame of every instruction -/

/-- Control after an instruction that completes. -/
def State.onDone (s : State) : Flow → State
  | .next => s.modMe Ctx.advance
  | .jump t => s.modMe (fun x => { x with pc := t })
  | .stay => s

/-- What an instruction's row forbids the strand that executes it: a MIG strand's limits (R88), content of an attempt
(R173), and a bound D that is both read and written (R36). -/
def rowCheck (i : Instr) : Op Unit := do
  let x ← ask State.me
  if x.mig ∧ (!i.migOk ∨ (i.reads ++ i.writes ++ i.readsAndWrites).any Fld.high) then raise Cause.illegal
  if x.tx.active ∧ i.content then stop (.abort 4 0)
  if i.readsAndWrites.any (fun f => (x.endOf f).isSome) then raise Cause.illegal

/-- Admission, then the ends its fields name. -/
def examineFields (i : Instr) : Op Unit := do
  let x ← ask State.me
  examine (i.reads.filterMap x.endOf) ((i.writes.filterMap x.endOf).map (fun e => (e, dataElem)))

/-- The word of an instruction, as a trap message reports it. -/
def wordOf (i : Instr) : IWord := (encode i).headD 0

/-- Run a body that checks for itself what it examines. -/
def performRaw (i : Instr) (body : Op Flow) (s : State) : Host.Outcome State Fault Refusal :=
  match (do rowCheck i; body : Op Flow) s with
  | .ok (f, s') => .next (s'.onDone f)
  | .error e => .next (s.onStop (wordOf i) e)

/-- Run an instruction: what its row forbids, then its ends, then its effect; on a stop the state before it, and what
the stop calls for. DESIGN CHOICE: so QLEN, RCUR, RRES, RPUB and TOKH wait for the end of a register field (R36) before they raise
ILLEGAL for an unbound or wrong end that they name (R133; log 55). -/
def perform (i : Instr) (body : Op Flow) (s : State) : Host.Outcome State Fault Refusal :=
  performRaw i (do examineFields i; body) s

/-- An effect after which control goes on to the next word. -/
def thenNext (m : Op Unit) : Op Flow := do
  m
  return .next

end Sys2Proof.Machine
end

