-- ==== Sys2Proof/Machine/Channel.lean ====
section
/-! DEFINITION. Binding and unbinding ends (R131 to R136, R145, R148, R149), and the channel class (R155 to R164). -/

namespace Sys2Proof.Machine

/-! ### Result codes and near addresses -/

/-- A failure code in D (R87, R116, R157). -/
def failCode (n : Nat) : Word := BitVec.ofNat 64 (2 ^ 63 + n)

/-- The near address of a byte of a tiller's scratchpad (R201). -/
def nearAddr (til off : Nat) : Word := BitVec.ofNat 64 (0xF0 * 2 ^ 56 + til * 2 ^ 32 + off)

/-! ### Descriptors -/

/-- Is a producer block well formed (R129), and is the module that it names mapped (R412)? -/
def State.blockOk (s : State) (b : Nat) : Bool :=
  (!s.pXmod b || s.port.peers.any (fun p => p.1 == fld (s.rd (b + 60) 4) 0 13)) && fld (s.pFlags b) 7 25 = 0 &&
    fld (s.rd (b + 56) 4) 5 27 = 0 && fld (s.rd (b + 60) 4) 13 19 = 0

/-- Is a reference descriptor well formed (R145)? -/
def State.refOk (s : State) (d : Nat) : Bool :=
  let rs := s.rd (d + 8) 1
  rs ≤ 2 && s.zeros (d + 9) 3 && s.zeros (d + 24) 40 && s.rd d 8 % (if rs = 0 then 4 else if rs = 1 then 8 else 64) = 0

/-- Is a merge descriptor well formed (R350)? -/
def State.mergeOk (s : State) (d : Nat) : Bool :=
  let m := s.rd d 1
  m % 4 ≠ 3 && m / 16 = 0 && s.zeros (d + 1) 3 && s.zeros (d + 12) 52

/-- A signed 32-bit number in memory. -/
def State.rdI (s : State) (a : Nat) : Int := (BitVec.ofNat 32 (s.rd a 4)).toInt

/-- Is a stream descriptor well formed for elements of a size (R149)? -/
def State.streamOk (s : State) (d size : Nat) : Bool :=
  let f := s.rd (d + 36) 1
  let cOk := fun a => 1 ≤ s.rd a 4 && s.rd a 4 ≤ 2 ^ 24
  let sOk := fun a => s.rdI a % (size : Int) = 0
  s.rd d 8 % size = 0 && cOk (d + 8) && cOk (d + 12) && cOk (d + 16) && s.zeros (d + 20) 4 &&
  sOk (d + 24) && sOk (d + 28) && sOk (d + 32) && f / 8 = 0 && !(fld f 0 1 = 1 && fld f 1 2 ≠ 0) && s.zeros (d + 37) 27

/-! ### Validity of an entry (R132, R157) -/

/-- Does another end hold a cursor of a ring: a bound one of any context, or one among the given entries? -/
def State.cursorTaken (s : State) (c r cur : Nat) (others : List (Nat × Word)) : Bool :=
  let names := fun (cc : Nat) (b : Word) => bindKind b == 1 && !bindWr b && bindPort b == cur && bindLoc cc b == r
  s.ctxs.any (fun p => p.1 ≠ c && p.2.bind.toList.any (names p.1)) || others.any (fun p => names c p.2)

/-- May an entry name what it names, before that is read: its fields, the place of its block, its port and its direction
(R132)? -/
def State.entryOk (s : State) (c e : Nat) (b : Word) : Bool :=
  let til := tilOf c
  let port := bindPort b
  let vec : Bool := 8 ≤ e
  let own : Bool := bindTil b = til && !bindQs b
  let placed : Bool :=
    if bindQs b then bindTil b = til && bindOff b + 64 ≤ 2 ^ 14
    else bindTil b < 1024 && (s.til (bindTil b)).part = (s.til til).part && bindOff b + 64 ≤ (s.til (bindTil b)).spadSize
  b.extractLsb' 32 32 = 0 && placed && (bindKind b = 2 || bindEng b = 0) && (match bindKind b with
    | 1 => true
    | 2 => own && (if port = 0 then bindWr b && !vec else port = 1 && !bindWr b)
    | 3 => own && !vec && port ≠ 3 && bindWr b = (port ≠ 2)
    | 4 => own && port = 0
    | _ => false)

/-- Why an entry cannot be bound to end `e` of a context, as the codes of R157, or 0. `others` are the entries of the
context's other ends; a SPAWN may bind a cursor that a launch wire holds for it (R134). -/
def State.bindWhy (s : State) (c e : Nat) (b : Word) (others : List (Nat × Word)) (spawn : Bool) : Nat :=
  let til := tilOf c
  let t := s.til til
  let kind := bindKind b
  let port := bindPort b
  let vec : Bool := 8 ≤ e
  let loc := bindLoc c b
  let own : Bool := bindTil b = til && !bindQs b
  let placed : Bool :=
    if bindQs b then bindTil b = til && bindOff b + 64 ≤ 2 ^ 14
    else bindTil b < 1024 && (s.til (bindTil b)).part = t.part && bindOff b + 64 ≤ (s.til (bindTil b)).spadSize
  if b.extractLsb' 32 32 ≠ 0 ∨ kind = 0 ∨ 4 < kind ∨ !placed ∨ (kind ≠ 1 ∧ bindQs b) ∨ (kind ≠ 2 ∧ bindEng b ≠ 0) then 2
  else match kind with
    | 1 =>
      if bindWr b then
        if port = 0 then (if (own || bindQs b) && s.ringOk loc && s.rVector loc = vec then 0 else 2)
        else if port = 1 then (if own && s.blockOk loc && s.pVector loc = vec then 0 else 2)
        else 2
      else if !s.ringOk loc ∨ s.rVector loc ≠ vec ∨ s.rCursors loc ≤ port then 2
      else if s.cursorTaken c loc port others then (if spawn then 2 else 4)
      else if !spawn ∧ s.rHeld loc port then 4 else 0
    | 2 =>
      let bound := t.refs.find? (fun r => r.cid == c && r.desc == bindOff b && r.eng == bindEng b)
      if !own ∨ (!s.refOk loc ∧ ¬(port = 1 ∧ bound.isSome)) then 2
      else if port = 0 then
        if !bindWr b ∨ vec then 2
        else if t.refs.any (fun r => r.desc == bindOff b) ∨
          others.any (fun p => bindKind p.2 == 2 && bindPort p.2 == 0 && bindOff p.2 == bindOff b) then 3
        else 0
      else if port = 1 then
        if bindWr b then 2
        else if (bound.map (·.rsize)).getD (s.rd (loc + 8) 1) = 2 ∧ !vec then 2
        else if others.any (fun p => bindKind p.2 == 2 && bindPort p.2 == 0 && bindOff p.2 == bindOff b && bindEng p.2 == bindEng b) ∧
          !others.any (fun p => bindKind p.2 == 2 && bindPort p.2 == 1 && bindOff p.2 == bindOff b && bindEng p.2 == bindEng b) then 0
        else 3
      else 2
    | 3 =>
      if !own ∨ vec ∨ port = 3 ∨ bindWr b = (port = 2) ∨ !s.mergeOk loc then 2
      else if others.any (fun p => bindKind p.2 == 3 && (bindOff p.2 != bindOff b || bindPort p.2 == port)) then 3
      else match t.merge with
        | none => 0
        | some m => if m.desc = bindOff b ∧ m.cid = c then 0 else 3
    | _ =>
      if !own ∨ port ≠ 0 ∨ !s.streamOk loc (if vec then 64 else 8) ∨ bindWr b ≠ (fld (s.rd (loc + 36) 1) 0 1 = 1) then 2
      else if t.streams.any (fun x => x.desc == bindOff b) ∨
        others.any (fun p => bindKind p.2 == 4 && bindOff p.2 == bindOff b) then 3
      else 0

/-- Does a bind read a descriptor that holds poison (R152, R214)? -/
def State.bindPoison (s : State) (c : Nat) (b : Word) : Bool := s.poisoned (bindLoc c b) 64

/-! ### Binding -/

/-- Bind an end with an entry that is valid. A read cursor that no wire holds starts at LOW (R134); an engine, the merge
unit or the stream port reads its descriptor (R145, R149, R350). -/
def State.doBind (s : State) (c e : Nat) (b : Word) : State :=
  let loc := bindLoc c b
  let s := s.modCtx c (fun x => { x with
    bind := x.bind.setIfInBounds e b, boundAt := x.boundAt.setIfInBounds e s.port.failures.length })
  let s := if bindKind b = 1 ∧ !(bindWr b ∧ bindPort b = 1) then s.adopt loc else s
  match bindKind b with
  | 1 =>
    if bindWr b ∨ s.rHeld loc (bindPort b) then s
    else (s.rPut loc (16 + 4 * bindPort b) (s.rLow loc)).holdCursor loc (bindPort b) true
  | 2 =>
    if bindPort b = 0 then
      s.modTil (tilOf c) (fun t => { t with refs := t.refs ++ [{
        cid := c, idx := e, res := none, desc := bindOff b, eng := bindEng b
        base := BitVec.ofNat 64 (s.rd loc 8), rsize := s.rd (loc + 8) 1, fetches := [], pack := [], out := [] }] })
    else match (s.til (tilOf c)).refs.find? (fun r => r.cid == c && r.desc == bindOff b && r.eng == bindEng b) with
      | none => s
      | some r => s.refDeliver { r with res := some e }
  | 3 =>
    let m := (s.til (tilOf c)).merge.getD { desc := bindOff b, cid := c, ina := none, inb := none, out := none
                                            mmode := BitVec.ofNat 8 (s.rd loc 1), bufa := [], bufb := [], bufo := []
                                            lasta := none, lastb := none }
    let m := if bindPort b = 0 then { m with ina := some e } else if bindPort b = 1 then { m with inb := some e }
             else { m with out := some e }
    (s.modTil (tilOf c) (fun t => { t with merge := some m })).laterOnce (.mergeEmit (tilOf c))
  | _ =>
    let f := s.rd (loc + 36) 1
    s.modTil (tilOf c) (fun t => { t with streams := t.streams ++ [{
      cid := c, e := e, desc := bindOff b, write := fld f 0 1 = 1, awn1 := fld f 1 1 = 1, awn2 := fld f 2 1 = 1
      base := BitVec.ofNat 64 (s.rd loc 8), c0 := s.rd (loc + 8) 4, c1 := s.rd (loc + 12) 4, c2 := s.rd (loc + 16) 4
      s0 := s.rdI (loc + 24), s1 := s.rdI (loc + 28), s2 := s.rdI (loc + 32), pos := 0, buf := [], ended := false
      stalled := false }] })

/-! ### Unbinding -/

/-- A reserved number that is to be VOID with room for it neither in its ring nor in the spill queue, until a resume frees
some (R136, R154): its place among the reservations is kept under no context. -/
def voidOwner : Nat × Nat := (65536, 0)

/-- A reserved number becomes a VOID awn in the place it was reserved for (R136). -/
def State.voidNumber (s : State) (r : Nat) (p : Nat × Nat × Nat) : State :=
  let y := s.ringX r
  let rest := y.resv.filter (· ≠ p)
  if !s.spillRoom r 1 then s.setRing { y with resv := rest ++ [(voidOwner.1, voidOwner.2, p.2.2)] }
  else (s.setRing { y with resv := rest }).publishAt r p.2.2 voidAwn (if s.rXord r then tget y.grps p.2.2 else none)

/-- A number reserved in a ring of another module: its VOID is sent there (R136, R413). -/
def State.voidFar (s : State) (r : Nat) (p : Nat × Nat × Nat) : State :=
  let y := s.ringX r
  (s.setRing { y with resv := y.resv.filter (· ≠ p) }).sendFar p.1 p.2.1 r (.elem voidAwn none none false (some p.2.2))

/-- Every number that an end has reserved and not published becomes a VOID awn (R136). -/
def State.voidReserved (s : State) (c e : Nat) : State :=
  s.rings.foldl (fun s y => (y.resv.filter (fun p => p.1 == c && p.2.1 == e)).foldl
    (fun s p => if isXring y.ring then s.voidFar y.ring p else s.voidNumber y.ring p) s) s

/-- Give back the credits of an end, and its place among those that wait for credit (R129). -/
def State.returnCredits (s : State) (c e : Nat) : State :=
  let ks := (s.til (tilOf c)).credits.filter (fun k => k.cid == c && k.e == e)
  let s := s.modTil (tilOf c) (fun t => { t with credits := t.credits.filter (fun k => !(k.cid == c && k.e == e)) })
  let s := { s with rings := s.rings.map (fun y => { y with
    waiters := y.waiters.filter (· ≠ (c, e)), dry := y.dry.filter (· ≠ (c, e)) }) }
  ks.foldl (fun s k =>
    if isXring k.ring then s.toPeer (.returned k.ring k.held)
    else
      let s := s.rPut k.ring 44 (s.rGrant k.ring - k.held)
      let s := if (s.ringX k.ring).waiters.isEmpty then s else s.laterOnce (.creditGrant k.ring)
      s.changeChan k.ring) s

/-- Release a read cursor: elements held only for it are freed, and an end that waits to deal to the ring looks again
(R134, R141). -/
def State.releaseCursor (s : State) (r cur : Nat) : State :=
  let s := (s.holdCursor r cur false).afterLow r
  (s.ringX r).waiters.foldl (fun s w => s.wakeCtx w.1) s

/-- The groups dealt to a ring that are not read there: those of elements that a cursor has not passed, and of elements on
their way (R142). -/
def State.unreadGroups (s : State) (r cur : Nat) : List Nat :=
  let y := s.ringX r
  let passed := y.order.take (sdiff (s.rCur r cur) y.base).toNat
  (y.deals.filter (fun p => if s.rXord r then !passed.contains p.1 else decide (0 ≤ sdiff p.1 (s.rCur r cur)))).map (·.2) ++
  s.flights.filterMap (fun f => if f.ring = r then (match f.cargo with
    | .elem _ _ g _ _ => g
    | _ => none) else none)

/-- The register that an end aliases becomes ordinary and holds zero (R158). -/
def Ctx.clearEnd (x : Ctx) (e : Nat) : Ctx :=
  let x := { x with bind := x.bind.setIfInBounds e 0 }
  if e < 8 then x.setS (24 + e) 0 else x.setV (e + 4) 0

/-- Unbind one end (R158). A store stream goes on storing what has been enqueued to it. -/
def State.unbind (s : State) (c e : Nat) : State :=
  let b := (s.ctx c).getBind e
  let loc := bindLoc c b
  let s := (s.takeAll c e).modCtx c (fun x => x.clearEnd e)
  match bindKind b with
  | 0 => s
  | 1 =>
    if bindWr b then (s.voidReserved c e).returnCredits c e
    else
      let owed := if (s.ringX loc).dealt then (s.unreadGroups loc (bindPort b)).eraseDups else []
      (s.modCtx c (fun x => { x with owed := x.owed ++ owed.filter (fun g => x.group ≠ some g) })).releaseCursor loc
        (bindPort b)
  | 2 =>
    if bindPort b = 0 then
      match (s.til (tilOf c)).refs.find? (fun r => r.cid == c && r.idx == e) with
      | none => s
      | some r =>
        let s := s.modTil (tilOf c) (fun t => { t with refs := t.refs.filter (fun q => !(q.cid == c && q.idx == e)) })
        let s := s.startQueued (tilOf c) r.eng 256
        match r.res with
        | none => s
        | some f => s.modCtx c (fun x => x.clearEnd f)
    else s.modTil (tilOf c) (fun t => { t with
      refs := t.refs.map (fun r => if r.cid = c ∧ r.res = some e then { r with res := none } else r) })
  | 3 =>
    match (s.til (tilOf c)).merge with
    | none => s
    | some m =>
      let m := { m with
        ina := if m.ina = some e then none else m.ina, inb := if m.inb = some e then none else m.inb
        out := if m.out = some e then none else m.out, bufa := [], bufb := [], bufo := [], lasta := none, lastb := none }
      s.modTil (tilOf c) (fun t => { t with
        merge := if m.ina.isNone ∧ m.inb.isNone ∧ m.out.isNone then none else some m })
  | _ =>
    let n := (s.til (tilOf c)).streams.length + 1
    s.modTil (tilOf c) (fun t => { t with
      streams := (t.streams.map (fun r => if r.cid = c ∧ r.e = e then { r with e := e + 16 * n } else r)).filter
        (fun r => !(r.cid == c && r.e == e + 16 * n && (r.buf.isEmpty || !r.write))) })

/-- The groups dealt to a replica that it has not opened (R142): those of its dealt rings that it has not read, and those
dealt over ends that it has unbound. -/
def State.dealtGroups (s : State) (c : Nat) : List Nat :=
  ((List.range 12).flatMap (fun e =>
    let b := (s.ctx c).getBind e
    let r := bindLoc c b
    if bindKind b = 1 ∧ !bindWr b ∧ (s.ringX r).dealt then s.unreadGroups r (bindPort b) else []) ++
    (s.ctx c).owed).eraseDups

/-- An exit or kill: the replica's groups close, its rings learn that it has ended (R142), and every end is unbound
(R91). -/
def State.endReplica (s : State) (c : Nat) : State :=
  let gs := (match (s.ctx c).group with
    | none => []
    | some g => [g]) ++ s.dealtGroups c
  let s := gs.foldl (fun s g => s.closeFor c g) s
  (s.modCtx c (fun x => { x with group := none, owed := [] })).endFor c

def State.unbindAll (s : State) (c : Nat) : State := (List.range 12).foldl (fun s e => s.unbind c e) s

/-! ### Meanings -/

/-- The bound entries of the acting context other than that of an end. -/
def State.otherEnds (s : State) (c e : Nat) : List (Nat × Word) :=
  ((List.range 12).map (fun j => (j, (s.ctx c).getBind j))).filter (fun p => p.1 ≠ e && p.2 ≠ 0)

/-- The entry of a bound end; an instruction that names an unbound one raises ILLEGAL (R133). -/
def boundEnd (e : BitVec 5) : Op Word := do
  let b ← ask (fun s => s.me.getBind e.toNat)
  if b = 0 then raise Cause.illegal
  return b

/-- R157. Bind an end. -/
def execQbind (d a b k : BitVec 5) (s : State) : Host.Outcome State Fault Refusal :=
  perform (.qbind d a b k) (thenNext do
    let w ← rdS b
    let s ← get
    let e := a.toNat
    if s.me.getBind e ≠ 0 then wrS d (failCode 1)
    else if bindKind w ≠ k.toNat ∨ !s.entryOk s.cur e w then wrS d (failCode 2)
    else if bindKind w ≠ 1 ∧ s.bindPoison s.cur w then raise Cause.poison
    else
      let why := s.bindWhy s.cur e w (s.otherEnds s.cur e) false
      if why ≠ 0 then wrS d (failCode why)
      else
        wrS d 0
        upd (fun s => s.doBind s.cur e w)) s

/-- R158. Unbind an end. -/
def execQunb (d a : BitVec 5) (s : State) : Host.Outcome State Fault Refusal :=
  perform (.qunb d a) (thenNext do
    let b ← ask (fun s => s.me.getBind a.toNat)
    if b = 0 then wrS d (failCode 1)
    else
      wrS d 0
      upd (fun s => s.unbind s.cur a.toNat)) s

/-- The status word of an awn (R124, R159). -/
def awnStatus (e : Nat) (x : Elem) : Word := BitVec.ofNat 64 (2 ^ 62 + e * 2 ^ 36 + x.level * 2 ^ 32 + x.code.toNat)

/-- Write a data field of QTRY, or read one of RPUB (R156). -/
def wrData (e d : BitVec 5) (w : VReg) : Op Unit := if e.toNat ≤ 7 then wrS d (w.extractLsb' 0 64) else wrV d w
def rdData (e d : BitVec 5) : Op VReg := if e.toNat ≤ 7 then return (← rdS d).setWidth 512 else rdV d

def setEmpty (af ef : Bool) : Op Unit := upd (fun s => s.modMe (fun x => { x with af := af, ef := ef }))

/-- Take or look at the head of an end without waiting for it (R159). DESIGN CHOICE: QPEEK of an exhausted read stream answers
empty, for R150 has only a dequeue raise BOUNDS there (log 55). -/
def tryHead (i : Instr) (take : Bool) (d a b : BitVec 5) : Op Flow := thenNext do
  let e := a.toNat
  let w ← boundEnd a
  if !readEnd w then raise Cause.illegal
  let x ← ask State.me
  if x.tx.active then
    let near ← ask (fun s => s.endLocal s.cur e)
    if !near then stop (.abort 3 0)
  examine [] ((i.writes.filterMap x.endOf).map (fun e => (e, dataElem)))
  if x.tx.active then
    let key ← ask (fun s => s.endKey s.cur e)
    readKey key
  match ← ask (fun s => s.endHead s.cur e (x.deqs e)) with
  | .over => if take then raise Cause.bounds else do
      wrS b (BitVec.allOnes 64)
      setEmpty false true
  | .empty => do
      wrS b (BitVec.allOnes 64)
      setEmpty false true
  | .elem y =>
    if y.awn then do
      if take then let _ ← deq e
      wrS b (awnStatus e y)
      setEmpty true false
    else do
      if take then let _ ← deq e
      wrData a d y.data
      wrS b 0
      setEmpty false false

/-- R159. Dequeue without waiting. -/
def execQtry (d a b : BitVec 5) (s : State) : Host.Outcome State Fault Refusal :=
  performRaw (.qtry d a b) (tryHead (.qtry d a b) true d a b) s

/-- R159. Look without waiting. -/
def execQpeek (d a b : BitVec 5) (s : State) : Host.Outcome State Fault Refusal :=
  performRaw (.qpeek d a b) (tryHead (.qpeek d a b) false d a b) s

/-- Enqueue an awn with a code from a register (R160). -/
def putAwn (i : Instr) (d a : BitVec 5) (level : Nat) : Op Flow := thenNext do
  let w ← boundEnd d
  if readEnd w then raise Cause.illegal
  let x ← ask State.me
  examine (i.reads.filterMap x.endOf) [(d.toNat, awnElem level 0)]
  let code ← rdS a
  enq d.toNat (awnElem level (code.extractLsb' 0 32))

/-- R160. An awn of level 0 to 6. -/
def execQawn (d a b : BitVec 5) (s : State) : Host.Outcome State Fault Refusal :=
  performRaw (.qawn d a b) (putAwn (.qawn d a b) d a b.toNat) s

/-- R160. End of stream. -/
def execQend (d a : BitVec 5) (s : State) : Host.Outcome State Fault Refusal :=
  performRaw (.qend d a) (putAwn (.qend d a) d a 7) s

/-- Elements that a cursor can take now, counting on from the `j`-th. -/
def State.deliverable (s : State) (r cur : Nat) : Nat → Nat → Nat
  | 0, _ => 0
  | f + 1, j => if (s.ringHead r cur j).isSome then 1 + s.deliverable r cur f (j + 1) else 0

/-- The count of R161. DESIGN CHOICE: an element that a read stream has read ahead stands in the pattern still, a FETCHFAIL with the
others, the awns between them are no elements of it, and an element that has been enqueued to a store stream is none of those
that remain (log 17). What is on its way to a unit has its place there (R68). -/
def State.endCount (s : State) (c e : Nat) : Nat :=
  let b := (s.ctx c).getBind e
  let r := bindLoc c b
  let late := s.intakeOf c e
  match bindKind b with
  | 1 =>
    if !bindWr b then
      (if s.rXord r then s.deliverable r (bindPort b) (s.rDepth r) 0
       else
         let ahead := fun (q : Nat) => decide (0 ≤ sdiff q (s.rCur r (bindPort b)) ∧ sdiff q (s.rPseq r) < 0)
         (sdiff (s.rPseq r) (s.rCur r (bindPort b))).toNat - ((s.ringX r).ext.filter (fun x => ahead x.seq)).length)
    else if bindPort b = 0 then (s.rFree r).toNat
    else ((s.til (tilOf c)).credits.filter (fun k => k.cid == c && k.e == e)).foldl (fun n k => n + k.held) 0
  | 2 => match s.refOf c e with
    | none => 0
    | some x => if bindPort b = 0 then 256 - x.held - (late.filter (!·.awn)).length else x.out.length
  | 3 => match (s.til (tilOf c)).merge with
    | none => 0
    | some m =>
      if bindPort b = 0 then 32 - m.bufa.length - late.length
      else if bindPort b = 1 then 32 - m.bufb.length - late.length else m.bufo.length
  | _ => match s.streamOf c e with
    | none => 0
    | some x => if x.write then x.total - x.pos - x.buf.length - (late.filter (!·.awn)).length
                else x.total - x.pos + (x.buf.filter (fun y => !y.awn || y.level = 0)).length

/-- A producer end whose count reads 0 asks its rings for credit, as one that waits does (R129, log 16). -/
def State.polled (s : State) (c e : Nat) : State :=
  if bindKind ((s.ctx c).getBind e) = 1 ∧ s.endCount c e = 0 then s.nudge c e else s

/-- The count as an attempt sees it: after its own tentative operations at the end (R173). -/
def State.countAfter (s : State) (c e : Nat) : Nat :=
  let x := s.ctx c
  let mine := if x.tx.active then x.tx.point.ops.filter (fun o => match o with
    | .deq f => f == e
    | .enq f _ _ => f == e) else []
  match s.runOps c mine with
  | .done t => t.endCount c e
  | _ => s.endCount c e

/-- R161. Occupancy or room. -/
def execQlen (d a : BitVec 5) (s : State) : Host.Outcome State Fault Refusal :=
  perform (.qlen d a) (thenNext do
    let _ ← boundEnd a
    let x ← ask State.me
    let e := a.toNat
    if x.tx.active then
      let near ← ask (fun s => s.endLocal s.cur e)
      if !near then stop (.abort 3 0)
      let key ← ask (fun s => s.endKey s.cur e)
      readKey key
    let n ← ask (fun s => s.countAfter s.cur e)
    upd (fun s => s.polled s.cur e)
    wrS d (BitVec.ofNat 64 n)) s

/-- The ring in which a write end reserves numbers: its own, or the one target of its producer block; none for an end that
deals and for one that is no PEER end (R162). -/
def State.reserveRing (s : State) (c e : Nat) : Option Nat :=
  let w := (s.ctx c).getBind e
  let b := bindLoc c w
  if bindKind w ≠ 1 ∨ !bindWr w then none
  else if bindPort w = 0 then some b
  else if s.pDeal b then none else some (s.pTarget b 0)

/-- Has a ring so many free slots to reserve, and would it accept them as it stands (R143, R162)? -/
def State.hasFree (s : State) (r n : Nat) (grp : Option Nat) : Bool := (n : Int) ≤ s.rFree r && s.xordAccepts r grp n

/-- A far reservation may take places that the end holds credit for, where those left are too few (R129, R162, log 16). -/
def State.useCredits (s : State) (c e r n : Nat) : State :=
  let k := n - (s.rFree r).toNat
  if k = 0 ∨ s.credit c e r < k then s
  else (s.setCredit c e r (s.credit c e r - k)).rPut r 44 (s.rGrant r - k)

/-- Take `n` sequence numbers of a ring from `seq` on for an end. On an XORD ring they have their places in the strand's open
group (R144). -/
def State.reserve (s : State) (c e r seq n : Nat) : State :=
  let y := s.ringX r
  let qs := (List.range n).map (fun j => (seq + j) % 2 ^ 32)
  let y := { y with resv := y.resv ++ qs.map (fun q => (c, e, q)) }
  s.setRing (if s.rXord r ∧ (s.ctx c).group.isSome then
    qs.foldl (fun (y : Ring) q => y.orderIn (s.rNextg r) q (s.ctx c).group) y else y)

/-- R162. Reserve sequence numbers. Those of another module's ring come from that module, which knows its CAP (log 54). A ring whose
block is rejected has none to give (R4, log 27). -/
def execRres (d a b : BitVec 5) (i : BitVec 1) (s : State) : Host.Outcome State Fault Refusal :=
  perform (.rres d a b i) (thenNext do
    let _ ← boundEnd a
    let e := a.toNat
    match ← ask (fun s => s.reserveRing s.cur e) with
    | none => raise Cause.illegal
    | some r =>
      let n ← rdB i b
      upd (fun s => s.adopt r)
      let s ← get
      if n = 0 ∨ 64 < n.toNat ∨ (if isXring r then Config.peerCap r else s.rDepth r + s.rXsize r) < n.toNat then wrS d (failCode 1)
      else if isXring r then
        if s.credit s.cur e r < n.toNat then stop (.sleep 3 [s.endKey s.cur e] [e])
        else
          let seq := Config.freeNat (← fresh) % 2 ^ 32
          upd (fun s => (s.setCredit s.cur e r (s.credit s.cur e r - n.toNat)).reserve s.cur e r seq n.toNat)
          wrS d (BitVec.ofNat 64 seq)
      else if (s.ringX r).geo.isNone ∨ s.tokenBlocks s.cur e ∨ !(s.useCredits s.cur e r n.toNat).hasFree r n.toNat s.me.group then
        stop (.sleep 3 [s.waitKey e] [e])
      else
        let seq := s.rRseq r
        upd (fun s => ((s.useCredits s.cur e r n.toNat).reserve s.cur e r seq n.toNat).rPut r 12 (seq + n.toNat))
        wrS d (BitVec.ofNat 64 seq)) s

/-- Publish an element under a number of an end: at the ring, or on its way to another module's. -/
def State.publishOwn (s : State) (c e r seq : Nat) (x : Elem) : State :=
  if isXring r then s.sendFar c e r (.elem x (s.ctx c).group none false (some seq)) else s.publishAt r seq x (s.ctx c).group

/-- R162. Publish a reserved number. It waits while its element would be diverted and the spill queue has no room (R154), and while
an XORD ring does not accept the strand's open group (R143). -/
def execRpub (d a b : BitVec 5) (w : BitVec 1) (s : State) : Host.Outcome State Fault Refusal :=
  perform (.rpub d a b w) (thenNext do
    let e ← boundEnd d
    if readEnd e then raise Cause.illegal
    let x ← rdData d a
    let q ← rdS b
    let seq := (q.extractLsb' 0 32).toNat
    let s ← get
    match s.reserveRing s.cur d.toNat with
    | none => raise Cause.bounds
    | some r =>
      let y := s.ringX r
      let p := (s.cur, d.toNat, seq)
      if !y.resv.contains p then raise Cause.bounds
      if !s.takesOwn r s.me.group then stop (.sleep 3 [s.endKey s.cur d.toNat] [d.toNat])
      let el : Elem := if w = 1 then awnElem (x.extractLsb' 32 3).toNat (x.extractLsb' 0 32) else { awn := false, data := x }
      upd (fun s => (s.setRing { y with resv := y.resv.filter (· ≠ p) }).publishOwn s.cur d.toNat r seq el)) s

/-- R163. The next sequence number of an end. -/
def execRcurGet (d a : BitVec 5) (s : State) : Host.Outcome State Fault Refusal :=
  perform (.rcurGet d a) (thenNext do
    let w ← boundEnd a
    let s ← get
    let x := s.me
    let r := bindLoc s.cur w
    if bindKind w ≠ 1 ∨ (bindWr w ∧ bindPort w = 1) then raise Cause.illegal
    if x.tx.active then
      if !s.endLocal s.cur a.toNat then stop (.abort 3 0)
      readKey (s.endKey s.cur a.toNat)
    let n := if bindWr w then s.rRseq r + (x.enqs.filter (fun p => p.1 == a.toNat)).length
             else s.rCur r (bindPort w) + x.deqs a.toNat
    wrS d (BitVec.ofNat 64 (n % 2 ^ 32))) s

/-- Elements that a skip passes: data elements that the cursor can take. -/
def State.skippable (s : State) (r cur : Nat) : Nat → Nat → Nat
  | 0, _ => 0
  | f + 1, j => match s.ringHead r cur j with
    | some x => if x.awn then 0 else 1 + s.skippable r cur f (j + 1)
    | none => 0

/-- R163. Advance a cursor. DESIGN CHOICE: each element that it passes counts as dequeued, for the strand's open group (R142) and as
the acquire of R153 (log 55). -/
def execRcurSkip (d a b : BitVec 5) (s : State) : Host.Outcome State Fault Refusal :=
  perform (.rcurSkip d a b) (thenNext do
    let w ← boundEnd a
    let n ← rdS b
    let s ← get
    let x := s.me
    let e := a.toNat
    let r := bindLoc s.cur w
    if bindKind w ≠ 1 ∨ bindWr w then raise Cause.illegal
    if x.tx.active then
      if !s.endLocal s.cur e then stop (.abort 3 0)
      readKey (s.endKey s.cur e)
    let k := s.skippable r (bindPort w) (Nat.min n.toNat (s.rDepth r)) (x.deqs e)
    (List.replicate k ()).forM (fun _ => do
      let _ ← deq e)
    wrS d (BitVec.ofNat 64 k)) s

/-- A target formed from an offset in words (R33). -/
def target (pc : Word) (k : BitVec 19) : Word := pc + k.signExtend 64 * 4

/-- R164. Set or remove a token handler. -/
def execTokh (d : BitVec 5) (k : BitVec 19) (s : State) : Host.Outcome State Fault Refusal :=
  perform (.tokh d k) (thenNext do
    let _ ← boundEnd d
    let t ← ask (fun s => target s.me.pc k)
    if k ≠ 0 ∧ t.toNat ≥ 2 ^ 52 then raiseAt Cause.addr 0 t
    upd (fun s => s.modMe (fun x => { x with
      handler := x.handler.setIfInBounds d.toNat (if k = 0 then none else some t) }))) s

/-- R139, R164. Return from a token handler. -/
def execTret (s : State) : Host.Outcome State Fault Refusal :=
  perform .tret (do
    let x ← ask State.me
    if !x.hmode then raise Cause.illegal
    upd (fun s => s.modMe (fun x => { x with hmode := false }))
    return .jump x.tokpc) s

end Sys2Proof.Machine
end

