-- ==== Sys2Proof/Machine/Clock.lean ====
section
/-! DEFINITION. Fetching (R83, R216, R236), the repeat frame (R42 to R46), what holds a context, and what withholds cycles
(R24, R404). -/

namespace Sys2Proof.Machine

/-! ### Fetching -/

/-- What a context's pc gives: a word, one that comes after some cycles more, a miss, a fault or a trap. -/
inductive Next where
  | word (w : IWord)
  | late (cycles : Nat)
  | miss
  | fault (cause : Nat)
  | trap (cause : Nat)
  deriving DecidableEq, Repr

/-- The cycles that a translation takes which is not in the first level: 8 from the second-level TLB, 60 from the last
(R216). DESIGN CHOICE: the 60 are all that a hit in the last level adds, not 60 beside the 8 of the second (log 55). -/
def State.tlbDelay (s : State) (c : Nat) (fetch : Bool) (va : Nat) : Nat :=
  let p := s.partOf (tilOf c)
  let k := s.core (coreOf c)
  if (tlbFind (if fetch then k.itlb else k.dtlb) p va).isSome then 0
  else if (tlbFind (s.til (tilOf c)).stlb p va).isSome then 8 else 60

/-- A word of an instruction line held by the tiller: one that has been written since gives the old or the new word
(R236). -/
def State.fetchAt (s : State) (l : CacheLine) (pa : Nat) : IWord :=
  let now := BitVec.ofNat 32 (s.rd pa 4)
  let old := l.data.extractLsb' (8 * (pa % 64)) 32
  if old = now then now else if Config.freeBool (s.nonce + pa) then old else now

/-- The line of a context's pc, where it is translated. -/
def State.pcLine (s : State) (c : Nat) : Option Nat :=
  (s.lookup c true (s.ctx c).pc.toNat).1.map (fun e => e.pa (s.ctx c).pc.toNat (dieOfTil (tilOf c)) / 64)

/-- The line enters the instruction cache, which holds 1,024 (R9). A full one loses a line of the device's choosing that no
context of the tiller stands in. -/
def State.fillCode (s : State) (til pa : Nat) : State :=
  let t := s.til til
  if t.icache.any (fun l => l.line == pa / 64) then s
  else if t.icache.length < 1024 then s.setTil til { t with icache := s.lineNow (pa / 64) :: t.icache }
  else
    let inUse := (List.range 64).filterMap (fun j => s.pcLine (til * 64 + j))
    let spare := t.icache.filter (fun l => !inUse.contains l.line)
    let gone := (spare[Config.freeNat s.nonce % spare.length]?).map (·.line)
    (s.setTil til { t with icache := s.lineNow (pa / 64) :: t.icache.filter (fun l => some l.line ≠ gone) }).tick

/-- Fetch the word at an address for a context (R83, R216, R219): from a line of the instruction cache under a translation of
the core's instruction TLB; else it is late (R75, log 53). -/
def State.fetch (s : State) (c : Nat) (pc : Word) : Next :=
  if pc.toNat ≥ 2 ^ 52 then .trap Cause.addr
  else
    match (s.lookup c true pc.toNat).1 with
    | none => .miss
    | some e =>
      match permFault .fetch e.entry with
      | some cause => .fault cause
      | none =>
        let pa := e.pa pc.toNat (dieOfTil (tilOf c))
        let d := s.tlbDelay c true pc.toNat
        match (s.til (tilOf c)).icache.find? (fun l => l.line == pa / 64) with
        | none => if s.poisoned pa 4 then .trap Cause.poison else .late (d + 1 + Config.freeNat s.nonce)
        | some l => if d = 0 then .word (s.fetchAt l pa) else .late d

/-- A late fetch has come: the translation and the line are there. -/
def State.codeHere (s : State) (c : Nat) : State :=
  let pc := (s.ctx c).pc.toNat
  let s := s.modCtx c (fun x => { x with wait := .none })
  match s.lookup c true pc with
  | (none, _) => s
  | (some e, s') =>
    let pa := e.pa pc (dieOfTil (tilOf c))
    if (permFault .fetch e.entry).isSome || s.poisoned pa 4 then s' else s'.fillCode (tilOf c) pa

/-! ### The repeat frame -/

def opOf (w : IWord) : Nat := (w.extractLsb' 24 8).toNat

/-- The opcodes that a frame may capture (R44). -/
def isArithmetic (w : IWord) : Bool :=
  let op := opOf w
  (0x01 ≤ op && op ≤ 0x22) || (0x88 ≤ op && op ≤ 0x8D) || (0x90 ≤ op && op ≤ 0xB3) || op == 0xC5 || op == 0xC6

/-- The file of a stepped field (R35, R43). -/
inductive File where
  | scalar | vector | either | mask
  deriving DecidableEq, Repr

/-- Step a field value by a distance within its file (R43). -/
def File.step (f : File) (v : Nat) (by_ : Int) : Nat :=
  match f with
  | .scalar => ((v + by_) % 32).toNat
  | .vector => ((v + by_) % 16).toNat
  | .either => if v < 16 then ((v + by_) % 16).toNat else 16 + ((v - 16 + by_) % 16).toNat
  | .mask => ((v + by_) % 8).toNat

/-- The files of D, A and B of a captured format-A word, where they are stepped (R43). -/
def stepFiles (w : IWord) : Option File × Option File × Option File :=
  let op := opOf w
  if op ≤ 0x1F then
    (some .scalar, some .scalar, if op = 0x12 ∨ op = 0x13 ∨ op = 0x14 ∨ w.getLsbD 5 then none else some .scalar)
  else if op ≤ 0x21 then (some .scalar, some .scalar, none)
  else if op = 0x22 then (some .scalar, none, none)
  else if op = 0xA6 ∨ op = 0xA7 ∨ op = 0xA8 then (some .vector, none, none)
  else if 0xB1 ≤ op then (some .mask, some .mask, if op = 0xB3 then none else some .mask)
  else
    let d := if op = 0x9D then File.mask else if op = 0xA9 ∨ op = 0xAD then .scalar else .vector
    let code := op = 0x88 ∨ op = 0x8A ∨ op = 0x8C ∨ op = 0x8D ∨ op = 0x97 ∨ op = 0x98 ∨ (0x99 ≤ op ∧ op ≤ 0x9C) ∨
      op = 0xAB ∨ op = 0xAC ∨ op = 0xAE ∨ op = 0xAF
    (some d, some .either, if code then none else some .either)

/-- A word with `n` bits at `lo` replaced. -/
def setField (w : IWord) (lo n v : Nat) : IWord :=
  (w &&& ~~~(BitVec.ofNat 32 ((2 ^ n - 1) * 2 ^ lo))) ||| BitVec.ofNat 32 (v % 2 ^ n * 2 ^ lo)

/-- Step one field if its file is given. -/
def stepField (w : IWord) (f : Option File) (lo n : Nat) (by_ : Int) : IWord :=
  match f with
  | none => w
  | some f => setField w lo n (f.step (w.extractLsb' lo n).toNat by_)

/-- Step(w, k) for the strides of a frame (R43). -/
def Frame.stepWord (f : Frame) (w : IWord) (k : Nat) : IWord :=
  if k = 0 then w
  else
    let d := f.sd.toInt * k
    let a := f.sa.toInt * k
    let b := f.sb.toInt * k
    if opOf w = 0xC5 ∨ opOf w = 0xC6 then
      setField (setField (setField w 13 3 (((w.extractLsb' 13 3).toNat + d) % 8).toNat)
        20 4 (((w.extractLsb' 20 4).toNat + a) % 16).toNat) 16 4 (((w.extractLsb' 16 4).toNat + b) % 16).toNat
    else
      let fs := stepFiles w
      stepField (stepField (stepField w fs.1 19 5 d) fs.2.1 14 5 a) fs.2.2 9 5 b

/-- The word at a context's pc: the one that was fetched and translated when it became ready, else a fetch (R69). -/
def State.fetched (s : State) (c : Nat) : Next :=
  let x := s.ctx c
  match x.word with
  | some (a, w) => if a = x.pc then .word w else s.fetch c x.pc
  | none => s.fetch c x.pc

/-- The word a context would execute next, unstepped: the frame's buffer where it has been captured, else a fetch. -/
def State.nextRaw (s : State) (c : Nat) : Next :=
  let x := s.ctx c
  if x.framed then
    match x.frame.words[x.frame.i]? with
    | some w => .word w
    | none => s.fetched c
  else s.fetched c

/-- The word a context would execute next, stepped. -/
def State.nextWord (s : State) (c : Nat) : Next :=
  match s.nextRaw c with
  | .word w => .word (if (s.ctx c).framed then (s.ctx c).frame.stepWord w (s.ctx c).frame.k else w)
  | n => n

/-! ### Holds, halts and saves -/

/-- Is a context a service context of its core (R376)? -/
def State.isService (s : State) (c : Nat) : Bool := (s.core (coreOf c)).svcmap.getLsbD (ctxNo c)

/-- Has a fetch of a reference engine come to its end? -/
def Fetch.over : Fetch → Bool
  | .done _ => true
  | .mark _ => true
  | .queued _ => false
  | .pending _ => false
  | .faulted _ => false

/-- Is a wait one of an EXIT or a migration for the strand's accesses (R89, R255)? -/
def Wait.leaving : Wait → Bool
  | .ending _ => true
  | .moving _ => true
  | _ => false

/-- Nothing that a save or a halt of a core waits for is left of its user contexts (R393, R395). -/
def State.drained (s : State) (k : Nat) : Bool :=
  (List.range 14).all (fun j =>
    let x := s.ctx (k * 16 + j + 1)
    x.life != .starting && x.life != .killing && x.life != .migrated && x.home.isNone && !x.wait.leaving) &&
  s.copies.all (fun q => coreOf q.cid != k) && (s.til (k / 4)).intake.all (fun i => coreOf i.cid != k) &&
  (s.til (k / 4)).refs.all (fun r => coreOf r.cid != k || r.fetches.all Fetch.over)

/-- Does a save or a halt of its core keep a context from issuing? Service contexts run until the drains are complete
(R392, R393). -/
def State.stopped (s : State) (c : Nat) : Bool :=
  (s.core (coreOf c)).saving.isSome && !privileged c && (!s.isService c || s.drained (coreOf c))

/-- Could a context issue but for its next word: it runs, waits for nothing, and neither a hold, a halt nor a save keeps
it? -/
def State.active (s : State) (c : Nat) : Bool :=
  let x := s.ctx c
  let k := s.core (coreOf c)
  x.life == .running && x.wait == .none && !(s.til (tilOf c)).hold && !k.halted && !s.stopped c

/-- Issue is permitted in a cycle that the throttle does not withhold (R404). -/
def State.permitted (s : State) (k : Nat) : Bool :=
  (s.die (k / 1024)).throt.toNat ≤ (s.core k).cycle.toNat % 16

/-- Is a wait one of R165 that the watchdog counts? Holds are not (R402). -/
def Wait.counted : Wait → Bool
  | .sleep _ _ => true
  | .retry _ => true
  | _ => false

/-- Does a wait's key lie in a held tiller (R403)? -/
def State.keysHeld (s : State) : List Key → Bool :=
  fun ks => ks.any (fun k => match keyOwner k with
    | .til t => (s.til t).hold
    | .slice _ => false)

def Wait.keys : Wait → List Key
  | .sleep _ ks => ks
  | .retry ks => ks
  | _ => []

/-- Is a change of LSPLIT or SWZ to take effect (R203, R205)? -/
def Tiller.resizing (t : Tiller) : Bool := t.newL1.isSome || t.newSwz.isSome

/-- Has a tiller's lease lasted for its 64 commands or 4,096 cycles (R308)? Ownership is permanent (R309). -/
def Tiller.leaseDue (t : Tiller) (cycle : Word) : Bool :=
  match t.lease.holder with
  | none => false
  | some h => t.owner != some h &&
    (64 ≤ t.lease.cmds || 4096 ≤ (cycle - t.lease.since).toNat)

/-- R24. A supply sag above 5% starts the lengthening of a die's cycles. -/
def execDroopResponse (die : Nat) (s : State) : Host.Outcome State Fault Refusal :=
  .next (s.modDie (die % 4) (fun d => { d with droop := some 0, droopev := d.droopev + 1 }))

/-- R24. The lengthening ends once it has been held for 64 cycles. -/
def execDroopEnd (die : Nat) (s : State) : Host.Outcome State Fault Refusal :=
  .next (s.modDie (die % 4) (fun d => { d with droop := d.droop.filter (fun n => n < 64) }))

/-- R114, R404. The power controller of a die publishes its budget level and sets its throttle level. -/
def execBudgetPublish (die : Nat) (level : BitVec 3) (throt : BitVec 4) (s : State) : Host.Outcome State Fault Refusal :=
  .next (s.modDie (die % 4) (fun d => { d with budget := level, throt := throt }))

/-- R20. A TLB entry is displaced: level 0 an instruction TLB of a core, 1 a data TLB of a core, 2 the second-level TLB
of a tiller, 3 the last-level TLB of a die. -/
def execTlbEntryDisplaced (level unit index : Nat) (s : State) : Host.Outcome State Fault Refusal :=
  .next (match level with
    | 0 => s.modCore unit (fun k => { k with itlb := k.itlb.eraseIdx index })
    | 1 => s.modCore unit (fun k => { k with dtlb := k.dtlb.eraseIdx index })
    | 2 => s.modTil unit (fun t => { t with stlb := t.stlb.eraseIdx index })
    | 3 => s.modDie unit (fun d => { d with lltlb := d.lltlb.eraseIdx index })
    | _ => s)

end Sys2Proof.Machine
end

