-- ==== Sys2Proof/Machine/Flags.lean ====
section
/-! DEFINITION. Number formats, rounding, conversion and the sticky flags they set (R268 to R279, R292), with the
correctly rounded functions of R296. A lane is a natural number below two to its width. -/

namespace Sys2Proof.Machine

/-! ### Flags -/

/-- FSTAT bits (R277). -/
abbrev Flags := BitVec 6

def INVALID : Flags := 1
def OVERFLOW : Flags := 2
def UNDERFLOW : Flags := 4
def INEXACT : Flags := 8
def SAT : Flags := 16
def TRIBAD : Flags := 32

/-- Set a flag on a condition. -/
def flagIf (c : Bool) (f : Flags) : Flags := if c then f else 0

/-! ### Formats (R268, R269) -/

/-- Exponent bits, fraction bits, bias; GF8 has no infinity. -/
structure Fmt where
  ebits : Nat
  m : Nat
  bias : Nat
  g8 : Bool
  deriving DecidableEq, Repr

def FP32 : Fmt := { ebits := 8, m := 23, bias := 127, g8 := false }
def BF16 : Fmt := { ebits := 8, m := 7, bias := 127, g8 := false }
def FP16 : Fmt := { ebits := 5, m := 10, bias := 15, g8 := false }
def GF8 : Fmt := { ebits := 4, m := 3, bias := 7, g8 := true }
def GF8W : Fmt := { ebits := 5, m := 2, bias := 15, g8 := false }

def Fmt.emin (f : Fmt) : Int := 1 - (f.bias : Int)
/-- The exponent of the largest finite value. -/
def Fmt.emax (f : Fmt) : Int := if f.g8 then 8 else f.bias
def Fmt.signBit (f : Fmt) : Nat := 2 ^ (f.ebits + f.m)
def Fmt.topExp (f : Fmt) : Nat := 2 ^ f.ebits - 1
/-- The canonical quiet NaN (R270). -/
def Fmt.nan (f : Fmt) : Nat := if f.g8 then 0x7F else f.topExp * 2 ^ f.m + 2 ^ (f.m - 1)
def Fmt.sign (f : Fmt) (neg : Bool) : Nat := if neg then f.signBit else 0
def Fmt.inf (f : Fmt) (neg : Bool) : Nat := f.sign neg + f.topExp * 2 ^ f.m
def Fmt.maxf (f : Fmt) (neg : Bool) : Nat :=
  f.sign neg + (if f.g8 then 0x7E else (f.topExp - 1) * 2 ^ f.m + (2 ^ f.m - 1))

/-- The value of a pattern: a NaN and whether it signals, an infinity, or sign, magnitude and exponent. -/
inductive Val where
  | nan (signalling : Bool)
  | inf (neg : Bool)
  | fin (neg : Bool) (num : Nat) (exp : Int)
  deriving DecidableEq, Repr

def Fmt.val (f : Fmt) (x : Nat) : Val :=
  let neg := x / f.signBit % 2 = 1
  let e := x / 2 ^ f.m % 2 ^ f.ebits
  let r := x % 2 ^ f.m
  if f.g8 then
    if x % 128 = 127 then .nan false
    else if e = 0 then .fin neg r (f.emin - f.m) else .fin neg (2 ^ f.m + r) ((e : Int) - f.bias - f.m)
  else if e = f.topExp then
    if r = 0 then .inf neg else .nan (r < 2 ^ (f.m - 1))
  else if e = 0 then .fin neg r (f.emin - f.m)
  else .fin neg (2 ^ f.m + r) ((e : Int) - f.bias - f.m)

/-! ### Rounding (R271, R272) -/

/-- Does rounding go away from zero, given the quotient, whether anything is left, and how the rest compares with half?
Modes 0 RNE, 1 RZ, 2 RDN, 3 RUP (R38). -/
def roundsUp (mode : Nat) (neg : Bool) (q : Nat) (inexact : Bool) (half : Ordering) : Bool :=
  match mode with
  | 0 => half == .gt || (half == .eq && q % 2 == 1)
  | 1 => false
  | 2 => neg && inexact
  | _ => !neg && inexact

/-- Round num / 2^k to an integer; `sticky` says that the true magnitude lies above num by less than one. -/
def roundShift (mode : Nat) (neg : Bool) (num : Nat) (k : Int) (sticky : Bool) : Nat × Bool :=
  if k ≤ 0 then (num * 2 ^ (-k).toNat, sticky)
  else if (Nat.log2 num : Int) + 2 < k then
    (if roundsUp mode neg 0 (num ≠ 0 || sticky) .lt then 1 else 0, num ≠ 0 || sticky)
  else
    let d := 2 ^ k.toNat
    let q := num / d
    let r := num % d
    let inexact := r ≠ 0 || sticky
    let half := if 2 * r < d then Ordering.lt else if d < 2 * r || sticky then .gt else .eq
    (if roundsUp mode neg q inexact half then q + 1 else q, inexact)

/-- The result of an overflow (R272). -/
def Fmt.overflow (f : Fmt) (mode : Nat) (neg : Bool) : Nat × Flags :=
  if f.g8 then (f.maxf neg, SAT ||| INEXACT)
  else
    let toInf := match mode with
      | 0 => true
      | 1 => false
      | 2 => neg
      | _ => !neg
    (if toInf then f.inf neg else f.maxf neg, OVERFLOW ||| INEXACT)

/-- Round(x, fmt, mode) for x = ±num × 2^exp, a little more when `sticky` (R271). -/
def Fmt.round (f : Fmt) (mode : Nat) (neg : Bool) (num : Nat) (exp : Int) (sticky : Bool) : Nat × Flags :=
  if num = 0 ∧ !sticky then (f.sign neg, 0)
  else
    let e := max ((Nat.log2 num : Int) + exp) f.emin
    let r := roundShift mode neg num (e - f.m - exp) sticky
    let up := 2 ^ (f.m + 1) ≤ r.1
    let q := if up then r.1 / 2 else r.1
    let e := if up then e + 1 else e
    let fl := flagIf r.2 INEXACT ||| flagIf (r.2 && q < 2 ^ f.m) UNDERFLOW
    if f.emax < e ∨ (f.g8 ∧ e = f.emax ∧ q = 15) then f.overflow mode neg
    else if q < 2 ^ f.m then (f.sign neg + q, fl)
    else (f.sign neg + (e + f.bias).toNat * 2 ^ f.m + (q - 2 ^ f.m), fl)

/-- An infinity as a result: GF8 saturates (R272). -/
def Fmt.roundInf (f : Fmt) (neg : Bool) : Nat × Flags :=
  if f.g8 then (f.maxf neg, SAT) else (f.inf neg, 0)

/-- A signed exact magnitude rounded; an exact zero takes the given sign. -/
def Fmt.roundInt (f : Fmt) (mode : Nat) (zneg : Bool) (x : Int) (exp : Int) : Nat × Flags :=
  if x = 0 then (f.sign zneg, 0) else f.round mode (x < 0) x.natAbs exp false

/-! ### Arithmetic of one lane (R292 to R294) -/

/-- The signed integer x × 2^(exp − low) of a value. -/
def scaled (neg : Bool) (num : Nat) (exp low : Int) : Int :=
  let n : Int := (num * 2 ^ (exp - low).toNat : Nat)
  if neg then -n else n

/-- The sign of a zero sum (R271). -/
def zeroSign (mode : Nat) (n1 : Bool) (z1 : Bool) (n2 : Bool) (z2 : Bool) : Bool :=
  if z1 ∧ z2 ∧ n1 = n2 then n1 else mode = 2

/-- The sum of two values, rounded once: R292 without the rule for signalling NaNs, which the caller gives. -/
def Fmt.sum (f : Fmt) (mode : Nat) : Val → Val → Nat × Flags
  | .nan _, _ => (f.nan, 0)
  | _, .nan _ => (f.nan, 0)
  | .inf a, .inf b => if a = b then f.roundInf a else (f.nan, INVALID)
  | .inf a, .fin _ _ _ => f.roundInf a
  | .fin _ _ _, .inf b => f.roundInf b
  | .fin n1 m1 e1, .fin n2 m2 e2 =>
    let low := min e1 e2
    f.roundInt mode (zeroSign mode n1 (m1 = 0) n2 (m2 = 0)) (scaled n1 m1 e1 low + scaled n2 m2 e2 low) low

/-- An exact product; invalid for zero times infinity. -/
def Val.mul : Val → Val → Option Val
  | .nan _, _ => some (.nan false)
  | _, .nan _ => some (.nan false)
  | .inf a, .inf b => some (.inf (a != b))
  | .inf a, .fin n m _ => if m = 0 then none else some (.inf (a != n))
  | .fin n m _, .inf b => if m = 0 then none else some (.inf (n != b))
  | .fin n1 m1 e1, .fin n2 m2 e2 => some (.fin (n1 != n2) (m1 * m2) (e1 + e2))

def Val.isSnan : Val → Bool
  | .nan s => s
  | _ => false
def Val.isNan : Val → Bool
  | .nan _ => true
  | _ => false
def Val.neg : Val → Val
  | .nan s => .nan s
  | .inf n => .inf !n
  | .fin n m e => .fin (!n) m e

/-- A value rounded to a format. -/
def Fmt.ofVal (f : Fmt) (mode : Nat) : Val → Nat × Flags
  | .nan s => (f.nan, flagIf s INVALID)
  | .inf n => f.roundInf n
  | .fin n m e => f.round mode n m e false

/-- The NaN rules of R292 around an operation on values without NaNs. -/
def Fmt.nanRule (f : Fmt) (vs : List Val) (r : Nat × Flags) : Nat × Flags :=
  if vs.any Val.isSnan then (f.nan, INVALID) else if vs.any Val.isNan then (f.nan, 0) else r

def Fmt.add (f : Fmt) (mode : Nat) (x y : Nat) : Nat × Flags :=
  f.nanRule [f.val x, f.val y] (f.sum mode (f.val x) (f.val y))

def Fmt.sub (f : Fmt) (mode : Nat) (x y : Nat) : Nat × Flags :=
  f.nanRule [f.val x, f.val y] (f.sum mode (f.val x) (f.val y).neg)

def Fmt.mul (f : Fmt) (mode : Nat) (x y : Nat) : Nat × Flags :=
  f.nanRule [f.val x, f.val y] (match (f.val x).mul (f.val y) with
    | none => (f.nan, INVALID)
    | some v => f.ofVal mode v)

/-- x × y + c, rounded once. -/
def Fmt.fma (f : Fmt) (mode : Nat) (x y : Nat) (c : Val) : Nat × Flags :=
  f.nanRule [f.val x, f.val y, c] (match (f.val x).mul (f.val y) with
    | none => (f.nan, INVALID)
    | some v => f.sum mode v c)

/-- The order of two values that are no NaNs; equal zeros compare equal. -/
def Val.less : Val → Val → Bool
  | .inf a, .inf b => a && !b
  | .inf a, .fin _ _ _ => a
  | .fin _ _ _, .inf b => !b
  | .fin n1 m1 e1, .fin n2 m2 e2 => scaled n1 m1 e1 (min e1 e2) < scaled n2 m2 e2 (min e1 e2)
  | _, _ => false

/-- Is a value negative, by its sign? -/
def Val.isNeg : Val → Bool
  | .nan _ => false
  | .inf n => n
  | .fin n _ _ => n

/-- The total order of VMIN and VMAX: −0 below +0 (R293). -/
def Val.below (a b : Val) : Bool := a.less b || (!(b.less a) && a.isNeg && !b.isNeg)

/-- VMIN and VMAX on floating lanes (R293). -/
def Fmt.minmax (f : Fmt) (isMax : Bool) (x y : Nat) : Nat × Flags :=
  let a := f.val x
  let b := f.val y
  let fl := flagIf (a.isSnan || b.isSnan) INVALID
  if a.isNan ∧ b.isNan then (f.nan, fl)
  else if a.isNan then (y, fl)
  else if b.isNan then (x, fl)
  else (if isMax then (if a.below b then y else x) else (if b.below a then y else x), fl)

/-! ### Correctly rounded functions (R296) -/

/-- The square root of n, rounded down, with so many result bits at most. -/
def isqrt (n : Nat) : Nat → Nat → Nat
  | 0, r => r
  | b + 1, r => let t := r + 2 ^ b; isqrt n b (if t * t ≤ n then t else r)

def Fmt.rcp (f : Fmt) (mode : Nat) (x : Nat) : Nat × Flags :=
  match f.val x with
  | .nan s => (f.nan, flagIf s INVALID)
  | .inf n => (f.sign n, 0)
  | .fin n m e =>
    if m = 0 then (f.inf n, 0)
    else
      let k := Nat.log2 m + 64
      f.round mode n (2 ^ k / m) (-e - k) (2 ^ k % m ≠ 0)

def Fmt.rsq (f : Fmt) (mode : Nat) (x : Nat) : Nat × Flags :=
  match f.val x with
  | .nan s => (f.nan, flagIf s INVALID)
  | .inf n => if n then (f.nan, INVALID) else (f.sign false, 0)
  | .fin n m e =>
    if m = 0 then (f.inf n, 0)
    else if n then (f.nan, INVALID)
    else
      let odd := e % 2 ≠ 0
      let a := if odd then 2 * m else m
      let h : Int := (if odd then e - 1 else e) / 2
      let k := Nat.log2 a + 64
      let q := isqrt (2 ^ (2 * k) / a) (2 * k) 0
      f.round mode false q (-h - k) (q * q * a ≠ 2 ^ (2 * k))

/-- Fraction bits of the fixed point of VEXP2 and VLOG2 (log 9). -/
def fixBits : Nat := 320

/-- The sum of z^(2j+1) / (2j+1) in fixed point, from a power of z on. -/
def atanhSum (z2 : Nat) : Nat → Nat → Nat → Nat
  | 0, _, _ => 0
  | n + 1, p, j => p / (2 * j + 1) + atanhSum z2 n (p * z2 / 2 ^ fixBits) (j + 1)

/-- The natural logarithm of a / b in fixed point, for b ≤ a ≤ 2b: twice the inverse hyperbolic tangent of
(a − b) / (a + b). -/
def fixLn (a b : Nat) : Nat :=
  let z := (a - b) * 2 ^ fixBits / (a + b)
  2 * atanhSum (z * z / 2 ^ fixBits) 110 z 0

/-- The sum of x^j / j! in fixed point. -/
def expSum (x : Nat) : Nat → Nat → Nat → Nat
  | 0, _, _ => 0
  | n + 1, t, j => t + expSum x n (t * x / 2 ^ fixBits / (j + 1)) (j + 1)

def Fmt.exp2 (f : Fmt) (mode : Nat) (x : Nat) : Nat × Flags :=
  match f.val x with
  | .nan s => (f.nan, flagIf s INVALID)
  | .inf n => if n then (f.sign false, 0) else f.roundInf false
  | .fin n m e =>
    if m = 0 then f.round mode false 1 0 false
    else if 16 < (Nat.log2 m : Int) + e then
      (if n then f.round mode false 1 (-4096) true else f.round mode false 1 4096 true)
    else
      let a := scaled n m e (-(fixBits : Int))
      let i := a / (2 ^ fixBits : Nat)
      let fr := (a % (2 ^ fixBits : Nat)).toNat
      if fr = 0 then f.round mode false 1 i false
      else f.round mode false (expSum (fr * fixLn 2 1 / 2 ^ fixBits) 90 (2 ^ fixBits) 0) (i - fixBits) true

def Fmt.log2 (f : Fmt) (mode : Nat) (x : Nat) : Nat × Flags :=
  match f.val x with
  | .nan s => (f.nan, flagIf s INVALID)
  | .inf n => if n then (f.nan, INVALID) else f.roundInf false
  | .fin n m e =>
    if m = 0 then (f.inf true, 0)
    else if n then (f.nan, INVALID)
    else
      let l := Nat.log2 m
      let w : Int := (l : Int) + e
      if m = 2 ^ l then f.roundInt mode false w 0
      else
        let y := fixLn m (2 ^ l) * 2 ^ fixBits / fixLn 2 1
        let t := w * (2 ^ fixBits : Nat) + y
        if 0 ≤ t then f.round mode false t.toNat (-(fixBits : Int)) true
        else f.round mode true ((-t).toNat - 1) (-(fixBits : Int)) true

/-! ### Element types (R37) -/

def isFloat (t : Nat) : Bool := t == 2 || t == 3 || t == 4 || t == 9 || t == 10
def isSigned (t : Nat) : Bool := t == 0 || t == 5 || t == 7 || t == 11
def fmtOf (t : Nat) : Fmt := if t = 2 then FP32 else if t = 3 then BF16 else if t = 4 then FP16 else if t = 9 then GF8 else GF8W
def widthOf (t : Nat) : Nat :=
  if t ≤ 2 then 32 else if t ≤ 6 then 16 else if t ≤ 10 then 8 else 64

/-- An integer lane's value by signedness. -/
def laneInt (t x : Nat) : Int := if isSigned t then (BitVec.ofNat (widthOf t) x).toInt else (x : Int)
/-- The low bits of an integer, as a lane. -/
def wrapLane (t : Nat) (x : Int) : Nat := (x % (2 ^ widthOf t : Nat)).toNat

/-- Sat(x, type) (R273). -/
def satLane (t : Nat) (x : Int) : Nat × Flags :=
  let w := widthOf t
  let lo : Int := if isSigned t then -((2 ^ (w - 1) : Nat) : Int) else 0
  let hi : Int := if isSigned t then ((2 ^ (w - 1) : Nat) : Int) - 1 else ((2 ^ w : Nat) : Int) - 1
  if x < lo then (wrapLane t lo, SAT) else if hi < x then (wrapLane t hi, SAT) else (wrapLane t x, 0)

/-- IntRound: an exact real rounded to an integer (R285). -/
def intRound (mode : Nat) (neg : Bool) (num : Nat) (exp : Int) : Int × Bool :=
  if 4096 < exp then (if neg then -((2 ^ 4096 : Nat) : Int) else ((2 ^ 4096 : Nat) : Int), false)
  else
    let r := roundShift mode neg num (-exp) false
    (if neg then -(r.1 : Int) else (r.1 : Int), r.2)

/-- Convert(x, from, to, mode) (R279). -/
def convert (src dst mode x : Nat) : Nat × Flags :=
  if isFloat src then
    let v := (fmtOf src).val x
    if isFloat dst then
      if src = dst ∧ !v.isNan then (x, 0) else (fmtOf dst).ofVal mode v
    else match v with
      | .nan _ => (0, INVALID)
      | .inf n => satLane dst (if n then -((2 ^ 128 : Nat) : Int) else ((2 ^ 128 : Nat) : Int))
      | .fin n m e =>
        let r := intRound mode n m e
        let y := satLane dst r.1
        (y.1, y.2 ||| flagIf r.2 INEXACT)
  else if isFloat dst then (fmtOf dst).roundInt mode false (laneInt src x) 0
  else satLane dst (laneInt src x)

/-! ### Ternary packings (R274, R275) -/

/-- Weight k of TRI2 bytes, and whether its code is bad. -/
def tri2 (bytes : Nat) (k : Nat) : Int × Bool :=
  match bytes / 4 ^ k % 4 with
  | 0 => (0, false)
  | 1 => (1, false)
  | 3 => (-1, false)
  | _ => (0, true)

/-- Weight k of TRI5 bytes, and whether its byte is bad. -/
def tri5 (bytes : Nat) (k : Nat) : Int × Bool :=
  let b := bytes / 256 ^ (k / 5) % 256
  if 242 < b then (0, true) else ((b / 3 ^ (k % 5) % 3 : Nat) - 1, false)

end Sys2Proof.Machine
end

