-- ==== Sys2Proof/Machine/Lanes.lean ====
section
/-! DEFINITION. Vector registers as lanes, masks, and the shapes that vector and conversion instructions share (R281,
R288 to R290, R293). -/

namespace Sys2Proof.Machine

/-- Lane `i` of width `w` (R288). -/
def lane (w : Nat) (v : VReg) (i : Nat) : Nat := (v.extractLsb' (w * i) w).toNat

def natOfLanes (w : Nat) : List Nat → Nat
  | [] => 0
  | x :: r => x % 2 ^ w + 2 ^ w * natOfLanes w r

/-- The register whose lanes from lane 0 on are given, the rest zero. -/
def ofLanes (w : Nat) (l : List Nat) : VReg := BitVec.ofNat 512 (natOfLanes w l)

/-- The lanes of a register of `L` lanes of width `w`, each from its number, with the flags that they set. -/
def lanesWith (w L : Nat) (f : Nat → Nat × Flags) : VReg × Flags :=
  let rs := (List.range L).map f
  (ofLanes w (rs.map (·.1)), rs.foldl (fun a r => a ||| r.2) 0)

/-- A mask that governs: an inactive lane is zero and sets no flag (R289). -/
def governed (w : Nat) (m : Word) (f : Nat → Nat × Flags) : VReg × Flags :=
  lanesWith w (512 / w) (fun i => if m.getLsbD i then f i else (0, 0))

/-- A mask that governs and keeps: an inactive lane is the old one (R289). -/
def governedKeep (w : Nat) (m : Word) (old : VReg) (f : Nat → Nat × Flags) : VReg × Flags :=
  lanesWith w (512 / w) (fun i => if m.getLsbD i then f i else (lane w old i, 0))

def setFlags (fl : Flags) : Op Unit := upd (fun s => s.modMe (fun x => { x with fstat := x.fstat ||| fl }))

/-- Write a result and its flags. -/
def putV (d : BitVec 5) (r : VReg × Flags) : Op Unit := do
  wrV d r.1
  setFlags r.2

/-- Two operands, lane by lane, under a governing mask. -/
def vec2 (d a b : BitVec 5) (t : BitVec 4) (m : BitVec 3) (f : Nat → Nat → Nat × Flags) : Op Flow := thenNext do
  let w := widthOf t.toNat
  let x ← rdAB a w
  let y ← rdAB b w
  let k ← rdM m.toNat
  putV d (governed w k (fun i => f (lane w x i) (lane w y i)))

/-- One operand, lane by lane, under a governing mask. -/
def vec1 (d a : BitVec 5) (t : BitVec 4) (m : BitVec 3) (f : Nat → Nat × Flags) : Op Flow := thenNext do
  let w := widthOf t.toNat
  let x ← rdAB a w
  let k ← rdM m.toNat
  putV d (governed w k (fun i => f (lane w x i)))

/-- Two operands and the old D, lane by lane, inactive lanes kept. -/
def vec3 (d a b : BitVec 5) (t : BitVec 4) (m : BitVec 3) (f : Nat → Nat → Nat → Nat × Flags) : Op Flow := thenNext do
  let w := widthOf t.toNat
  let x ← rdAB a w
  let y ← rdAB b w
  let c ← rdV d
  let k ← rdM m.toNat
  putV d (governedKeep w k c (fun i => f (lane w x i) (lane w y i) (lane w c i)))

end Sys2Proof.Machine
end

