-- ==== Sys2Proof/Machine/Conversion.lean ====
section
/-! DEFINITION. The conversion class (R280 to R287). -/

namespace Sys2Proof.Machine

/-- The source type that a destination of VPACK fixes (R283). -/
def packSource (t : Nat) : Nat :=
  match t with
  | 0 => 11
  | 1 => 12
  | 3 => 2
  | 4 => 2
  | 5 => 0
  | 6 => 1
  | 7 => 5
  | 8 => 6
  | _ => 3

/-- A lane times two to an exponent (R285). -/
def scaleLane (t mode x e8 : Nat) : Nat × Flags :=
  let e := (BitVec.ofNat 8 e8).toInt
  if e = -128 then (0, 0)
  else if isFloat t then
    match (fmtOf t).val x with
    | .fin n m ex => (fmtOf t).round mode n m (ex + e) false
    | v => (fmtOf t).ofVal mode v
  else satLane t (intRound mode (laneInt t x < 0) (laneInt t x).natAbs e).1

/-- The most positive and the most negative value of the signed lane of a width. -/
def laneTop (w : Nat) : Nat := 2 ^ (w - 1) - 1
def laneBottom (w : Nat) : Nat := 2 ^ (w - 1)

/-- The true exponent of a lane (R286). -/
def exponentOf (t x : Nat) : Nat :=
  let w := widthOf t
  match (fmtOf t).val x with
  | .fin _ m e => if m = 0 then laneBottom w else (((Nat.log2 m : Int) + e) % (2 ^ w : Nat)).toNat
  | .inf _ => laneTop w
  | .nan _ => laneTop w

/-- The class mask of a lane (R286). -/
def classOf (t x : Nat) : Nat :=
  let f := fmtOf t
  (if f.signBit ≤ x then 32 else 0) + (match f.val x with
    | .nan _ => 1
    | .inf _ => 2
    | .fin _ m e => if m = 0 then 4 else if m < 2 ^ f.m ∧ e = f.emin - f.m then 8 else 16)

/-- A ternary weight of an i8 lane, and whether it clamps (R287). -/
def ternary (x : Nat) : Int × Bool :=
  let v := laneInt 7 x
  (if 0 < v then 1 else if v < 0 then -1 else 0, 1 < v.natAbs)

/-- The weights of the active lanes, and SAT. -/
def weights (k : Word) (x : VReg) : List Int × Flags :=
  let rs := (List.range 64).map (fun i => if k.getLsbD i then ternary (lane 8 x i) else (0, false))
  (rs.map (·.1), flagIf (rs.any (·.2)) SAT)

def tri2Code (w : Int) : Nat := if w = 1 then 1 else if w = -1 then 3 else 0

/-- A decoded weight as an i8 lane, and TRIBAD. -/
def weightLane (p : Int × Bool) : Nat × Flags := (wrapLane 7 p.1, flagIf p.2 TRIBAD)

/-- R282. Convert the lanes that both types hold. -/
def execVcvt (d a b : BitVec 5) (t : BitVec 4) (r : BitVec 2) (m : BitVec 3) (s : State) : Host.Outcome State Fault Refusal :=
  perform (.vcvt d a b t r m) (thenNext do
    let src := b.toNat
    let x ← rdAB a (widthOf src)
    let k ← rdM m.toNat
    let n := Nat.min (512 / widthOf src) (512 / widthOf t.toNat)
    putV d (governed (widthOf t.toNat) k (fun i =>
      if i < n then convert src t.toNat r.toNat (lane (widthOf src) x i) else (0, 0)))) s

/-- R283. Narrow two registers into one. -/
def execVpack (d a b : BitVec 5) (t : BitVec 4) (r : BitVec 2) (m : BitVec 3) (s : State) : Host.Outcome State Fault Refusal :=
  perform (.vpack d a b t r m) (thenNext do
    let src := packSource t.toNat
    let w := widthOf src
    let x ← rdAB a w
    let y ← rdAB b w
    let k ← rdM m.toNat
    let h := 512 / w
    putV d (governed (widthOf t.toNat) k (fun i =>
      convert src t.toNat r.toNat (if i < h then lane w x i else lane w y (i - h))))) s

/-- R284. Widen one half. -/
def execVunpk (d a : BitVec 5) (h : BitVec 1) (f t : BitVec 4) (r : BitVec 2) (m : BitVec 3) (s : State) : Host.Outcome State Fault Refusal :=
  perform (.vunpk d a h f t r m) (thenNext do
    let w := widthOf f.toNat
    let x ← rdAB a w
    let k ← rdM m.toNat
    putV d (governed (widthOf t.toNat) k (fun i =>
      convert f.toNat t.toNat r.toNat (lane w x (h.toNat * (512 / widthOf t.toNat) + i))))) s

/-- R285. Scale by powers of two. -/
def execVscl (d a b : BitVec 5) (t : BitVec 4) (r : BitVec 2) (m : BitVec 3) (s : State) : Host.Outcome State Fault Refusal :=
  perform (.vscl d a b t r m) (vec2 d a b t m (fun x y => scaleLane t.toNat r.toNat x (y % 256))) s

/-- R286. Exponents. -/
def execVclsExp (d a : BitVec 5) (t : BitVec 4) (m : BitVec 3) (s : State) : Host.Outcome State Fault Refusal :=
  perform (.vclsExp d a t m) (vec1 d a t m (fun x => (exponentOf t.toNat x, 0))) s

/-- R286. Class masks. -/
def execVclsCls (d a : BitVec 5) (t : BitVec 4) (m : BitVec 3) (s : State) : Host.Outcome State Fault Refusal :=
  perform (.vclsCls d a t m) (vec1 d a t m (fun x => (classOf t.toNat x, 0))) s

/-- R287. Decode TRI2. -/
def execVtriD2 (d a : BitVec 5) (m : BitVec 3) (s : State) : Host.Outcome State Fault Refusal :=
  perform (.vtriD2 d a m) (thenNext do
    let x ← rdAB a 8
    let k ← rdM m.toNat
    putV d (governed 8 k (fun i => weightLane (tri2 (x.extractLsb' 0 128).toNat i)))) s

/-- R287. Decode TRI5. -/
def execVtriD5 (d a : BitVec 5) (m : BitVec 3) (s : State) : Host.Outcome State Fault Refusal :=
  perform (.vtriD5 d a m) (thenNext do
    let x ← rdAB a 8
    let k ← rdM m.toNat
    putV d (governed 8 k (fun i => weightLane (tri5 (x.extractLsb' 0 104).toNat i)))) s

/-- R287. Encode TRI2. -/
def execVtriE2 (d a : BitVec 5) (m : BitVec 3) (s : State) : Host.Outcome State Fault Refusal :=
  perform (.vtriE2 d a m) (thenNext do
    let x ← rdAB a 8
    let k ← rdM m.toNat
    let q := weights k x
    putV d (ofLanes 2 (q.1.map tri2Code), q.2)) s

/-- R287. Encode TRI5. -/
def execVtriE5 (d a : BitVec 5) (m : BitVec 3) (s : State) : Host.Outcome State Fault Refusal :=
  perform (.vtriE5 d a m) (thenNext do
    let x ← rdAB a 8
    let k ← rdM m.toNat
    let q := weights k x
    putV d (ofLanes 8 ((List.range 13).map (fun j => (List.range 5).foldl (fun n i =>
      n + ((q.1.getD (5 * j + i) 0) + 1).toNat * 3 ^ i) 0)), q.2)) s

end Sys2Proof.Machine
end

