-- ==== Sys2Proof/Machine/Stores.lean ====
section
/-! DEFINITION. Stores as the strands and the units make them: what a store into a structure that the device keeps leaves
unspecified (R102, R126, R145, R353, R363). -/

namespace Sys2Proof.Machine

/-- Do two ranges of locations meet? -/
def meets (a n b m : Nat) : Bool := a < b + m && b < a + n

/-- The bits of a mask in a byte become unspecified (R5). -/
def State.loosen (s : State) (a : Nat) (mask : Byte) : State :=
  (s.setByte a ((s.byteAt a &&& ~~~mask) ||| (Config.freeByte s.nonce a &&& mask))).tick

/-- The control blocks that an end names, itself or through its producer block (R126, R129). -/
def State.namedBy (s : State) (c : Nat) (b : Word) : List Nat :=
  let l := bindLoc c b
  if bindKind b ≠ 1 then []
  else if bindWr b ∧ bindPort b = 1 then
    (if s.pXmod l then [] else (List.range (s.pTargets l)).map (s.pTarget l))
  else [l]

/-- Every control block that some end names. -/
def State.namedRings (s : State) : List Nat :=
  (s.ctxs.flatMap (fun p => p.2.bind.toList.flatMap (s.namedBy p.1))).eraseDups

/-- Software builds a channel anew: a store to a control block that no end names and no launch has built ends what the device
has kept of the channel that was there (R126). -/
def State.rebuilt (s : State) (old : State) (a n : Nat) : State :=
  if old.rings.any (fun y => meets a n y.ring 64) then
    let named := old.namedRings
    let built := old.launches.flatMap (fun l => if l.storage then l.chans.map (·.loc) else [])
    { s with rings := s.rings.filter (fun y => !meets a n y.ring 64 || named.contains y.ring || built.contains y.ring) }
  else s

/-- A level object and its ancestors (R100, R101), none of them twice: each that a chain adds takes one of the `n` objects it
may still meet. -/
def State.chainFrom (s : State) (part til : Nat) : Nat → List Nat → Nat → List Nat
  | 0, _, _ => []
  | n + 1, seen, va =>
    if va = 0 then [] else match s.objAt part til va with
      | none => []
      | some pa => if seen.contains pa then [] else pa :: s.chainFrom part til n (pa :: seen) (s.rd (pa + 16) 8)

/-- The level objects in use: those of held launches and of strands that count in one (R102, R104). -/
def State.objsInUse (s : State) : List Nat :=
  (s.launches.flatMap (fun l => s.chainFrom l.part (l.queue / 2 ^ 15 * 256) (2 ^ 34) [] l.record.obj) ++
   s.ctxs.flatMap (fun p => if p.2.lobj = 0 then [] else
     s.chainFrom (s.partOf (tilOf p.1)) (tilOf p.1) (2 ^ 34) [] p.2.lobj.toNat)).eraseDups

/-- The arrival counters in use: those with a member, or that a copy will credit (R363). -/
def State.countersInUse (s : State) : List Nat :=
  (s.tils.flatMap (fun p => p.2.members.map (fun m => locSpad p.1 m.off)) ++
   s.copies.flatMap (fun k => k.dests.filterMap (fun d => match d.ctra.bind (s.place (tilOf k.cid)) with
     | some (.near t off) => if off % 16 = 0 then some (locSpad t off) else none
     | _ => none))).eraseDups

/-- The partition that owns a queue's block (R93). -/
def State.queueOwner (s : State) (q : Nat) : Option Nat :=
  (s.parts.find? (fun p => p.2.blocks.contains (q / 1024))).map (·.1)

def State.qLog (s : State) (d : Nat) : Nat := s.rd (d + 8) 1
def State.qMode (s : State) (d : Nat) : Nat := s.rd (d + 9) 1
def State.qTail (s : State) (d : Nat) : Nat := s.rd (d + 16) 8
def State.qHead (s : State) (d : Nat) : Nat := s.rd (d + 24) 8

/-- Is a descriptor treated as disabled for its fields (R94)? -/
def State.descBad (s : State) (d : Nat) : Bool :=
  3 < s.qMode d || 15 < s.rd (d + 10) 1 || !s.zeros (d + 11) 5 || !s.zeros (d + 36) 4 || !s.zeros (d + 48) 16 ||
  s.rd d 8 % 64 ≠ 0 || s.qLog d < 4 || 16 < s.qLog d

/-- A write to TAIL of an enabled device-mode queue, but by LAUNCH, clears ENABLE and counts an error; of a descriptor that is
treated as disabled nothing changes (R94). -/
def State.tailWritten (s : State) (old : State) (a n : Nat) : State :=
  (linesOf a n).foldl (fun s l => match old.queueAt l with
    | none => s
    | some q =>
      let d := queueDesc q
      if meets a n (d + 16) 8 ∧ old.qMode d = 3 ∧ !old.descBad d ∧ old.queueOwner q = some (old.rd (d + 10) 1) then
        (s.devWr (d + 9) 1 (s.rd (d + 9) 1 / 2 * 2)).devWr (d + 32) 4 ((s.rd (d + 32) 4 + 1) % 2 ^ 32)
      else s) s

/-- What a store by software leaves unspecified, by the state before it: a control block that an end names (R126),
NFAULT and LASTVA (R145), EMIT and MERR (R353), a level object in use (R102), an arrival counter in use (R363); and what it
does to a queue descriptor (R94). -/
def State.tamper (s : State) (old : State) (a n : Nat) : State :=
  let s := (s.tailWritten old a n).rebuilt old a n
  let s := (old.namedRings.filter (fun r => meets a n r 64)).foldl (fun s r =>
    (s.scramble (r + 8) (r + 32)).scramble (old.rBase r) (old.rBase r + (old.rWidth r + 8) * old.rDepth r)) s
  let s := old.tils.foldl (fun s p =>
    let s := p.2.refs.foldl (fun s r =>
      let d := locSpad p.1 r.desc
      if meets a n (d + 12) 12 then s.scramble (d + 12) (d + 24) else s) s
    match p.2.merge with
    | none => s
    | some m =>
      let d := locSpad p.1 m.desc
      if meets a n (d + 4) 8 then s.scramble (d + 4) (d + 12) else s) s
  let s := (old.objsInUse.filter (fun o => meets a n (o + 8) 8 || meets a n (o + 25) 2)).foldl (fun s o =>
    ((s.scramble (o + 8) (o + 16)).scramble (o + 25) (o + 26)).loosen (o + 26) 0x1F) s
  (old.countersInUse.filter (fun c => meets a n c 16)).foldl (fun s c =>
    (s.scramble c (c + 12)).loosen (c + 12) 7) s

/-- A strand's store of one lane (R171, R173). -/
def strandStore (all : Bool) (l : Lane) (bs : List Byte) : Op Unit := do
  let old ← get
  storeLane all l bs
  if !old.me.tx.active then upd (fun s => s.tamper old l.loc l.n)

/-- A write by a unit under a partition. -/
def State.devStore (s : State) (loc part : Nat) (bs : List Byte) : State :=
  (s.globalStore loc part bs none).tamper s loc bs.length

/-- One scalar store of `n` bytes. -/
def storeScalar (k : Acc) (n : Nat) (va : Word) (x : Nat) : Op Unit := do
  match ← resolveStore k n [(0, va)] with
  | l :: _ => strandStore (k = .stm) l (bytesOfNat n x)
  | [] => return ()

end Sys2Proof.Machine
end

