-- ==== Sys2Proof/Machine/Engines.lean ====
section
/-! DEFINITION. The steps of the ring logic (R129, R130, R142), of the reference engines (R146, R147, R387), of the stream
port's bindings (R150, R151) and of the merge unit (R351, R352). -/

namespace Sys2Proof.Machine

/-! ### Rings -/

/-- Is the port that leads to another module marked down, and its link not up again (R414)? -/
def Port.isDown (p : Port) (port : Nat) : Bool := p.portsDown.contains port && !p.linksUp.contains port
def State.portDown (s : State) (module : Nat) : Bool := s.port.peers.any (fun p => p.1 == module && s.port.isDown p.2.1)

/-- A peer publishes a number that it has reserved in a ring here (R135, R413). -/
def State.publishPeer (s : State) (r c seq : Nat) (x : Elem) : State :=
  let y := s.ringX r
  match y.resv.find? (fun p => p.1 == c && p.2.2 == seq) with
  | none => s
  | some p => (s.setRing { y with resv := y.resv.filter (· ≠ p) }).publishAt r seq x none

/-- The first cargo on its way to a ring arrives (R135, R142). An element for a diverted ring waits while the spill queue
has no room for it (R154); one for another module's ring is delivered there unless its port is down (R413, R414). -/
def State.arrive (s : State) (r : Nat) : State :=
  match s.flights.find? (fun f => f.ring == r) with
  | none => s
  | some f =>
    let t := { s with flights := s.flights.erase f }
    if isXring r then
      if s.portDown (xringModule r) then s
      else match f.cargo with
        | .elem x _ _ _ seq => t.toPeer (.elem r seq x)
        | _ => t
    else match f.cargo with
      | .elem x g deal dealt seq =>
        if !t.spillFits r then s
        else match seq with
          | some q => t.publishPeer r f.cid q x
          | none => { (({ (t.rPut r 44 (t.rGrant r - 1)) with due := f.due } : State).ringEnqueue r f.cid x g deal dealt) with
                      due := s.due }
      | .close g => t.closeGroup r g
      | .ended => (t.setRing { t.ringX r with ended := addOnce f.cid (t.ringX r).ended }).release7 r

/-- A request of a peer leaves the inbox; nothing comes over a port that is down (R414). -/
def State.fromPeer (s : State) (module : Nat) (f : State → State) : State :=
  let t : State := { s with port := { s.port with inbox := s.port.inbox.drop 1 } }
  if t.portDown module then t else f t

/-- R142. An element from a far producer reaches its ring, or one from another module (R413). -/
def execElementArrival (ring : Nat) (s : State) : Host.Outcome State Fault Refusal :=
  .next ((match s.port.inbox with
    | .peerElement m ref seq x :: _ =>
      if refRing ref = ring then s.fromPeer m (fun t => t.launchCargo ring (peerCid m) (.elem x none none false seq)) else s
    | _ => s).arrive ring)

/-- R130. Elements move from the extension into the window. -/
def execExtensionMove (ring : Nat) (s : State) : Host.Outcome State Fault Refusal :=
  let t := s.moveAll ring ((s.ringX ring).ext.length)
  .next (if (t.ringX ring).ext.length = (s.ringX ring).ext.length then s else t.changeChan ring)

/-- Another module's ring grants credits as that module sees fit, while its port is up (R413, R414): each end that waits, and was
not cut off as the port went down, gets a free number of them. -/
def State.peerGrant (s : State) (r : Nat) : State :=
  if s.portDown (xringModule r) then s
  else ((s.ringX r).waiters.filter (fun w => !s.isCut w.1 w.2 r)).foldl (fun s w =>
    let n := Config.freeNat s.nonce
    let s := s.tick
    if n = 0 then s
    else
      let y := s.ringX r
      ((s.setCredit w.1 w.2 r (s.credit w.1 w.2 r + n)).setRing { y with
        waiters := y.waiters.filter (· ≠ w), dry := y.dry.filter (· ≠ w) }).changeChan (s.endLoc w.1 w.2)) s

/-- A peer's producer end reserves numbers of a ring here, is refused, or is to ask again (R162). -/
def State.reservePeer (s : State) (r module k n : Nat) : State :=
  if n = 0 ∨ 64 < n ∨ s.rDepth r + s.rXsize r < n then s.toPeer (.reserved module (ringRef r) k none)
  else if !s.hasFree r n none then s
  else
    let seq := s.rRseq r
    ((s.reserve (peerCid module) k r seq n).rPut r 12 (seq + n)).toPeer (.reserved module (ringRef r) k (some seq))

/-- What a peer's producer end asks of a ring here: credit, the return of credits, or numbers (R129, R162, R413). -/
def State.peerAsks (s : State) (r : Nat) : State :=
  let at_ := fun (m ref : Nat) (f : State → State) =>
    if refRing ref = r then s.fromPeer m (fun t =>
      let t := t.adopt r
      if (t.ringX r).geo.isNone then t else f t) else s
  match s.port.inbox with
  | .peerCredit m ref k :: _ => at_ m ref (fun t =>
      let y := t.ringX r
      t.setRing { y with waiters := y.waiters ++ [(peerCid m, k)], dry := y.dry ++ [(peerCid m, k)] })
  | .peerReturn m ref n :: _ => at_ m ref (fun t => t.rPut r 44 (t.rGrant r - n))
  | .peerReserve m ref k n :: _ => at_ m ref (fun t => t.reservePeer r m k n)
  | _ => s

/-- R129. Credits are granted to the ends that wait for them. -/
def execCreditGrant (ring : Nat) (s : State) : Host.Outcome State Fault Refusal :=
  .next (if isXring ring then s.peerGrant ring else (s.peerAsks ring).grant ring)

/-! ### Reference engines -/

/-- An ENGERR message to the steward of a strand (R152, R384). -/
def State.engErr (s : State) (c kind eng til desc : Nat) (va : Word) : State :=
  s.send (coreOf c) 0 { header := headerUnit til 9
                        body := bodyOf [(0, 4, (s.sid c).toNat), (4, 1, kind), (5, 1, eng), (8, 8, va.toNat),
                          (16, 8, (nearAddr til desc).toNat), (24, 4, til)] }

/-- Put a result in place of the first pending fetch. -/
def answerFirst (x : Fetch) : List Fetch → List Fetch
  | [] => []
  | .pending _ :: r => x :: r
  | f :: r => f :: answerFirst x r

/-- One fetch of a binding returns: its value, a poisoned line's FETCHFAIL, or a fault posted to the service core
(R146, R147, R152). -/
def State.fetchBack (s : State) (c e : Nat) : State :=
  let til := tilOf c
  match (s.til til).refs.find? (fun r => r.cid == c && r.idx == e) with
  | none => s
  | some r =>
    match r.fetches.findSome? (fun f => match f with
      | .pending va => some va
      | _ => none) with
    | none => s
    | some va =>
      let n := if r.rsize = 0 then 4 else if r.rsize = 1 then 8 else 64
      match s.devXlate (s.partOf til) til va.toNat .load with
      | .ok (pa, _) =>
        if s.poisoned pa n then
          (s.engErr c 0 r.eng til r.desc va).refDeliver { r with fetches := answerFirst (.done fetchFail) r.fetches }
        else
          s.refDeliver { r with fetches := answerFirst (.done { awn := false, data := BitVec.ofNat 512 (s.rd pa n) }) r.fetches }
      | .error _ =>
        let d := locSpad til r.desc
        let s := (s.devWr (d + 12) 4 (s.rd (d + 12) 4 + 1)).devWr (d + 16) 8 va.toNat
        let s := s.setRef { r with fetches := answerFirst (.faulted va) r.fetches }
        s.send (s.service til) 1 { header := headerUnit til 18
                                   body := bodyOf [(0, 4, (s.sid c).toNat), (4, 1, r.eng),
                                     (8, 8, (nearAddr til r.desc).toNat), (16, 8, va.toNat), (24, 4, til)] }

/-- One fetch returns, and an index that the engine kept waiting is fetched (R146). -/
def State.fetchReturn (s : State) (c e : Nat) : State :=
  match (s.til (tilOf c)).refs.find? (fun r => r.cid == c && r.idx == e) with
  | none => s
  | some r => (s.fetchBack c e).startQueued (tilOf c) r.eng 1

/-- R146. A fetch of a reference engine returns. -/
def execEngineFetchComplete (cid e : Nat) (s : State) : Host.Outcome State Fault Refusal := .next (s.fetchReturn cid e)

/-- A reply that is dropped is counted (R78, R223). -/
def State.stale (s : State) (til : Nat) : State := s.modTil til (fun t => { t with stalerep := t.stalerep + 1 })

/-- Answer the oldest faulted fetch: tried again, or failed. -/
def answerFault (retry : Bool) : List Fetch → Option (List Fetch)
  | [] => none
  | .faulted va :: r => some ((if retry then .pending va else .done fetchFail) :: r)
  | f :: r => (answerFault retry r).map (f :: ·)

/-- R387. An engine reply. -/
def execEngineReply (til : Nat) (body : Body) (s : State) : Host.Outcome State Fault Refusal :=
  let sid := BitVec.ofNat 32 (Body.field body 0 4)
  let action := Body.field body 4 1
  let eng := Body.field body 5 1
  let doff := Body.field body 6 2
  .next (
    if 1 < action ∨ 1 < eng ∨ 2 ^ 14 ≤ doff ∨ Body.field body 8 8 ≠ 0 ∨ !s.sidLive sid then s.stale til
    else match (s.til til).refs.find? (fun r => r.cid == cidOfSid sid && r.desc == doff * 64 && r.eng == eng) with
      | none => s.stale til
      | some r => match answerFault (action = 0) r.fetches with
        | none => s.stale til
        | some fs =>
          let s := s.refDeliver { r with fetches := fs }
          if action = 0 then s.later (.engineFetchComplete r.cid r.idx) else s.startQueued til eng 1)

/-! ### Streams -/

/-- A copy-fault message of the stream port (R360). -/
def State.copyFaultMsg (s : State) (sid : BitVec 32) (til ckind cause tag : Nat) (va pc : Word) : State :=
  s.send (s.service til) 1 { header := headerUnit til 17
                             body := bodyOf [(0, 4, sid.toNat), (4, 1, ckind), (5, 1, cause), (6, 1, tag), (8, 8, va.toNat),
                               (16, 8, pc.toNat), (24, 4, til)] }

/-- A copy-error message (R361, R384). -/
def State.copyErrMsg (s : State) (sid : BitVec 32) (code tag : Nat) (va pc : Word) : State :=
  let c := cidOfSid sid
  s.send (coreOf c) 0 { header := headerUnit (tilOf c) 6
                        body := bodyOf [(0, 4, sid.toNat), (4, 1, code), (5, 1, tag), (8, 8, va.toNat), (16, 8, pc.toNat)] }

/-- Where a unit of a tiller finds an address: a location, a fault, or no place at all. -/
inductive Spot where
  | at_ (loc : Nat) (entry : Word)
  | fault (cause : Nat)
  | bad
  deriving DecidableEq, Repr

/-- Spaces, alignment, bounds and translation for a unit (R200, R201, R216). -/
def State.spot (s : State) (til : Nat) (va : Word) (n : Nat) (k : Acc) : Spot :=
  match s.check til va n with
  | .error _ => .bad
  | .ok (.near t off) => .at_ (locSpad t off) 0
  | .ok (.global a) => match s.devXlate (s.partOf til) til a k with
    | .ok (pa, e) => .at_ pa e
    | .error c => .fault c

/-- The awns that follow an element of a read stream, by the number of elements delivered with it (R150). -/
def StreamBind.marks (b : StreamBind) (pos : Nat) : List Elem :=
  (if b.awn1 ∧ pos % b.c0 = 0 then [awnElem 1 0] else []) ++
  (if b.awn2 ∧ pos % (b.c0 * b.c1) = 0 then [awnElem 2 0] else []) ++
  (if pos = b.total then [awnElem 7 0] else [])

/-- Elements that the stream port reads ahead (log 17). -/
def readAhead : Nat := 8

/-- A stream's key. -/
def StreamBind.key (b : StreamBind) : Key := .chan (lineOf (locSpad (tilOf b.cid) b.desc))

/-- Deliver an element of a read stream. -/
def State.streamDeliver (s : State) (b : StreamBind) (x : Elem) : State :=
  let b := { b with pos := b.pos + 1, buf := b.buf ++ [x] ++ b.marks (b.pos + 1), ended := b.pos + 1 = b.total, stalled := false }
  (s.setStream b).changeKey b.key

/-- The port reads the next element of a read stream (R150, R152). An address in neither space delivers FETCHFAIL
(log 18). -/
def State.streamRead (s : State) (c e : Nat) : State :=
  match s.streamOf c e with
  | none => s
  | some b =>
    if b.write ∨ b.ended ∨ b.stalled ∨ readAhead ≤ b.buf.length then s
    else
      let n := if 8 ≤ e then 64 else 8
      let va := b.addr b.pos
      match s.spot (tilOf c) va n .load with
      | .bad => s.streamDeliver b fetchFail
      | .fault cause => (s.setStream { b with stalled := true }).copyFaultMsg (s.sid c) (tilOf c) 0 cause 0 va 0
      | .at_ loc _ =>
        if s.poisoned loc n then (s.engErr c 1 0 (tilOf c) b.desc va).streamDeliver b fetchFail
        else s.streamDeliver b { awn := false, data := BitVec.ofNat 512 (s.rd loc n) }

/-- R150. The next element of a read stream. -/
def execStreamReadElement (cid e : Nat) (s : State) : Host.Outcome State Fault Refusal := .next (s.streamRead cid e)

/-- A store stream is done with its next element. -/
def State.streamStored (s : State) (b : StreamBind) : State :=
  let b := { b with pos := b.pos + 1, buf := b.buf.drop 1, stalled := false }
  let s := (s.setStream b).changeKey b.key
  if b.buf.isEmpty ∧ 16 ≤ b.e then s.modTil (tilOf b.cid) (fun t => { t with
    streams := t.streams.filter (fun x => !(x.cid == b.cid && x.e == b.e)) })
  else s

/-- The port stores the next element of a store stream (R151). An address in neither space stores nothing (log 18). -/
def State.streamStore (s : State) (c e : Nat) : State :=
  match s.streamOf c e with
  | none => s
  | some b =>
    if !b.write ∨ b.stalled then s
    else match b.buf with
      | [] => s
      | x :: _ =>
        let n := if 8 ≤ e % 16 then 64 else 8
        let va := b.addr b.pos
        match s.spot (tilOf c) va n .store with
        | .bad => (s.copyErrMsg (s.sid c) 1 0 va 0).streamStored b
        | .fault cause => (s.setStream { b with stalled := true }).copyFaultMsg (s.sid c) (tilOf c) 1 cause 0 va 0
        | .at_ loc _ => (s.devStore loc (s.partOf (tilOf c)) (bytesOfNat n x.data.toNat)).streamStored b

/-- R151. The next element of a store stream. -/
def execStreamStoreElement (cid e : Nat) (s : State) : Host.Outcome State Fault Refusal := .next (s.streamStore cid e)

/-- A copy-fault reply that is for a stream: it goes on, or its element fails (log 18). -/
def State.streamReply (s : State) (b : StreamBind) (resume : Bool) : State :=
  if resume then s.setStream { b with stalled := false }
  else if b.write then s.streamStored b else s.streamDeliver b fetchFail

/-! ### The merge unit (R351, R352) -/

def Elem.index (x : Elem) : Nat := (x.data.extractLsb' 32 32).toNat
def Elem.value (x : Elem) : Nat := (x.data.extractLsb' 0 32).toNat
def pairElem (i v : Nat) : Elem := { awn := false, data := BitVec.ofNat 512 (i * 2 ^ 32 + v % 2 ^ 32) }

/-- What one step of the unit does: takes from A, from B, emits, counts an error. -/
structure MergeStep where
  takeA : Bool
  takeB : Bool
  emit : Option Elem
  err : Bool
  deriving DecidableEq, Repr

def Merge.mode (m : Merge) : Nat := m.mmode.toNat % 4
def Merge.dropz (m : Merge) : Bool := m.mmode.getLsbD 2
def Merge.isInt (m : Merge) : Bool := m.mmode.getLsbD 3

/-- A computed value, and whether DROPZ drops it. -/
def Merge.compute (m : Merge) (x y : Nat) : Nat × Bool :=
  let r :=
    if m.isInt then (satLane 0 (if m.mode = 0 then laneInt 0 x + laneInt 0 y else laneInt 0 x * laneInt 0 y)).1
    else (if m.mode = 0 then FP32.add 0 x y else FP32.mul 0 x y).1
  (r, m.dropz && (r = 0 || (!m.isInt && r = 2 ^ 31)))

/-- An element passed through unmatched from input A (flag 1) or B (flag 2). -/
def Merge.pass (m : Merge) (x : Elem) (flag : Nat) : Option Elem :=
  if m.mode = 0 then some x else if m.mode = 1 then none else some (pairElem x.index flag)

/-- Is a data element's index not above the last one taken from its input? -/
def notAbove (x : Elem) (last : Option Nat) : Bool := !x.awn && last.any (fun l => x.index ≤ l)

/-- The unit's next step from its two heads. -/
def Merge.decide (m : Merge) (a b : Elem) : MergeStep :=
  if notAbove a m.lasta then { takeA := true, takeB := false, emit := none, err := true }
  else if notAbove b m.lastb then { takeA := false, takeB := true, emit := none, err := true }
  else if a.awn ∧ b.awn then
    if a.level = b.level then { takeA := true, takeB := true, emit := some (awnElem a.level a.code), err := false }
    else { takeA := a.level < b.level, takeB := b.level < a.level, emit := none, err := true }
  else if b.awn ∨ (!a.awn ∧ a.index < b.index) then { takeA := true, takeB := false, emit := m.pass a 1, err := false }
  else if a.awn ∨ b.index < a.index then { takeA := false, takeB := true, emit := m.pass b 2, err := false }
  else if m.mode = 2 then { takeA := true, takeB := true, emit := some (pairElem a.index 3), err := false }
  else
    let r := m.compute a.value b.value
    { takeA := true, takeB := true, emit := if r.2 then none else some (pairElem a.index r.1), err := false }

/-- The last index of an input after a step: none once its awn is taken. DESIGN CHOICE: an element that is dropped since its index is
not above the last is not the one that the next is held against (R351; log 55). -/
def lastAfter (took : Bool) (x : Elem) (last : Option Nat) (err : Bool) : Option Nat :=
  if !took then last else if x.awn then none else if err then last else some x.index

/-- One step of the merge unit, if all three ends are bound, both inputs have a head and the output has room. -/
def State.mergeStep (s : State) (til : Nat) : State :=
  match (s.til til).merge with
  | none => s
  | some m =>
    match m.bufa, m.bufb with
    | a :: ra, b :: rb =>
      if m.ina.isNone ∨ m.inb.isNone ∨ m.out.isNone ∨ 32 ≤ m.bufo.length then s
      else
        let d := locSpad til m.desc
        let p := m.decide a b
        let m := { m with
          bufa := if p.takeA then ra else m.bufa, bufb := if p.takeB then rb else m.bufb
          bufo := m.bufo ++ p.emit.toList
          lasta := lastAfter p.takeA a m.lasta p.err, lastb := lastAfter p.takeB b m.lastb p.err }
        let s := s.modTil til (fun t => { t with merge := some m })
        let s := if p.emit.isSome then s.devWr (d + 4) 4 (s.rd (d + 4) 4 + 1) else s
        let s := if p.err then s.devWr (d + 8) 4 (s.rd (d + 8) 4 + 1) else s
        (s.changeKey (.chan (lineOf d))).laterOnce (.mergeEmit til)
    | _, _ => s

/-- R351. One step of the merge unit. -/
def execMergeEmit (til : Nat) (s : State) : Host.Outcome State Fault Refusal := .next (s.mergeStep til)

/-- R353. The counters of the merge descriptor that a bound MRG end names, read and, if so asked, cleared. -/
def mergeCounters (d a : BitVec 5) (clear : Bool) : Op Flow := thenNext do
  let b ← boundEnd a
  if bindKind b ≠ 3 then raise Cause.illegal
  let s ← get
  let loc := bindLoc s.cur b
  if clear then upd (fun s => s.devWr (loc + 4) 8 0)
  wrS d (BitVec.ofNat 64 (s.rd (loc + 8) 4 * 2 ^ 32 + s.rd (loc + 4) 4))

/-- R353. Read MERR and EMIT. -/
def execMrgcStat (d a : BitVec 5) (s : State) : Host.Outcome State Fault Refusal :=
  perform (.mrgcStat d a) (mergeCounters d a false) s

/-- R353. Read and clear MERR and EMIT. -/
def execMrgcClr (d a : BitVec 5) (s : State) : Host.Outcome State Fault Refusal :=
  perform (.mrgcClr d a) (mergeCounters d a true) s

end Sys2Proof.Machine
end

