-- ==== Sys2Proof/Machine/Tx.lean ====
section
/-! DEFINITION. The transaction class (R181 to R188). -/

namespace Sys2Proof.Machine

/-- Bytes that an attempt has written, latest first, become those of memory: lines change, poison of units written whole
goes (R178, R195, R214); the stores among them act as stores do on what the device keeps. -/
def State.commitCells (s : State) (c : Nat) (cells : List (Nat × Byte)) (stores : List (Nat × Nat)) : State :=
  let t := cells.foldr (fun p s => s.setByte p.1 p.2) s
  let t := { t with poison := t.poison.filter (fun u => !((List.range 8).all (fun j => (tget cells (u + j)).isSome))) }
  let t := (cells.map (fun p => p.1 / 64)).eraseDups.foldl (fun s l => s.changeLine l (some c)) t
  stores.foldr (fun p t => t.tamper s p.1 p.2) t

/-- The entries of a membership table with one strand's entry for a counter as given (R364). -/
def setMember (c off : Nat) (e : Option (Bool × Bool)) (ms : List Member) : List Member :=
  let rest := ms.filter (fun m => !(m.cid == c && m.off == off))
  match e with
  | none => rest
  | some (d, p) =>
    if ms.any (fun m => m.cid == c && m.off == off) then
      ms.map (fun m => if m.cid = c ∧ m.off = off then { m with arrd := d, aph := p } else m)
    else ms ++ [{ cid := c, off := off, arrd := d, aph := p }]

/-- Would the commit change a line that the token's holder has read, or enqueue where it has (R180)? -/
def State.meetsHolder (s : State) (c : Nat) : Bool :=
  let p := (s.ctx c).tx.point
  (match (s.til (tilOf c)).token.holder with
    | none => false
    | some h => h ≠ c && (s.ctx h).tx.sole && p.cells.any (fun b => (s.ctx h).tx.reads.contains (.line (b.1 / 64)))) ||
  (enqsOf p.ops).any (fun q => s.tokenBlocks c q.1)

/-- The membership table after the attempt's own changes. -/
def State.commitMembers (s : State) (c : Nat) : List Member :=
  (s.ctx c).tx.point.membs.foldr (fun m ms => setMember c m.1 m.2 ms) (s.til (tilOf c)).members

/-- R184. The commit, as one step. -/
def commitTx : Op Unit := do
  let s ← get
  let c := s.cur
  let p := s.me.tx.point
  if s.meetsHolder c then stop .conflict
  let ms := s.commitMembers c
  if 256 < ms.length then stop .conflict
  match s.putAll c (enqsOf p.ops), s.runOps c p.ops with
  | .done _, .done t =>
    let t := t.modTil (tilOf c) (fun x => { x with members := ms })
    let t := t.modCtx c (fun x => { x with
      tx := { x.tx with active := false, sole := false, marked := false, alts := [], point := .empty, reads := []
                        writes := [], nconf := 0 } })
    set ((t.commitCells c p.cells p.stores).dropToken c)
  | _, _ => stop .conflict

/-- Does the acting strand run an attempt? Outside one the instruction raises ILLEGAL. -/
def inAttempt : Op Unit := do
  let x ← ask State.me
  if !x.tx.active then raise Cause.illegal

/-- R182. Begin an attempt; in sole mode the token is taken, or waited for in the order of the requests (R180). -/
def execTxb (k : BitVec 19) (s : State) : Host.Outcome State Fault Refusal :=
  performRaw (.txb k) (do
    let s ← get
    let x := s.me
    let t := target x.pc k
    if t.toNat ≥ 2 ^ 52 then raiseAt Cause.addr 0 t
    let n := if x.tx.rst then x.tx.nconf else 0
    let tok := (s.til s.myTil).token
    let begin_ : Ctx → Ctx := fun x => { x with
      tx := { x.tx with nconf := n, rst := false, fail := t, txbpc := x.pc, alts := [], point := .empty, reads := []
                        writes := [], rcnt := 0, wcnt := 0, active := true, sole := n = 4, marked := false } }
    if n = 4 then
      if tok.holder.isNone ∧ (tok.queue = [] ∨ tok.queue.head? = some s.cur) then
        upd (fun s => ((s.modMe begin_).modTil s.myTil (fun t => { t with
          token := { holder := some s.cur, queue := t.token.queue.filter (· ≠ s.cur) } })).changeKey (.token s.myTil))
        return .next
      else
        upd (fun s => (s.modTil s.myTil (fun t => { t with
          token := { t.token with queue := addOnce s.cur t.token.queue } })).sleepOn s.cur 4 [.token s.myTil] [])
        return .stay
    else
      upd (fun s => s.modMe begin_)
      return .next) s

/-- R183. Open an alternative. -/
def execTxo (k : BitVec 19) (s : State) : Host.Outcome State Fault Refusal :=
  performRaw (.txo k) (thenNext do
    inAttempt
    let x ← ask State.me
    let t := target x.pc k
    if t.toNat ≥ 2 ^ 52 then stop (.abort 5 0)
    if x.tx.alts.length = 4 then stop (.abort 2 0)
    upd (fun s => s.modMe (fun x => { x with tx := { x.tx with alts := (t, x.tx.point) :: x.tx.alts } }))) s

/-- R184. Commit. -/
def execTxe (s : State) : Host.Outcome State Fault Refusal :=
  performRaw .txe (thenNext do
    inAttempt
    commitTx) s

/-- R185. Retry. -/
def execTxr (s : State) : Host.Outcome State Fault Refusal :=
  performRaw .txr (do
    inAttempt
    upd (fun s => s.txRetry s.cur)
    return .stay) s

/-- R186. Abort with a code. -/
def execTxa (k : BitVec 16) (s : State) : Host.Outcome State Fault Refusal :=
  performRaw (.txa k) (do
    inAttempt
    upd (fun s => s.abortTx s.cur 7 k)
    return .stay) s

/-- R187. Add a line to the read set. An address outside the strand's own near space is registered with its owner (R172).
The line of any byte that a load of a byte may read can be named. -/
def execWatch (a : BitVec 5) (k : BitVec 14) (s : State) : Host.Outcome State Fault Refusal :=
  performRaw (.watch a k) (thenNext do
    inAttempt
    examineFields (.watch a k)
    let va := (← rdS a) + k.signExtend 64
    let ls ← resolve .load 1 [(0, va)]
    ls.forM (fun l => do
      readKey (.line (l.loc / 64))
      if !l.own then upd (fun s => s.registerOwner (.line (l.loc / 64)) s.myTil))) s

end Sys2Proof.Machine
end

