-- ==== Sys2Proof/Machine/Counters.lean ====
section
/-! DEFINITION. Arrival counters as their tillers keep them (R363 to R366). -/

namespace Sys2Proof.Machine

/-- The fields of a counter (R363). -/
structure Counter where
  expb : Int
  arr : Nat
  memb : Nat
  ph : Bool
  brk : Bool
  brkp : Bool
  deriving DecidableEq, Repr

/-- A counter from its sixteen bytes; none where it is malformed. -/
def counterOf (bs : List Byte) : Option Counter :=
  let x := natOfBytes bs
  if x / 2 ^ 99 ≠ 0 then none
  else some { expb := (BitVec.ofNat 64 x).toInt, arr := x / 2 ^ 64 % 2 ^ 16, memb := x / 2 ^ 80 % 2 ^ 16
              ph := x / 2 ^ 96 % 2 = 1, brk := x / 2 ^ 97 % 2 = 1, brkp := x / 2 ^ 98 % 2 = 1 }

/-- The bytes of EXPB to CFL. -/
def Counter.bytes (k : Counter) : List Byte :=
  bytesOfNat 13 ((BitVec.ofInt 64 k.expb).toNat + k.arr % 2 ^ 16 * 2 ^ 64 + k.memb % 2 ^ 16 * 2 ^ 80 +
    (if k.ph then 2 ^ 96 else 0) + (if k.brk then 2 ^ 97 else 0) + (if k.brkp then 2 ^ 98 else 0))

/-- Check of R365: the phase completes once no arrival and no byte is awaited. -/
def Counter.check (k : Counter) : Counter :=
  if k.arr = 0 ∧ k.expb = 0 then { k with ph := !k.ph, brk := k.brkp, brkp := false, arr := k.memb } else k

/-- Has a member arrived in the current phase (R364)? -/
def Counter.arrived (k : Counter) (d p : Bool) : Bool := d && p == k.ph

/-- A member leaves (R374); ARR and MEMB are 16-bit fields. -/
def Counter.leave (k : Counter) (d p : Bool) : Counter :=
  { k with memb := (k.memb + 65535) % 65536, arr := if k.arrived d p then k.arr else (k.arr + 65535) % 65536 }

/-- Credit of R365. -/
def Counter.credit (k : Counter) (t : Nat) (failed : Bool) : Counter :=
  Counter.check { k with expb := (BitVec.ofInt 64 (k.expb - t)).toInt, brkp := k.brkp || failed }

def State.counter (s : State) (loc : Nat) : Option Counter := counterOf (s.bytes loc 16)

/-- A counter operation is performed as an atomic at the counter's tiller: its line changes (R195, R363). -/
def State.setCounter (s : State) (loc : Nat) (k : Counter) (who : Option Nat) : State := s.store loc k.bytes who

/-- A membership ends by an exit or a kill (R366). -/
def State.dropMember (s : State) (t : Nat) (m : Member) (kill : Bool) : State :=
  let s := s.modTil t (fun x => { x with members := setMember m.cid m.off none x.members })
  match s.counter (locSpad t m.off) with
  | none => s
  | some k =>
    let k := k.leave m.arrd m.aph
    s.setCounter (locSpad t m.off) (Counter.check { k with brkp := k.brkp || kill }) none

/-- Every membership of a strand ends. -/
def State.dropMembers (s : State) (c : Nat) (kill : Bool) : State :=
  (s.tils.flatMap (fun p => (p.2.members.filter (fun m => m.cid == c)).map (fun m => (p.1, m)))).foldl
    (fun s p => s.dropMember p.1 p.2 kill) s

end Sys2Proof.Machine
end

