-- ==== Sys2Proof/Machine/Levels.lean ====
section
/-! DEFINITION. Level objects (R100 to R104), and what a launch holds and gives back (R109, R110). -/

namespace Sys2Proof.Machine

/-! ### Level objects by physical address -/

def State.lvExpected (s : State) (o : Nat) : Nat := s.rd o 8
def State.lvCompleted (s : State) (o : Nat) : Nat := s.rd (o + 8) 8
def State.lvParent (s : State) (o : Nat) : Nat := s.rd (o + 16) 8
def State.lvLevel (s : State) (o : Nat) : Nat := s.rd (o + 24) 1
def State.lvState (s : State) (o : Nat) : Nat := s.rd (o + 25) 1
def State.lvFlags (s : State) (o : Nat) : Nat := s.rd (o + 26) 1

/-- Is an object malformed (R103)? -/
def State.lvBad (s : State) (o : Nat) : Bool :=
  s.lvFlags o / 32 ≠ 0 || !s.zeros (o + 28) 4 || !s.zeros (o + 40) 24 || s.lvLevel o = 0 || 4 < s.lvLevel o ||
  5 < s.lvState o || (s.lvLevel o ≠ 4 && !s.zeros (o + 32) 8)

/-- DONE, CANCELLED and REJECTED (R100). -/
def terminal (st : Nat) : Bool := 3 ≤ st && st ≤ 5

def State.lvTerminal (s : State) (o : Nat) : Bool := terminal (s.lvState o)
def State.lvCancelled (s : State) (o : Nat) : Bool := fld (s.lvFlags o) 0 1 = 1

/-- A field of an object changes at its home slice (R102). -/
def State.lvPut (s : State) (part o off n x : Nat) : State := s.globalStore (o + off) part (bytesOfNat n x) none

/-- Flags are set. -/
def State.lvOr (s : State) (part o fl : Nat) : State :=
  if s.lvFlags o ||| fl = s.lvFlags o then s else s.lvPut part o 26 1 (s.lvFlags o ||| fl)

/-- The flags that a completed object gives its parent (R102). -/
def upFlags (st fl : Nat) : Nat :=
  (fl &&& 2) + (if st = 4 then 8 else 0) + (if st = 5 ∨ fld fl 4 1 = 1 then 16 else 0)

/-- More level objects than memory holds lines: no chain has as many (R100). -/
def maxObjects : Nat := 2 ^ 34

/-- An object completes, and with it each ancestor whose EXPECTED its addition passes (R102, R103). -/
def State.lvComplete (s : State) (part til : Nat) : Nat → Nat → State
  | 0, _ => s
  | f + 1, o =>
    let st := if s.lvState o = 5 then 5 else if s.lvCancelled o then 4 else 3
    let fl := s.lvFlags o
    let s := s.lvPut part o 25 1 st
    if s.lvParent o = 0 then s
    else match s.objAt part til (s.lvParent o) with
      | none => s
      | some p =>
        let old := s.lvCompleted p
        let new := (old + 1) % 2 ^ 64
        let s := s.lvPut part p 8 8 new
        if s.lvBad p then s
        else
          let s := s.lvOr part p (upFlags st fl)
          if old < s.lvExpected p ∧ s.lvExpected p ≤ new then s.lvComplete part til f p else s

/-! ### What a launch holds -/

/-- Does a stage's replica need a tile unit? -/
def Launch.isTile (l : Launch) (r : Replica) : Bool := (l.record.stages[r.stage]?).any (·.tile)

/-- Reservations that wait look again (R109). -/
def State.retryShares (s : State) : State :=
  (s.launches.filter (fun l => l.at_ == .slot && !l.shares.isEmpty)).foldl (fun s l => s.laterOnce (.shareReserve l.id)) s

/-- Remove launches that hold nothing more. -/
def State.forgetLaunches (s : State) : State :=
  { s with launches := s.launches.filter (fun l =>
      !(l.at_ == .complete && !l.storage && l.reps.all (fun r => r.gone && (r.acked || !r.sent)))) }

/-- Is a grant channel storage? -/
def Use.isChannel : Use → Bool
  | .channel => true
  | .queue _ => true
  | _ => false

/-- The key of a replica within its launch. -/
def Replica.key (r : Replica) : Nat := r.stage * 16 + r.idx

/-- Local SRAM reserved for a launch returns, in the tillers and for a partition that is swapped out. -/
def State.dropGrants (s : State) (id : Nat) (f : Use → Bool) : State :=
  let keep := fun (l : List Grant) => l.filter (fun g => !(g.launch == id && f g.use))
  { s with tils := s.tils.map (fun p => (p.1, { p.2 with
      spad := keep p.2.spad, shadow := p.2.shadow.map (fun h => { h with spad := keep h.spad }) })) }

/-- Channels of a partition are gone, with what is on its way to them; those of a partition that is swapped out stand in its
shadow arrays. -/
def State.dropRings (s : State) (part : Nat) (locs : List Nat) : State :=
  let gone := fun (r : Nat) => locs.contains r && (s.til (ringTil r)).part == some part
  { s with
    rings := s.rings.filter (fun r => !gone r.ring), flights := s.flights.filter (fun f => !gone f.ring)
    tils := s.tils.map (fun p => (p.1, { p.2 with shadow := p.2.shadow.map (fun h =>
      if h.part = part then { h with rings := h.rings.filter (fun r => !locs.contains r.ring) } else h) })) }

/-- Channel storage of a launch returns (R110). -/
def State.freeStorage (s : State) (l : Launch) : State :=
  let s : State := { s with launches := s.launches.map (fun m => if m.id = l.id then { m with storage := false } else m) }
  ((s.dropGrants l.id Use.isChannel).dropRings l.part (l.chans.map (·.loc))).retryShares.forgetLaunches

/-- After a change to level objects: launches whose dependences are now met become ready, and channel storage of launches
whose object is terminal returns (R105, R110). -/
def State.levelsMoved (s : State) : State :=
  let s := (s.launches.filter (fun l => l.at_ == .pool && s.depsMet l)).foldl (fun s l => s.laterOnce (.launchReady l.id)) s
  (s.launches.filter (fun l => l.at_ == .complete && l.storage &&
    (match s.objAt l.part (l.queue / 2 ^ 15 * 256) l.record.obj with
      | none => false
      | some o => s.lvTerminal o))).foldl (fun s l => s.freeStorage l) s

/-- An addition to COMPLETED, with what completes by it (R102, R103). -/
def State.lvAdd (s : State) (part til o n : Nat) : State :=
  let old := s.lvCompleted o
  let new := (old + n) % 2 ^ 64
  let s := s.lvPut part o 8 8 new
  (if !s.lvBad o ∧ old < s.lvExpected o ∧ s.lvExpected o ≤ new then s.lvComplete part til maxObjects o else s).levelsMoved

/-- A strand counts in its launch object once, as it ends (R102, R104). -/
def State.countStrand (s : State) (c : Nat) (killed nonzero : Bool) : State :=
  let p := s.partOf (tilOf c)
  if (s.ctx c).lobj = 0 then s
  else match s.objAt p (tilOf c) (s.ctx c).lobj.toNat with
    | none => s
    | some o =>
      let fl := (if killed then 2 else 0) + (if nonzero then 4 else 0)
      let s := s.modCtx c (fun x => { x with lobj := 0 })
      (if s.lvBad o then s else s.lvOr p o fl).lvAdd p (tilOf c) o 1

/-- A replica's context, as its partition has it, is reaped or killed: what was reserved for it returns, but for its spawn
block (R110). -/
def State.replicaGone (s : State) (part c : Nat) : State :=
  let mine := fun (r : Replica) => r.cid == some c && !r.gone && r.sent
  match s.launches.find? (fun l => l.part == part && l.at_ == .complete && l.reps.any mine) with
  | none => s
  | some l =>
    let ks := (l.reps.filter mine).map (·.key)
    let s : State := { s with launches := s.launches.map (fun m => if m.id = l.id then { m with
      reps := m.reps.map (fun r => if r.cid = some c then { r with gone := true } else r) } else m) }
    (s.dropGrants l.id (fun u => ks.any (fun k => u == .spad k))).retryShares.forgetLaunches

end Sys2Proof.Machine
end

