-- ==== Sys2Proof/Machine/Release.lean ====
section
/-! DEFINITION. What an exit and a kill do to the state of a strand (R89 to R91), tile resources included (R308 to R310,
R323). -/

namespace Sys2Proof.Machine

/-! ### Tile resources -/

/-- A holder's number for an accumulator that is being released. -/
def nobody : Nat := 65536

/-- A strand gives up its lease, or its wait for it; waiting strands are told (R308, R322). -/
def State.dropLease (s : State) (c : Nat) : State :=
  let t := s.til (tilOf c)
  let l : Lease := { t.lease with waiting := t.lease.waiting.filter (· ≠ c), lost := t.lease.lost.filter (· ≠ c) }
  if l.holder = some c then
    (s.setTil (tilOf c) { t with lease := { l with holder := none, cmds := 0 } }).changeKey (.lease (tilOf c))
  else s.setTil (tilOf c) { t with lease := l }

/-- Ownership of the tile unit ends (R309). -/
def State.dropOwner (s : State) (c : Nat) : State :=
  if (s.til (tilOf c)).owner = some c then
    (s.modTil (tilOf c) (fun t => { t with owner := none })).changeKey (.lease (tilOf c))
  else s

/-- An accumulator is released: at once, or after the commands issued on it (R323). -/
def State.freeAcc (s : State) (til acc : Nat) : State :=
  let t := s.til til
  if t.cmds.any (fun k => k.acc == acc) then
    (s.setTil til { t with
      holders := t.holders.map (fun h => if h.1 = acc then (acc, nobody) else h)
      cmds := t.cmds ++ [{ acc := acc, cid := nobody, sid := 0, pc := 0, op := .free }] }).later (.tileCommandComplete til)
  else s.setTil til { t with holders := t.holders.filter (fun h => h.1 ≠ acc) }

/-- The accumulators a context holds. -/
def Tiller.heldBy (t : Tiller) (c : Nat) : List Nat := (t.holders.filter (fun h => h.2 == c)).map (·.1)

/-- Tile resources of an ended strand. -/
def State.freeTile (s : State) (c : Nat) : State :=
  ((s.til (tilOf c)).heldBy c).foldl (fun s a => s.freeAcc (tilOf c) a) ((s.dropLease c).dropOwner c)

/-! ### Exits and kills -/

/-- Copies of a strand that ends, by its SID, and streams of its context that await a fault reply fail at once (R360, log 18). -/
def State.failFaulted (s : State) (c : Nat) : State :=
  let ks := s.copies.filter (fun k => k.cid == c && k.sid == s.sid c && (match k.state with
    | .faulted _ _ _ => true
    | _ => false))
  let s := ks.foldl (fun (s : State) k => ({ s with
    copies := s.copies.map (fun q => if q.id = k.id then { q with state := .failed 0 } else q) } : State).later
      (.copyComplete k.id)) s
  ((s.til (tilOf c)).streams.filter (fun b => b.cid == c && b.stalled)).foldl (fun s b => s.streamStored b) s

/-- Everything that a strand which stands in its own context gives up (R91). -/
def State.endResources (s : State) (c : Nat) (kill : Bool) : State :=
  let s := ((s.withdraw c).dropToken c).modCtx c (fun x => { x with
    tx := .reset, frame := .clear, hmode := false, handler := Vector.replicate 12 none, slept := 0 })
  (((((s.endReplica c).unbindAll c).dropMembers c kill).freeTile c).failFaulted c)

/-- A context is FREE: queued migrants may enter it (R257). -/
def State.freed (s : State) (c : Nat) : State := s.letIn (tilOf c)

/-- A hosting context becomes FREE (R257); its counters and generation stay (R259). -/
def State.leaveHost (s : State) (c : Nat) : State :=
  (s.setCtx c { Ctx.reset c with life := .free, cnt := (s.ctx c).cnt, gen := (s.ctx c).gen }).freed c

/-- The ticket of a strand that ends: its reservation is freed, or it will be skipped (R258). -/
def State.cancelTicket (s : State) (c : Nat) : State :=
  let x := s.ctx c
  match x.refused with
  | none => s
  | some t =>
    if x.ticket = 0 then s
    else
      let l := (s.til t).landing
      let l := if l.reserved.contains x.ticket then { l with reserved := l.reserved.filter (· ≠ x.ticket) }
               else { l with skip := l.skip ++ [x.ticket] }
      (s.modTil t (fun y => { y with landing := l })).laterOnce (.migrantLand t)

/-- The EXIT message of a context (R384). -/
def State.exitMsg (s : State) (c kind cause : Nat) (status pc : Word) : State :=
  s.send (coreOf c) 0 { header := headerFrom c 2
                        body := bodyOf [(0, 4, (s.sid c).toNat), (4, 1, kind), (5, 1, cause), (8, 8, status.toNat),
                          (16, 8, pc.toNat)] }

/-- The status of a killed strand (R90). -/
def killedStatus : Word := BitVec.ofNat 64 (2 ^ 63)

/-- The strand in a context exits (R89). One that exits away from home leaves its hosting context FREE. -/
def State.exitStrand (s : State) (c : Nat) (code : BitVec 32) : State :=
  let h := s.homeOf c
  let pc := (s.ctx c).pc
  let s := s.cancelTicket c
  let s := if h = c then s.endResources c false else s.leaveHost c
  let s := s.modCtx h (fun x => { x with
    life := .exited, status := code.setWidth 64, wait := .none, away := none, ticket := 0, refused := none })
  (s.exitMsg h 0 0 (code.setWidth 64) pc).countStrand h false (code ≠ 0)

/-- Put a spilled element behind those of its ring with lower sequence numbers (R154). -/
def insertSpilled (x : Spilled) : List Spilled → List Spilled
  | [] => [x]
  | y :: r => if y.ring = x.ring ∧ sdiff x.seq y.seq < 0 then x :: y :: r else y :: insertSpilled x r

/-- Spilled elements whose rings are no longer diverted move into them in sequence order; then VOIDs for which the queue had
no room, and level-7 awns held for room, go out, and whatever waits for room in the spill queue looks again (R154). -/
def State.unspill (s : State) (part : Nat) : State :=
  let q := (tget s.spills part).getD []
  let s : State := if q.isEmpty then s else { s with spills := tset s.spills part (q.filter (fun x => s.diverted x.ring)) }
  let s := ((q.filter (fun x => !s.diverted x.ring)).foldl (fun l x => insertSpilled x l) []).foldl
    (fun s x => s.publish x.ring x.seq x.x x.grp x.tag) s
  let s := s.rings.foldl (fun s y => (y.resv.filter (fun p => p.1 == voidOwner.1)).foldl (fun s p => s.voidNumber y.ring p) s) s
  let s := s.rings.foldl (fun s y => if y.code7.isSome then s.release7 y.ring else s) s
  let s := s.namedRings.foldl (fun s r => s.changeChan r) s
  let s := s.rings.foldl (fun s y => if y.waiters.isEmpty then s else
    (y.waiters.filter (fun w => !isPeer w.1)).foldl (fun s w => s.changeChan (s.endLoc w.1 w.2))
      (s.laterOnce (.creditGrant y.ring))) s
  s.flights.foldl (fun s f => s.later (.elementArrival f.ring)) s

/-- The strand of a context of the steward's core is killed where it stands, and the context becomes FREE (R90, R91). -/
def State.killStrand (s : State) (c cause : Nat) : State :=
  let saved := (s.ctx c).life == .saved
  let s := (s.cancelTicket c).endResources c true
  let s := (s.exitMsg c 1 cause killedStatus 0).countStrand c true false
  let s := ((s.modCtx c (fun x => { x with
    life := .free, wait := .none, status := 0, ticket := 0, refused := none })).replicaGone (s.partOf (tilOf c)) c).freed c
  if saved then s.unspill (s.partOf (tilOf c)) else s

/-- A killed migrant leaves its home context EXITED (R90). -/
def State.migrantDead (s : State) (h cause : Nat) : State :=
  let s := s.modCtx h (fun x => { x with life := .exited, status := killedStatus, wait := .none, away := none })
  (s.exitMsg h 1 cause killedStatus 0).countStrand h true false

end Sys2Proof.Machine
end

