-- ==== Sys2Proof/Machine/Strands.lean ====
section
/-! DEFINITION. The control-and-strand class (R79 to R91, R44), and the steps that start, wake and answer strands. -/

namespace Sys2Proof.Machine

/-! ### Branches and jumps -/

/-- A transfer to a target below 2^52, which alone holds instructions (R83). -/
def checkTarget (t : Word) : Op Unit := do
  if t.toNat ≥ 2 ^ 52 then raiseAt Cause.addr 0 t

/-- A compare-branch (R80). -/
def branch (i : Instr) (a b : BitVec 5) (k : BitVec 14) (cond : Word → Word → Bool) (s : State) :
    Host.Outcome State Fault Refusal :=
  perform i (do
    let x ← rdS a
    let y ← rdS b
    let pc ← ask (fun s => s.me.pc)
    let t := if cond x y then pc + k.signExtend 64 * 4 else pc + 4
    checkTarget t
    return .jump t) s

/-- R80. Equal. -/
def execBeq (a b : BitVec 5) (k : BitVec 14) (s : State) : Host.Outcome State Fault Refusal :=
  branch (.beq a b k) a b k (fun x y => x == y) s
/-- R80. Not equal. -/
def execBne (a b : BitVec 5) (k : BitVec 14) (s : State) : Host.Outcome State Fault Refusal :=
  branch (.bne a b k) a b k (fun x y => x != y) s
/-- R80. Less, signed. -/
def execBlt (a b : BitVec 5) (k : BitVec 14) (s : State) : Host.Outcome State Fault Refusal :=
  branch (.blt a b k) a b k (fun x y => x.slt y) s
/-- R80. Greater or equal, signed. -/
def execBge (a b : BitVec 5) (k : BitVec 14) (s : State) : Host.Outcome State Fault Refusal :=
  branch (.bge a b k) a b k (fun x y => !x.slt y) s
/-- R80. Less, natural. -/
def execBltn (a b : BitVec 5) (k : BitVec 14) (s : State) : Host.Outcome State Fault Refusal :=
  branch (.bltn a b k) a b k (fun x y => x.ult y) s
/-- R80. Greater or equal, natural. -/
def execBgen (a b : BitVec 5) (k : BitVec 14) (s : State) : Host.Outcome State Fault Refusal :=
  branch (.bgen a b k) a b k (fun x y => !x.ult y) s

/-- R81. Jump and link. -/
def execJal (d : BitVec 5) (k : BitVec 19) (s : State) : Host.Outcome State Fault Refusal :=
  perform (.jal d k) (do
    let pc ← ask (fun s => s.me.pc)
    let t := target pc k
    checkTarget t
    wrS d (pc + 4)
    return .jump t) s

/-- R82. Jump to a register and link. -/
def execJalr (d a : BitVec 5) (k : BitVec 14) (s : State) : Host.Outcome State Fault Refusal :=
  perform (.jalr d a k) (do
    let pc ← ask (fun s => s.me.pc)
    let t := (← rdS a) + k.signExtend 64
    if t.extractLsb' 0 2 ≠ 0 then raiseAt Cause.align 0 t
    checkTarget t
    wrS d (pc + 4)
    return .jump t) s

/-- R44. Begin a frame: its words are captured as they are fetched. Within a token handler entered from a frame it raises
ILLEGAL (R45). No captured word issues before 8 cycles after REPF (R46). -/
def execRepf (n : BitVec 4) (cnt : BitVec 8) (d a b : BitVec 4) (s : State) : Host.Outcome State Fault Refusal :=
  perform (.repf n cnt d a b) (do
    let x ← ask State.me
    if x.frame.on then raise Cause.illegal
    let cycle ← ask (fun s => (s.core s.myCore).cycle)
    upd (fun s => s.modMe (fun x => { x with
      capture := cycle + 8
      frame := { on := true, handler := x.hmode, base := x.pc + 4, n := if n = 0 then 16 else n.toNat, count := cnt.toNat + 1
                 sd := d, sa := a, sb := b, words := [], k := 0, i := 0 } }))
    return .jump (x.pc + 4)) s

/-! ### SPAWN (R84 to R88) -/

/-- SPAWN, REAP and the other instructions of the steward raise PRIV outside context 0 (R79, R376). -/
def stewardOnly : Op Unit := do
  let c ← ask (·.cur)
  if ctxNo c ≠ 0 then raise Cause.priv

/-- A spawn block (R85). -/
structure Block where
  entry : Nat
  lrec : Nat
  arg : Nat
  pos : Nat
  fmt : Nat
  scla : Nat
  sclb : Nat
  bind : List (Nat × Word)
  deriving DecidableEq, Repr

def State.block (s : State) (l : Nat) : Block :=
  { entry := s.rd l 8, lrec := s.rd (l + 8) 8, arg := s.rd (l + 16) 8, pos := s.rd (l + 24) 8
    fmt := s.rd (l + 32) 8, scla := s.rd (l + 40) 8, sclb := s.rd (l + 48) 8
    bind := ((List.range 12).map (fun e => (e, BitVec.ofNat 64 (s.rd (l + 64 + 8 * e) 8)))).filter (fun p => p.2 ≠ 0) }

/-- The OBJ field of a launch record, where SPAWN can read it (R85, R104). -/
def State.recordObj (s : State) (til lrec : Nat) : Option Nat :=
  if lrec % 8 ≠ 0 ∨ 2 ^ 52 ≤ lrec then none
  else match s.devXlate (s.partOf til) til (lrec + 8) .load with
    | .error _ => none
    | .ok (pa, _) => if s.poisoned pa 8 then none else some (s.rd pa 8)

/-- Reserved bits of SCLA and SCLB (R316). -/
def sclReserved (x : Nat) : Bool := fld x 20 42 ≠ 0

/-- Is a spawn block malformed for a target context (R85)? -/
def State.blockBad (s : State) (l cid : Nat) (b : Block) (mig : Bool) : Bool :=
  b.entry % 4 ≠ 0 || 2 ^ 52 ≤ b.entry || !s.zeros (l + 56) 8 || !s.zeros (l + 160) 96 || b.pos / 4096 ≠ 0 ||
  fld b.pos 8 4 < fld b.pos 4 4 || b.fmt / 16 ≠ 0 || sclReserved b.scla || sclReserved b.sclb ||
  (mig && (!b.bind.isEmpty || b.fmt ≠ 0 || b.scla ≠ 0 || b.sclb ≠ 0)) ||
  (b.lrec ≠ 0 && (s.recordObj (tilOf cid) b.lrec).isNone) ||
  b.bind.any (fun p => s.bindWhy cid p.1 p.2 (b.bind.filter (fun q => q.1 ≠ p.1)) true ≠ 0)

/-- Entries in the order in which they are bound: index ends of reference engines before the rest (R85). -/
def bindOrder (l : List (Nat × Word)) : List (Nat × Word) :=
  l.filter (fun p => bindKind p.2 == 2 && bindPort p.2 == 0) ++ l.filter (fun p => !(bindKind p.2 == 2 && bindPort p.2 == 0))

/-- A successful SPAWN (R86 to R88). The strand issues no earlier than 8 cycles after it, and is ready then if its first word is
there (R78, R87). A strand that had the lease when another becomes the owner of the tile unit waits as one that lost it. -/
def State.startStrand (s : State) (cid : Nat) (b : Block) (tile mig : Bool) : State :=
  let old := s.ctx cid
  let x := Ctx.reset cid
  let s := s.setCtx cid { x with
    life := .starting, pc := BitVec.ofNat 64 b.entry, gen := old.gen + 1, mig := mig, tile := tile
    s := ((x.s.setIfInBounds 1 (BitVec.ofNat 64 b.lrec)).setIfInBounds 2 (BitVec.ofNat 64 b.arg)).setIfInBounds 3
      (BitVec.ofNat 64 b.pos)
    fmt := BitVec.ofNat 64 b.fmt, scla := BitVec.ofNat 64 b.scla, sclb := BitVec.ofNat 64 b.sclb
    lobj := if b.lrec = 0 then 0 else BitVec.ofNat 64 ((s.recordObj (tilOf cid) b.lrec).getD 0)
    wait := .begin_ ((s.core (coreOf cid)).cycle + 8) }
  let s := (bindOrder b.bind).foldl (fun s p => s.doBind cid p.1 p.2) s
  if tile then s.modTil (tilOf cid) (fun t => { t with
      owner := some cid
      lease := { t.lease with
        holder := some cid, cmds := 0
        waiting := t.lease.waiting ++ t.lease.holder.toList, lost := t.lease.lost ++ t.lease.holder.toList } })
  else s

/-- R84 to R88. Start a strand. -/
def execSpawn (d a b : BitVec 5) (i t g : BitVec 1) (s : State) : Host.Outcome State Fault Refusal :=
  performRaw (.spawn d a b i t g) (thenNext do
    stewardOnly
    examineFields (.spawn d a b i t g)
    let va ← rdS a
    let n ← rdB i b
    let s ← get
    match s.place s.myTil va with
    | some (.near til off) =>
      if til ≠ s.myTil then raiseAt Cause.addr 0 va
      if off % 256 ≠ 0 then raiseAt Cause.align 0 va
      if (s.til til).spadSize < off + 256 then raiseAt Cause.bounds 0 va
      let l := locSpad til off
      let cid := s.myCore * 16 + n.toNat
      if n = 0 ∨ 14 < n.toNat then wrS d (failCode 4)
      else if (s.ctx cid).life ≠ .free then wrS d (failCode 1)
      else if s.poisoned l 256 then raiseAt Cause.poison 0 va
      else
        let blk := s.block l
        if s.blockBad l cid blk (g = 1) then wrS d (failCode 2)
        else if t = 1 ∧ (s.til til).owner.isSome then wrS d (failCode 3)
        else if blk.bind.any (fun p => bindKind p.2 != 1 && s.bindPoison cid p.2) then raise Cause.poison
        else
          upd (fun s => s.startStrand cid blk (t = 1) (g = 1))
          let sid ← ask (fun s => s.sid cid)
          wrS d (sid.setWidth 64)
    | _ => raiseAt Cause.addr 0 va) s

/-! ### REAP and EXIT -/

/-- R90. Reclaim or kill a context. A hosting context is outside the steward's lifecycle (R259). -/
def execReap (d a b : BitVec 5) (i : BitVec 1) (s : State) : Host.Outcome State Fault Refusal :=
  performRaw (.reap d a b i) (thenNext do
    stewardOnly
    examineFields (.reap d a b i)
    let n ← if i = 1 then pure (b.setWidth 64) else rdS a
    let s ← get
    let cid := s.myCore * 16 + n.toNat
    let x := s.ctx cid
    let away : Word := BitVec.ofNat 64 (2 ^ 62)
    if n = 0 ∨ 14 < n.toNat then wrS d (BitVec.allOnes 64)
    else if x.home.isSome then wrS d away
    else match x.life with
      | .free => wrS d (BitVec.allOnes 64)
      | .exited =>
        upd (fun s => ((s.modCtx cid (fun x => { x with life := .free })).replicaGone (s.partOf (tilOf cid)) cid).freed cid)
        wrS d x.status
      | .migrated =>
        upd (fun s => (s.modCtx cid (fun x => { x with life := .killing })).later (.migrantKill cid))
        wrS d away
      | .killing => wrS d away
      | .starting | .running | .stopped | .saved =>
        upd (fun s => s.killStrand cid 16)
        wrS d killedStatus) s

/-- An EXIT takes effect once the strand's earlier accesses have completed (R89). -/
def State.exitStep (s : State) (c : Nat) (code : BitVec 32) : State :=
  if (s.core (coreOf c)).outstanding c (s.core (coreOf c)).cycle.toNat false none then
    s.modCtx c (fun x => { x with wait := .ending code })
  else s.exitStrand c code

/-- R89. End the strand. -/
def execExit (a b : BitVec 5) (i : BitVec 1) (s : State) : Host.Outcome State Fault Refusal :=
  performRaw (.exit a b i) (do
    let c ← ask (·.cur)
    if ctxNo c = 0 then raise Cause.illegal
    examineFields (.exit a b i)
    let code ← if i = 1 then pure (b.setWidth 64) else rdS a
    upd (fun s => s.exitStep s.cur (code.extractLsb' 0 32))
    return .stay) s

/-! ### Steps of the strands' lifecycle -/

/-- R78. A STARTING context that waits for nothing becomes RUNNING. -/
def execStrandStart (cid : Nat) (s : State) : Host.Outcome State Fault Refusal :=
  .next (if (s.ctx cid).life = .starting ∧ (s.ctx cid).wait = .none then
    s.modCtx cid (fun x => { x with life := .running }) else s)

/-- A sleeping strand wakes: its keys are withdrawn, and it executes its wait again (R166, R193). -/
def State.wake (s : State) (c : Nat) : State :=
  if (s.ctx c).life = .running then
    match (s.ctx c).wait with
    | .sleep _ _ => (s.withdraw c).modCtx c (fun x => { x with wait := .none, slept := 0 })
    | .retry _ => (s.withdraw c).modCtx c (fun x => { x with wait := .none, slept := 0 })
    | _ => s
  else s

/-- R196. A wake reaches the context of a strand; one for a context that is FREE or EXITED, or of another generation, is
dropped and counted (R17, R78). -/
def execStrandWake (who : Nat × BitVec 12) (s : State) : Host.Outcome State Fault Refusal :=
  .next (if (s.ctx who.1).life = .free ∨ (s.ctx who.1).life = .exited ∨ s.genOf who.1 ≠ who.2 then s.stale (tilOf who.1)
    else s.wake who.1)

/-- R437. A change notice reaches a tiller. -/
def execChangeNotice (til : Nat) (key : Key) (s : State) : Host.Outcome State Fault Refusal := .next (s.notice til key)

/-- The word at a context's pc, as a trap message reports it. -/
def State.wordAt (s : State) (c : Nat) : IWord :=
  match s.nextWord c with
  | .word w => w
  | _ => 0

/-- Where the strand of a SID runs: in its own context, or in the hosting context of its migrant. -/
def State.runsIn (s : State) (h : Nat) : Nat :=
  if (s.ctx h).life = .migrated ∨ (s.ctx h).life = .killing then
    ((s.ctxs.find? (fun p => p.2.home == some h)).map (·.1)).getD h
  else h

/-- A fault reply at a tiller's load-store unit (R222, R223, R259). -/
def State.answer (s : State) (til : Nat) (body : Body) : State :=
  let sid := BitVec.ofNat 32 (Body.field body 0 4)
  let action := Body.field body 4 1
  let c := s.runsIn (cidOfSid sid)
  let x := s.ctx c
  if 1 < action ∨ Body.field body 5 11 ≠ 0 ∨ !s.sidLive sid ∨ tilOf c ≠ til ∨ x.life ≠ .running then s.stale til
  else match x.wait with
    | .fault k lane va =>
      let s := s.modCtx c (fun x => { x with wait := .none })
      if action = 0 then s else s.takeTrap c Cause.addr lane va (if k = .fetch then 0 else s.wordAt c)
    | _ => s.stale til

/-- R222. A fault reply arrives. -/
def execFaultReply (til : Nat) (body : Body) (s : State) : Host.Outcome State Fault Refusal := .next (s.answer til body)

/-- Held messages enter a box while it has room, oldest first; then those whose instruction waits for room go on
(R382). -/
def State.deliver (s : State) (k b : Nat) : Nat → State
  | 0 => s
  | f + 1 =>
    let x := s.core k
    match x.held.find? (fun h => h.1 == b) with
    | none =>
      if (x.box b).length < boxCap b then
        { s with ctxs := s.ctxs.map (fun p =>
            (p.1, if p.2.wait = .post k b then { p.2 with wait := .none } else p.2)) }
      else s
    | some h =>
      if (x.box b).length < boxCap b then
        ((s.setCore k { (x.setBox b (x.box b ++ [h.2])) with held := x.held.erase h }).ring k b).deliver k b f
      else s

/-- R382. A held message is delivered. -/
def execMailboxDelivery (core box : Nat) (s : State) : Host.Outcome State Fault Refusal :=
  .next (s.deliver core box ((s.core core).held.length + 1))

/-- The sleep of a strand is over the limit of its core's watchdog, and no tiller of its partition is held (R402,
R403). -/
def State.overdue (s : State) (c : Nat) : Bool :=
  let x := s.ctx c
  let k := s.core (coreOf c)
  !((s.partTils (tilOf c)).any (fun t => (s.til t).hold)) && x.life == .running && x.wait.counted && k.wdog != 0 &&
    k.wdog.toNat * 65536 ≤ x.slept

/-- R402. A wait is abandoned, and the strand traps with WATCHDOG at the waiting instruction, or at the TXB. The watchdog of
context 0 or 15 sends its partition's event instead, and the wait goes on (R411, log 57). -/
def execWatchdogExpire (cid : Nat) (s : State) : Host.Outcome State Fault Refusal :=
  .next (if !s.overdue cid then s
  else if privileged cid then (s.modCtx cid (fun x => { x with slept := 0 })).event 5 (s.eventPart (tilOf cid))
  else
    let s := (((s.withdraw cid).dropToken cid).dropThirst cid).modCtx cid (fun x => { x with wait := .none, slept := 0 })
    (s.modTil (tilOf cid) (fun t => { t with lease := { t.lease with
      waiting := t.lease.waiting.filter (· ≠ cid), lost := t.lease.lost.filter (· ≠ cid) } })).takeTrap
      cid Cause.watchdog 0 0 (s.wordAt cid))

end Sys2Proof.Machine
end

