-- ==== Sys2Proof/Machine/Migration.lean ====
section
/-! DEFINITION. Landing, refusal and recall of MIG strands, and their kills (R255 to R259). -/

namespace Sys2Proof.Machine

/-! ### Tickets (R258) -/

/-- The next ticket number. -/
def nextTicket (n : BitVec 32) : BitVec 32 := if n = BitVec.allOnes 32 then 1 else n + 1

/-- Entries of a landing queue that are taken or reserved. -/
def Landing.used (l : Landing) : Nat := l.queue.length + l.reserved.length

/-- Free entries are reserved for the tickets in their order; cancelled ones are passed over. -/
def Landing.serve (l : Landing) : Nat → Landing
  | 0 => l
  | f + 1 =>
    if l.tserve = l.tnext ∨ 16 ≤ l.used then l
    else if l.skip.contains l.tserve then
      Landing.serve { l with skip := l.skip.filter (· ≠ l.tserve), tserve := nextTicket l.tserve } f
    else Landing.serve { l with reserved := l.reserved ++ [l.tserve], tserve := nextTicket l.tserve } f

/-- Serve the tickets of a tiller and recall the holders of the reserved ones. -/
def State.serve (s : State) (til : Nat) : State :=
  let l := (s.til til).landing
  let m := l.serve (l.skip.length + 16)
  let s := s.modTil til (fun t => { t with landing := m })
  if m.reserved = l.reserved then s else s.later (.migrantRecall til)

/-! ### Landing (R257) -/

/-- Has the distributor reserved a context for a replica of the tiller's active partition (R109)? -/
def State.ctxReserved (s : State) (c : Nat) : Bool :=
  s.launches.any (fun l => (s.til (tilOf c)).part == some l.part && l.reps.any (fun r => r.cid == some c && !r.gone))

/-- The lowest-numbered user context of a tiller that a migrant may enter. -/
def State.roomFor (s : State) (til : Nat) : Option Nat :=
  ((List.range 64).map (til * 64 + ·)).find? (fun c => !privileged c && (s.ctx c).life == .free && !s.ctxReserved c)

/-- The source of a migrant that has landed: a hosting context becomes FREE. -/
def State.leftSource (s : State) (m : Migrant) : State :=
  if m.src = m.home then s.modCtx m.home (fun x => { x with ticket := 0, refused := none })
  else s.leaveHost m.src

/-- The registers that a migrant brings into a context. -/
def Migrant.into (m : Migrant) (x : Ctx) : Ctx :=
  { x with
    life := .running, wait := .none, word := none, pc := m.pc, frame := m.frame, mig := true
    s := (List.range 15).foldl (fun v j => v.setIfInBounds (j + 1) ((m.s[j]?).getD 0)) x.s
    af := m.flags.getLsbD 0, ef := m.flags.getLsbD 1, fstat := m.flags.extractLsb' 16 6
    ticket := 0, refused := none, lastIssue := none, ready := [], capture := 0, slept := 0 }

/-- A hosted migrant is sent home; an instruction that waits on the fault mailbox is abandoned (R259). -/
def State.sendHome (s : State) (c : Nat) : State :=
  match (s.ctx c).home with
  | none => s
  | some h =>
    let s := s.cancelTicket c
    let w := match (s.ctx c).wait with
      | .fault _ _ _ => true
      | _ => false
    (s.modCtx c (fun x => { x with ticket := 0, refused := none })).depart c (tilOf h) w

/-- A migrant enters a context: its home, or one that hosts it from then on; one of a core that is being saved or halted sends it home
(R395). -/
def State.enter (s : State) (m : Migrant) (c : Nat) : State :=
  let s := s.leftSource m
  if c = m.home then
    s.modCtx c (fun x => { (m.into x) with away := none, gen := if m.recalled then x.gen + 1 else x.gen })
  else
    let old := s.ctx c
    let s := (s.setCtx c { (m.into { Ctx.reset c with cnt := old.cnt, gen := old.gen }) with home := some m.home }).modCtx m.home
      (fun x => { x with away := some (tilOf c) })
    if (s.core (coreOf c)).saving.isSome then s.sendHome c else s

/-- A migrant that a kill request reached before it landed (R259). -/
def State.perish (s : State) (m : Migrant) : State :=
  let s := if m.src = m.home then s else s.leaveHost m.src
  (s.modCtx m.home (fun x => { x with ticket := 0, refused := none })).migrantDead m.home 16

/-- A refused migrant returns to its source with the next ticket and waits there (R258). -/
def State.refuse (s : State) (til : Nat) (m : Migrant) : State :=
  let n := (s.til til).landing.tnext
  let s := s.modTil til (fun t => { t with
    landing := { t.landing with tnext := nextTicket n }, migref := t.migref + 1 })
  let s := s.modCtx m.src (fun x => { x with life := .running, wait := .ticket, ticket := n, refused := some til })
  s.modCtx m.home (fun x => { x with away := if m.src = m.home then none else some (tilOf m.src) })

/-- A migrant that has entered no context is sent on to its home from a tiller (R395). -/
def State.goBack (s : State) (til : Nat) (m : Migrant) : State :=
  let t := tilOf m.home
  ((s.modCtx m.home (fun x => { x with away := some t })).modTil t (fun y => { y with
    landing := { y.landing with arriving := y.landing.arriving ++
      [{ m with target := t, ticket := 0, due := s.landsAt til t }] } })).tick

/-- The first migrant that has reached a tiller. -/
def State.landing (s : State) (til : Nat) : Option Migrant :=
  (s.til til).landing.arriving.find? (fun m => m.due.toNat ≤ (s.core (til * 4)).cycle.toNat)

/-- The first migrant that has reached a tiller arrives (R256, R257). -/
def State.arriveMigrant (s : State) (til : Nat) : State :=
  let l := (s.til til).landing
  match s.landing til with
  | none => s
  | some m =>
    let put := fun (l : Landing) => s.modTil til (fun t => { t with landing := { l with arriving := l.arriving.erase m } })
    if m.doomed ∨ (s.ctx m.home).life = .killing then (put { l with reserved := l.reserved.filter (· ≠ m.ticket) }).perish m
    else if tilOf m.home ≠ til ∧ (s.core (coreOf m.home)).saving.isSome then
      (put { l with reserved := l.reserved.filter (· ≠ m.ticket) }).goBack til m
    else if tilOf m.home = til then
      if (s.ctx m.home).life = .saved then put { l with queue := l.queue ++ [m] } else (put l).enter m m.home
    else if m.ticket ≠ 0 ∧ l.reserved.contains m.ticket then
      put { l with reserved := l.reserved.filter (· ≠ m.ticket), queue := l.queue ++ [m] }
    else if l.used < 16 ∧ l.tserve = l.tnext then put { l with queue := l.queue ++ [m] }
    else (put l).refuse til m

/-- Queued migrants enter contexts as far as there are free ones. -/
def State.admitQueued (s : State) (til : Nat) : Nat → State
  | 0 => s
  | f + 1 =>
    let l := (s.til til).landing
    match l.queue.find? (fun m => if tilOf m.home = til then (s.ctx m.home).life ≠ .saved else (s.roomFor til).isSome) with
    | none => s
    | some m =>
      let t := s.modTil til (fun t => { t with landing := { l with queue := l.queue.erase m } })
      (t.enter m (if tilOf m.home = til then m.home else (s.roomFor til).getD 0)).admitQueued til f

/-- R257. A migrant arrives, and queued ones enter. -/
def execMigrantLand (til : Nat) (s : State) : Host.Outcome State Fault Refusal :=
  let s := s.arriveMigrant til
  .next ((s.admitQueued til ((s.til til).landing.queue.length)).serve til)

/-- R258. The holders of reserved tickets are sent again. -/
def execMigrantRecall (til : Nat) (s : State) : Host.Outcome State Fault Refusal :=
  let r := (s.til til).landing.reserved
  .next ((s.ctxs.filter (fun p => p.2.wait == .ticket && p.2.refused == some til && r.contains p.2.ticket)).foldl
    (fun s p => s.depart p.1 til false) s)

/-- A kill request reaches a migrant wherever it is (R259). -/
def State.killMigrant (s : State) (h cause : Nat) : State :=
  if (s.ctx h).life ≠ .killing then s
  else match s.ctxs.find? (fun p => p.2.home == some h && p.2.life == .running) with
    | some p => ((s.cancelTicket p.1).leaveHost p.1).migrantDead h cause
    | none =>
      match s.tils.find? (fun p => p.2.landing.queue.any (fun m => m.home == h)) with
      | some p =>
        let ms := p.2.landing.queue.filter (fun m => m.home == h)
        let s := s.modTil p.1 (fun t => { t with
          landing := { t.landing with queue := t.landing.queue.filter (fun m => m.home ≠ h) } })
        (ms.foldl (fun s m => s.leftSource m) s).migrantDead h cause |>.laterOnce (.migrantLand p.1)
      | none => s

/-- R259. A migrant is killed; one still on its way is killed as it lands. -/
def execMigrantKill (cid : Nat) (s : State) : Host.Outcome State Fault Refusal := .next (s.killMigrant cid 16)

end Sys2Proof.Machine
end

