-- ==== Sys2Proof/Machine/System.lean ====
section
/-! DEFINITION. The system class: special registers (R376 to R379), mailboxes (R382 to R388), system calls (R389),
translation maintenance (R390, R391), pre-emption (R392 to R396) and counters (R405). -/

namespace Sys2Proof.Machine

/-! ### Special registers -/

def bitsIf (b : Bool) (n : Nat) : Nat := if b then 2 ^ n else 0

/-- The flags AF, EF and HMODE (R159). -/
def Ctx.flags (x : Ctx) : Word := BitVec.ofNat 64 (bitsIf x.af 0 + bitsIf x.ef 1 + bitsIf x.hmode 2)

/-- TXST (R167). -/
def Tx.status (t : Tx) : Word :=
  BitVec.ofNat 64 (bitsIf t.active 0 + bitsIf (t.active && t.sole) 1 + t.alts.length * 2 ^ 2 + t.cause * 2 ^ 8 +
    t.nconf * 2 ^ 16 + t.wcnt * 2 ^ 24 + t.rcnt * 2 ^ 32 + t.acode.toNat * 2 ^ 48)

/-- CTXID (R378). -/
def State.ctxid (s : State) (c : Nat) : Word :=
  BitVec.ofNat 64 (c % 64 + bitsIf (s.ctx c).mig 6 + bitsIf (s.ctx c).tile 7 +
    s.partOf (tilOf c) * 2 ^ 8)

/-- The value of a special register as the acting context reads it; none where there is no such register (R377). DESIGN CHOICE: LSPLIT and
SWZ show what was written, before it takes effect too (R203, R205; log 5). -/
def State.special (s : State) (n : Nat) : Option Word :=
  let x := s.me
  let k := s.core s.myCore
  let t := s.til s.myTil
  if n = 0 then some ((s.sid s.cur).setWidth 64)
  else if n = 1 then some (BitVec.ofNat 64 s.myTil)
  else if n = 2 then some (s.ctxid s.cur)
  else if n = 3 then some k.cycle
  else if n = 0x10 then some x.fmt
  else if n = 0x11 then some x.scla
  else if n = 0x12 then some x.sclb
  else if n = 0x13 then some (x.fstat.setWidth 64)
  else if n = 0x14 then some x.tx.status
  else if n = 0x15 then some x.tokv
  else if n = 0x16 then some x.tokpc
  else if n = 0x17 then some x.flags
  else if n = 0x18 then some k.tags
  else if n = 0x19 then some k.tagb
  else if n = 0x1A then some k.tage
  else if 0x20 ≤ n ∧ n ≤ 0x26 then some (x.getM (n - 0x1F))
  else if 0x30 ≤ n ∧ n ≤ 0x37 then some ((t.geom[n - 0x30]?).getD 0)
  else if 0x40 ≤ n ∧ n ≤ 0x4F then some ((t.tring[n - 0x40]?).getD 0)
  else if n = 0x80 then some (BitVec.ofNat 64 (t.newL1.getD t.l1sz))
  else if n = 0x81 then some ((t.newSwz.getD t.swz).setWidth 64)
  else if n = 0x82 then some (k.svcmap.setWidth 64)
  else if n = 0x83 then some (k.wdog.setWidth 64)
  else none

/-- R379. Read a special register. -/
def execMfs (d : BitVec 5) (k : BitVec 16) (s : State) : Host.Outcome State Fault Refusal :=
  perform (.mfs d k) (thenNext do
    match (← get).special k.toNat with
    | some w => wrS d w
    | none => raise Cause.illegal) s

/-- The bits of SCLA and SCLB that can be written (R316). -/
def sclMask : Word := BitVec.ofNat 64 (3 * 2 ^ 62 + 2 ^ 20 - 1)

/-- R379. Write a special register of the context; a write to one that is only read has no effect. -/
def execMts (d : BitVec 5) (k : BitVec 16) (s : State) : Host.Outcome State Fault Refusal :=
  performRaw (.mts d k) (thenNext do
    let n := k.toNat
    if ((← get).special n).isNone then raise Cause.illegal
    examineFields (.mts d k)
    let w ← rdS d
    upd (fun s => s.modMe (fun x =>
      if n = 0x10 then { x with fmt := w &&& 0xF }
      else if n = 0x11 then { x with scla := w &&& sclMask }
      else if n = 0x12 then { x with sclb := w &&& sclMask }
      else if 0x20 ≤ n ∧ n ≤ 0x26 then x.setM (n - 0x1F) w
      else x))) s

/-- A write to a register that only context 0 may write (R379). -/
def mtsSteward (i : Instr) (d : BitVec 5) (f : Word → State → State) (s : State) : Host.Outcome State Fault Refusal :=
  performRaw i (thenNext do
    stewardOnly
    examineFields i
    let w ← rdS d
    upd (f w)) s

/-- A tile ring's slot size and the end of its slots (R312). -/
def ringEn (w : Word) : Bool := w.getLsbD 63
def ringBase (w : Word) : Nat := (w.extractLsb' 40 11).toNat * 512
def ringSlot (w : Word) : Nat := 512 * ((w.extractLsb' 32 5).toNat + 1)
def ringSlots (w : Word) : Nat := (w.extractLsb' 24 6).toNat + 1
def ringClm (w : Word) : Nat := (w.extractLsb' 16 8).toNat
def ringTail (w : Word) : Nat := (w.extractLsb' 8 8).toNat
def ringHead (w : Word) : Nat := (w.extractLsb' 0 8).toNat
def ringEnd (w : Word) : Nat := ringBase w + ringSlot w * ringSlots w

def Tiller.ring (t : Tiller) (n : Nat) : Word := (t.tring[n]?).getD 0

/-- Staging of a ring's slots is discarded (R313, R317). -/
def Tiller.unstage (t : Tiller) (n : Nat) : Tiller :=
  { t with stageA := t.stageA.filter (fun g => g.ring ≠ n), stageB := t.stageB.filter (fun g => g.ring ≠ n) }

/-- Tile rings that extend past the scratchpad are disabled (R313). -/
def State.fitRings (s : State) (til : Nat) : State :=
  (List.range 16).foldl (fun s n =>
    let t := s.til til
    if ringEn (t.ring n) ∧ t.spadSize < ringEnd (t.ring n) then
      (s.setTil til { t.unstage n with tring := t.tring.setIfInBounds n (t.ring n &&& BitVec.ofNat 64 (2 ^ 63 - 1)) }).changeKey
        (.tring til n)
    else s) s

/-- Every pattern of a tiller is freed (R336). -/
def State.freePatterns (s : State) (til : Nat) : State :=
  (s.til til).pats.foldl (fun s p => s.freePattern til p.ent) s

/-- A change of L1SZ takes effect (R203). -/
def State.splitTo (s : State) (til n : Nat) : State :=
  let t := s.til til
  let s := s.setTil til { t with l1sz := n, l1 := [] }
  ((s.scramble (locSpad til t.spadSize) (locSpad til (2 ^ 20 - 65536 * n))).fitRings til).freePatterns til

/-- A change of SWZ takes effect (R205). -/
def State.swizzleTo (s : State) (til : Nat) (new : BitVec 16) : State :=
  let t := s.til til
  let s := s.setTil til { t with swz := new }
  let s := ((List.range 16).filter (fun j => new.getLsbD j != t.swz.getLsbD j)).foldl
    (fun s j => s.scramble (locSpad til (65536 * j)) (locSpad til (Nat.min (65536 * (j + 1)) t.spadSize))) s
  if new = t.swz then s else s.freePatterns til

/-- Is an access of a tiller in flight: of a core, or of the stream or tile port (R203)? -/
def State.inFlight (s : State) (til : Nat) : Bool :=
  (List.range 4).any (fun j =>
    let k := s.core (til * 4 + j)
    !k.waves.isEmpty || k.reqs.any (fun q => k.cycle.toNat < q.until_.toNat)) ||
  (s.til til).streamReq.isSome || (s.til til).half.isSome || (s.til til).jobs.any (fun j => !j.left.isEmpty)

/-- Written values of LSPLIT and SWZ take effect once nothing of the tiller is in flight (R203, R205). -/
def State.resize (s : State) (til : Nat) : State :=
  if !(s.til til).resizing ∨ s.inFlight til then s
  else
    let t := s.til til
    let s := s.setTil til { t with newL1 := none, newSwz := none }
    let s := match t.newL1 with
      | none => s
      | some n => s.splitTo til n
    match t.newSwz with
    | none => s
    | some n => s.swizzleTo til n

/-- A write of L1SZ (R203). -/
def State.writeLsplit (s : State) (til : Nat) (w : Word) : State :=
  let t := s.til til
  let n := (w.extractLsb' 0 4).toNat
  let new := 2 ^ 20 - 65536 * n
  if 8 < n ∨ (new < t.spadSize ∧ t.spad.any (fun g => new < g.off + g.len)) then s
  else (s.setTil til { t with newL1 := some n }).resize til

/-- R203. Write LSPLIT. -/
def execLsplitWrite (d : BitVec 5) (s : State) : Host.Outcome State Fault Refusal :=
  mtsSteward (.lsplitWrite d) d (fun w s => s.writeLsplit s.myTil w) s

/-- A write of SWZ (R205). -/
def State.writeSwz (s : State) (til : Nat) (w : Word) : State :=
  (s.modTil til (fun t => { t with newSwz := some (w.extractLsb' 0 16) })).resize til

/-- R205. Write SWZ. -/
def execSwzWrite (d : BitVec 5) (s : State) : Host.Outcome State Fault Refusal :=
  mtsSteward (.swzWrite d) d (fun w s => s.writeSwz s.myTil w) s

/-- R277. Clear flags of FSTAT. -/
def execFstatClear (d : BitVec 5) (s : State) : Host.Outcome State Fault Refusal :=
  perform (.fstatClear d) (thenNext do
    let w ← rdS d
    upd (fun s => s.modMe (fun x => { x with fstat := x.fstat &&& ~~~(w.extractLsb' 0 6) }))) s

/-- R376. Write SVCMAP. -/
def execSvcmapWrite (d : BitVec 5) (s : State) : Host.Outcome State Fault Refusal :=
  mtsSteward (.svcmapWrite d) d (fun w s => s.modCore s.myCore (fun k => { k with
    svcmap := w.extractLsb' 0 16 &&& 0x7FFE })) s

/-- R402. Write WDOG. -/
def execWdogWrite (d : BitVec 5) (s : State) : Host.Outcome State Fault Refusal :=
  mtsSteward (.wdogWrite d) d (fun w s => s.modCore s.myCore (fun k => { k with wdog := w.extractLsb' 0 16 })) s

/-! ### System calls -/

/-- A trap that carries a code, for user contexts (R389). -/
def callTrap (cause : Nat) (k : BitVec 16) : Op Flow := do
  let c ← ask (·.cur)
  if privileged c then raise Cause.priv
  stop (.trap cause k.toNat 0)

/-- R389. System call. -/
def execSysc (k : BitVec 16) (s : State) : Host.Outcome State Fault Refusal :=
  performRaw (.sysc k) (callTrap Cause.syscall k) s

/-- R389. Breakpoint. -/
def execBrk (k : BitVec 16) (s : State) : Host.Outcome State Fault Refusal :=
  performRaw (.brk k) (callTrap Cause.break_ k) s

/-! ### Translation maintenance -/

def pageSize (psz : Nat) : Nat := if psz = 0 then 2 ^ 16 else if psz = 1 then 2 ^ 21 else if psz = 2 then 2 ^ 25 else 2 ^ 30

/-- An entry that TLBF may not install (R390). -/
def unusable (e : Word) (psz part : Nat) : Bool :=
  !entV e || !entLeaf e || entReserved e || entPart e != part || 2 ^ 40 ≤ entPa e || entPa e % pageSize psz != 0 ||
  entCont e != (psz == 1 || psz == 3)

/-- The register ends of an instruction that completes without a read of memory are read. -/
def State.takeReads (s : State) (c : Nat) : State :=
  match decode (s.wordAt c) with
  | .ok i => (i.reads.filterMap (s.ctx c).endOf).foldl (fun s e => s.endTake c e) s
  | .error _ => s

/-- A walk has declared a fault for a context's miss (R219, R221); a prefetch or cache operation then has no effect
(R233 to R235), and an attempt aborts (R171). -/
def State.declareFault (s : State) (c cause : Nat) : State :=
  match (s.ctx c).wait with
  | .miss k lane va quiet =>
    let s := s.modCtx c (fun x => { x with wait := .none })
    if quiet then (s.takeReads c).modCtx c Ctx.advance
    else if (s.ctx c).tx.active then s.abortTx c 5 0
    else (s.modCtx c Ctx.began).postFault c k cause lane va
  | _ => s

/-- Install an entry in the data or instruction TLB of a core, in its tiller's second-level and its die's last-level
TLB (R390). -/
def State.installEntry (s : State) (c : Nat) (fetch : Bool) (e : TlbEntry) : State :=
  ((s.fillTlb c fetch e).modDie (dieOfTil (tilOf c)) (fun d => { d with lltlb := tlbFill 32768 s.nonce d.lltlb e })).tick

/-- What TLBF does, and its result (R390). -/
def State.fill (s : State) (e w : Word) : State × Word :=
  let act := (w.extractLsb' 6 3).toNat
  let psz := (w.extractLsb' 4 2).toNat
  let pre := w.getLsbD 9
  let c := s.myCore * 16 + (w.extractLsb' 0 4).toNat
  let missing := match (s.ctx c).wait with
    | .miss _ _ _ _ => true
    | _ => false
  let fetch := match (s.ctx c).wait with
    | .miss .fetch _ _ _ => !pre
    | _ => false
  if w.extractLsb' 52 12 ≠ 0 ∨ w.extractLsb' 10 6 ≠ 0 ∨ 5 < act ∨ (pre ∧ act ≠ 0) then (s, failCode 4)
  else if !pre ∧ !missing then (s, failCode 1)
  else if act = 0 ∧ unusable e psz (s.partOf s.myTil) then (if pre then s else s.declareFault c 5, failCode 2)
  else if act = 0 then
    let va := (w.extractLsb' 16 36).toNat * 65536
    let s := s.installEntry s.cur fetch { va := va / pageSize psz * pageSize psz, size := pageSize psz, entry := e }
    (if pre then s else s.modCtx c (fun x => { x with wait := .none }), 0)
  else (s.declareFault c act, 0)

/-- TLBF and TLBI are for the steward and the walker (R385). -/
def privilegedOnly : Op Unit := do
  let c ← ask (·.cur)
  if !privileged c then raise Cause.priv

/-- R390. Fill or fail a translation. -/
def execTlbf (d a b : BitVec 5) (s : State) : Host.Outcome State Fault Refusal :=
  performRaw (.tlbf d a b) (thenNext do
    privilegedOnly
    examineFields (.tlbf d a b)
    let e ← rdS a
    let w ← rdS b
    let r ← ask (fun s => s.fill e w)
    set r.1
    wrS d r.2) s

/-- Drop entries from every TLB of the package (R391). -/
def State.dropEntries (s : State) (p : TlbEntry → Bool) : State :=
  { s with
    cores := s.cores.map (fun (k : Nat × Core) => (k.1, { k.2 with
      itlb := k.2.itlb.filter (fun e => !p e), dtlb := k.2.dtlb.filter (fun e => !p e) }))
    tils := s.tils.map (fun (t : Nat × Tiller) => (t.1, { t.2 with stlb := t.2.stlb.filter (fun e => !p e) }))
    dies := s.dies.map (fun (d : Nat × Die) => (d.1, { d.2 with lltlb := d.2.lltlb.filter (fun e => !p e) })) }

/-- A result that is available after a free number of cycles, until when the context holds under cause 15: a TLBI's (R391; log 5), and
that of CSAVE.save and CSAVE.rest (R392, R396; log 11). -/
def finishLater (d : BitVec 5) (w : Word) : Op Unit := do
  let n ← fresh
  let s ← get
  let at_ := (s.core s.myCore).cycle + BitVec.ofNat 64 (Config.freeNat n % 2 ^ 32)
  upd (fun s => { s with due := at_ })
  wrS d w
  upd (fun s => s.holdOrder false none at_ .none)

/-- R391. Remove the partition's translations of a page. -/
def execTlbiVa (d a : BitVec 5) (s : State) : Host.Outcome State Fault Refusal :=
  performRaw (.tlbiVa d a) (thenNext do
    privilegedOnly
    examineFields (.tlbiVa d a)
    let va ← rdS a
    upd (fun s => s.dropEntries (fun e => e.hits (s.partOf s.myTil) va.toNat))
    finishLater d 0) s

/-- R391. Remove every translation of the partition. -/
def execTlbiPart (d : BitVec 5) (s : State) : Host.Outcome State Fault Refusal :=
  performRaw (.tlbiPart d) (thenNext do
    privilegedOnly
    examineFields (.tlbiPart d)
    upd (fun s => s.dropEntries (fun e => entPart e.entry == s.partOf s.myTil))
    finishLater d 0) s

/-! ### Mailboxes -/

/-- A 32-byte buffer in the executing tiller's scratchpad: its location (R385, R386). -/
def ownBuffer (va : Word) : Op Nat := do
  let s ← get
  match s.check s.myTil va 32 with
  | .error cause => raiseAt cause 0 va
  | .ok (.near t off) => if t = s.myTil then return locSpad t off else raiseAt Cause.addr 0 va
  | .ok (.global _) => raiseAt Cause.addr 0 va

/-- May a context read a box: 0 steward, 1 fault, 2 miss (R382)? -/
def State.mayRead (s : State) (c b : Nat) : Bool :=
  if b = 0 then ctxNo c = 0 else if b = 1 then ctxNo c = 0 || s.isService c else ctxNo c = 15

/-- R385. Take a message. -/
def execMbxr (d a : BitVec 5) (y : BitVec 1) (x : BitVec 2) (s : State) : Host.Outcome State Fault Refusal :=
  performRaw (.mbxr d a y x) (thenNext do
    let s ← get
    let b := x.toNat
    if b = 3 then raise Cause.illegal
    if !s.mayRead s.cur b then raise Cause.priv
    examineFields (.mbxr d a y x)
    let va ← rdS a
    let _ ← ownBuffer va
    let k := s.myCore
    match (s.core k).box b with
    | [] => if y = 1 then wrS d 0 else stop (.hold (.box b))
    | m :: r =>
      upd (fun s => s.modCore k (fun c => c.setBox b r))
      storeScalar .store 32 va m.body.toNat
      wrS d m.header
      upd (fun s => if (s.core k).held.any (fun h => h.1 == b) ∨ s.ctxs.any (fun p => p.2.wait == .post k b) then
        s.laterOnce (.mailboxDelivery k b) else s)) s

/-- The body of `len` bytes that MBXS sends, and its destination (R386). Bytes 4 to 7 of an INTR or USER body, which R384 leaves
reserved, go as they are (log 55). -/
def outgoing (i : Instr) (d a b : BitVec 5) (service : Bool) (len : Nat) (f : Body → Word → Op Word) : Op Flow := thenNext do
  let s ← get
  if !(ctxNo s.cur = 0 ∨ (service ∧ s.isService s.cur)) then raise Cause.priv
  examineFields i
  let va ← rdS a
  let dst ← rdS b
  let loc ← ownBuffer va
  if s.poisoned loc len then raiseAt Cause.poison 0 va
  wrS d (← f (BitVec.ofNat 256 (s.rd loc len)) dst)

/-- The destination tiller of a message; none outside the sender's partition. -/
def State.destination (s : State) (dst : Word) : Option Nat :=
  let t := (dst.extractLsb' 0 10).toNat
  if (s.til t).part = (s.til s.myTil).part then some t else none

/-- A reply goes to a unit of a tiller. -/
def sendReply (mk : Nat → Body → Instr) (m : Body) (dst : Word) : Op Word := do
  match (← get).destination dst with
  | none => return failCode 2
  | some t =>
    upd (fun s => s.later (mk t m))
    return 0

/-- R386. Send a fault reply. -/
def execMbxsFrep (d a b : BitVec 5) (s : State) : Host.Outcome State Fault Refusal :=
  performRaw (.mbxsFrep d a b) (outgoing (.mbxsFrep d a b) d a b true 16 (sendReply .faultReply)) s

/-- R386. Send a copy-fault reply. -/
def execMbxsCrep (d a b : BitVec 5) (s : State) : Host.Outcome State Fault Refusal :=
  performRaw (.mbxsCrep d a b) (outgoing (.mbxsCrep d a b) d a b true 16 (sendReply .copyFaultReply)) s

/-- R386. Send an engine reply. -/
def execMbxsErep (d a b : BitVec 5) (s : State) : Host.Outcome State Fault Refusal :=
  performRaw (.mbxsErep d a b) (outgoing (.mbxsErep d a b) d a b true 16 (sendReply .engineReply)) s

/-- A message to a core's steward box; a full one holds the sender (R382, R386). -/
def sendBox (type : Nat) (m : Body) (dst : Word) : Op Word := do
  let s ← get
  match s.destination dst with
  | none => return failCode 2
  | some t =>
    let k := t * 4 + (dst.extractLsb' 10 2).toNat
    if s.boxRoom k 0 then
      upd (fun s => s.send k 0 { header := headerFrom s.cur type, body := m })
      return 0
    else stop (.hold (.post k 0))

/-- R386. Send an INTR message. -/
def execMbxsIntr (d a b : BitVec 5) (s : State) : Host.Outcome State Fault Refusal :=
  performRaw (.mbxsIntr d a b) (outgoing (.mbxsIntr d a b) d a b false 32 (sendBox 7)) s

/-- R386. Send a USER message. -/
def execMbxsUser (d a b : BitVec 5) (s : State) : Host.Outcome State Fault Refusal :=
  performRaw (.mbxsUser d a b) (outgoing (.mbxsUser d a b) d a b false 32 (sendBox 8)) s

/-- A resume (R388). -/
def State.resume (s : State) (m : Body) : State × Word :=
  let sid := BitVec.ofNat 32 (Body.field m 0 4)
  let mode := Body.field m 4 4
  let newpc := Body.field m 8 8
  let c := s.myCore * 16 + (sid.extractLsb' 12 4).toNat
  let x := s.ctx c
  if x.life ≠ .stopped then (s, failCode 1)
  else if genOfSid sid ≠ x.gen then (s.stale s.myTil, failCode 3)
  else if 2 < mode ∨ (mode = 2 ∧ (newpc % 4 ≠ 0 ∨ 2 ^ 52 ≤ newpc)) then (s, failCode 4)
  else
    let x := { x with life := .running, wait := .none }
    (s.setCtx c (if mode = 0 then x else if mode = 1 then x.advance
      else { x with frame := .clear, pc := BitVec.ofNat 64 newpc }), 0)

/-- R388. Resume a STOPPED context. -/
def execMbxsResume (d a b : BitVec 5) (s : State) : Host.Outcome State Fault Refusal :=
  performRaw (.mbxsResume d a b) (outgoing (.mbxsResume d a b) d a b false 16 (fun m _ => do
    let r ← ask (fun s => s.resume m)
    set r.1
    return r.2)) s

/-! ### Pre-emption -/

/-- Send home what a core hosts and recall what is away from it (R395). -/
def State.recallAll (s : State) (k : Nat) : State :=
  let hosts := (s.ctxs.filter (fun p => coreOf p.1 == k && p.2.home.isSome && p.2.life == .running)).map (·.1)
  let s := hosts.foldl (fun s c => s.sendHome c) s
  let away := (s.ctxs.filter (fun p => p.2.life == .running && p.2.home.any (fun h => coreOf h == k))).map (·.1)
  let s := away.foldl (fun s c => s.sendHome c) s
  (s.tils.flatMap (fun (t : Nat × Tiller) => (t.2.landing.queue.filter (fun m => coreOf m.home == k && tilOf m.home != t.1)).map
      (fun m => (t.1, m)))).foldl (fun s q =>
    (s.modTil q.1 (fun t => { t with landing := { t.landing with queue := t.landing.queue.erase q.2 } })).goBack q.1 q.2) s

/-- Issue of a core's user contexts stops, but for its service contexts until the drains are complete (R392, R393); a save has
translated its area. -/
def State.beginHalt (s : State) (k : Nat) (area : List Nat) : State :=
  (s.modCore k (fun x => { x with saving := some area })).recallAll k

/-- A halt or a save of a core is over: queued migrants may enter its FREE contexts (R257). -/
def State.endHalt (s : State) (k : Nat) : State := (s.modCore k (fun x => { x with saving := none })).letIn (k / 4)

/-- A context as it is saved: it waits for nothing, for credit neither, holds no lease, and its attempt is undone (R198, R395).
The owner of the tile unit keeps it (R309). -/
def State.park (s : State) (c : Nat) : State :=
  let s := ((List.range 12).foldl (fun s e => s.takeAll c e) ((s.cancelTicket c).withdraw c))
  let s := if (s.ctx c).tx.active then s.restartPreempt c else s.dropToken c
  let t := s.til (tilOf c)
  let l : Lease := { t.lease with waiting := t.lease.waiting.filter (· ≠ c) }
  let s :=
    if l.holder = some c ∧ t.owner ≠ some c then
      (s.setTil (tilOf c) { t with lease := { l with holder := none, cmds := 0 } }).changeKey (.lease (tilOf c))
    else s.setTil (tilOf c) { t with lease := l }
  (s.dropThirst c).modCtx c (fun x => { x with
    wait := .none, slept := 0, ticket := 0, refused := none, lastIssue := none, ready := [], word := none, capture := 0 })

/-- The user contexts of a core that hold a strand. -/
def State.occupied (s : State) (k : Nat) : List Nat :=
  ((List.range 14).map (fun j => k * 16 + j + 1)).filter (fun c => (s.ctx c).life != .free && (s.ctx c).home.isNone)

/-- A save area has 19 pieces of 4 KiB (R392). -/
def savePieces : Nat := 19

/-- The location of a byte of a save area for the acting context, which a walk of the tables finds where no TLB does. -/
def State.areaAt (s : State) (va : Nat) (k : Acc) : Option Nat :=
  match (s.lookup s.cur false va).1 with
  | some e => if (permFault k e.entry).isSome then none else some (e.pa va (dieOfTil s.myTil))
  | none => match s.devXlate (s.partOf s.myTil) s.myTil va k with
    | .ok (pa, _) => some pa
    | .error _ => none

/-- The locations of a save area's pieces, if each can be translated. -/
def State.area (s : State) (va : Word) (k : Acc) : Option (List Nat) :=
  if 2 ^ 52 < va.toNat + 4096 * savePieces then none
  else (List.range savePieces).mapM (fun i => s.areaAt (va.toNat + 4096 * i) k)

/-- The pieces of the area that CSAVE.save writes: translated once, before it stops anything (R392). -/
def State.saveArea (s : State) (va : Word) : Option (List Nat) :=
  match (s.core s.myCore).saving with
  | some (p :: ps) => some (p :: ps)
  | _ => s.area va .store

/-- A device writes bytes that have no stated value: lines change owner, poison goes, watchers are told. -/
def State.scrambleArea (s : State) (a n part : Nat) : State :=
  (linesOf a n).foldl (fun s l => (s.own (l * 64) 64 part).changeLine l none) ((s.scramble a (a + n)).cleanse a n)

/-- The bytes 64 to 77,823 of a save area. -/
def State.areaBody (s : State) (area : List Nat) : List Byte := (area.flatMap (fun a => s.bytes a 4096)).drop 64

/-- The first 8 bytes of the digest of those bytes (R394). -/
def State.areaCheck (s : State) (area : List Nat) : Nat := (Config.sha3 (s.areaBody area)).toNat % 2 ^ 64

/-- MAGIC (R394). -/
def saveMagic : Nat := 0x53564731

/-- The ranges' parts within and without bounds. -/
def Span.inside (lo hi : Nat) (r : Span) : List Span :=
  if Nat.max r.lo lo < Nat.min r.hi hi then [{ r with lo := Nat.max r.lo lo, hi := Nat.min r.hi hi }] else []
def Span.outside (lo hi : Nat) (r : Span) : List Span :=
  (if r.lo < Nat.min r.hi lo then [{ r with hi := Nat.min r.hi lo }] else []) ++
  (if Nat.max r.lo hi < r.hi then [{ r with lo := Nat.max r.lo hi }] else [])

/-- What a range of locations holds: listed bytes, and what of it is unspecified. -/
def State.grab (s : State) (lo hi : Nat) : List Host.Cell × List Span :=
  (s.mem.filter (fun c => lo ≤ c.1 && c.1 < hi), s.unspec.flatMap (Span.inside lo hi))

/-- Give a range the content that was grabbed from it. -/
def State.regrab (s : State) (lo hi : Nat) (g : List Host.Cell × List Span) : State :=
  { s with
    mem := g.1.foldl (fun m c => memSet m c.1 c.2) (s.mem.filter (fun c => !(lo ≤ c.1 && c.1 < hi)))
    unspec := g.2 ++ s.unspec.flatMap (Span.outside lo hi) }

def maskOf (cs : List Nat) : Nat := cs.foldl (fun a c => a + 2 ^ ctxNo c) 0

/-- The state that a save records for a context: one saved before keeps the state it was saved in. -/
def State.lifeToSave (s : State) (c : Nat) : Life :=
  match (s.ctx c).life, s.saves.reverse.findSome? (fun v => tget v.ctxs c) with
  | .saved, some x => x.life
  | l, _ => l

/-- The user contexts of a core are parked. -/
def State.parkAll (s : State) (k : Nat) : State := (s.occupied k).foldl (fun s c => s.park c) s

/-- A save area takes bytes that have no stated value, and the stamp of each of its pieces. -/
def State.imprint (s : State) (area : List Nat) (part : Nat) : State × List (Nat × Nat) :=
  area.foldl (fun (r : State × List (Nat × Nat)) a => (r.1.scrambleArea a 4096 part, r.2 ++ [(a, r.1.nonce)])) (s, [])

/-- The save of a drained core into an area (R392, R394). -/
def State.saveCore (s : State) (k : Nat) (area : List Nat) : State :=
  let part := s.partOf (k / 4)
  let cs := s.occupied k
  let s := s.parkAll k
  let q := s.grab (locQ k 0) (locQ k 16384)
  let kept := cs.map (fun c => (c, { s.ctx c with life := s.lifeToSave c }))
  let t := s.til (k / 4)
  let c := s.core k
  let r := s.imprint area part
  let s := r.1
  let head := saveMagic + Config.stepping * 2 ^ 32 + k / 4 * 2 ^ 64 + k % 4 * 2 ^ 80 + part * 2 ^ 88 +
    maskOf cs * 2 ^ 96 + s.areaCheck area * 2 ^ 128
  let s := s.devStore (area.headD 0) part (bytesOfNat 24 head)
  let v : Saved :=
    { part := part, core := k, mask := maskOf cs, image := r.2, ctxs := kept, queue := q.1, loose := q.2
      tags := c.tags, tagb := c.tagb, tage := c.tage
      refs := t.refs.filter (fun r => coreOf r.cid == k), streams := t.streams.filter (fun r => coreOf r.cid == k)
      merge := t.merge.filter (fun m => coreOf m.cid == k), credits := t.credits.filter (fun h => coreOf h.cid == k)
      rings := s.rings.filter (fun y => qCore y.ring == some k) }
  let s : State := { s with saves := s.saves ++ [v] }
  (cs.foldl (fun s c => s.modCtx c (fun x => { x with life := .saved })) s).endHalt k

/-- R392. Save the core's user contexts. -/
def execCsaveSave (d a : BitVec 5) (s : State) : Host.Outcome State Fault Refusal :=
  performRaw (.csaveSave d a) (do
    stewardOnly
    examineFields (.csaveSave d a)
    let old ← get
    let va ← rdS a
    if va.extractLsb' 0 12 ≠ 0 then raiseAt Cause.align 0 va
    let k := old.myCore
    match old.saveArea va with
    | none =>
      wrS d (failCode 3)
      return .next
    | some area =>
      let begun := if (old.core k).saving = some area then old else old.beginHalt k area
      if begun.drained k then
        upd (fun s => (if (s.core k).saving = some area then s else s.beginHalt k area).saveCore k area)
        let v ← ask (fun s => (s.saves.getLast?.map (·.mask)).getD 0)
        finishLater d (BitVec.ofNat 64 v)
        return .next
      else
        set (begun.modMe (fun x => { x with wait := .drain }))
        return .stay) s

/-- Does an area hold what a save has written (R394)? -/
def State.holdsImage (s : State) (area : List Nat) (v : Saved) : Bool :=
  (area.zip v.image).zipIdx.all (fun p => (List.range 4096).all (fun j =>
    (p.2 = 0 && j < 64) || s.byteAt (p.1.1 + j) = Config.freeByte p.1.2.2 (p.1.2.1 + j)))

/-- The latest save that an area holds, and its CMASK, if the header fits this core, part and partition (R396). -/
def State.savedIn (s : State) (area : List Nat) : Option (Saved × Nat) :=
  let h := s.rd (area.headD 0) 24
  let k := s.myCore
  let part := s.partOf s.myTil
  if fld h 0 96 = saveMagic + Config.stepping * 2 ^ 32 + k / 4 * 2 ^ 64 + k % 4 * 2 ^ 80 + part * 2 ^ 88 ∧
      fld h 128 64 = s.areaCheck area then
    (s.saves.reverse.find? (fun v => v.core == k && v.part == part && s.holdsImage area v)).map (fun v => (v, fld h 96 16))
  else none

/-- The cursors that a context's ends hold. -/
def cursorsOf (c : Nat) (b : Vector Word 12) : List (Nat × Nat) :=
  b.toList.filterMap (fun w => if bindKind w = 1 ∧ !bindWr w then some (bindLoc c w, bindPort w) else none)

/-- A context of CMASK takes the state that the area holds for it, with its bindings and credits, under a new generation (R17,
R396); a strand of a TILE stage owns its tiller's tile unit again, where none owns it (R15, R309). DESIGN CHOICE: one that was FREE at
the save has no record there, and is FREE (log 20). -/
def State.restoreCtx (s : State) (v : Saved) (c : Nat) : State :=
  let live := s.ctx c
  let x := (tget v.ctxs c).getD { Ctx.reset c with cnt := live.cnt }
  let s := s.setCtx c { x with gen := live.gen + 1 }
  let s := (cursorsOf c live.bind).foldl (fun s p => s.holdCursor p.1 p.2 false) s
  let s := (cursorsOf c x.bind).foldl (fun s p => s.holdCursor p.1 p.2 true) s
  s.modTil (tilOf c) (fun t => { t with
    owner := if x.tile ∧ x.life ≠ .exited ∧ t.owner.isNone then some c else t.owner
    refs := t.refs.filter (fun r => r.cid ≠ c) ++ v.refs.filter (fun r => r.cid == c)
    streams := t.streams.filter (fun r => r.cid ≠ c) ++ v.streams.filter (fun r => r.cid == c)
    credits := t.credits.filter (fun h => h.cid ≠ c) ++ v.credits.filter (fun h => h.cid == c)
    merge := (t.merge.filter (fun m => m.cid ≠ c)).or (v.merge.filter (fun m => m.cid == c)) })

/-- Have no elements left a ring since a save, and none entered it? Those sent since have been diverted. -/
def Ring.still (now saved : Ring) : Bool := now.pubd == saved.pubd && now.ext == saved.ext && now.base == saved.base

/-- The ring as a save found it, with what the device keeps of its producers as it is now. -/
def Ring.reverted (now saved : Ring) : Ring :=
  { saved with
    geo := now.geo, soon := [], waiters := now.waiters, dry := now.dry, dealt := now.dealt, prods := now.prods
    ended := now.ended, sent7 := now.sent7, code7 := now.code7 }

/-- Elements diverted since a save take the numbers from one on, in their order. -/
def renumber (r : Nat) : Nat → List Spilled → List Spilled
  | _, [] => []
  | n, x :: l => if x.ring = r then { x with seq := n % 2 ^ 32 } :: renumber r (n + 1) l else x :: renumber r n l

/-- A ring of the queue SRAM as the save left it, its block taken from the area (R396). DESIGN CHOICE: its grants, which other tillers
hold, stay as they are; where no element has entered or left the window since, so do its numbers, its groups and the places in its
order; else it has the elements that it had, and those diverted follow them (log 20). -/
def State.restoreRing (s old : State) (v : Saved) (r : Nat) : State :=
  let s := s.rPut r 44 (old.rGrant r)
  match v.rings.find? (fun y => y.ring == r) with
  | none => s.rPut r 12 (old.rRseq r)
  | some y =>
    if (old.ringX r).still y then (s.rPut r 12 (old.rRseq r)).rPut r 52 (old.rNextg r)
    else
      let q := ((tget s.spills v.part).getD []).foldl (fun l x => insertSpilled x l) []
      let n := (q.filter (fun x => x.ring == r)).length
      let s := s.setRing ((old.ringX r).reverted y)
      let s := { s with spills := if n = 0 then s.spills else tset s.spills v.part (renumber r (s.rRseq r) q) }
      s.rPut r 12 (s.rRseq r + n)

/-- The queue SRAM takes its saved content. -/
def State.restoreQueue (s : State) (k : Nat) (v : Saved) : State :=
  let t := s.regrab (locQ k 0) (locQ k 16384) (v.queue, v.loose)
  (s.namedRings.filter (fun r => qCore r == some k)).foldl (fun t r => t.restoreRing s v r) t

/-- The contexts that CMASK names. -/
def maskCtxs (k mask : Nat) : List Nat := ((List.range 16).filter (fun j => mask.testBit j)).map (k * 16 + ·)

/-- A restore of the contexts of CMASK (R396). -/
def State.restoreCore (s : State) (k : Nat) (v : Saved) (mask : Nat) : State :=
  let s := s.restoreQueue k v
  let s := s.modCore k (fun x => { x with tags := v.tags, tagb := v.tagb, tage := v.tage })
  let s := (maskCtxs k mask).foldl (fun s c => s.restoreCtx v c) s
  (s.unspill v.part).laterOnce (.migrantLand (k / 4))

/-- R396. Restore the core from a save area. -/
def execCsaveRest (d a : BitVec 5) (s : State) : Host.Outcome State Fault Refusal :=
  performRaw (.csaveRest d a) (thenNext do
    stewardOnly
    examineFields (.csaveRest d a)
    let va ← rdS a
    if va.extractLsb' 0 12 ≠ 0 then raiseAt Cause.align 0 va
    let s ← get
    match s.area va .load with
    | none => wrS d (failCode 3)
    | some area =>
      if area.any (fun l => s.poisoned l 4096) then raiseAt Cause.poison 0 va
      match s.savedIn area with
      | none => wrS d (failCode 2)
      | some (v, mask) =>
        if (maskCtxs s.myCore mask).any (fun c => (s.ctx c).life ≠ .free ∧ (s.ctx c).life ≠ .saved) then wrS d (failCode 4)
        else
          upd (fun s => s.restoreCore s.myCore v mask)
          finishLater d (BitVec.ofNat 64 mask)) s

/-! ### Counters -/

/-- A counter of a context, or of its tiller or die, by number (R405). -/
def State.counterValue (s : State) (c n : Nat) : Word :=
  let x := s.ctx c
  let t := s.til (tilOf c)
  let d := s.die (dieOfTil (tilOf c))
  if n < 16 then ((x.cnt[n]?).getD 0).setWidth 64
  else if n = 32 then ((x.cnt[16]?).getD 0).setWidth 64
  else if n = 33 then ((x.cnt[17]?).getD 0).setWidth 64
  else if n = 64 then t.stalerep.setWidth 64
  else if n = 65 then t.spcecc.setWidth 64
  else if n = 66 then t.spuecc.setWidth 64
  else if n = 67 then t.migref.setWidth 64
  else if n = 68 then t.wtovf.setWidth 64
  else if n = 69 then t.pccomp.setWidth 64
  else if n = 70 then t.leasearb.setWidth 64
  else if n = 80 then d.budget.setWidth 64
  else if n = 81 then d.withheld.setWidth 64
  else if n = 82 then d.droopev.setWidth 64
  else if n = 83 then d.droopcyc.setWidth 64
  else if n = 84 then d.throt.setWidth 64
  else if n = 85 then d.throtcyc.setWidth 64
  else if n = 86 then d.l2cecc.setWidth 64
  else if n = 87 then d.hbmcecc.setWidth 64
  else if n = 88 then d.hbmuecc.setWidth 64
  else 0

/-- R405. Read a counter. -/
def execPcnt (d b : BitVec 5) (i : BitVec 1) (s : State) : Host.Outcome State Fault Refusal :=
  perform (.pcnt d b i) (thenNext do
    let n ← rdB i b
    wrS d (← ask (fun s => s.counterValue s.cur n.toNat))) s

/-- R405. Read a counter of a context of the core. -/
def execPcntCtx (d a b : BitVec 5) (i : BitVec 1) (s : State) : Host.Outcome State Fault Refusal :=
  performRaw (.pcntCtx d a b i) (thenNext do
    stewardOnly
    examineFields (.pcntCtx d a b i)
    let c ← rdS a
    let n ← rdB i b
    wrS d (← ask (fun s => s.counterValue (s.myCore * 16 + (c.extractLsb' 0 4).toNat) n.toNat))) s

end Sys2Proof.Machine
end

