-- ==== Sys2Proof/Machine/Tile.lean ====
section
/-! DEFINITION. The tile class (R308 to R329): the lease, accumulators, tile rings, staging, the arithmetic of R319 and
R337, and the steps of the tile unit. -/

namespace Sys2Proof.Machine

/-! ### Accumulators (R310, R311) -/

/-- An element of an accumulator, by 32 x row + column; unspecified elements are free values (R320). -/
def Tiller.elem (t : Tiller) (acc i : Nat) : BitVec 32 :=
  match tget t.acc (1024 * acc + i) with
  | some x => x
  | none => match tget t.accFree acc with
    | some n => Config.freeElem n (1024 * acc + i)
    | none => 0

def Tiller.setElem (t : Tiller) (acc i : Nat) (x : BitVec 32) : Tiller :=
  { t with acc := if x = 0 ∧ (tget t.accFree acc).isNone then tdel t.acc (1024 * acc + i)
                  else tset t.acc (1024 * acc + i) x }

/-- All elements zero. -/
def Tiller.zeroAcc (t : Tiller) (acc : Nat) : Tiller :=
  { t with acc := t.acc.filter (fun p => p.1 / 1024 ≠ acc), accFree := tdel t.accFree acc }

/-- All elements unspecified. -/
def State.looseAcc (s : State) (til acc : Nat) : State :=
  (s.modTil til (fun t => { t with
    acc := t.acc.filter (fun p => p.1 / 1024 ≠ acc), accFree := tset t.accFree acc s.nonce })).tick

/-- The rows and columns inside the edge (R311). -/
def Tiller.edge (t : Tiller) (acc : Nat) : Nat × Nat :=
  let g := (t.geom[acc]?).getD 0
  (Nat.min 32 (g.extractLsb' 0 6).toNat, Nat.min 32 (g.extractLsb' 8 6).toNat)

/-! ### Tile rings (R312, R314) -/

/-- The numbers, counted since the ring was written, of its first unretired, first unlanded and first unclaimed slot. -/
def Tiller.headSeq (t : Tiller) (n : Nat) : Nat := (t.thead[n]?).getD 0
def Tiller.tailSeq (t : Tiller) (n : Nat) : Nat :=
  t.headSeq n + (ringTail (t.ring n) + 256 - ringHead (t.ring n)) % 256
def Tiller.clmSeq (t : Tiller) (n : Nat) : Nat :=
  t.headSeq n + (ringClm (t.ring n) + 256 - ringHead (t.ring n)) % 256

/-- Where a slot lies (R312). -/
def slotOff (w : Word) (seq : Nat) : Nat := ringBase w + seq % ringSlots w * ringSlot w

/-- A ring's register with its counts set. -/
def ringCounts (w : Word) (clm tail head : Nat) : Word :=
  (w &&& ~~~(BitVec.ofNat 64 (2 ^ 24 - 1))) |||
    BitVec.ofNat 64 (clm % 256 * 2 ^ 16 + tail % 256 * 2 ^ 8 + head % 256)

/-- The slot at HEAD is retired; what is staged of it is discarded (R317, R325). -/
def Tiller.retire (t : Tiller) (n : Nat) : Tiller :=
  let h := t.headSeq n
  let keep := fun (g : Staged) => !(g.ring == n && g.seq == h)
  { t with
    tring := t.tring.setIfInBounds n (ringCounts (t.ring n) (t.clmSeq n) (t.tailSeq n) (h + 1))
    thead := t.thead.setIfInBounds n (h + 1)
    stageA := t.stageA.filter keep, stageB := t.stageB.filter keep }

/-- TAIL passes the slots that have landed (R314). -/
def Tiller.passLanded (t : Tiller) (n : Nat) : Nat → Tiller
  | 0 => t
  | f + 1 =>
    if t.landed.contains (n, t.tailSeq n) ∧ t.tailSeq n < t.clmSeq n then
      Tiller.passLanded { t with
        landed := t.landed.erase (n, t.tailSeq n)
        tring := t.tring.setIfInBounds n (ringCounts (t.ring n) (t.clmSeq n) (t.tailSeq n + 1) (t.headSeq n)) } n f
    else t

/-- A slot that a copy has claimed has landed; an advance of TAIL is a change of the ring's key (R314). -/
def State.landSlot (s : State) (til n seq : Nat) : State :=
  let t := s.til til
  let u := Tiller.passLanded { t with landed := (n, seq) :: t.landed } n 64
  let s := s.setTil til u
  if u.tailSeq n = t.tailSeq n then s else s.changeKey (.tring til n)

/-- A write of a ring's register (R312, R313). -/
def State.writeRing (s : State) (til n : Nat) (w : Word) : State :=
  let w := w &&& BitVec.ofNat 64 (2 ^ 63 + (2 ^ 11 - 1) * 2 ^ 40 + 31 * 2 ^ 32 + 63 * 2 ^ 24)
  let t := s.til til
  let w := if t.spadSize < ringEnd w then w &&& BitVec.ofNat 64 (2 ^ 63 - 1) else w
  let cut := fun (c : Claim) => if c.til = til ∧ c.ring = n then { c with live := false } else c
  let s : State := { s with
    copies := s.copies.map (fun q => { q with dests := q.dests.map (fun d => { d with claim := d.claim.map cut }) })
    port := { s.port with peerCopies := s.port.peerCopies.map (fun q => { q with claim := q.claim.map cut }) } }
  (s.setTil til { t.unstage n with
    tring := t.tring.setIfInBounds n w, thead := t.thead.setIfInBounds n 0
    landed := t.landed.filter (fun p => p.1 ≠ n) }).changeKey (.tring til n)

/-! ### The lease (R308, R309, R322) -/

/-- A strand takes the lease. -/
def State.grantLease (s : State) (til c : Nat) : State :=
  let cycle := (s.core (til * 4)).cycle
  s.modTil til (fun t => { t with lease :=
    { holder := some c, cmds := 0, since := cycle
      waiting := t.lease.waiting.filter (· ≠ c), lost := t.lease.lost.filter (· ≠ c) } })

/-- Does a strand have the lease, as its holder or as the owner of the tile unit? -/
def Tiller.leased (t : Tiller) (c : Nat) : Bool := t.owner == some c || (t.owner.isNone && t.lease.holder == some c)

/-- May a strand take the lease at once? -/
def Tiller.leaseFree (t : Tiller) : Bool := t.owner.isNone && t.lease.holder.isNone

/-- The strand waits for the lease. -/
def State.waitLease (s : State) (til c : Nat) : State :=
  (s.modTil til (fun t => { t with lease := { t.lease with waiting := addOnce c t.lease.waiting } })).sleepOn c 7 [.lease til] []

/-- Run a tile command's body under the lease (R308): a strand without it traps, but one that lost it to re-arbitration
asks for it first, as TLSE does, and executes the command again once it has it. -/
def underLease (body : Op Flow) : Op Flow := do
  let s ← get
  let t := s.til s.myTil
  if t.leased s.cur then body
  else if t.lease.lost.contains s.cur then
    if t.leaseFree then
      upd (fun s => s.grantLease s.myTil s.cur)
      return .stay
    else
      upd (fun s => s.waitLease s.myTil s.cur)
      return .stay
  else raise Cause.nolease

/-- A tile command issues: it counts for the lease (R308). -/
def State.countCommand (s : State) (til : Nat) : State :=
  let s := s.modTil til (fun t => { t with lease := { t.lease with cmds := t.lease.cmds + 1 } })
  if (s.til til).leaseDue (s.core (til * 4)).cycle then s.laterOnce (.leaseRearbitration til) else s

/-- A command on an accumulator joins the queue of the tile unit (R318). -/
def issueCommand (acc : Nat) (op : TileOp) : Op Unit :=
  upd (fun s => ((s.modTil s.myTil (fun t => { t with
    cmds := t.cmds ++ [{ acc := acc, cid := s.cur, sid := s.sid s.cur, pc := s.me.pc, op := op }] })).countCommand
      s.myTil).later (.tileCommandComplete s.myTil))

/-- The accumulator of a command is held by the context (R308). -/
def accHeld (acc : Nat) : Op Unit := do
  let s ← get
  if !((s.til s.myTil).heldBy s.cur).contains acc then raise Cause.nolease

/-- R322. Take the lease, or wait for it. -/
def execTlse (s : State) : Host.Outcome State Fault Refusal :=
  performRaw .tlse (do
    let s ← get
    let t := s.til s.myTil
    if t.leased s.cur then return .next
    else if t.leaseFree then
      upd (fun s => s.grantLease s.myTil s.cur)
      return .next
    else
      upd (fun s => s.waitLease s.myTil s.cur)
      return .stay) s

/-- R322. Release the lease. -/
def execTlrl (s : State) : Host.Outcome State Fault Refusal :=
  performRaw .tlrl (thenNext do
    upd (fun s =>
      let t := s.til s.myTil
      if t.lease.holder = some s.cur ∧ t.owner ≠ some s.cur then
        (s.setTil s.myTil { t with lease := { t.lease with holder := none, cmds := 0 } }).changeKey (.lease s.myTil)
      else s)) s

/-- The strand that the lease passes to: of the cores after the holder's, in order, the first that has a waiting strand, and
of that core the strand that has waited longest (R308). -/
def nextLessee (h : Nat) (waiting : List Nat) : Option Nat :=
  ((List.range 4).map (fun j => (coreOf h + j + 1) % 4)).findSome? (fun k => waiting.find? (fun c => coreOf c % 4 == k))

/-- R308. Re-arbitration. -/
def State.rearbitrate (s : State) (til : Nat) : State :=
  let t := s.til til
  match t.lease.holder with
  | none => s
  | some h =>
    if !t.leaseDue (s.core (til * 4)).cycle then s
    else match nextLessee h t.lease.waiting with
      | none => s.setTil til { t with lease := { t.lease with cmds := 0, since := (s.core (til * 4)).cycle } }
      | some c =>
        let s := s.setTil til { t with
          leasearb := t.leasearb + 1
          lease := { t.lease with waiting := t.lease.waiting ++ [h], lost := addOnce h t.lease.lost } }
        (s.grantLease til c).changeKey (.lease til)

/-- R308. The lease is re-arbitrated. -/
def execLeaseRearbitration (til : Nat) (s : State) : Host.Outcome State Fault Refusal := .next (s.rearbitrate til)

/-- R313. Write a tile ring's register, as a tile command. -/
def execTringWrite (d : BitVec 5) (n : BitVec 4) (s : State) : Host.Outcome State Fault Refusal :=
  performRaw (.tringWrite d n) (underLease (thenNext do
    examineFields (.tringWrite d n)
    let w ← rdS d
    upd (fun s => (s.writeRing s.myTil n.toNat w).countCommand s.myTil))) s

/-! ### TACQ and TREL (R323) -/

/-- Accumulators that are free or held by a context. -/
def Tiller.available (t : Tiller) (c : Nat) : List Nat :=
  (List.range 8).filter (fun a => t.holders.all (fun h => h.1 ≠ a || h.2 == c))

/-- A mask of accumulators. -/
def accMask (l : List Nat) : Word := BitVec.ofNat 64 (((List.range 8).filter (fun a => l.contains a)).foldl (fun m a => m + 2 ^ a) 0)

/-- Grant accumulators: newly granted ones are zero and have their geometry as at reset (R310). -/
def Tiller.grantAcc (t : Tiller) (c a : Nat) : Tiller :=
  if (t.heldBy c).contains a then t
  else { t.zeroAcc a with holders := t.holders ++ [(a, c)], geom := t.geom.setIfInBounds a geomReset }

/-- R323. Acquire accumulators, all or none. -/
def execTacq (d a b : BitVec 5) (i : BitVec 1) (s : State) : Host.Outcome State Fault Refusal :=
  perform (.tacq d a b i) (thenNext do
    let x ← if i = 1 then pure 0 else rdS a
    let s ← get
    let free := (s.til s.myTil).available s.cur
    let want := if i = 1 then free.take b.toNat else (List.range 8).filter (fun n => x.getLsbD n)
    if i = 0 ∧ (x.extractLsb' 8 56 ≠ 0 ∨ want.isEmpty) then wrS d (failCode 2)
    else if (i = 1 ∧ want.length < b.toNat) ∨ want.any (fun n => !free.contains n) then wrS d (failCode 1)
    else
      upd (fun s => s.modTil s.myTil (fun t => want.foldl (fun t n => t.grantAcc s.cur n) t))
      wrS d (← ask (fun s => accMask ((s.til s.myTil).heldBy s.cur)))) s

/-- R323. Release accumulators. -/
def execTrel (d a : BitVec 5) (s : State) : Host.Outcome State Fault Refusal :=
  perform (.trel d a) (thenNext do
    let x ← rdS a
    let rel ← ask (fun s => ((s.til s.myTil).heldBy s.cur).filter (fun n => x.getLsbD n))
    upd (fun s => rel.foldl (fun s n => s.freeAcc s.myTil n) s)
    wrS d (accMask rel)) s

/-! ### Operand formats (R315, R316) -/

/-- An operand's element type: BF16, FP16, GF8, GF8W and INT8 by their numbers in R37, and the two ternary packings. -/
inductive Operand where
  | typed (t : Nat)
  | tri2
  | tri5
  deriving DecidableEq, Repr

/-- A row of the table of R315. -/
structure MulFmt where
  a : Operand
  b : Operand
  k : Nat
  int : Bool
  scaled : Bool
  deriving DecidableEq, Repr

/-- The table of R315. -/
def mulFmt : Nat → Option MulFmt
  | 0 => some { a := .typed 3, b := .typed 3, k := 32, int := false, scaled := false }
  | 1 => some { a := .typed 4, b := .typed 4, k := 32, int := false, scaled := false }
  | 2 => some { a := .typed 9, b := .typed 9, k := 64, int := false, scaled := true }
  | 3 => some { a := .typed 10, b := .typed 10, k := 64, int := false, scaled := true }
  | 4 => some { a := .typed 9, b := .typed 10, k := 64, int := false, scaled := true }
  | 5 => some { a := .typed 10, b := .typed 9, k := 64, int := false, scaled := true }
  | 6 => some { a := .typed 7, b := .typed 7, k := 64, int := true, scaled := false }
  | 7 => some { a := .typed 7, b := .typed 7, k := 64, int := false, scaled := true }
  | 8 => some { a := .typed 7, b := .tri2, k := 256, int := true, scaled := false }
  | 9 => some { a := .typed 7, b := .tri5, k := 256, int := true, scaled := false }
  | 10 => some { a := .typed 7, b := .tri2, k := 256, int := false, scaled := true }
  | 11 => some { a := .typed 7, b := .tri5, k := 256, int := false, scaled := true }
  | _ => none

/-- Bytes of an operand's slot that it uses. -/
def Operand.bytes (k : Nat) : Operand → Nat
  | .typed t => 32 * k * (widthOf t / 8)
  | .tri2 => 2048
  | .tri5 => 1664

/-- A little-endian number in an array of bytes. -/
def natAt (x : Array Byte) (a : Nat) : Nat → Nat
  | 0 => 0
  | n + 1 => (x[a]?.getD 0).toNat + 256 * natAt x (a + 1) n

/-- A floating-point element by its index. -/
def floatAt (x : Array Byte) (t i : Nat) : Val := (fmtOf t).val (natAt x (i * (widthOf t / 8)) (widthOf t / 8))

/-- An integer or ternary element (k, n) of B, or element i of an INT8 operand, and whether its code is bad (R316). -/
def int8At (x : Array Byte) (i : Nat) : Int := laneInt 7 (natAt x i 1)
def Operand.weight (x : Array Byte) (n k : Nat) : Operand → Int × Bool
  | .typed _ => (int8At x (k * 32 + n), false)
  | .tri2 => Machine.tri2 (natAt x (64 * n + k / 4) 1) (k % 4)
  | .tri5 => Machine.tri5 (natAt x (52 * n + k / 5) 1) (k % 5)

/-- The index of element (m, k) of A (R316). -/
def indexA (transposed : Bool) (kk m k : Nat) : Nat := if transposed then k * 32 + m else m * kk + k

/-! ### Arithmetic (R319, R337) -/

/-- A value times a power of two. -/
def Val.scale (e : Int) : Val → Val
  | .fin n m x => .fin n m (x + e)
  | v => v

/-- The exact sum of values that are no NaNs; none for infinities of both signs. A zero sum is −0 where every term is
(R271). -/
def exactSum (vs : List Val) : Option Val :=
  let pos := vs.contains (.inf false)
  let neg := vs.contains (.inf true)
  if pos ∧ neg then none
  else if pos then some (.inf false)
  else if neg then some (.inf true)
  else
    let low : Int := vs.foldl (fun (l : Int) v => match v with
      | .fin _ _ e => min l e
      | _ => l) 0
    let x : Int := vs.foldl (fun (a : Int) v => match v with
      | .fin n m e => a + scaled n m e low
      | _ => a) 0
    let minus := !vs.isEmpty && vs.all (fun v => match v with
      | .fin n m _ => n && m == 0
      | _ => false)
    some (.fin (if x = 0 then minus else x < 0) x.natAbs low)

/-- C + (Σ x · y) · 2^e for FP32 (R319). Without a term C takes part alone. -/
def macFloat (c : Nat) (ts : List (Val × Val)) (e : Int) : Nat × Flags :=
  let cv := FP32.val c
  FP32.nanRule (cv :: ts.flatMap (fun t => [t.1, t.2]))
    (let ps := ts.map (fun t => t.1.mul t.2)
     if ps.any Option.isNone then (FP32.nan, INVALID)
     else match exactSum (ps.filterMap id) with
       | none => (FP32.nan, INVALID)
       | some v => FP32.sum 0 (v.scale e) cv)

/-- C + Σ · 2^e for an integer sum and FP32 (R319). -/
def macScaled (c : Nat) (x : Int) (e : Int) : Nat × Flags :=
  let cv := FP32.val c
  FP32.nanRule [cv] (FP32.sum 0 (.fin (x < 0) x.natAbs e) cv)

/-- Sat(C + Σ, i32) (R319). -/
def macInt (c : BitVec 32) (x : Int) : Nat × Flags := satLane 0 (c.toInt + x)

/-- Update each element (m, n) of an accumulator inside its edge by a function of its place and value; the flags of all. -/
def Tiller.updateAcc (t : Tiller) (acc : Nat) (f : Nat → Nat → BitVec 32 → Option (Nat × Flags)) : Tiller × Flags :=
  let g := t.edge acc
  (List.range (g.1 * g.2)).foldl (fun (r : Tiller × Flags) j =>
    let m := j / g.2
    let n := j % g.2
    match f m n (t.elem acc (32 * m + n)) with
    | none => r
    | some x => (r.1.setElem acc (32 * m + n) (BitVec.ofNat 32 x.1), r.2 ||| x.2)) (t, 0)

/-- TMMA and TMMT on an accumulator (R319): the operand bytes, the counted positions, and the exponents of rows and
columns, where −128 makes a zero block (R276). -/
def Tiller.multiply (t : Tiller) (acc : Nat) (fm : MulFmt) (kv : Nat) (tr : Bool) (a b : Array Byte) (ea eb : List Int) :
    Tiller × Flags :=
  let za := fun m => ea.getD m 0 = -128
  let zb := fun n => eb.getD n 0 = -128
  let exp := fun m n => if za m ∨ zb n then 0 else ea.getD m 0 + eb.getD n 0
  match fm.a, fm.b with
  | .typed 7, wb =>
    let rows := (List.range 32).map (fun m => (List.range kv).map (fun k =>
      if za m then 0 else int8At a (indexA tr fm.k m k)))
    let cols := (List.range 32).map (fun n => (List.range kv).map (fun k =>
      if zb n then (0, false) else wb.weight b n k))
    t.updateAcc acc (fun m n c =>
      let col := cols.getD n []
      let x := (List.zipWith (fun p q => p * q.1) (rows.getD m []) col).foldl (· + ·) 0
      let r := if fm.int then macInt c x else macScaled c.toNat x (exp m n)
      some (r.1, r.2 ||| flagIf (col.any (·.2)) TRIBAD))
  | .typed ta, .typed tb =>
    let zero : Val := .fin false 0 0
    let rows := (List.range 32).map (fun m => (List.range kv).map (fun k =>
      if za m then zero else floatAt a ta (indexA tr fm.k m k)))
    let cols := (List.range 32).map (fun n => (List.range kv).map (fun k =>
      if zb n then zero else floatAt b tb (k * 32 + n)))
    t.updateAcc acc (fun m n c => some (macFloat c.toNat (List.zip (rows.getD m []) (cols.getD n [])) (exp m n)))
  | _, _ => (t, 0)

/-- SPMMA on an accumulator (R337): rows without a stored entry keep their elements. -/
def Tiller.multiplySparse (t : Tiller) (acc : Nat) (int : Bool) (terms : List (Nat × Nat × Nat)) (b : Array Byte) :
    Tiller × Flags :=
  t.updateAcc acc (fun m n c =>
    let row := terms.filter (fun p => p.1 == m)
    if row.isEmpty then none
    else if int then
      some (macInt c (row.foldl (fun a p => a + laneInt 7 p.2.2 * int8At b (p.2.1 * 32 + n)) 0))
    else some (macFloat c.toNat (row.map (fun p => (BF16.val p.2.2, floatAt b 3 (p.2.1 * 32 + n)))) 0))

/-! ### Staging (R317) -/

/-- The buffer for the slot at HEAD of a ring: what is staged of it, or nothing yet. -/
def State.slotBuffer (s : State) (til n : Nat) (old : Option Staged) : Staged :=
  let t := s.til til
  let seq := t.headSeq n
  let off := slotOff (t.ring n) seq
  let new : Staged :=
    { ring := n, seq := seq, off := off, bytes := s.bytes (locSpad til off) (ringSlot (t.ring n)), held := [], bad := [] }
  match old with
  | some g => if g.ring = n ∧ g.seq = seq then g else new
  | none => new

/-- Stage blocks, as far as a buffer does not hold them. -/
def State.stageBlocks (s : State) (til : Nat) (g : Staged) (need : List Nat) : Staged :=
  let new := need.filter (fun b => !g.held.contains b)
  { g with held := g.held ++ new, bad := g.bad ++ new.filter (fun b => s.poisoned (locSpad til (g.off + 512 * b)) 512) }

/-- Stage blocks of the slot at HEAD of a ring. -/
def State.stageSlot (s : State) (til n : Nat) (old : Option Staged) (need : List Nat) : Staged :=
  s.stageBlocks til (s.slotBuffer til n old) need

/-- The blocks that a buffer is still to be given. -/
def Staged.wants (g : Staged) (buf : Nat) (need : List Nat) : List Wanted :=
  (need.filter (fun b => !g.held.contains b)).map (fun b => { buf := buf, ring := g.ring, seq := g.seq, block := b })

/-- The blocks of a slot's first bytes. -/
def blocksOf (n : Nat) : List Nat := List.range ((n + 511) / 512)

/-- What a multiply needs of an operand: its blocks, and that of its inline exponents (R316, R317). -/
def needOf (fm : MulFmt) (o : Operand) (scl : Word) : List Nat :=
  let l := blocksOf (o.bytes fm.k)
  if fm.scaled ∧ scl.extractLsb' 62 2 = 2 then
    (let b := (scl.extractLsb' 8 12).toNat * 32 / 512
     if l.contains b then l else l ++ [b])
  else l

/-- The exponents of rows or columns that SCLA or SCLB gives (R316). -/
def exponents (fm : MulFmt) (scl : Word) (slot : List Byte) : List Int :=
  let mode := (scl.extractLsb' 62 2).toNat
  if !fm.scaled ∨ mode = 0 then List.replicate 32 0
  else if mode = 1 then List.replicate 32 (scl.extractLsb' 0 8).toInt
  else ((slot.drop ((scl.extractLsb' 8 12).toNat * 32)).take 32).map BitVec.toInt

/-- A slot too small for its operand or its inline exponents (R325). -/
def slotShort (fm : MulFmt) (o : Operand) (scl w : Word) : Bool :=
  ringSlot w < o.bytes fm.k ||
  (fm.scaled && scl.extractLsb' 62 2 = 2 && ringSlot w < (scl.extractLsb' 8 12).toNat * 32 + 32)

/-- The operand format of a word for a context: code 15 takes FMT (R315). -/
def Ctx.formatOf (x : Ctx) (f : BitVec 4) : Option MulFmt :=
  mulFmt (if f = 15 then (x.fmt.extractLsb' 0 4).toNat else f.toNat)

/-- Stage both operands of a multiply. -/
def State.stageMul (s : State) (til c : Nat) (fm : MulFmt) (ra rb : Nat) : State :=
  let t := s.til til
  let x := s.ctx c
  let a := s.stageSlot til ra t.stageA (needOf fm fm.a x.scla)
  let b := s.stageSlot til rb t.stageB (needOf fm fm.b x.sclb)
  s.setTil til { t with stageA := some a, stageB := some b }

/-! ### Occupancy and transfers (R318, R344) -/

/-- A multiply has issued: when the next one may, and when a TSTA of its accumulator. -/
def State.occupy (s : State) (acc p : Nat) (readable : Nat) : State :=
  let now := (s.core s.myCore).cycle
  s.modTil s.myTil (fun t => { t with
    mulNext := now + BitVec.ofNat 64 p, storeNext := tset t.storeNext acc (now + BitVec.ofNat 64 readable) })

/-- The 8-byte words that lanes of `n` bytes at some offsets lie in, each once: their offsets. -/
def wordsOf (n : Nat) (offs : List Nat) : List Nat :=
  (offs.flatMap (fun o => (List.range ((o + n + 7) / 8 - o / 8)).map (fun j => (o / 8 + j) * 8))).eraseDups

/-- The blocks of 32 rows of memory: 512 bytes each, as the offsets of their words. -/
def rowBlocks (off pitch width : Nat) : List (List Nat) :=
  (List.range (32 * width / 512)).map (fun j => (List.range (512 / width)).flatMap (fun r =>
    (List.range (width / 8)).map (fun k => (off + (j * (512 / width) + r) * pitch) / 8 * 8 + 8 * k)))

/-- The tile port is to move the rows of a TLDA or a TSTA. -/
def State.addJob (s : State) (acc : Nat) (load : Bool) (off pitch width : Nat) : State :=
  s.modTil s.myTil (fun t => { t with jobs := t.jobs ++ [{ acc := acc, load := load, left := rowBlocks off pitch width }] })

/-! ### TMMA and TMMT -/

/-- R325. TMMA and TMMT. -/
def multiplyTile (ra rb : BitVec 4) (acc : BitVec 3) (cnt : BitVec 5) (f : BitVec 4) (popb popa : BitVec 1) (tr : Bool) :
    Op Flow := do
  let x ← ask State.me
  match x.formatOf f with
  | none => raise Cause.illegal
  | some fm =>
    if fm.scaled ∧ (x.scla.extractLsb' 62 2 = 3 ∨ x.sclb.extractLsb' 62 2 = 3) then raise Cause.illegal
    underLease (thenNext do
      accHeld acc.toNat
      let s ← get
      let til := s.myTil
      let t := s.til til
      let a := ra.toNat
      let b := rb.toNat
      if !ringEn (t.ring a) ∨ !ringEn (t.ring b) then raise Cause.bounds
      if slotShort fm fm.a x.scla (t.ring a) ∨ slotShort fm fm.b x.sclb (t.ring b) then raise Cause.bounds
      let empty := (if a = b then [a] else [a, b]).filter (fun n => t.headSeq n == t.tailSeq n)
      if !empty.isEmpty then stop (.sleep 2 (empty.map (Key.tring til)) [])
      upd (fun s => s.stageMul til s.cur fm a b)
      let t ← ask (fun s => s.til til)
      match t.stageA, t.stageB with
      | some ga, some gb =>
        let bad := ga.bad.any (fun k => (needOf fm fm.a x.scla).contains k) ||
          gb.bad.any (fun k => (needOf fm fm.b x.sclb).contains k)
        upd (fun s => s.modTil til (fun t =>
          let t := if popa = 1 then t.retire a else t
          if popb = 1 ∧ (b ≠ a ∨ popa = 0) then t.retire b else t))
        upd (fun s => s.occupy acc.toNat 8 24)
        issueCommand acc.toNat (.mul (if f = 15 then (x.fmt.extractLsb' 0 4).toNat else f.toNat)
          ((cnt.toNat + 1) * fm.k / 32) tr ga.bytes gb.bytes (exponents fm x.scla ga.bytes) (exponents fm x.sclb gb.bytes) bad)
      | _, _ => return ())

/-- R325. Multiply the slots at the heads of two rings into an accumulator. -/
def execTmma (a b : BitVec 4) (c : BitVec 3) (n : BitVec 5) (f : BitVec 4) (y x : BitVec 1) (s : State) :
    Host.Outcome State Fault Refusal :=
  performRaw (.tmma a b c n f y x) (multiplyTile a b c n f y x false) s

/-- R325. As TMMA, with A transposed. -/
def execTmmt (a b : BitVec 4) (c : BitVec 3) (n : BitVec 5) (f : BitVec 4) (y x : BitVec 1) (s : State) :
    Host.Outcome State Fault Refusal :=
  performRaw (.tmmt a b c n f y x) (multiplyTile a b c n f y x true) s

/-- The format of a TMMA or TMMT of a context, where it waits for nothing but its staging and the unit's occupancy: it has the
lease and the accumulator, slots at HEAD, and room in them for its operands (R317). -/
def State.mulPlan (s : State) (c : Nat) (ra rb : BitVec 4) (acc : Nat) (f : BitVec 4) : Option MulFmt :=
  let t := s.til (tilOf c)
  let x := s.ctx c
  let a := ra.toNat
  let b := rb.toNat
  (x.formatOf f).filter (fun fm =>
    t.leased c && (t.heldBy c).contains acc && t.headSeq a != t.tailSeq a && t.headSeq b != t.tailSeq b &&
    ringEn (t.ring a) && ringEn (t.ring b) && !slotShort fm fm.a x.scla (t.ring a) && !slotShort fm fm.b x.sclb (t.ring b))

/-- The blocks that a TMMA or TMMT of a context is still to have staged (R317). -/
def State.mulWants (s : State) (c : Nat) (ra rb : BitVec 4) (acc : Nat) (f : BitVec 4) : List Wanted :=
  let t := s.til (tilOf c)
  let x := s.ctx c
  match s.mulPlan c ra rb acc f with
  | none => []
  | some fm => (s.slotBuffer (tilOf c) ra.toNat t.stageA).wants 0 (needOf fm fm.a x.scla) ++
      (s.slotBuffer (tilOf c) rb.toNat t.stageB).wants 1 (needOf fm fm.b x.sclb)

/-! ### The other commands -/

/-- R324. Zero an accumulator. -/
def execTzro (d : BitVec 5) (s : State) : Host.Outcome State Fault Refusal :=
  performRaw (.tzro d) (underLease (thenNext do
    accHeld d.toNat
    issueCommand d.toNat .zero)) s

/-- The checks of R326: the near offset of 32 rows of so many bytes. -/
def rowsChecked (va pitch : Word) (width : Nat) : Op Nat := do
  let s ← get
  match s.place s.myTil va with
  | some (.near t off) =>
    if t ≠ s.myTil then raiseAt Cause.addr 0 va
    if va.toNat % 64 ≠ 0 ∨ pitch.toNat % 64 ≠ 0 then raiseAt Cause.align 0 va
    if (s.til t).spadSize < off + 31 * pitch.toNat + width then raiseAt Cause.bounds 0 va
    return off
  | _ => raiseAt Cause.addr 0 va

/-- R326. Load an accumulator. -/
def execTlda (d a b : BitVec 5) (x : BitVec 1) (s : State) : Host.Outcome State Fault Refusal :=
  performRaw (.tlda d a b x) (underLease (thenNext do
    accHeld d.toNat
    examineFields (.tlda d a b x)
    let va ← rdS a
    let pitch ← rdS b
    let off ← rowsChecked va pitch 128
    let s ← get
    let til := s.myTil
    let at_ := fun (m n : Nat) => locSpad til (off + (if x = 1 then n else m) * pitch.toNat + 4 * (if x = 1 then m else n))
    let words := (List.range 1024).map (fun j => BitVec.ofNat 32 (s.rd (at_ (j / 32) (j % 32)) 4))
    let bad := (List.range 32).any (fun r => s.poisoned (locSpad til (off + r * pitch.toNat)) 128)
    upd (fun s => s.addJob d.toNat true off pitch.toNat 128)
    issueCommand d.toNat (.load words bad))) s

/-- R326. Store an accumulator. -/
def execTsta (d a b : BitVec 5) (x : BitVec 1) (r : BitVec 2) (i : BitVec 1) (t : BitVec 4) (s : State) :
    Host.Outcome State Fault Refusal :=
  performRaw (.tsta d a b x r i t) (underLease (thenNext do
    accHeld d.toNat
    examineFields (.tsta d a b x r i t)
    let va ← rdS a
    let pitch ← rdS b
    let off ← rowsChecked va pitch (32 * (widthOf t.toNat / 8))
    let til ← ask State.myTil
    (List.range 32).forM (fun r => soleHold (locSpad til (off + r * pitch.toNat)) (32 * (widthOf t.toNat / 8)))
    upd (fun s => s.addJob d.toNat false off pitch.toNat (32 * (widthOf t.toNat / 8)))
    issueCommand d.toNat (.store off pitch.toNat t.toNat r.toNat (i = 1) (x = 1)))) s

/-- R327. Set the geometry. -/
def execTgeo (d a b : BitVec 5) (s : State) : Host.Outcome State Fault Refusal :=
  performRaw (.tgeo d a b) (underLease (thenNext do
    accHeld d.toNat
    examineFields (.tgeo d a b)
    let x ← rdS a
    let y ← rdS b
    let tr := (x.extractLsb' 0 16).toNat
    let tc := (x.extractLsb' 16 16).toNat
    let mv := Nat.min 32 ((y.extractLsb' 0 32).toNat - 32 * tr)
    let nv := Nat.min 32 ((y.extractLsb' 32 32).toNat - 32 * tc)
    issueCommand d.toNat (.geom (BitVec.ofNat 64 (tc * 2 ^ 48 + tr * 2 ^ 32 + nv * 2 ^ 8 + mv))))) s

/-! ### Scaled sums (R328, R329) -/

/-- R328. Enqueue a sum and its exponent as two elements. -/
def execBsum (d a b : BitVec 5) (s : State) : Host.Outcome State Fault Refusal :=
  performRaw (.bsum d a b) (thenNext do
    let w ← boundEnd d
    if readEnd w then raise Cause.illegal
    let x ← ask State.me
    examine ([Fld.s a.toNat, .s b.toNat].filterMap x.endOf) [(d.toNat, dataElem), (d.toNat, dataElem)]
    let v ← rdS a
    let e ← rdS b
    enq d.toNat { awn := false, data := v.setWidth 512 }
    enq d.toNat { awn := false, data := ((e.extractLsb' 0 16).signExtend 64).setWidth 512 }) s

/-- ShiftNE(x, k) (R329). -/
def shiftNE (x : Int) (k : Nat) : Int := (intRound 0 (x < 0) x.natAbs (-(k : Int))).1

/-- R329. Merge a scaled sum into a running pair. -/
def execBacc (d a b : BitVec 5) (s : State) : Host.Outcome State Fault Refusal :=
  performRaw (.bacc d a b) (thenNext do
    let x ← ask State.me
    if (x.endOf (.s d.toNat)).isSome ∨ (x.endOf (.s (d.toNat + 1))).isSome then raise Cause.illegal
    examineFields (.bacc d a b)
    let v ← rdS a
    let w ← rdS b
    let x ← ask State.me
    let S := (x.getS d.toNat).toInt
    let E := ((x.getS (d.toNat + 1)).extractLsb' 0 16).toInt
    let e := (w.extractLsb' 0 16).toInt
    let E' := if E < e then e else E
    let S' := if E < e then shiftNE S (e - E).toNat else S
    let t := if E < e then v.toInt else shiftNE v.toInt (E - e).toNat
    let r := satLane 11 (S' + t)
    setFlags r.2
    upd (fun s => s.modMe (fun x => (x.setS d.toNat (BitVec.ofNat 64 r.1)).setS (d.toNat + 1) (BitVec.ofInt 64 E')))) s

/-! ### Completion of tile commands (R318 to R320) -/

/-- The flags of a command go to the strand that issued it (R319). -/
def State.commandFlags (s : State) (k : TileCmd) (fl : Flags) : State :=
  if s.sid k.cid = k.sid then s.modCtx k.cid (fun x => { x with fstat := x.fstat ||| fl }) else s

/-- A tile-error message (R320, R384). -/
def State.tileErr (s : State) (til : Nat) (k : TileCmd) : State :=
  s.send (coreOf k.cid) 0 { header := headerUnit til 5
                            body := bodyOf [(0, 4, k.sid.toNat), (4, 1, k.acc), (8, 8, k.pc.toNat)] }

/-- Rows of memory that TSTA writes: the offset, the bytes and the flags of each (R326). -/
def Tiller.storeRows (t : Tiller) (acc off pitch ty rnd : Nat) (int tr : Bool) : List (Nat × List Byte × Flags) :=
  let g := t.edge acc
  let rows := if tr then g.2 else g.1
  let cols := if tr then g.1 else g.2
  (List.range rows).map (fun r =>
    let xs := (List.range cols).map (fun c =>
      convert (if int then 0 else 2) ty rnd (t.elem acc (if tr then 32 * c + r else 32 * r + c)).toNat)
    (off + r * pitch, xs.flatMap (fun x => bytesOfNat (widthOf ty / 8) x.1), xs.foldl (fun f x => f ||| x.2) 0))

/-- TSTA stores; a unit of memory that stays damaged is an error (R320). -/
def State.storeAcc (s : State) (til : Nat) (k : TileCmd) (rows : List (Nat × List Byte × Flags)) : State :=
  let t := rows.foldl (fun (s : State) r =>
    (s.store (locSpad til r.1) r.2.1 (some k.cid)).tamper s (locSpad til r.1) r.2.1.length) s
  let t := t.commandFlags k (rows.foldl (fun f r => f ||| r.2.2) 0)
  if rows.any (fun r => t.poisoned (locSpad til r.1) r.2.1.length) then t.tileErr til k else t

/-- An SPMMA no longer holds its pattern entry; one that was to be freed is (R336). -/
def State.releasePattern (s : State) (til e : Nat) : State :=
  match (s.til til).pats.find? (fun p => p.ent == e && 0 < p.held) with
  | none => s
  | some p =>
    let s := s.modTil til (fun t => { t with
      pats := t.pats.map (fun q => if q.ent = e then { q with held := q.held - 1 } else q) })
    if 1 < p.held then s else if p.dying then s.freePattern til e else s.changeKey (.pat til e)

/-- What a command does as it completes. -/
def State.completeCommand (s : State) (til : Nat) (k : TileCmd) : State :=
  let t := s.til til
  match k.op with
  | .zero => s.setTil til (t.zeroAcc k.acc)
  | .mul code kv tr a b ea eb bad =>
    if bad then (s.looseAcc til k.acc).tileErr til k
    else match mulFmt code with
      | none => s
      | some fm =>
        let r := t.multiply k.acc fm kv tr a.toArray b.toArray ea eb
        (s.setTil til r.1).commandFlags k r.2
  | .load words bad =>
    if bad then (s.looseAcc til k.acc).tileErr til k
    else s.setTil til ((List.range 1024).foldl (fun t j => t.setElem k.acc j (words.getD j 0)) (t.zeroAcc k.acc))
  | .store off pitch ty rnd int tr => s.storeAcc til k (t.storeRows k.acc off pitch ty rnd int tr)
  | .geom w => s.setTil til { t with geom := t.geom.setIfInBounds k.acc w }
  | .sparse int terms b ent bad loose =>
    let s :=
      if bad then (s.looseAcc til k.acc).tileErr til k
      else if loose then s.looseAcc til k.acc
      else
        let r := t.multiplySparse k.acc int terms b.toArray
        (s.setTil til r.1).commandFlags k r.2
    s.releasePattern til ent
  | .free => s.setTil til { t with holders := t.holders.filter (fun h => !(h.1 == k.acc && h.2 == nobody)) }

/-- R319. The oldest command of a tile unit completes. -/
def execTileCommandComplete (til : Nat) (s : State) : Host.Outcome State Fault Refusal :=
  .next (match (s.til til).cmds with
    | [] => s
    | k :: r => (s.modTil til (fun t => { t with cmds := r })).completeCommand til k)

end Sys2Proof.Machine
end

