-- ==== Sys2Proof/Machine/Copy.lean ====
section
/-! DEFINITION. The copy and arrival class (R354 to R374): copies and their steps at the stream port, copy tags, arrival
counters. -/

namespace Sys2Proof.Machine

/-! ### What a copy covers (R355, R356) -/

/-- Bytes that a copy moves. -/
def Copy.total (q : Copy) : Nat := q.c0 * q.c1 * q.c2

/-- The start of a run of a pattern. -/
def runStart (base : Word) (c1 : Nat) (s1 s2 : Int) (i : Nat) : Word :=
  base + BitVec.ofInt 64 ((i / c1 : Nat) * s2 + (i % c1 : Nat) * s1)

/-- A range cut where a page may end. -/
def pagePieces (va : Word) : Nat → Nat → List (Word × Nat)
  | 0, _ => []
  | f + 1, n =>
    if n = 0 then []
    else
      let k := Nat.min n (65536 - va.toNat % 65536)
      (va, k) :: pagePieces (va + BitVec.ofNat 64 k) f (n - k)

/-- The locations of a pattern's bytes, as far as they can be found: location and length. -/
def State.patternRanges (s : State) (q : Copy) (base : Word) (s1 s2 : Int) (k : Acc) : List (Nat × Nat) :=
  ((List.range (q.c1 * q.c2)).flatMap (fun i => pagePieces (runStart base q.c1 s1 s2 i) (q.c0 / 65536 + 2) q.c0)).flatMap
    (fun p => match s.spot (tilOf q.cid) p.1 1 k with
      | .at_ loc e => (replicas (entRepl e) (k = .store) loc).map (fun a => (a, p.2))
      | _ => [])

/-- The locations that a copy writes. -/
def State.destRanges (s : State) (q : Copy) : List (Nat × Nat) :=
  if q.xmod.isSome then []
  else q.dests.flatMap (fun d =>
    if d.failed then []
    else if q.dring then (match d.claim with
      | none => []
      | some c => (List.range (q.total / ringSlot c.reg)).map (fun j =>
          (locSpad c.til (slotOff c.reg (c.first + j)), ringSlot c.reg)))
    else s.patternRanges q d.va q.ds1 q.ds2 .store)

/-- What two lists of ranges have in common. -/
def common (x y : List (Nat × Nat)) : List (Nat × Nat) :=
  x.flatMap (fun p => y.filterMap (fun r =>
    let lo := Nat.max p.1 r.1
    let hi := Nat.min (p.1 + p.2) (r.1 + r.2)
    if lo < hi then some (lo, hi - lo) else none))

def State.copyOf (s : State) (id : Nat) : Option Copy := s.copies.find? (fun q => q.id == id)
def State.setCopy (s : State) (q : Copy) : State :=
  { s with copies := s.copies.map (fun p => if p.id = q.id then q else p) }

/-- The locations that a copy reads. -/
def State.sourceRanges (s : State) (q : Copy) : List (Nat × Nat) := s.patternRanges q q.src q.ss1 q.ss2 .load

/-- Each copy keeps what its source holds in some bytes, if it has not kept it yet. -/
def State.keepSources (s : State) (rs : List (Nat × Nat)) : State :=
  let kept := fun (q : Copy) => ((common rs (s.sourceRanges q)).flatMap (fun r => (List.range r.2).map (r.1 + ·))).filterMap (fun a =>
    if (tget q.kept a).isSome then none else some (a, (s.bytes a 1).headD 0))
  if rs.isEmpty then s else { s with copies := s.copies.map (fun q => { q with kept := q.kept ++ kept q }) }

/-- Some bytes hold unspecified values. -/
def State.scrambleAll (s : State) (rs : List (Nat × Nat)) : State := rs.foldl (fun s r => s.scramble r.1 (r.1 + r.2)) s

/-- The other copies' share of some destination bytes, with another module's copies among them; the copies know of it then. -/
def State.sharers (s : State) (q : Option Nat) (here : List (Nat × Nat)) : State × List (Nat × Nat) :=
  let with_ := (s.copies.filter (fun p => q ≠ some p.id)).map (fun p => (p, common here (s.destRanges p)))
  (with_.foldl (fun (s : State) p => if p.2.isEmpty then s else s.setCopy { p.1 with loose := p.1.loose ++ p.2 }) s,
    with_.flatMap (·.2) ++ s.port.peerCopies.flatMap (fun p => common here p.landed))

/-- Destination bytes that a copy shares with its own source or with the destination of another copy in flight hold unspecified
values, and no other byte is affected (R355). DESIGN CHOICE: they do so from when the later of the two copies is issued, or claims its
slots (log 55). -/
def State.entangle (s : State) (id : Nat) : State :=
  match s.copyOf id with
  | none => s
  | some q =>
    let mine := s.destRanges q
    let r := s.sharers (some id) mine
    let rs := (if q.xmod.isSome then [] else common mine (s.sourceRanges q)) ++ r.2
    ((r.1.setCopy { q with loose := q.loose ++ rs }).keepSources rs).scrambleAll rs

/-! ### Issue (R354, R370) -/

/-- The descriptor's fields as a copy, with its destinations; none where it is malformed (R354). The reserved bits of a TGTj
that the mask does not select are not looked at (R370, log 55). -/
def State.descriptor (s : State) (loc : Nat) (multi : Bool) (mask : Nat) : Option Copy :=
  let fl := s.rd (loc + 28) 4
  let dring := fld fl 0 1 = 1
  let cred := fld fl 1 1 = 1
  let xm := fld fl 2 1 = 1
  let dst : Word := BitVec.ofNat 64 (s.rd (loc + 8) 8)
  let ctra : Word := BitVec.ofNat 64 (s.rd (loc + 48) 8)
  let c0 := s.rd (loc + 16) 4
  let c1 := s.rd (loc + 20) 4
  let c2 := s.rd (loc + 24) 4
  let self := fun (w : Word) => w.getLsbD 42 && (match s.place s.myTil w with
    | some (.near _ _) => true
    | _ => false)
  let tgts := ((List.range 16).filter (fun j => mask / 2 ^ j % 2 == 1)).map (fun j => s.rd (loc + 64 + 2 * j) 2)
  if fld fl 16 16 ≠ 0 ∨ c0 = 0 ∨ 2 ^ 24 < c0 ∨ c1 = 0 ∨ 65536 < c1 ∨ c2 = 0 ∨ 65536 < c2 ∨
      (dring ∧ !s.zeros (loc + 40) 8) ∨ (!cred ∧ ctra ≠ 0) ∨ !s.zeros (loc + 56) 8 ∨
      (dring ∧ dst.extractLsb' 4 16 ≠ 0) ∨
      (multi ∧ (xm ∨ !s.zeros (loc + 96) 32 ∨ mask = 0 ∨ !self dst ∨ (cred ∧ !self ctra) ∨ tgts.any (1024 ≤ ·))) then none
  else
    let dests : List Dest :=
      if multi then tgts.map (fun t =>
        { va := nearAddr t (dst.extractLsb' 0 20).toNat
          ctra := if cred then some (nearAddr t (ctra.extractLsb' 0 20).toNat) else none, claim := none, failed := false })
      else [{ va := dst, ctra := if cred then some ctra else none, claim := none, failed := false }]
    some { id := s.nonce, cid := s.cur, sid := s.sid s.cur, pc := s.me.pc, tag := 0, src := BitVec.ofNat 64 (s.rd loc 8)
           c0 := c0, c1 := c1, c2 := c2, ss1 := s.rdI (loc + 32), ss2 := s.rdI (loc + 36), ds1 := s.rdI (loc + 40)
           ds2 := s.rdI (loc + 44), dring := dring, multi := multi, xmod := if xm then some (fld fl 3 13) else none, dests := dests
           state := .queued, pos := 0, due := (s.core s.myCore).cycle + 8, loose := [], kept := [] }

/-- A descriptor's location: own near space, aligned, within the scratchpad (R370). -/
def descriptorAt (va : Word) (n : Nat) : Op Nat := do
  let s ← get
  match s.place s.myTil va with
  | some (.near t off) =>
    if t ≠ s.myTil then raiseAt Cause.addr 0 va
    if off % 64 ≠ 0 then raiseAt Cause.align 0 va
    if (s.til t).spadSize < off + n then raiseAt Cause.bounds 0 va
    return locSpad t off
  | _ => raiseAt Cause.addr 0 va

/-- A tag becomes busy (R358). -/
def Core.busyTag (k : Core) (t : Nat) : Core :=
  let bit : Word := BitVec.ofNat 64 (2 ^ t)
  { k with tags := k.tags &&& ~~~bit, tage := k.tage &&& ~~~bit, tagb := k.tagb ||| bit }

/-- R370. Issue a copy, and its result. -/
def issueCopy (d : BitVec 5) (va : Word) (multi : Bool) (tag mask : Nat) : Op Unit := do
  let n := if multi then 128 else 64
  let loc ← descriptorAt va n
  let s ← get
  if (s.core s.myCore).tagb.getLsbD tag then wrS d (failCode 1)
  else if s.poisoned loc n then raiseAt Cause.poison 0 va
  else match s.descriptor loc multi mask with
    | none => wrS d (failCode 2)
    | some q =>
      upd (fun s =>
        let s := (s.modCore s.myCore (fun k => k.busyTag tag)).tick
        let s : State := { s with copies := s.copies ++ [{ q with tag := tag }] }
        if q.dring then s else s.entangle q.id)
      wrS d 0

/-- R370. Copy. -/
def execCpy (d a b : BitVec 5) (i : BitVec 1) (s : State) : Host.Outcome State Fault Refusal :=
  perform (.cpy d a b i) (thenNext do
    let va ← rdS a
    let t ← rdB i b
    issueCopy d va false (t.extractLsb' 0 6).toNat 1) s

/-- R370. Multicast copy. -/
def execCpym (d a b : BitVec 5) (s : State) : Host.Outcome State Fault Refusal :=
  perform (.cpym d a b) (thenNext do
    let va ← rdS a
    let x ← rdS b
    issueCopy d va true (x.extractLsb' 0 6).toNat (x.extractLsb' 16 16).toNat) s

/-! ### Errors and completion (R359 to R361) -/

/-- A copy is over. -/
def State.endCopy (s : State) (q : Copy) (st : CopyState) : State := (s.setCopy { q with state := st }).laterOnce (.copyComplete q.id)

/-- Every destination has failed. -/
def Copy.spoiled (q : Copy) : Copy := { q with dests := q.dests.map (fun d => { d with failed := true }) }

/-- A copy error that concerns the whole copy (R361). -/
def State.failCopy (s : State) (q : Copy) (code : Nat) (va : Word) : State :=
  (s.copyErrMsg q.sid code q.tag va q.pc).endCopy q.spoiled (.failed code)

/-- A copy error of one destination; the others go on (R370). -/
def State.failDest (s : State) (q : Copy) (j code : Nat) (va : Word) : State :=
  let q := { q with dests := q.dests.mapIdx (fun i d => if i = j then { d with failed := true } else d) }
  let s := s.copyErrMsg q.sid code q.tag va q.pc
  if q.dests.all (·.failed) then s.endCopy q (.failed code) else s.setCopy q

/-- A copy meets a translation fault (R360). -/
def State.faultCopy (s : State) (q : Copy) (kind cause : Nat) (va : Word) : State :=
  (s.setCopy { q with state := .faulted kind cause va }).copyFaultMsg q.sid (tilOf q.cid) kind cause q.tag va q.pc

/-- The counter that a destination credits: its location and value, where it is well formed (R361, R363). -/
def State.creditAt (s : State) (til : Nat) (va : Word) : Option (Nat × Counter) :=
  match s.check til va 16 with
  | .ok (.near t off) =>
    if s.poisoned (locSpad t off) 16 then none else (s.counter (locSpad t off)).map (fun k => (locSpad t off, k))
  | _ => none

/-- One destination's credit, and whether it failed with code 4. A target outside the partition has no counter to
credit. -/
def State.creditDest (s : State) (q : Copy) (d : Dest) : State × Bool :=
  match d.ctra with
  | none => (s, false)
  | some va =>
    match s.creditAt (tilOf q.cid) va with
    | some p => (s.setCounter p.1 (p.2.credit q.total d.failed) none, false)
    | none =>
      if d.failed ∧ (s.place (tilOf q.cid) va).isNone ∧ q.multi then (s, false)
      else (s.copyErrMsg q.sid 4 q.tag va q.pc, true)

/-- A tag's copy has completed (R358). -/
def State.finishTag (s : State) (k tag : Nat) (failed : Bool) : State :=
  let bit : Word := BitVec.ofNat 64 (2 ^ tag)
  (s.modCore k (fun c => { c with
    tagb := c.tagb &&& ~~~bit, tags := c.tags ||| bit, tage := if failed then c.tage ||| bit else c.tage })).changeKey (.tags k)

/-- Completion: credits, then the tag (R359). A copy that failed by a fault reply has failed at every destination; one to another
module completes as that module acknowledges it (R413). -/
def State.completeCopy (s : State) (id : Nat) : State :=
  match s.copyOf id with
  | none => s
  | some q =>
    let ended := match q.state with
      | .landed => some false
      | .sent => some false
      | .failed _ => some true
      | _ => none
    match ended with
    | none => s
    | some failed =>
      let ds := (if failed then q.spoiled else q).dests
      let s : State := { s with copies := s.copies.filter (fun p => p.id ≠ id) }
      let r := ds.foldl (fun (r : State × Bool) d =>
        let x := r.1.creditDest q d
        (x.1, r.2 || x.2)) (s, false)
      r.1.finishTag (coreOf q.cid) q.tag (failed || r.2 || ds.any (·.failed))

/-- R359. A copy completes. -/
def execCopyComplete (id : Nat) (s : State) : Host.Outcome State Fault Refusal := .next (s.completeCopy id)

/-! ### Start (R314, R356, R357) -/

/-- The ring of this module that a destination names. -/
def State.destRing (s : State) (q : Copy) (d : Dest) : Option (Nat × Nat) :=
  if q.xmod.isSome then none
  else match s.place (tilOf q.cid) d.va with
  | some (.near t off) => some (t, off % 16)
  | _ => none

/-- Could an address lie in a module, as far as its form goes: in global space, or near space by R201 (log 54)? -/
def wellPlaced (va : Word) : Bool :=
  va.extractLsb' 52 12 == 0 ||
  (va.extractLsb' 56 8 == 0xF0 && va.extractLsb' 43 13 == 0 && va.extractLsb' 20 12 == 0 &&
    (!va.getLsbD 42 || va.extractLsb' 32 10 == 0))

/-- The code with which another module refuses a destination as far as it is known here, or 0: an address in neither space, a
ring reference that is no near address, bytes that fill no slots of any ring. Others it refuses as its partition and its ring
stand (log 54). -/
def State.peerRefusal (s : State) (q : Copy) (va : Word) : Nat :=
  if !wellPlaced va ∨ (q.dring ∧ va.extractLsb' 52 12 = 0) then 1
  else if q.dring ∧ (q.total % 512 ≠ 0 ∨ 2 ^ 20 < q.total) then 3
  else if q.dring then [0, 1, 3].getD (Config.freeNat s.nonce % 3) 0 else 0

/-- Does a tiller's ring refuse so many bytes of a copy (R356)? -/
def State.ringRefuses (s : State) (r : Nat × Nat) (n : Nat) : Bool :=
  let w := (s.til r.1).ring r.2
  !ringEn w || n % ringSlot w ≠ 0 || ringSlots w < n / ringSlot w

/-- The code with which a destination is refused as its copy starts, or 0 (R356, R361). -/
def State.refusal (s : State) (q : Copy) (d : Dest) : Nat :=
  if q.xmod.isSome then s.peerRefusal q d.va
  else match s.place (tilOf q.cid) d.va with
  | none => if q.multi then 5 else if q.dring then 1 else 0
  | some (.global _) => if q.dring then 1 else 0
  | some (.near t off) =>
    if q.dring ∧ s.ringRefuses (t, off % 16) q.total then 3 else 0

/-- Is there room in a ring for so many bytes of a copy? -/
def State.slotsFree (s : State) (r : Nat × Nat) (n : Nat) : Bool :=
  let t := s.til r.1
  t.clmSeq r.2 - t.headSeq r.2 + n / ringSlot (t.ring r.2) ≤ ringSlots (t.ring r.2)

/-- Claim the slots of so many bytes in a ring (R314). -/
def State.claimIn (s : State) (r : Nat × Nat) (n : Nat) : State × Claim :=
  let t := s.til r.1
  let w := t.ring r.2
  let first := t.clmSeq r.2
  (s.setTil r.1 { t with
      tring := t.tring.setIfInBounds r.2 (ringCounts w (first + n / ringSlot w) (t.tailSeq r.2) (t.headSeq r.2)) },
    { til := r.1, ring := r.2, first := first, reg := w, live := true })

/-- Claim a copy's slots in the ring of a destination. -/
def State.claimSlots (s : State) (q : Copy) (d : Dest) : State × Dest :=
  match s.destRing q d with
  | none => (s, d)
  | some r => ((s.claimIn r q.total).1, { d with claim := some (s.claimIn r q.total).2 })

/-- Has PEERMAP mapped a module, over a port that is not down (R412, R414)? -/
def State.peerUp (s : State) (m : Nat) : Bool := s.port.peers.any (fun p => p.1 == m && !s.port.isDown p.2.1)

/-- A copy leaves the port's queue, unless it must wait for slots or behind an earlier copy to the same ring (R314). -/
def State.startCopy (s : State) (id : Nat) : State :=
  match s.copyOf id with
  | none => s
  | some q =>
    if q.state ≠ .queued then s
    else if q.xmod.any (fun m => !s.peerUp m) then s.failCopy q 5 ((q.dests.head?.map (·.va)).getD 0)
    else
      let rs := q.dests.filterMap (s.destRing q)
      if q.dring ∧ s.copies.any (fun p => p.id < q.id && p.state == .queued && p.dring &&
          p.dests.any (fun d => (s.destRing p d).any rs.contains)) then s
      else
        let bad := (List.range q.dests.length).filterMap (fun j => match q.dests[j]? with
            | some d => if s.refusal q d = 0 then none else some (j, s.refusal q d, d.va)
            | none => none)
        let good := (List.range q.dests.length).filter (fun j => !bad.any (fun b => b.1 == j))
        if q.dring ∧ good.any (fun j => (q.dests[j]?).any (fun d => (s.destRing q d).any (fun r => !s.slotsFree r q.total))) then s
        else
          let r := if q.dring then
            q.dests.zipIdx.foldl (fun (r : State × List Dest) p =>
              if good.contains p.2 then
                (let x := r.1.claimSlots q p.1
                 (x.1, r.2 ++ [x.2]))
              else (r.1, r.2 ++ [p.1])) (s, [])
            else (s, q.dests)
          let s := r.1.setCopy { q with state := .running, dests := r.2 }
          let s := (if q.dring then s.entangle id else s).tick
          bad.foldl (fun s b => match s.copyOf id with
            | none => s
            | some q => s.failDest q b.1 b.2.1 b.2.2) s

/-- R357. A copy starts. -/
def execCopyStart (id : Nat) (s : State) : Host.Outcome State Fault Refusal := .next (s.startCopy id)

/-! ### Transfer (R355) -/

/-- Where the next bytes of a copy are read or written: the locations, and how many bytes follow there in one piece. -/
inductive Piece where
  | at_ (locs : List Nat) (n : Nat)
  | fault (cause : Nat)
  | bad
  deriving DecidableEq, Repr

/-- The piece at an address. -/
def State.pieceAt (s : State) (til : Nat) (va : Word) (k : Acc) : Piece :=
  match s.check til va 1 with
  | .error _ => .bad
  | .ok (.near t off) => .at_ [locSpad t off] ((s.til t).spadSize - off)
  | .ok (.global a) => match s.devXlate (s.partOf til) til a k with
    | .ok (pa, e) => .at_ (replicas (entRepl e) (k = .store) pa) (65536 - a % 65536)
    | .error c => .fault c

/-- Where the byte of a claim with a copy-order number lies, and how many follow it in its slot (R356). -/
def Claim.spot (c : Claim) (pos : Nat) : Nat × Nat :=
  (locSpad c.til (slotOff c.reg (c.first + pos / ringSlot c.reg) + pos % ringSlot c.reg), ringSlot c.reg - pos % ringSlot c.reg)

/-- The piece of a destination at the copy's position. -/
def State.destPiece (s : State) (q : Copy) (d : Dest) : Piece :=
  match d.claim with
  | some c => .at_ [(c.spot q.pos).1] (c.spot q.pos).2
  | none => s.pieceAt (tilOf q.cid) (runStart d.va q.c1 q.ds1 q.ds2 (q.pos / q.c0) + BitVec.ofNat 64 (q.pos % q.c0)) .store

/-- Bytes from a location that precede a poisoned unit. -/
def State.soundRun (s : State) (a n : Nat) : Nat :=
  s.poison.foldl (fun m u => if u < a + n ∧ a < u + (if u < 2 ^ 50 then 64 else 8) then Nat.min m (u - a) else m) n

/-- Units become poisoned (R361). -/
def State.spoil (s : State) (a n : Nat) : State :=
  { s with poison := s.poison ++ ((List.range n).map (fun j => eccUnit (a + j))).eraseDups.filter (fun u => !s.poison.contains u) }

/-- Bytes land at a location; those that the copy shares with its source or with another copy hold unspecified values (R355). In
package memory that is looked at as the tables stand: pages may have been mapped since the copy began.
DESIGN CHOICE: a line that a copy lands in two pieces, since its destination or its source run is not aligned to it, is no
whole-line landing, and stays poisoned (R214, log 55). -/
def State.landBytes (s : State) (q : Copy) (a : Nat) (bs : List Byte) : State :=
  let here := [(a, bs.length)]
  let r := if 2 ^ 50 ≤ a then (s, []) else s.sharers (some q.id) here
  let rs := common here (q.loose ++ (if 2 ^ 50 ≤ a then [] else s.sourceRanges q)) ++ r.2
  ((r.1.keepSources rs).devStore a (s.partOf (tilOf q.cid)) bs).scrambleAll rs

/-- A slot of a claim that has been filled up to a copy-order number has landed (R314). -/
def State.landClaim (s : State) (c : Claim) (pos : Nat) : State :=
  if c.live ∧ pos % ringSlot c.reg = 0 then s.landSlot c.til c.ring (c.first + pos / ringSlot c.reg - 1) else s

/-- Slots that the copy has filled have landed. -/
def State.landSlots (s : State) (q : Copy) : State :=
  q.dests.foldl (fun s d => match d.claim with
    | none => s
    | some c => if d.failed then s else s.landClaim c q.pos) s

/-- The address of a destination at the copy's position. -/
def Copy.destAt (q : Copy) (d : Dest) : Word :=
  runStart d.va q.c1 q.ds1 q.ds2 (q.pos / q.c0) + BitVec.ofNat 64 (q.pos % q.c0)

/-- How many bytes of a copy to another module go there before one whose destination lies in neither space or breaks R201
(R361). -/
def Copy.peerRun (q : Copy) : Nat :=
  match q.dests.head? with
  | none => 0
  | some d => if q.dring then 128 else ((List.range 128).takeWhile (fun j => wellPlaced (q.destAt d + BitVec.ofNat 64 j))).length

/-- Bytes of a copy go to another module (R413). -/
def State.bytesToPeer (s : State) (q : Copy) (bs : List Byte) : State :=
  match q.xmod, q.dests.head? with
  | some m, some d => s.toPeer (.bytes m (if q.dring then d.va else q.destAt d) bs)
  | _, _ => s

/-- The code with which another module refuses bytes of a copy that has started, as that module sees fit, or 0: a near address that
breaks R201 there, a page that does not translate (R361, R413). -/
def State.peerFails (s : State) (q : Copy) : Nat :=
  if q.xmod.isNone ∨ q.dring ∨ !Config.freeBool s.nonce then 0
  else if (q.dests.head?.map q.destAt).any (fun a => a.extractLsb' 52 12 = 0) then 5 else 1

/-- Move the next bytes of a copy, at most 128 (R355, R357). -/
def State.moveBytes (s : State) (q : Copy) : State :=
  let src := runStart q.src q.c1 q.ss1 q.ss2 (q.pos / q.c0) + BitVec.ofNat 64 (q.pos % q.c0)
  let live := (List.range q.dests.length).filterMap (fun j => (q.dests[j]?).bind (fun d => if d.failed then none else some (j, d)))
  let ps := if q.xmod.isSome then [] else live.map (fun d => (d, s.destPiece q d.2))
  match s.pieceAt (tilOf q.cid) src .load with
  | .bad => s.failCopy q 1 src
  | .fault c => s.faultCopy q 0 c src
  | .at_ from_ m =>
    match ps.find? (fun p => match p.2 with
      | .at_ _ _ => false
      | _ => true) with
    | some (d, .fault c) => s.faultCopy q 1 c (q.destAt d.2)
    | some (d, _) => s.failDest q d.1 1 (q.destAt d.2)
    | none =>
      let a := from_.headD 0
      let most := Nat.min (if q.xmod.isSome then q.peerRun else 128) (Nat.min m (q.c0 - q.pos % q.c0))
      let n := ps.foldl (fun n p => match p.2 with
        | .at_ _ k => Nat.min n k
        | _ => n) most
      let spots := ps.flatMap (fun p => match p.2 with
        | .at_ l _ => l
        | _ => [])
      let ok := s.soundRun a n
      if n = 0 then s.failCopy q 1 ((q.dests.head?.map q.destAt).getD 0)
      else if s.peerFails q ≠ 0 then s.tick.failCopy q (s.peerFails q) ((q.dests.head?.map q.destAt).getD 0)
      else if ok = 0 then
        let unit := eccUnit a + (if a < 2 ^ 50 then 64 else 8) - a
        (spots.foldl (fun s b => s.spoil b (Nat.min n unit)) s).failCopy q 2 src
      else
        let bs := overlay q.kept a (s.bytes a ok)
        let s := (spots.foldl (fun s b => s.landBytes q b bs) s).bytesToPeer q bs
        let q := { (s.copyOf q.id).getD q with pos := q.pos + ok }
        let s := ((s.setCopy q).landSlots q).tick
        if q.pos < q.total then s
        else if q.xmod.isSome then s.setCopy { q with state := .sent } else s.endCopy q .landed

/-- R355. The port moves bytes of a copy. -/
def execCopyTransfer (id : Nat) (s : State) : Host.Outcome State Fault Refusal :=
  .next (match s.copyOf id with
    | none => s
    | some q => if q.state = .running then s.moveBytes q else s)

/-- A copy-fault reply reaches a stream port. A copy that goes on may find destination bytes that could not be found before
(R355); a reply for no faulted copy is for a stalled stream of the strand (R360, log 18). -/
def State.copyReply (s : State) (til : Nat) (body : Body) : State :=
  let sid := BitVec.ofNat 32 (Body.field body 0 4)
  let action := Body.field body 4 1
  let tag := Body.field body 5 1
  if 1 < action ∨ 64 ≤ tag ∨ Body.field body 6 10 ≠ 0 ∨ !s.sidLive sid ∨ tilOf (cidOfSid sid) ≠ til then s.stale til
  else match s.copies.find? (fun q => q.sid == sid && q.tag == tag && (match q.state with
      | .faulted _ _ _ => true
      | _ => false)) with
    | some q => if action = 0 then (s.setCopy { q with state := .running }).entangle q.id else s.endCopy q.spoiled (.failed 0)
    | none => match (s.til til).streams.find? (fun b => b.cid == cidOfSid sid && b.stalled && tag == 0) with
      | some b => s.streamReply b (action = 0)
      | none => s.stale til

/-- R360. A copy-fault reply arrives. -/
def execCopyFaultReply (til : Nat) (body : Body) (s : State) : Host.Outcome State Fault Refusal := .next (s.copyReply til body)

/-! ### Tags (R371) -/

/-- The scope PKG (R250). -/
def scopePkg : Nat := 4

/-- What a tag instruction has observed it acquires (R359). -/
def acquirePkg : Op Unit := upd (fun s => s.acquire s.myTil scopePkg)

/-- R371. Take finished tags. -/
def execTffr (d a : BitVec 5) (s : State) : Host.Outcome State Fault Refusal :=
  perform (.tffr d a) (thenNext do
    let m ← rdS a
    let k ← ask (fun s => s.core s.myCore)
    let r := k.tags &&& m
    upd (fun s => s.modCore s.myCore (fun k => { k with tags := k.tags &&& ~~~r, tage := k.tage &&& ~~~r }))
    if r ≠ 0 then acquirePkg
    wrS d r) s

/-- WANY and WALL: a wait on the tag bitmap of the core (R371). -/
def waitTags (i : Instr) (d a : BitVec 5) (ready : Core → Word → Bool) : Op Flow := thenNext do
  examineFields i
  let m ← rdS a
  let s ← get
  let key := Key.tags s.myCore
  if s.me.tx.active then readKey key
  if ready (s.core s.myCore) m then
    let r := (s.core s.myCore).tags &&& m
    if r ≠ 0 then acquirePkg
    wrS d r
  else stop (.sleep 5 [key] [])

/-- R371. Wait for any tag. -/
def execWany (d a : BitVec 5) (s : State) : Host.Outcome State Fault Refusal :=
  performRaw (.wany d a) (waitTags (.wany d a) d a (fun k m => k.tags &&& m != 0 || k.tagb &&& m == 0)) s

/-- R371. Wait for all tags. -/
def execWall (d a : BitVec 5) (s : State) : Host.Outcome State Fault Refusal :=
  performRaw (.wall d a) (waitTags (.wall d a) d a (fun k m => k.tagb &&& m == 0)) s

/-! ### Arrival counters (R369, R372 to R374) -/

/-- The address checks of R369: the counter's tiller and offset. Inside an attempt a counter of another tiller is remote,
but for a wait on it (R173). -/
def counterAt (va : Word) (waits : Bool) : Op (Nat × Nat) := do
  let s ← get
  match s.place s.myTil va with
  | some (.near t off) =>
    if off % 16 ≠ 0 then raiseAt Cause.align 0 va
    if (s.til t).spadSize < off + 16 then raiseAt Cause.bounds 0 va
    if s.me.tx.active ∧ t ≠ s.myTil ∧ !waits then stop (.abort 3 0)
    return (t, off)
  | _ => raiseAt Cause.addr 0 va

/-- The counter as the strand sees it; none where it is malformed. Its line counts in both sets of an attempt, whatever becomes of
the instruction; DEDUCED: for WPHS too, which writes nothing, since R174 says so of an arrival-counter instruction (log 55). -/
def readCounter (va : Word) (p : Nat × Nat) : Op (Option Counter) := do
  let s ← get
  let loc := locSpad p.1 p.2
  if s.me.tx.active then
    readKey (.line (loc / 64))
    if p.1 ≠ s.myTil then upd (fun s => s.registerOwner (.line (loc / 64)) s.myTil)
    else writeKey (.line (loc / 64))
  if s.meetsPoison loc 16 then raiseAt Cause.poison 0 va
  let bs := s.bytes loc 16
  return counterOf (if s.me.tx.active ∧ p.1 = s.myTil then overlay s.me.tx.point.cells loc bs else bs)

/-- The membership table as the strand sees it (R173, R364). -/
def State.membersSeen (s : State) (til : Nat) : List Member :=
  let ms := (s.til til).members
  if s.me.tx.active ∧ til = s.myTil then s.me.tx.point.membs.foldr (fun m ms => setMember s.cur m.1 m.2 ms) ms else ms

/-- A counter and the strand's membership of it change; inside an attempt, tentatively. -/
def changeCounter (p : Nat × Nat) (k : Counter) (m : Option (Option (Bool × Bool))) : Op Unit := do
  let s ← get
  let loc := locSpad p.1 p.2
  if s.me.tx.active then
    upd (fun s => s.modMe (fun x => { x with tx := { x.tx with point := { x.tx.point with
      cells := putCells x.tx.point.cells loc k.bytes
      membs := match m with
        | none => x.tx.point.membs
        | some e => (p.2, e) :: x.tx.point.membs } } }))
  else
    soleHold loc 16
    upd (fun s =>
      let s := s.setCounter loc k (some s.cur)
      match m with
      | none => s
      | some e => s.modTil p.1 (fun t => { t with members := setMember s.cur p.2 e t.members }))

/-- The status word of an operation on a counter (R369). -/
def Counter.status (k : Counter) (pha : Bool) : Word := BitVec.ofNat 64 (bitsIf pha 0 + bitsIf (k.ph != pha) 1 + bitsIf k.brk 2)

/-- One operation on a counter: from the counter, the strand's membership and the size of the table, the counter after it
and what becomes of the membership, or a refusal with code 1 (R372, R374). Refused or not, it is an acquire (R367). -/
def counterOp (i : Instr) (d a : BitVec 5)
    (f : Counter → Option Member → Nat → Word → Option (Counter × Option (Option (Bool × Bool)))) (arg : Op Word) : Op Flow :=
  thenNext do
    examineFields i
    let va ← rdS a
    let n ← arg
    let p ← counterAt va false
    let seen ← readCounter va p
    acquirePkg
    match seen with
    | none => wrS d (failCode 2)
    | some k =>
      let ms ← ask (fun s => s.membersSeen p.1)
      let c ← ask (·.cur)
      match f k (ms.find? (fun m => m.cid == c && m.off == p.2)) ms.length n with
      | none => wrS d (failCode 1)
      | some (k', m) =>
        changeCounter p k'.check m
        wrS d (k'.check.status k.ph)

/-- R372. Add expected bytes. -/
def execAexp (d a b : BitVec 5) (i : BitVec 1) (s : State) : Host.Outcome State Fault Refusal :=
  performRaw (.aexp d a b i) (counterOp (.aexp d a b i) d a (fun k _ _ n =>
    let x := k.expb + n.toInt
    if x < -(2 ^ 63 : Int) ∨ (2 ^ 63 : Int) ≤ x then none else some ({ k with expb := x }, none)) (rdB i b)) s

/-- R372. Arrive. -/
def execArrv (d a b : BitVec 5) (i : BitVec 1) (s : State) : Host.Outcome State Fault Refusal :=
  performRaw (.arrv d a b i) (counterOp (.arrv d a b i) d a (fun k m _ n =>
    if n = 0 ∨ k.arr < n.toNat then none
    else some ({ k with arr := k.arr - n.toNat }, m.map (fun _ => some (true, k.ph)))) (rdB i b)) s

/-- R374. Join a counter: no entry is in excess, and MEMB is not at its end. -/
def execBjoin (d a : BitVec 5) (s : State) : Host.Outcome State Fault Refusal :=
  performRaw (.bjoin d a) (counterOp (.bjoin d a) d a (fun k m used _ =>
    if m.isSome ∨ k.memb = 65535 ∨ 256 ≤ used then none
    else some ({ k with memb := k.memb + 1, arr := (k.arr + 1) % 65536 }, some (some (false, false)))) (pure 0)) s

/-- R374. Leave a counter. -/
def execBleav (d a : BitVec 5) (s : State) : Host.Outcome State Fault Refusal :=
  performRaw (.bleav d a) (counterOp (.bleav d a) d a (fun k m _ _ => m.map (fun m => (k.leave m.arrd m.aph, some none)))
    (pure 0)) s

/-- WPHS (R373). One that returns is an acquire (R367). -/
def phaseOp (i : Instr) (d a b : BitVec 5) (imm : BitVec 1) (waits : Bool) : Op Flow := thenNext do
  examineFields i
  let va ← rdS a
  let y ← rdB imm b
  let p ← counterAt va true
  match ← readCounter va p with
  | none =>
    acquirePkg
    wrS d (failCode 2)
  | some k =>
    let done := k.ph != y.getLsbD 0
    if !done ∧ waits then stop (.sleep 5 [.line (locSpad p.1 p.2 / 64)] [])
    acquirePkg
    wrS d (BitVec.ofNat 64 (bitsIf k.ph 0 + bitsIf done 1 + bitsIf k.brk 2))

/-- R373. Wait for a phase. -/
def execWphsWait (d a b : BitVec 5) (i : BitVec 1) (s : State) : Host.Outcome State Fault Refusal :=
  performRaw (.wphsWait d a b i) (phaseOp (.wphsWait d a b i) d a b i true) s

/-- R373. Test a phase. -/
def execWphsTest (d a b : BitVec 5) (i : BitVec 1) (s : State) : Host.Outcome State Fault Refusal :=
  performRaw (.wphsTest d a b i) (phaseOp (.wphsTest d a b i) d a b i false) s

end Sys2Proof.Machine
end

