-- ==== Sys2Proof/Machine/Integer.lean ====
section
/-! DEFINITION. The scalar integer class (R54 to R68). -/

namespace Sys2Proof.Machine

/-! ### Operations on two words (R58, R59) -/

def opMulh (x y : Word) : Word := BitVec.ofInt 64 (x.toInt * y.toInt / 2 ^ 64)
def opMulhn (x y : Word) : Word := BitVec.ofNat 64 (x.toNat * y.toNat / 2 ^ 64)
/-- A signed quotient; division by zero gives all ones, and the one overflow wraps (R59). -/
def opDiv (x y : Word) : Word := if y = 0 then BitVec.allOnes 64 else BitVec.ofInt 64 (x.toInt.tdiv y.toInt)
def opDivn (x y : Word) : Word := if y = 0 then BitVec.allOnes 64 else BitVec.ofNat 64 (x.toNat / y.toNat)
/-- A signed remainder; the dividend for a zero divisor (R59). -/
def opRem (x y : Word) : Word := if y = 0 then x else BitVec.ofInt 64 (x.toInt.tmod y.toInt)
def opRemn (x y : Word) : Word := if y = 0 then x else BitVec.ofNat 64 (x.toNat % y.toNat)
/-- A shift count (R58). -/
def count (y : Word) : Nat := (y.extractLsb' 0 6).toNat
def opShl (x y : Word) : Word := x <<< count y
def opShr (x y : Word) : Word := x >>> count y
def opSra (x y : Word) : Word := x.sshiftRight (count y)
def opRot (x y : Word) : Word := x.rotateRight (count y)
def opMin (x y : Word) : Word := if y.slt x then y else x
def opMax (x y : Word) : Word := if x.slt y then y else x
def opMinn (x y : Word) : Word := if y.ult x then y else x
def opMaxn (x y : Word) : Word := if x.ult y then y else x
def opSlt (x y : Word) : Word := if x.slt y then 1 else 0
def opSltn (x y : Word) : Word := if x.ult y then 1 else 0
def opSeq (x y : Word) : Word := if x = y then 1 else 0

/-! ### Bit counts (R60) -/

/-- One bits among the lowest `n`. -/
def onesBelow (x : Word) : Nat → Nat
  | 0 => 0
  | n + 1 => (if x.getLsbD n then 1 else 0) + onesBelow x n
/-- Zero bits below the lowest one bit, looking at the highest `n` bits from bit 64 − n on. -/
def zerosFrom (x : Word) : Nat → Nat
  | 0 => 0
  | n + 1 => if x.getLsbD (63 - n) then 0 else 1 + zerosFrom x n
/-- Zero bits above the highest one bit, looking at the lowest `n` bits. -/
def zerosTop (x : Word) : Nat → Nat
  | 0 => 0
  | n + 1 => if x.getLsbD n then 0 else 1 + zerosTop x n
def opClz (x : Word) : Word := BitVec.ofNat 64 (zerosTop x 64)
def opCtz (x : Word) : Word := BitVec.ofNat 64 (zerosFrom x 64)
def opPopc (x : Word) : Word := BitVec.ofNat 64 (onesBelow x 64)

/-! ### Bit fields (R63 to R65) -/

/-- Position and width of a field, from the register or the immediate form (R63). -/
def fieldOf (i : BitVec 1) (w : BitVec 5) (y : Word) : Nat × Nat :=
  if i = 1 then ((y.extractLsb' 0 6).toNat, w.toNat + 1)
  else ((y.extractLsb' 0 6).toNat, let n := (y.extractLsb' 8 6).toNat; if n = 0 then 64 else n)

def opBfx (signed : Bool) (x : Word) (pos w : Nat) : Word :=
  let f := x.toNat / 2 ^ pos % 2 ^ w
  if signed ∧ 2 ^ (w - 1) ≤ f then BitVec.ofInt 64 ((f : Int) - (2 ^ w : Nat)) else BitVec.ofNat 64 f

def opBfi (old x : Word) (pos w : Nat) : Word :=
  let mask := BitVec.ofNat 64 ((2 ^ w - 1) * 2 ^ pos)
  (old &&& ~~~mask) ||| (BitVec.ofNat 64 (x.toNat * 2 ^ pos) &&& mask)

/-! ### Shapes -/

/-- Read A, then B or the immediate, and write an operation's result to D (R58). -/
def alu2 (d a b : BitVec 5) (i : BitVec 1) (f : Word → Word → Word) : Op Flow := thenNext do
  let x ← rdS a
  let y ← rdB i b
  wrS d (f x y)

/-- Read A and write an operation's result to D (R60, R66). -/
def alu1 (d a : BitVec 5) (f : Word → Word) : Op Flow := thenNext do
  let x ← rdS a
  wrS d (f x)

/-- As `alu2`, with the old value of D as a further operand (R61, R65). -/
def alu3 (d a b : BitVec 5) (i : BitVec 1) (f : Word → Word → Word → Word) : Op Flow := thenNext do
  let old ← rdS d
  let x ← rdS a
  let y ← rdB i b
  wrS d (f old x y)

/-! ### Meanings -/

/-- R58. The sum modulo 2^64. -/
def execAdd (d a b : BitVec 5) (i : BitVec 1) (s : State) : Host.Outcome State Fault Refusal :=
  perform (.add d a b i) (alu2 d a b i (· + ·)) s

/-- R58. The difference modulo 2^64. -/
def execSub (d a b : BitVec 5) (i : BitVec 1) (s : State) : Host.Outcome State Fault Refusal :=
  perform (.sub d a b i) (alu2 d a b i (· - ·)) s

/-- R58. The low half of the product. -/
def execMul (d a b : BitVec 5) (i : BitVec 1) (s : State) : Host.Outcome State Fault Refusal :=
  perform (.mul d a b i) (alu2 d a b i (· * ·)) s

/-- R58. The high half of the signed product. -/
def execMulh (d a b : BitVec 5) (i : BitVec 1) (s : State) : Host.Outcome State Fault Refusal :=
  perform (.mulh d a b i) (alu2 d a b i opMulh) s

/-- R58. The high half of the natural product. -/
def execMulhn (d a b : BitVec 5) (i : BitVec 1) (s : State) : Host.Outcome State Fault Refusal :=
  perform (.mulhn d a b i) (alu2 d a b i opMulhn) s

/-- R58. The bitwise and. -/
def execAnd (d a b : BitVec 5) (i : BitVec 1) (s : State) : Host.Outcome State Fault Refusal :=
  perform (.and d a b i) (alu2 d a b i (· &&& ·)) s

/-- R58. The bitwise or. -/
def execOr (d a b : BitVec 5) (i : BitVec 1) (s : State) : Host.Outcome State Fault Refusal :=
  perform (.or d a b i) (alu2 d a b i (· ||| ·)) s

/-- R58. The bitwise exclusive or. -/
def execXor (d a b : BitVec 5) (i : BitVec 1) (s : State) : Host.Outcome State Fault Refusal :=
  perform (.xor d a b i) (alu2 d a b i (· ^^^ ·)) s

/-- R58. The and with complement. -/
def execAndn (d a b : BitVec 5) (i : BitVec 1) (s : State) : Host.Outcome State Fault Refusal :=
  perform (.andn d a b i) (alu2 d a b i (fun x y => x &&& ~~~y)) s

/-- R58. The shift left. -/
def execShl (d a b : BitVec 5) (i : BitVec 1) (s : State) : Host.Outcome State Fault Refusal :=
  perform (.shl d a b i) (alu2 d a b i opShl) s

/-- R58. The logical shift right. -/
def execShr (d a b : BitVec 5) (i : BitVec 1) (s : State) : Host.Outcome State Fault Refusal :=
  perform (.shr d a b i) (alu2 d a b i opShr) s

/-- R58. The arithmetic shift right. -/
def execSra (d a b : BitVec 5) (i : BitVec 1) (s : State) : Host.Outcome State Fault Refusal :=
  perform (.sra d a b i) (alu2 d a b i opSra) s

/-- R58. The rotate right. -/
def execRot (d a b : BitVec 5) (i : BitVec 1) (s : State) : Host.Outcome State Fault Refusal :=
  perform (.rot d a b i) (alu2 d a b i opRot) s

/-- R58. The signed minimum. -/
def execMin (d a b : BitVec 5) (i : BitVec 1) (s : State) : Host.Outcome State Fault Refusal :=
  perform (.min d a b i) (alu2 d a b i opMin) s

/-- R58. The signed maximum. -/
def execMax (d a b : BitVec 5) (i : BitVec 1) (s : State) : Host.Outcome State Fault Refusal :=
  perform (.max d a b i) (alu2 d a b i opMax) s

/-- R58. The natural minimum. -/
def execMinn (d a b : BitVec 5) (i : BitVec 1) (s : State) : Host.Outcome State Fault Refusal :=
  perform (.minn d a b i) (alu2 d a b i opMinn) s

/-- R58. The natural maximum. -/
def execMaxn (d a b : BitVec 5) (i : BitVec 1) (s : State) : Host.Outcome State Fault Refusal :=
  perform (.maxn d a b i) (alu2 d a b i opMaxn) s

/-- R58. The signed less-than. -/
def execSlt (d a b : BitVec 5) (i : BitVec 1) (s : State) : Host.Outcome State Fault Refusal :=
  perform (.slt d a b i) (alu2 d a b i opSlt) s

/-- R58. The natural less-than. -/
def execSltn (d a b : BitVec 5) (i : BitVec 1) (s : State) : Host.Outcome State Fault Refusal :=
  perform (.sltn d a b i) (alu2 d a b i opSltn) s

/-- R58. The equality. -/
def execSeq (d a b : BitVec 5) (i : BitVec 1) (s : State) : Host.Outcome State Fault Refusal :=
  perform (.seq d a b i) (alu2 d a b i opSeq) s

/-- R59. The signed quotient. -/
def execDiv (d a b : BitVec 5) (i : BitVec 1) (s : State) : Host.Outcome State Fault Refusal :=
  perform (.div d a b i) (alu2 d a b i opDiv) s

/-- R59. The natural quotient. -/
def execDivn (d a b : BitVec 5) (i : BitVec 1) (s : State) : Host.Outcome State Fault Refusal :=
  perform (.divn d a b i) (alu2 d a b i opDivn) s

/-- R59. The signed remainder. -/
def execRem (d a b : BitVec 5) (i : BitVec 1) (s : State) : Host.Outcome State Fault Refusal :=
  perform (.rem d a b i) (alu2 d a b i opRem) s

/-- R59. The natural remainder. -/
def execRemn (d a b : BitVec 5) (i : BitVec 1) (s : State) : Host.Outcome State Fault Refusal :=
  perform (.remn d a b i) (alu2 d a b i opRemn) s

/-- R60. The number of leading zeros. -/
def execClz (d a : BitVec 5) (s : State) : Host.Outcome State Fault Refusal :=
  perform (.clz d a) (alu1 d a opClz) s

/-- R60. The number of trailing zeros. -/
def execCtz (d a : BitVec 5) (s : State) : Host.Outcome State Fault Refusal :=
  perform (.ctz d a) (alu1 d a opCtz) s

/-- R60. The number of one bits. -/
def execPopc (d a : BitVec 5) (s : State) : Host.Outcome State Fault Refusal :=
  perform (.popc d a) (alu1 d a opPopc) s

/-- R61. A or B by the old value of D. -/
def execSel (d a b : BitVec 5) (i : BitVec 1) (s : State) : Host.Outcome State Fault Refusal :=
  perform (.sel d a b i) (alu3 d a b i (fun c x y => if c ≠ 0 then x else y)) s

/-- R62. Scaled add. -/
def execLea (d a b : BitVec 5) (sc : BitVec 3) (i : BitVec 1) (s : State) : Host.Outcome State Fault Refusal :=
  perform (.lea d a b sc i) (alu2 d a b i (fun x y => x + y * BitVec.ofNat 64 (2 ^ sc.toNat))) s

/-- R64. Bit-field extract. -/
def execBfx (d a b : BitVec 5) (x i : BitVec 1) (w : BitVec 5) (s : State) : Host.Outcome State Fault Refusal :=
  perform (.bfx d a b x i w) (alu2 d a b i (fun v y => opBfx (x = 1) v (fieldOf i w y).1 (fieldOf i w y).2)) s

/-- R65. Bit-field insert. -/
def execBfi (d a b : BitVec 5) (i : BitVec 1) (w : BitVec 5) (s : State) : Host.Outcome State Fault Refusal :=
  perform (.bfi d a b i w) (alu3 d a b i (fun old v y => opBfi old v (fieldOf i w y).1 (fieldOf i w y).2)) s

/-- R66. Add a sign-extended immediate. -/
def execAddi (d a : BitVec 5) (k : BitVec 14) (s : State) : Host.Outcome State Fault Refusal :=
  perform (.addi d a k) (alu1 d a (fun x => x + k.signExtend 64)) s

/-- R66. And with a sign-extended immediate. -/
def execAndi (d a : BitVec 5) (k : BitVec 14) (s : State) : Host.Outcome State Fault Refusal :=
  perform (.andi d a k) (alu1 d a (fun x => x &&& k.signExtend 64)) s

/-- The value of LIH: T 0 sign-extends, 1 zero-extends, 6 places the immediate 16 bits up (R67). -/
def lihValue (t : BitVec 3) (k : BitVec 16) : Word :=
  if t = 0 then k.signExtend 64 else if t = 1 then k.setWidth 64 else (k ++ 0#16).setWidth 64

/-- R67. Load an immediate. -/
def execLih (d : BitVec 5) (t : BitVec 3) (k : BitVec 16) (s : State) : Host.Outcome State Fault Refusal :=
  perform (.lih d t k) (thenNext (wrS d (lihValue t k))) s

end Sys2Proof.Machine
end

