-- ==== Sys2Proof/Machine/Sparse.lean ====
section
/-! DEFINITION. The sparse class but for the merge unit's counters (R331 to R349): tile directories, the pattern compiler
and its cache, SPMMA, Morton keys. -/

namespace Sys2Proof.Machine

/-! ### Tile directories (R331, R340, R341) -/

/-- A tile as its directory gives it: the directory's near offset, the index, and the fields read. -/
structure TileRef where
  base : Nat
  index : Nat
  version : BitVec 32
  coord : Word
  vals : Word
  nnz : Nat
  off : Nat
  deriving DecidableEq, Repr

/-- An offset in a tiller's own scratchpad that a near address gives. -/
def State.ownNear (s : State) (til : Nat) (va : Word) : Option Nat :=
  match s.place til va with
  | some (.near t off) => if t = til then some off else none
  | _ => none

/-- The fields of a tile in a directory at an offset. -/
def State.tileRef (s : State) (til base index : Nat) : TileRef :=
  let h := locSpad til base
  let e := h + 64 + 16 * index
  { base := base, index := index, version := BitVec.ofNat 32 (s.rd (e + 12) 4), coord := BitVec.ofNat 64 (s.rd h 8)
    vals := BitVec.ofNat 64 (s.rd (h + 8) 8), nnz := s.rd (e + 4) 2, off := s.rd (e + 8) 4 }

/-- The checks of R341: the directory's place, its fields, COORD where it is used, and VALS for values of a size. -/
def directoryAt (va : Word) (index : Nat) (coord : Bool) (vsize : Nat) : Op TileRef := do
  let s ← get
  let til := s.myTil
  match s.ownNear til va with
  | none => raiseAt Cause.addr 0 va
  | some base =>
    if base % 64 ≠ 0 then raiseAt Cause.align 0 va
    let size := (s.til til).spadSize
    if size < base + 64 then raiseAt Cause.bounds 0 va
    let h := locSpad til base
    if s.poisoned h 64 then raiseAt Cause.poison 0 va
    let ntile := s.rd (h + 16) 4
    if !s.zeros (h + 20) 44 ∨ ntile = 0 ∨ 65536 < ntile ∨ ntile ≤ index then raise Cause.bounds
    let eva := va + BitVec.ofNat 64 (64 + 16 * index)
    if size < base + 80 + 16 * index then raiseAt Cause.bounds 0 eva
    let e := h + 64 + 16 * index
    if s.poisoned e 16 then raiseAt Cause.poison 0 eva
    if !s.zeros (e + 6) 2 then raise Cause.bounds
    let r := s.tileRef til base index
    if coord then
      if (s.ownNear til r.coord).isNone then raiseAt Cause.addr 0 r.coord
    if 0 < vsize then
      if (s.ownNear til r.vals).isNone then raiseAt Cause.addr 0 r.vals
    if coord ∧ r.coord.toNat % 2 ≠ 0 then raiseAt Cause.align 0 r.coord
    if 0 < vsize ∧ r.vals.toNat % vsize ≠ 0 then raiseAt Cause.align 0 r.vals
    return r

/-! ### The pattern cache (R334 to R336) -/

/-- The entry that holds a tile's identity. DESIGN CHOICE: one that is to be freed when an issued SPMMA completes holds it no longer
(R336, log 40). -/
def State.pattern (s : State) (til : Nat) (r : TileRef) : Option Pattern :=
  (s.til til).pats.find? (fun p => p.base == r.base && p.index == r.index && p.version == r.version && !p.dying)

def PatState.code : PatState → Nat
  | .queued => 1
  | .compiling => 2
  | .sparse => 3
  | .dense => 4
  | .bad => 5

/-- A compilation of the entry has ended. -/
def Pattern.compiled (p : Pattern) : Bool := p.state != .queued && p.state != .compiling

/-- The next number in the order of requests and uses. -/
def Tiller.patClock (t : Tiller) : Nat := t.pats.foldl (fun m p => Nat.max m (p.stamp + 1)) 0

/-- An entry is used. -/
def State.usePattern (s : State) (til e : Nat) : State :=
  s.modTil til (fun t => { t with pats := t.pats.map (fun p => if p.ent = e then { p with stamp := t.patClock } else p) })

/-- The least recently used of the entries that may be displaced: none that a staged or issued SPMMA holds (R335). -/
def Tiller.victim (t : Tiller) : Option Nat :=
  ((t.pats.filter (fun p => p.compiled && p.held == 0 && t.stageV.all (fun g => g.ring ≠ p.ent))).foldl (fun (m : Option Pattern) p => match m with
    | none => some p
    | some q => if p.stamp < q.stamp then some p else m) none).map (·.ent)

/-- An entry made free for a request, if one can be. -/
def State.freeEntry (s : State) (til : Nat) : Option (State × Nat) :=
  let t := s.til til
  match (List.range 64).find? (fun e => !t.pats.any (fun p => p.ent == e)) with
  | some e => some (s, e)
  | none => t.victim.map (fun e => (s.freePattern til e, e))

/-- The entry of a tile, requested if none holds its identity; none where none can be allocated (R335). The line of its
directory entry is watched from now on (R336). -/
def State.requestPattern (s : State) (til : Nat) (r : TileRef) : Option (State × Pattern) :=
  match s.pattern til r with
  | some p => some (s, p)
  | none => (s.freeEntry til).map (fun q =>
      let p : Pattern := { ent := q.2, base := r.base, index := r.index, version := r.version, state := .queued, prog := []
                           lines := [locSpad til (r.base + 64 + 16 * r.index) / 64], held := 0, dying := false
                           stamp := (q.1.til til).patClock, due := 0, result := .bad, reads := [] }
      ((q.1.modTil til (fun t => { t with pats := t.pats ++ [p] })).laterOnce (.patternCompileStart til), p))

/-- Even bits of a Morton code, from bit 0. -/
def evenBits (z : Nat) : Nat → Nat
  | 0 => 0
  | n + 1 => z % 2 + 2 * evenBits (z / 4) n

/-- A coordinate's row, column and value position. -/
def entryOf (z pos : Nat) : Nat × Nat × Nat := (evenBits (z / 2) 5, evenBits z 5, pos)

/-- Strictly increasing numbers. -/
def rising : List Nat → Bool
  | a :: b :: r => a < b && rising (b :: r)
  | _ => true

/-- What a compilation of a tile comes to, its program, and the coordinate lines it watches (R332, R335, R336). Poisoned
metadata gives BAD. -/
def State.compile (s : State) (til base index : Nat) : PatState × List (Nat × Nat × Nat) × List Nat :=
  let r := s.tileRef til base index
  let e := locSpad til (base + 64 + 16 * index)
  match s.ownNear til r.coord with
  | none => (.bad, [], [])
  | some co =>
    let lo := co + 2 * r.off
    let lines := if lo < 2 ^ 20 then linesOf (locSpad til lo) (Nat.min (2 * r.nnz) (2 ^ 20 - lo)) else []
    if !s.zeros (e + 6) 2 ∨ co % 2 ≠ 0 ∨ (0 < r.nnz ∧ (s.til til).spadSize < lo + 2 * r.nnz) ∨ 1024 < r.nnz ∨
        s.poisoned (locSpad til base) 64 ∨ s.poisoned e 16 ∨ (0 < r.nnz ∧ s.poisoned (locSpad til lo) (2 * r.nnz)) then
      (.bad, [], lines)
    else
      let zs := (List.range r.nnz).map (fun j => s.rd (locSpad til (lo + 2 * j)) 2)
      if zs.any (1024 ≤ ·) ∨ !rising zs then (.bad, [], lines)
      else (if r.nnz ≤ 256 then .sparse else .dense, zs.mapIdx (fun j z => entryOf z (r.off + j)), lines)

/-- The first QUEUED entry in the order of requests. -/
def Tiller.nextQueued (t : Tiller) : Option Pattern :=
  (t.pats.filter (fun p => p.state == .queued)).foldl (fun (m : Option Pattern) p => match m with
    | none => some p
    | some q => if p.stamp < q.stamp then some p else m) none

/-- The words that the compiler reads of a tile: those of its directory entry, then those of its coordinates (R335). -/
def State.compilerReads (s : State) (til base index : Nat) : List Nat :=
  let r := s.tileRef til base index
  let words := fun (o n : Nat) => (wordsOf n [o]).filter (· < 2 ^ 20)
  words (base + 64 + 16 * index) 16 ++ (match s.ownNear til r.coord with
    | none => []
    | some co => if r.nnz = 0 then [] else words (co + 2 * r.off) (2 * r.nnz))

/-- The compiler takes the next entry (R335). -/
def State.startCompile (s : State) (til : Nat) : State :=
  let t := s.til til
  if t.pats.any (fun p => p.state == .compiling) then s
  else match t.nextQueued with
    | none => s
    | some p =>
      let c := s.compile til p.base p.index
      let nnz := (s.tileRef til p.base p.index).nnz
      s.setTil til { t with
        pccomp := t.pccomp + 1
        pats := t.pats.map (fun q => if q.ent = p.ent then
          { q with state := .compiling, result := c.1, prog := c.2.1, lines := q.lines ++ c.2.2
                   reads := s.compilerReads til p.base p.index
                   due := (s.core (til * 4)).cycle + BitVec.ofNat 64 (20 + (nnz + 3) / 4) } else q) }

/-- R335. The pattern compiler takes an entry. -/
def execPatternCompileStart (til : Nat) (s : State) : Host.Outcome State Fault Refusal := .next (s.startCompile til)

/-- A compilation whose time has come ends; that is a change of the entry's key (R335). -/
def State.endCompile (s : State) (til : Nat) : State :=
  let t := s.til til
  match t.pats.find? (fun p => p.state == .compiling && p.due.toNat ≤ (s.core (til * 4)).cycle.toNat) with
  | none => s
  | some p =>
    ((s.setTil til { t with pats := t.pats.map (fun q => if q.ent = p.ent then { q with state := p.result, reads := [] } else q) }).changeKey
      (.pat til p.ent)).laterOnce (.patternCompileStart til)

/-- R335. A compilation ends. -/
def execPatternCompileEnd (til : Nat) (s : State) : Host.Outcome State Fault Refusal := .next (s.endCompile til)

/-! ### SPMMA (R342, R343) -/

/-- The copy tag in an operand register says that the strand may go on (R340). -/
def tagReady (k : Core) (g : Nat) : Bool := g == 63 || k.tags.getLsbD g

/-- Copies that have not landed still write the tile's directory entry or coordinates (R343). -/
def State.metadataOpen (s : State) (til : Nat) (r : TileRef) : Bool :=
  let meta_ := (locSpad til (r.base + 64 + 16 * r.index), 16) ::
    (match s.ownNear til r.coord with
    | none => []
    | some co => [(locSpad til (co + 2 * r.off), 2 * r.nnz)])
  s.copies.any (fun q => (match q.state with
    | .landed => false
    | .failed _ => false
    | _ => true) && !(common (s.destRanges q) meta_).isEmpty)

/-- The buffer for the values of a sparse tile under its pattern entry: what is staged of them, or nothing yet. -/
def State.valueBuffer (s : State) (til ent lo n : Nat) (old : Option Staged) : Staged :=
  let first := lo / 512 * 512
  let len := if n = 0 then 0 else (lo + n + 511) / 512 * 512 - first
  match old with
  | some g => if g.ring = ent ∧ g.off = first ∧ g.bytes.length = len then g
    else { ring := ent, seq := first, off := first, bytes := s.bytes (locSpad til first) len, held := [], bad := [] }
  | none => { ring := ent, seq := first, off := first, bytes := s.bytes (locSpad til first) len, held := [], bad := [] }

/-- Cycles for which an SPMMA occupies the tile unit (R344). -/
def Pattern.cycles (p : Pattern) (nnz : Nat) : Nat := if p.state = .dense then 8 else Nat.max 2 ((nnz + 15) / 16)

/-- Issue with a compiled entry: stage B and the values, as far as they are not staged yet, retire the slot, and hold the entry
(R317, R336, R342). -/
def issueSparse (acc : Nat) (int pop : Bool) (ring g : Nat) (r : TileRef) (p : Pattern) : Op Unit := do
  let s ← get
  let til := s.myTil
  let w := if int then 1 else 2
  match s.ownNear til r.vals with
  | none => raiseAt Cause.addr 0 r.vals
  | some vo =>
    let lo := vo + w * r.off
    if 0 < r.nnz ∧ (s.til til).spadSize < lo + w * r.nnz then raise Cause.bounds
    let need := blocksOf (1024 * w)
    let gb := s.stageSlot til ring (s.til til).stageB need
    let gv := s.valueBuffer til p.ent lo (w * r.nnz) (s.til til).stageV
    let gv := s.stageBlocks til gv (List.range (gv.bytes.length / 512))
    let bad := gb.bad.any need.contains || !gv.bad.isEmpty
    let terms := p.prog.map (fun e => (e.1, e.2.1, s.rd (locSpad til (vo + w * e.2.2)) w))
    upd (fun s => (s.modTil til (fun t =>
      let t := { t with stageB := some gb, stageV := none
                        pats := t.pats.map (fun q => if q.ent = p.ent then { q with held := q.held + 1 } else q) }
      if pop then t.retire ring else t)).usePattern til p.ent)
    upd (fun s => s.occupy acc (p.cycles r.nnz) (p.cycles r.nnz + 16))
    issueCommand acc (.sparse int terms gb.bytes p.ent bad (g == 63 && s.metadataOpen til r))

/-- R342. Sparse tile multiply-accumulate. What it asks of the pattern cache outlasts a sleep. -/
def execSpmma (d a b : BitVec 5) (f p : BitVec 1) (s : State) : Host.Outcome State Fault Refusal :=
  performRaw (.spmma d a b f p) (underLease (do
    accHeld d.toNat
    let old ← get
    examineFields (.spmma d a b f p)
    let va ← rdS a
    let x ← rdS b
    let til := old.myTil
    let t := old.til til
    let r ← directoryAt va (x.extractLsb' 0 16).toNat true (if f = 1 then 1 else 2)
    let n := (x.extractLsb' 16 4).toNat
    let g := (x.extractLsb' 20 6).toNat
    if !ringEn (t.ring n) ∨ ringSlot (t.ring n) < (if f = 1 then 1024 else 2048) then raise Cause.bounds
    if !tagReady (old.core old.myCore) g then stop (.sleep 4 [.tags old.myCore] [])
    if g ≠ 63 then acquirePkg
    match old.requestPattern til r with
    | none => stop (.sleep 4 ((List.range 64).map (Key.pat til)) [])
    | some (asked, e) =>
      if !e.compiled then
        set (asked.sleepOn asked.cur 4 [.pat til e.ent] [])
        return .stay
      else
        if e.state = .bad then raise Cause.bounds
        if t.headSeq n = t.tailSeq n then stop (.sleep 2 [.tring til n] [])
        issueSparse d.toNat (f = 1) (p = 1) n g r e
        return .next)) s

/-! ### Staging ahead of issue (R317, R342) -/

/-- What an SPMMA of a context that has passed its checks and waits for no tag, pattern or slot would multiply: the ring, the
pattern entry, the number of stored entries, and where their values begin. -/
def State.sparsePlan (s : State) (c : Nat) (d a b : BitVec 5) (f : BitVec 1) : Option (Nat × Pattern × Nat × Nat) :=
  let til := tilOf c
  let t := s.til til
  let w := if f = 1 then 1 else 2
  let looked := (do
    examineFields (.spmma d a b f 0)
    let va ← rdS a
    let x ← rdS b
    let r ← directoryAt va (x.extractLsb' 0 16).toNat true w
    return (x, r) : Op (Word × TileRef)) { s with cur := c }
  match looked with
  | .error _ => none
  | .ok ((x, r), _) =>
    let n := (x.extractLsb' 16 4).toNat
    match s.pattern til r, s.ownNear til r.vals with
    | some p, some vo =>
      let lo := vo + w * r.off
      if !t.leased c ∨ !(t.heldBy c).contains d.toNat ∨ !ringEn (t.ring n) ∨ ringSlot (t.ring n) < 1024 * w ∨
          !tagReady (s.core (coreOf c)) (x.extractLsb' 20 6).toNat ∨ !p.compiled ∨ p.state = .bad ∨
          t.headSeq n = t.tailSeq n ∨ (0 < r.nnz ∧ t.spadSize < lo + w * r.nnz) then none
      else some (n, p, r.nnz, lo)
    | _, _ => none

/-- The blocks that an SPMMA of a context is still to have staged. -/
def State.sparseWants (s : State) (c : Nat) (d a b : BitVec 5) (f : BitVec 1) : List Wanted :=
  match s.sparsePlan c d a b f with
  | none => []
  | some (n, p, nnz, lo) =>
    let w := if f = 1 then 1 else 2
    let gv := s.valueBuffer (tilOf c) p.ent lo (w * nnz) (s.til (tilOf c)).stageV
    (s.slotBuffer (tilOf c) n (s.til (tilOf c)).stageB).wants 1 (blocksOf (1024 * w)) ++
      gv.wants 2 (List.range (gv.bytes.length / 512))

/-- The blocks that the next instruction of a context is still to have staged. -/
def State.wants (s : State) (c : Nat) : List Wanted :=
  if !s.active c then []
  else match s.nextWord c with
    | .word w => match decode w with
      | .ok (.tmma a b k _ f _ _) => s.mulWants c a b k.toNat f
      | .ok (.tmmt a b k _ f _ _) => s.mulWants c a b k.toNat f
      | .ok (.spmma d a b f _) => s.sparseWants c d a b f
      | _ => []
    | _ => []

/-- Stage one block. -/
def State.stageOne (s : State) (c : Nat) (w : Wanted) : State :=
  let til := tilOf c
  let t := s.til til
  if w.buf = 0 then s.setTil til { t with stageA := some (s.stageSlot til w.ring t.stageA [w.block]) }
  else if w.buf = 1 then s.setTil til { t with stageB := some (s.stageSlot til w.ring t.stageB [w.block]) }
  else match s.nextWord c with
    | .word i => match decode i with
      | .ok (.spmma d a b f _) => match s.sparsePlan c d a b f with
        | none => s
        | some (_, p, nnz, lo) =>
          let g := s.valueBuffer til p.ent lo ((if f = 1 then 1 else 2) * nnz) t.stageV
          let u := s.setTil til { t with stageV := some (s.stageBlocks til g [w.block]) }
          match t.stageV with
          | some old => if old.ring = p.ent then u else u.changeKey (.pat til old.ring)
          | none => u
      | _ => s
    | _ => s

/-- R317. The next block that a context's next instruction waits for is staged. -/
def execTileStaging (cid : Nat) (s : State) : Host.Outcome State Fault Refusal :=
  .next (match (s.wants cid).head? with
    | none => s
    | some w => s.stageOne cid w)

/-! ### SPPRE, SPINV, SPQRY (R345 to R347) -/

/-- R345. Request a compile. -/
def execSppre (d a b : BitVec 5) (s : State) : Host.Outcome State Fault Refusal :=
  perform (.sppre d a b) (thenNext do
    let va ← rdS a
    let x ← rdS b
    let r ← directoryAt va (x.extractLsb' 0 16).toNat true 0
    let s ← get
    if !tagReady (s.core s.myCore) (x.extractLsb' 20 6).toNat then wrS d (failCode 1)
    else match s.requestPattern s.myTil r with
      | none => wrS d (failCode 2)
      | some (asked, e) =>
        set (if e.compiled then asked.usePattern asked.myTil e.ent else asked)
        wrS d (BitVec.ofNat 64 e.state.code)) s

/-- R346. Free the entry of one tile. -/
def execSpinvOne (d a b : BitVec 5) (s : State) : Host.Outcome State Fault Refusal :=
  perform (.spinvOne d a b) (thenNext do
    let va ← rdS a
    let x ← rdS b
    let r ← directoryAt va (x.extractLsb' 0 16).toNat false 0
    let s ← get
    match s.pattern s.myTil r with
    | none => wrS d 0
    | some p =>
      upd (fun s => s.freePattern s.myTil p.ent)
      wrS d 1) s

/-- R346. Free every entry of the tiller. -/
def execSpinvAll (d : BitVec 5) (s : State) : Host.Outcome State Fault Refusal :=
  perform (.spinvAll d) (thenNext do
    let n ← ask (fun s => ((s.til s.myTil).pats.filter (fun p => !p.dying)).length)
    upd (fun s => s.freePatterns s.myTil)
    wrS d (BitVec.ofNat 64 n)) s

/-- R347. Query a tile's entry. -/
def execSpqry (d a b : BitVec 5) (s : State) : Host.Outcome State Fault Refusal :=
  perform (.spqry d a b) (thenNext do
    let va ← rdS a
    let x ← rdS b
    let r ← directoryAt va (x.extractLsb' 0 16).toNat false 0
    let s ← get
    let v := r.version.toNat * 2 ^ 32
    wrS d (BitVec.ofNat 64 (match s.pattern s.myTil r with
      | none => v + 0xFF00
      | some p => v + (if p.state = .sparse then p.prog.length else 0) * 2 ^ 16 + p.ent * 2 ^ 8 + p.state.code))) s

/-! ### Morton keys (R348) -/

/-- Bits of two words interleaved from bit 0, those of the second at the odd places. -/
def interleave (x y : Word) : Nat → Word
  | 0 => 0
  | n + 1 => (interleave (x >>> 1) (y >>> 1) n <<< 2) ||| (x &&& 1) ||| ((y &&& 1) <<< 1)

/-- Every second bit of a word, from bit 0. -/
def spread (z : Word) : Nat → Word
  | 0 => 0
  | n + 1 => (spread (z >>> 2) n <<< 1) ||| (z &&& 1)

/-- R348. Morton key of a row and a column. -/
def execMzkey (d a b : BitVec 5) (s : State) : Host.Outcome State Fault Refusal :=
  perform (.mzkey d a b) (thenNext do
    let y ← rdS a
    let x ← rdS b
    wrS d (interleave x y 32)) s

/-- R348. Column and row of a Morton key. -/
def execMzkeyInv (d a : BitVec 5) (s : State) : Host.Outcome State Fault Refusal :=
  perform (.mzkeyInv d a) (thenNext do
    let z ← rdS a
    wrS d (spread z 32 ||| (spread (z >>> 1) 32 <<< 32))) s

end Sys2Proof.Machine
end

