-- ==== Sys2Proof/Machine/Launch.lean ====
section
/-! DEFINITION. The launch class and the distributors (R92 to R121, R140): work queues, launch records, readiness and
dispatch, reservation, placement, cancel. -/

namespace Sys2Proof.Machine

/-! ### Work queues (R92 to R95) -/

/-- The address of a ring entry. -/
def State.qSlot (s : State) (d n : Nat) : Nat := s.rd d 8 + 8 * (n % 2 ^ s.qLog d)

/-- The distributor or LAUNCH writes a field of a descriptor. -/
def State.qPut (s : State) (d part off n x : Nat) : State := s.globalStore (d + off) part (bytesOfNat n x) none

/-- Entries appended and not taken. -/
def State.qLen (s : State) (d : Nat) : Nat := (s.qTail d + 2 ^ 64 - s.qHead d) % 2 ^ 64

/-- An error is counted. -/
def State.qErr (s : State) (d part : Nat) : State := s.qPut d part 32 4 ((s.rd (d + 32) 4 + 1) % 2 ^ 32)
def State.qDisable (s : State) (d part : Nat) : State := s.qPut d part 9 1 (s.qMode d / 2 * 2)

/-- The first tiller of a die, whose die's translations its distributor uses. -/
def distTil (die : Nat) : Nat := die * 256

/-- Launches in a die's dependence pool, ready or not (R95). -/
def State.pooled (s : State) (die : Nat) : Nat :=
  (s.launches.filter (fun l => l.queue / 2 ^ 15 == die && (l.at_ == .pool || l.at_ == .bank))).length

/-- Queues of a die that hold entries are looked at. -/
def State.wakeQueues (s : State) (die : Nat) : State :=
  ((s.parts.flatMap (fun p => p.2.blocks)).filter (fun b => b / 32 == die)).foldl (fun s b =>
    (List.range 1024).foldl (fun s j =>
      let q := b * 1024 + j
      if s.qMode (queueDesc q) % 2 = 1 ∧ s.qLen (queueDesc q) ≠ 0 then s.laterOnce (.queueEntryTake q) else s) s) s

/-! ### Launch records (R96 to R99, R106) -/

/-- A record's bytes, where each of its lines can be translated and read. -/
def State.recordBytes (s : State) (part til va : Nat) : Option (List Byte) :=
  ((List.range 27).mapM (fun j => match s.devXlate part til (va + 64 * j) .load with
    | .ok (pa, _) => if s.poisoned pa 64 then none else some (s.bytes pa 64)
    | .error _ => none)).map List.flatten

/-- A number in a list of bytes. -/
def numAt (bs : List Byte) (off n : Nat) : Nat := natOfBytes ((bs.drop off).take n)

def stageOf (bs : List Byte) (i : Nat) : Stage :=
  let o := 64 + 64 * i
  { entry := BitVec.ofNat 64 (numAt bs o 8), minrep := numAt bs (o + 8) 1, maxrep := numAt bs (o + 9) 1
    tile := numAt bs (o + 10) 1 % 2 = 1, dies := (List.range 4).filter (fun d => numAt bs (o + 11) 1 / 2 ^ d % 2 == 1)
    spad := numAt bs (o + 12) 4, near := numAt bs (o + 16) 8, fmt := BitVec.ofNat 64 (numAt bs (o + 24) 8)
    scla := BitVec.ofNat 64 (numAt bs (o + 32) 8), sclb := BitVec.ofNat 64 (numAt bs (o + 40) 8) }

def wireOf (bs : List Byte) (i : Nat) : Wire :=
  let o := 1088 + 16 * i
  let f := numAt bs (o + 3) 1
  { pstage := numAt bs o 1, pend := numAt bs (o + 1) 1, deal := fld f 0 1 = 1, ordered := fld f 1 1 = 1
    vector := fld f 2 1 = 1, depth := numAt bs (o + 4) 4
    cons := (List.range (Nat.min 4 (numAt bs (o + 2) 1))).map (fun j =>
      let c := numAt bs (o + 8 + 2 * j) 2
      (fld c 0 4, fld c 4 4)) }

def recordOf (bs : List Byte) : Record :=
  { prio := numAt bs 4 1 % 16, energy := numAt bs 5 1 % 8, obj := numAt bs 8 8, graph := numAt bs 16 8
    phase := numAt bs 24 8, job := numAt bs 32 8, arg := BitVec.ofNat 64 (numAt bs 40 8)
    stages := (List.range (Nat.min 16 (numAt bs 1 1))).map (stageOf bs)
    wires := (List.range (Nat.min 32 (numAt bs 2 1))).map (wireOf bs)
    deps := (List.range (Nat.min 8 (numAt bs 3 1))).map (fun j => (numAt bs (1600 + 16 * j) 8, numAt bs (1608 + 16 * j) 8)) }

/-- Reason 1 for a stage entry. -/
def stageBad (bs : List Byte) (i : Nat) : Bool :=
  let o := 64 + 64 * i
  let g := stageOf bs i
  g.entry.toNat % 4 ≠ 0 || 2 ^ 52 ≤ g.entry.toNat || g.minrep = 0 || 16 < g.maxrep || g.maxrep < g.minrep ||
  1 < numAt bs (o + 10) 1 || numAt bs (o + 11) 1 = 0 || 15 < numAt bs (o + 11) 1 || 917504 < g.spad ||
  numAt bs (o + 48) 16 ≠ 0

/-- Reason 1 for a wire entry. -/
def wireBad (bs : List Byte) (i : Nat) : Bool :=
  let o := 1088 + 16 * i
  let n := Nat.min 4 (numAt bs (o + 2) 1)
  7 < numAt bs (o + 3) 1 || numAt bs (o + 4) 4 = 0 || 65536 < numAt bs (o + 4) 4 ||
  (List.range n).any (fun j => 255 < numAt bs (o + 8 + 2 * j) 2) || numAt bs (o + 8 + 2 * n) (8 - 2 * n) ≠ 0

/-- Reason 1 (R106). -/
def recordBad (bs : List Byte) : Bool :=
  let ns := numAt bs 1 1
  let nw := numAt bs 2 1
  let nd := numAt bs 3 1
  numAt bs 0 1 ≠ 1 || ns = 0 || 16 < ns || 32 < nw || 8 < nd || 15 < numAt bs 4 1 || 7 < numAt bs 5 1 ||
  numAt bs 6 2 ≠ 0 || numAt bs 48 16 ≠ 0 ||
  numAt bs (64 + 64 * ns) (64 * (16 - ns)) ≠ 0 || numAt bs (1088 + 16 * nw) (16 * (32 - nw)) ≠ 0 ||
  numAt bs (1600 + 16 * nd) (16 * (8 - nd)) ≠ 0 ||
  (List.range (Nat.min 16 ns)).any (stageBad bs) || (List.range (Nat.min 32 nw)).any (wireBad bs)

/-- Reason 2 for one wire (R106, R140): it is judged by itself for naming an end twice (log 23). -/
def Record.wireWrong (r : Record) (ncons : Nat) (w : Wire) : Bool :=
  let ends := (w.pstage, w.pend) :: w.cons
  ncons = 0 || 4 < ncons || ends.any (fun e => r.stages.length ≤ e.1 || 11 < e.2) || ends.eraseDups.length ≠ ends.length ||
  ends.any (fun e => decide (8 ≤ e.2) ≠ w.vector) || (w.ordered && !w.deal) ||
  (if w.deal then
    1 < w.cons.length || (r.stages[w.pstage]?).any (fun g => 1 < g.maxrep)
  else 4 < w.cons.foldl (fun n e => n + ((r.stages[e.1]?).map (·.minrep)).getD 0) 0)

/-- Reason 2 (R106). -/
def Record.wrong (r : Record) (bs : List Byte) : Bool :=
  r.wires.zipIdx.any (fun p => r.wireWrong (numAt bs (1088 + 16 * p.2 + 2) 1) p.1) ||
  (let dealt := (r.wires.filter (·.deal)).filterMap (fun w => w.cons.head?.map (·.1))
   dealt.eraseDups.length ≠ dealt.length)

/-- The objects of a chain with their levels (R101). -/
def Record.chain (r : Record) : List (Nat × Nat) :=
  [(r.obj, 1), (r.graph, 2), (r.phase, 3), (r.job, 4)].filter (fun p => p.1 ≠ 0)

/-- A level object that can be read and is well formed. -/
def State.goodObj (s : State) (part til va : Nat) : Option Nat :=
  if va % 64 ≠ 0 then none
  else match s.objAt part til va with
    | none => none
    | some o => if s.poisoned o 64 || s.lvBad o then none else some o

/-- Each object of a chain names the next, and its own level. -/
def State.chainOk (s : State) (part til : Nat) : List (Nat × Nat) → Bool
  | [] => true
  | (va, lev) :: r =>
    (match s.goodObj part til va with
      | none => false
      | some o => s.lvLevel o = lev && s.lvParent o = (r.head?.map (·.1)).getD 0) && s.chainOk part til r

/-- Reason 3 (R106). -/
def State.chainBad (s : State) (part til : Nat) (r : Record) : Bool :=
  r.job = 0 || !s.chainOk part til r.chain || r.deps.any (fun d => (s.goodObj part til d.1).isNone)

/-! ### What a reservation takes (R109, R140) -/

/-- What a tiller offers: its size, the ranges taken of its scratchpad and of its cores' queue SRAM, its free contexts, and
whether its tile unit is free. -/
structure Room where
  til : Nat
  size : Nat
  used : List (Nat × Nat)
  queues : List (Nat × Nat × Nat)
  ctxs : List Nat
  tile : Bool
  deriving DecidableEq, Repr

/-- A replica and the place chosen for it; a tiller at or above 1,024 stands for one not chosen yet on another die. -/
structure Pick where
  stage : Nat
  key : Nat
  til : Nat
  cid : Nat
  deriving DecidableEq, Repr

/-- What storage is for. -/
inductive What where
  | spad (key : Nat)
  | block (key : Nat)
  | chan (wire key depth : Nat)
  | port (wire key : Nat)
  deriving DecidableEq, Repr

/-- Storage that a set of picks takes: the tiller, a core where queue SRAM may serve, the alignment, the bytes, and the bytes
of extension. -/
structure Need where
  til : Nat
  core : Option Nat
  align : Nat
  len : Nat
  ext : Nat
  what : What
  deriving DecidableEq, Repr

def roundUp (n a : Nat) : Nat := (n + a - 1) / a * a

/-- Bytes of a channel's storage in its ring's tiller: control block, slots and tags (R126, R127). -/
def chanBytes (vector : Bool) (depth : Nat) : Nat := 64 + roundUp ((if vector then 72 else 16) * depth) 64

/-- The channels and producer blocks of one wire. -/
def Wire.needs (w : Wire) (i : Nat) (picks : List Pick) : List Need :=
  let prods := picks.filter (fun p => p.stage == w.pstage)
  let cons := w.cons.flatMap (fun e => picks.filter (fun p => p.stage == e.1))
  let ext := 3 * w.depth * (if w.vector then 64 else 8)
  let far := fun (t : Nat) (l : List Pick) => l.any (fun p => p.til ≠ t)
  let port := fun (p : Pick) => ({ til := p.til, core := none, align := 64, len := 64, ext := 0, what := .port i p.key } : Need)
  if w.deal then
    cons.map (fun c => { til := c.til, core := none, align := 64, len := chanBytes w.vector w.depth
                         ext := if far c.til prods then ext else 0, what := .chan i c.key w.depth }) ++ prods.map port
  else match w.cons.head?.bind (fun e => picks.find? (fun p => p.key == e.1 * 16)) with
    | none => []
    | some r =>
      let all := prods ++ cons
      { til := r.til, core := if all.all (fun p => coreOf p.cid == coreOf r.cid && p.til == r.til) then some (coreOf r.cid % 4) else none
        align := 64, len := chanBytes w.vector w.depth, ext := if far r.til all then ext else 0
        what := .chan i 0 w.depth } :: (prods.filter (fun p => p.til ≠ r.til)).map port

/-- Everything that a set of picks takes. -/
def Record.needs (r : Record) (picks : List Pick) : List Need :=
  picks.flatMap (fun p =>
    let n := roundUp (((r.stages[p.stage]?).map (·.spad)).getD 0) 512
    (if n = 0 then [] else [{ til := p.til, core := none, align := 512, len := n, ext := 0, what := .spad p.key }]) ++
    [{ til := p.til, core := none, align := 256, len := 256, ext := 0, what := .block p.key }]) ++
  r.wires.zipIdx.flatMap (fun w => w.1.needs w.2 picks)

/-- The lowest aligned offset at which a range fits between those taken. -/
def fitAt (size align len : Nat) (used : List (Nat × Nat)) : Option Nat :=
  let cs := (0 :: used.map (fun u => roundUp (u.1 + u.2) align)).filter (fun o =>
    o + len ≤ size && used.all (fun u => u.1 + u.2 ≤ o || o + len ≤ u.1))
  cs.foldl (fun m o => match m with
    | none => some o
    | some x => some (Nat.min x o)) none

/-- Ranges of given alignments and lengths, each at the lowest place where it fits, in order: their offsets. -/
def firstFit (size : Nat) : List (Nat × Nat) → List (Nat × Nat) → Option (List Nat)
  | [], _ => some []
  | (a, n) :: r, used => match fitAt size a n used with
    | none => none
    | some o => (firstFit size r ((o, n) :: used)).map (o :: ·)

/-- What is free between the ranges taken: start and end. -/
def gapsOf (size : Nat) (used : List (Nat × Nat)) : List (Nat × Nat) :=
  ((0 :: used.map (fun u => u.1 + u.2)).eraseDups.filter (fun o =>
    o < size && used.all (fun u => o < u.1 || u.1 + u.2 ≤ o))).map (fun o =>
      (o, used.foldl (fun m u => if o < u.1 then Nat.min m u.1 else m) size))

/-- A place for every one of some ranges, by number, if the gaps have one for all of them: each gap is filled from its start in
every order of the ranges that differ. -/
def packGaps : Nat → List (Nat × Nat) → List (Nat × Nat × Nat) → Option (List (Nat × Nat))
  | _, _, [] => some []
  | 0, _, _ => none
  | _ + 1, [], _ => none
  | f + 1, (lo, hi) :: gs, xs =>
    match (xs.filter (fun x => xs.find? (fun y => y.2 == x.2) == some x)).findSome? (fun x =>
      let o := roundUp lo x.2.1
      if o + x.2.2 ≤ hi then (packGaps f ((o + x.2.2, hi) :: gs) (xs.erase x)).map ((x.1, o) :: ·) else none) with
    | some ps => some ps
    | none => packGaps f gs xs

/-- The offsets of ranges of given alignments and lengths, wherever they fit beside those taken. -/
def pack (size : Nat) (xs used : List (Nat × Nat)) : Option (List Nat) :=
  let total := fun (l : List Nat) => l.foldl (· + ·) 0
  match firstFit size xs used with
  | some os => some os
  | none =>
    let gs := gapsOf size used
    if total (gs.map (fun g => g.2 - g.1)) < total (xs.map (·.2)) then none
    else (packGaps (xs.length + gs.length) gs (xs.zipIdx.map (fun p => (p.2, p.1)))).map (fun ps =>
      (List.range xs.length).map (fun j => (tget ps j).getD 0))

/-- Where storage has been found: in queue SRAM or scratchpad, its offset, and the offset of the extension. -/
structure Found where
  need : Need
  queue : Bool
  off : Nat
  xoff : Nat
  deriving DecidableEq, Repr

/-- Storage for some needs in one memory, with the offset of each: the scratchpad of a tiller, or the queue SRAM of one of its
cores, which serves where all ends lie on that core (R125, R126). -/
def Room.place (m : Room) (core : Option Nat) (ns : List Need) : Option (List (Need × Nat)) :=
  let size := if core.isSome then 16384 else m.size
  let used := match core with
    | some k => (m.queues.filter (fun u => u.1 == k)).map (·.2)
    | none => m.used
  (pack size (ns.map (fun n => (n.align, n.len))) used).map (fun os => ns.zip os)

/-- Storage for the needs that concern some rooms, and for their extensions in the pool. -/
def findAll (xsize : Nat) (needs : List Need) (rooms : List Room) (xused : List (Nat × Nat)) : Option (List Found) :=
  let mine := needs.filter (fun n => rooms.any (fun m => m.til == n.til))
  let mems := (mine.map (fun n => (n.til, n.core))).eraseDups
  let far := mine.filter (fun n => n.ext ≠ 0)
  (mems.mapM (fun k => (rooms.find? (fun m => m.til == k.1)).bind (fun m =>
    m.place k.2 (mine.filter (fun n => n.til == k.1 && n.core == k.2))))).bind (fun ls =>
      (pack xsize (far.map (fun n => (64, n.ext))) xused).map (fun xs =>
        ls.flatten.map (fun p => { need := p.1, queue := p.1.core.isSome, off := p.2
                                   xoff := (((far.zip xs).find? (fun e => e.1 == p.1)).map (·.2)).getD 0 })))

/-- What is to be had: the rooms, the size of the extension pool, and the ranges taken of it. -/
structure Supply where
  rooms : List Room
  xsize : Nat
  xused : List (Nat × Nat)
  deriving DecidableEq, Repr

/-- Storage for a set of picks. -/
def Supply.serve (u : Supply) (r : Record) (picks : List Pick) : Option (List Found) :=
  findAll u.xsize (r.needs picks) u.rooms u.xused

/-- Is there storage for what some of a launch's picks are sure to take? A channel whose ends picked so far lie on one core is
left out, since a further pick may take it from that core (R125). -/
def Supply.servesPart (u : Supply) (r : Record) (picks : List Pick) : Bool :=
  (findAll u.xsize ((r.needs picks).filter (fun n => n.core.isNone)) u.rooms u.xused).isSome

/-- A replica to be placed: its stage, key, and the dies it may stand on. -/
structure Todo where
  stage : Nat
  key : Nat
  dies : List Nat
  deriving DecidableEq, Repr

/-- Does a stage need a tile unit for each replica? -/
def Record.tiled (r : Record) (stage : Nat) : Bool := (r.stages[stage]?).any (·.tile)

/-- The places that a replica may take beside those picked: one context of each core of a tiller that has one, since a
channel's storage depends on its ends' cores (R125). -/
def Supply.places (u : Supply) (r : Record) (picks : List Pick) (t : Todo) : List Pick :=
  u.rooms.flatMap (fun m =>
    if !t.dies.contains (dieOfTil m.til) then []
    else if r.tiled t.stage ∧ (!m.tile ∨ picks.any (fun p => p.til == m.til && r.tiled p.stage)) then []
    else
      let free := m.ctxs.filter (fun c => picks.all (fun p => p.cid ≠ c))
      (free.filter (fun c => free.find? (fun x => coreOf x == coreOf c) == some c)).map (fun c =>
        { stage := t.stage, key := t.key, til := m.til, cid := c }))

/-- Place replicas beside those picked, so that every need of all is served; tillers are tried in order (log 14). -/
def Supply.search (u : Supply) (r : Record) : List Todo → List Pick → Option (List Pick)
  | [], picks => if (u.serve r picks).isSome then some picks else none
  | t :: ts, picks => (u.places r picks t).findSome? (fun p =>
      if u.servesPart r (picks ++ [p]) then u.search r ts (picks ++ [p]) else none)

/-- Place one further replica if there is room, and no wire gets a fifth reader by it (R140). -/
def Record.readersOk (r : Record) (picks : List Pick) : Bool :=
  r.wires.all (fun w => w.deal || (w.cons.flatMap (fun e => picks.filter (fun p => p.stage == e.1))).length ≤ 4)

def Supply.add (u : Supply) (r : Record) (picks : List Pick) (t : Todo) : List Pick :=
  match (u.places r picks t).find? (fun p => r.readersOk (picks ++ [p]) && (u.serve r (picks ++ [p])).isSome) with
  | none => picks
  | some p => picks ++ [p]

/-- The replicas that a launch needs, and those it may have beyond, in stage order (R109). -/
def Record.needed (r : Record) : List Todo :=
  r.stages.zipIdx.flatMap (fun g => (List.range g.1.minrep).map (fun j => { stage := g.2, key := g.2 * 16 + j, dies := g.1.dies }))
def Record.further (r : Record) : List Todo :=
  r.stages.zipIdx.flatMap (fun g => (List.range (g.1.maxrep - g.1.minrep)).map (fun j =>
    { stage := g.2, key := g.2 * 16 + g.1.minrep + j, dies := g.1.dies }))

/-- The user contexts of a tiller, ordinary ones before service contexts. -/
def State.userCtxs (s : State) (til : Nat) : List Nat :=
  let cs := (List.range 4).flatMap (fun k => (List.range 14).map (fun j => cidOf til k (j + 1)))
  cs.filter (fun c => !s.isService c) ++ cs.filter s.isService

/-- What a tiller offers, now or with no reservation of its partition held. -/
def State.room (s : State) (til : Nat) (idle : Bool) : Room :=
  let t := s.til til
  { til := til, size := t.spadSize
    used := if idle then [] else t.spad.filterMap (fun g => match g.use with
      | .queue _ => none
      | _ => some (g.off, g.len))
    queues := if idle then [] else t.spad.filterMap (fun g => match g.use with
      | .queue k => some (k, g.off, g.len)
      | _ => none)
    ctxs := (s.userCtxs til).filter (fun c => idle || ((s.ctx c).life == .free && !s.ctxReserved c))
    tile := idle || (t.owner.isNone && !s.launches.any (fun l => t.part == some l.part && l.reps.any (fun r =>
      !r.gone && l.record.tiled r.stage && r.cid.any (fun c => tilOf c == til)))) }

/-- What a partition has on some dies; the tillers of one that is swapped out offer nothing now. -/
def State.supply (s : State) (part : Nat) (dies : List Nat) (idle : Bool) : Supply :=
  match tget s.parts part with
  | none => { rooms := [], xsize := 0, xused := [] }
  | some p =>
    { rooms := (p.tils.filter (fun t => dies.contains (dieOfTil t) && (idle || (s.til t).part == some part))).map
        (fun t => s.room t idle)
      xsize := p.xpool
      xused := if idle then [] else (s.launches.filter (fun l => l.part == part && l.storage)).flatMap (fun l => l.chans.filterMap (·.ext)) }

/-- Reason 4 (R106). -/
def State.hopeless (s : State) (part : Nat) (r : Record) : Bool :=
  ((s.supply part [0, 1, 2, 3] true).search r r.needed []).isNone

/-- The reason for which a record is rejected, or 0 (R106). -/
def State.recordReason (s : State) (part til : Nat) (bs : List Byte) : Nat :=
  let r := recordOf bs
  if recordBad bs then 1 else if r.wrong bs then 2 else if s.chainBad part til r then 3
  else if s.hopeless part r then 4 else 0

/-! ### Outcomes at level objects (R102, R113) -/

/-- The tiller whose translations a launch's distributor uses. -/
def Launch.til (l : Launch) : Nat := distTil (l.queue / 2 ^ 15)

def State.modLaunch (s : State) (id : Nat) (f : Launch → Launch) : State :=
  { s with launches := s.launches.map (fun l => if l.id = id then f l else l) }

/-- A launch is rejected before it is placed. -/
def State.rejectObj (s : State) (part til o reason : Nat) : State :=
  (((s.lvPut part o 27 1 reason).lvPut part o 25 1 5).lvComplete part til maxObjects o).levelsMoved

/-- A launch that holds nothing is cancelled: its object ends CANCELLED. -/
def State.cancelObj (s : State) (part til o : Nat) : State :=
  if s.lvTerminal o then s else ((s.lvOr part o 1).lvComplete part til maxObjects o).levelsMoved

/-- Does any object of a launch's chain have CANCEL set (R113)? -/
def State.chainCancelled (s : State) (part til : Nat) (r : Record) : Bool :=
  r.chain.any (fun p => (s.objAt part til p.1).any s.lvCancelled)

/-- Give back everything that a launch has reserved; queued migrants may enter the contexts (R257). -/
def State.releaseShares (s : State) (id : Nat) : State :=
  let held := (s.launches.filter (fun l => l.id == id)).flatMap (fun l => l.reps.filterMap (·.cid))
  let s := ((s.modLaunch id (fun l => { l with reps := [], shares := [], chans := [], blocks := [] })).dropGrants id
    (fun _ => true)).retryShares
  held.foldl (fun s c => s.freed c) s

/-- A launch leaves the distributor. -/
def State.dropLaunch (s : State) (l : Launch) : State :=
  let s := s.releaseShares l.id
  ({ s with launches := s.launches.filter (fun m => m.id ≠ l.id) } : State).wakeQueues (l.queue / 2 ^ 15)

/-- The header of a message from a distributor or the command port (R383). -/
def headerDevice (type : Nat) : Word := header type 32 0x3FF 0 0

/-- A context as a partition has it: in its place, or in the shadow array of the tiller. -/
def State.ctxIn (s : State) (part c : Nat) : Ctx :=
  if (s.til (tilOf c)).part = some part then s.ctx c
  else (((s.til (tilOf c)).shadow.filter (fun h => h.part == part)).bind (fun h => tget h.ctxs c)).getD (s.ctx c)

/-- Kill requests for every placed replica of a launch; a replica not spawned yet will have the next generation (R113,
R121, log 23). -/
def State.killReplicas (s : State) (l : Launch) : State :=
  if l.doomed then s
  else
    let s := s.modLaunch l.id (fun l => { l with doomed := true })
    l.reps.foldl (fun s r => match r.cid with
      | none => s
      | some c =>
        if r.gone then s
        else
          let x := s.ctxIn l.part c
          let gen := if x.life = .free then x.gen + 1 else x.gen
          s.send (coreOf c) 0 { header := headerDevice 4
                                body := bodyOf [(0, 4, l.part * 2 ^ 28 + c * 2 ^ 12 + gen.toNat), (8, 8, l.record.obj)] }) s

/-- A cancel meets a launch (R113). -/
def State.cancelLaunch (s : State) (l : Launch) : State :=
  match s.objAt l.part l.til l.record.obj with
  | none => s
  | some o => match l.at_ with
    | .complete => if s.lvTerminal o then s else (s.lvOr l.part o 1).killReplicas l
    | _ => (s.dropLaunch l).cancelObj l.part l.til o

/-- R113. A distributor acts on a cancel notice. -/
def execCancelNotice (die part obj : Nat) (s : State) : Host.Outcome State Fault Refusal :=
  .next ((s.launches.filter (fun l => l.queue / 2 ^ 15 == die && l.part == part &&
    l.record.chain.any (fun p => s.objAt l.part l.til p.1 == some obj))).foldl (fun s l =>
      match s.launches.find? (fun m => m.id == l.id) with
      | none => s
      | some l => s.cancelLaunch l) s)

/-! ### Taking entries (R95) -/

/-- A launch enters the pool (R95, R106): its record has been read. DESIGN CHOICE: a record that fails is rejected though its
chain is cancelled already; the spec does not order the two checks (log 55). -/
def State.enterPool (s : State) (part q lrec o : Nat) (bs : List Byte) : State :=
  let til := distTil (q / 2 ^ 15)
  let s := s.lvPut part o 25 1 1
  let reason := s.recordReason part til bs
  let r := recordOf bs
  if reason ≠ 0 then s.rejectObj part til o reason
  else if s.chainCancelled part til r then s.cancelObj part til o
  else
    let l : Launch :=
      { id := s.nextLaunch, part := part, queue := q, lrec := lrec, record := r, at_ := .pool, since := 0, spanning := false
        shares := [], reps := [], chans := [], blocks := [], storage := true, doomed := false, front := false }
    let s : State := { s with launches := s.launches ++ [l], nextLaunch := s.nextLaunch + 1 }
    if s.depsMet l then s.laterOnce (.launchReady l.id) else s

/-- The record that an entry names, with its launch object, if the entry is not discarded (R95, R103). -/
def State.entryRecord (s : State) (part til va : Nat) : Option (List Byte × Nat) :=
  if va = 0 ∨ va % 64 ≠ 0 then none
  else (s.recordBytes part til va).bind (fun bs =>
    if numAt bs 8 8 = 0 then none else (s.goodObj part til (numAt bs 8 8)).map (fun o => (bs, o)))

/-- The distributor takes the next entry of a queue (R94, R95). DESIGN CHOICE: a descriptor changed while ENABLE is set holds
from the very next entry; the spec leaves the entry boundary open (log 55). -/
def State.takeEntry (s : State) (q : Nat) : State :=
  let d := queueDesc q
  let die := q / 2 ^ 15
  match s.queueOwner q with
  | none => s
  | some p =>
    if s.qMode d % 2 = 0 ∨ s.rd (d + 10) 1 ≠ p ∨ s.descBad d ∨ s.qLen d = 0 then s
    else if 2 ^ s.qLog d < s.qLen d then ((s.qDisable d p).qErr d p).qPut d p 24 8 (s.qTail d)
    else if 4096 ≤ s.pooled die then s
    else match s.devXlate p (distTil die) (s.qSlot d (s.qHead d)) .load with
      | .error _ => (s.qDisable d p).qErr d p
      | .ok (pa, _) =>
        if s.poisoned pa 8 then (s.qDisable d p).qErr d p
        else
          let e := s.rd pa 8
          let s := s.qPut d p 24 8 ((s.qHead d + 1) % 2 ^ 64)
          match s.entryRecord p (distTil die) e with
          | none => (s.qErr d p).qPut d p 40 8 e
          | some (bs, o) => s.enterPool p q e o bs

/-- R95. The distributor takes an entry of a work queue. -/
def execQueueEntryTake (q : Nat) (s : State) : Host.Outcome State Fault Refusal := .next (s.takeEntry q)

/-! ### Readiness and dispatch (R105, R107, R108, R112, R114) -/

/-- The cycle of a die, as its distributor counts. -/
def State.dieCycle (s : State) (die : Nat) : Word := (s.core (die * 1024)).cycle

/-- The age of a launch (R105). -/
def State.age (s : State) (l : Launch) : Nat := (s.dieCycle (l.queue / 2 ^ 15) - l.since).toNat

/-- Age from which a launch is dispatched before all younger ones (R107). -/
def agedAt : Nat := 65536

/-- Incomplete reservations give way to a launch of their partition at least two levels higher, and return to the head of
their banks (R112). -/
def State.giveWay (s : State) (l : Launch) : State :=
  (s.launches.filter (fun h => h.at_ == .slot && h.part == l.part && h.record.prio + 2 ≤ l.record.prio &&
    s.age h < agedAt)).foldl (fun s h =>
      (s.releaseShares h.id).modLaunch h.id (fun h => { h with at_ := .bank, front := true })) s

/-- A launch whose dependences are met enters its bank. -/
def State.makeReady (s : State) (id : Nat) : State :=
  match s.launches.find? (fun l => l.id == id) with
  | none => s
  | some l =>
    if l.at_ ≠ .pool ∨ !s.depsMet l then s
    else if s.chainCancelled l.part l.til l.record then s.cancelLaunch l
    else (s.modLaunch id (fun l => { l with at_ := .bank, since := s.dieCycle (l.queue / 2 ^ 15) })).giveWay l

/-- R105. A launch is ready. -/
def execLaunchReady (id : Nat) (s : State) : Host.Outcome State Fault Refusal := .next (s.makeReady id)

/-- The ready bank of a queue (R105). -/
def bankOf (q : Nat) : Nat := fld q 0 6 ^^^ fld q 6 6 ^^^ fld q 12 3

/-- Is a launch local (R108)? -/
def Launch.isLocal (l : Launch) : Bool := l.record.stages.all (fun g => g.dies.contains (l.queue / 2 ^ 15))

/-- Is the slot that a launch would occupy taken (R108)? -/
def State.slotTaken (s : State) (l : Launch) : Bool :=
  s.launches.any (fun h => h.at_ == .slot && h.part == l.part &&
    (if l.isLocal then !h.spanning && h.queue / 2 ^ 15 == l.queue / 2 ^ 15 else h.spanning))

/-- Does a launch rank before another: by priority, then by age? DESIGN CHOICE: of two that are equal in both, the one that its
distributor took earlier ranks first; the spec has no rule for them (log 55). -/
def State.outranks (s : State) (a b : Launch) : Bool :=
  b.record.prio < a.record.prio || (a.record.prio = b.record.prio && s.age b < s.age a)

/-- The launch that ranks first. -/
def State.best (s : State) (ls : List Launch) : Option Launch :=
  ls.foldl (fun m l => match m with
    | none => some l
    | some x => if s.outranks l x then some l else m) none

/-- The head of a bank: one that a reservation's release has put there (R112), else the one that ranks first. -/
def State.head (s : State) (ls : List Launch) : Option Launch :=
  s.best (if ls.any (·.front) then ls.filter (·.front) else ls)

/-- The oldest of the launches that have reached the age of R107; of two of one age, the one taken earlier (log 55). -/
def State.oldest (s : State) (ls : List Launch) : Option Launch :=
  (ls.filter (fun l => agedAt ≤ s.age l)).foldl (fun m l => match m with
    | none => some l
    | some x => if s.age x < s.age l then some l else m) none

/-- Is a launch eligible on a die (R114)? -/
def State.eligible (s : State) (l : Launch) (die : Nat) : Bool := l.record.energy ≤ (s.die die).budget.toNat

/-- The heads that an attempt looks at: those of two banks sampled with replacement (R107). -/
def State.sampled (s : State) (ls : List Launch) : List Launch :=
  let banks := (ls.map (fun l => bankOf l.queue)).eraseDups
  let pick := fun (n : Nat) => banks[Config.freeNat n % banks.length]?
  ([pick s.nonce, pick (s.nonce + 1)].filterMap id).eraseDups.filterMap (fun b =>
    s.head (ls.filter (fun l => bankOf l.queue == b)))

/-- The die that holds the page of NEAR. -/
def State.nearDie (s : State) (l : Launch) (stage : Nat) : Option Nat :=
  match ((l.record.stages[stage]?).map (·.near)).getD 0 with
  | 0 => none
  | va => match s.devXlate l.part l.til va .load with
    | .ok (pa, _) => some (pa / 2 ^ 38 % 4)
    | .error _ => none

/-- The dies of a stage in the order in which the assignment of a spanning launch tries them (R109). -/
def State.dieOrder (s : State) (l : Launch) (t : Todo) : List Nat :=
  match s.nearDie l t.stage with
  | some d => if t.dies.contains d then d :: t.dies.filter (· ≠ d) else t.dies
  | none => t.dies

/-- A pick that stands for a replica on another die, or on a die where its place is still to be chosen. -/
def standIn (stage key die : Nat) : Pick := { stage := stage, key := key, til := 1024 + die * 256 + key, cid := 65536 + key }

/-- The die that a stand-in names. -/
def Pick.die (p : Pick) : Nat := p.til / 256 % 4

/-- Has a die room for a replica beside those assigned to it (R109)? -/
def State.dieRoom (s : State) (l : Launch) (picks : List Pick) (t : Todo) (d : Nat) : Bool :=
  let mine := (picks.filter (fun p => p.die == d)).map (fun p => ({ stage := p.stage, key := p.key, dies := [d] } : Todo))
  ((s.supply l.part [d] false).search l.record (mine ++ [{ t with dies := [d] }]) (picks.filter (fun p => p.die ≠ d))).isSome

/-- Assign replicas to dies (R109): one stand-in for each. -/
def State.assign (s : State) (l : Launch) : List Pick :=
  let v := s.supply l.part [0, 1, 2, 3] true
  let room := fun (picks : List Pick) (t : Todo) => (s.dieOrder l t).find? (s.dieRoom l picks t)
  let idleDie := fun (t : Todo) => (t.dies.find? (fun d => (v.search l.record [{ t with dies := [d] }] []).isSome)).getD
    (t.dies.headD 0)
  let base := l.record.needed.foldl (fun picks t =>
    picks ++ [standIn t.stage t.key ((room picks t).getD (idleDie t))]) []
  l.record.further.foldl (fun picks t => match room picks t with
    | some d => if l.record.readersOk (picks ++ [standIn t.stage t.key d]) then picks ++ [standIn t.stage t.key d] else picks
    | none => picks) base

def Todo.replica (t : Todo) (needed : Bool) (die : Nat) : Replica :=
  { stage := t.stage, idx := t.key % 16, needed := needed, die := die, cid := none, block := 0, run := 0, sent := false
    acked := false, gone := false }

/-- Dispatch a launch: it takes its slot (R108). -/
def State.dispatch (s : State) (l : Launch) : State :=
  let die := l.queue / 2 ^ 15
  if s.chainCancelled l.part l.til l.record then s.cancelLaunch l
  else
    let s :=
      if l.isLocal then s.modLaunch l.id (fun l => { l with
        at_ := .slot, front := false, spanning := false, shares := [die]
        reps := l.record.needed.map (fun t => t.replica true die) ++ l.record.further.map (fun t => t.replica false die) })
      else
        let ps := s.assign l
        let reps := ps.map (fun p => Todo.replica { stage := p.stage, key := p.key, dies := [] }
          (l.record.needed.any (fun t => t.key == p.key)) p.die)
        s.modLaunch l.id (fun l => { l with
          at_ := .slot, front := false, spanning := true, reps := reps
          shares := [0, 1, 2, 3].filter (fun d => reps.any (fun r => r.die == d)) })
    (s.laterOnce (.shareReserve l.id)).wakeQueues die

/-- A dispatch attempt (R107). -/
def State.attempt (s : State) (die : Nat) : State :=
  let s := s.retryShares
  let ls := s.launches.filter (fun l => l.at_ == .bank && l.queue / 2 ^ 15 == die && !s.slotTaken l)
  match s.oldest ls with
  | some l => s.dispatch l
  | none =>
    let heads := s.sampled ls
    let s := s.tick.tick
    let good := heads.filter (fun l => s.eligible l die)
    let s := if good.length < heads.length then s.modDie die (fun d => { d with withheld := d.withheld + 1 }) else s
    match s.best good with
    | none => s
    | some l => s.dispatch l

/-- R107. A dispatch attempt. -/
def execDispatchAttempt (die : Nat) (s : State) : Host.Outcome State Fault Refusal := .next (s.attempt die)

/-! ### Reservation (R109, R110, R140) -/

/-- The picks of replicas that hold their contexts; others of a launch stand on dies whose shares are still to be taken. -/
def Launch.picksBut (l : Launch) (die : Nat) : List Pick :=
  (l.reps.filter (fun r => r.die ≠ die)).map (fun r => match r.cid with
    | some c => { stage := r.stage, key := r.key, til := tilOf c, cid := c }
    | none => standIn r.stage r.key r.die)

/-- Enter what has been found for a share. -/
def State.enterFound (s : State) (id : Nat) (f : Found) : State :=
  let n := f.need
  let grant := fun (u : Use) => s.modTil n.til (fun t => { t with
    spad := t.spad ++ [{ launch := id, use := u, off := f.off, len := n.len }] })
  let rep := fun (k : Nat) (g : Replica → Replica) (s : State) => s.modLaunch id (fun l => { l with
    reps := l.reps.map (fun r => if r.key = k then g r else r) })
  match n.what with
  | .spad k => rep k (fun r => { r with run := f.off }) ((grant (.spad k)).scramble (locSpad n.til f.off) (locSpad n.til (f.off + n.len)))
  | .block k => rep k (fun r => { r with block := f.off }) (grant (.block k))
  | .port w k => (grant .channel).modLaunch id (fun l => { l with
      blocks := l.blocks ++ [{ wire := w, key := k, loc := locSpad n.til f.off }] })
  | .chan w k depth =>
    let core := n.core.getD 0
    (grant (if f.queue then .queue core else .channel)).modLaunch id (fun l => { l with
      chans := l.chans ++ [{ wire := w, key := k, depth := depth
                             loc := if f.queue then locQ (n.til * 4 + core) f.off else locSpad n.til f.off
                             ext := if n.ext = 0 then none else some (f.xoff, n.ext) }] })

/-- Take a die's share in one step, if its MINREP replicas fit; further replicas that do not fit are dropped. -/
def State.takeShare (s : State) (l : Launch) (die : Nat) : Option State :=
  let u := s.supply l.part [die] false
  let todo := fun (r : Replica) => ({ stage := r.stage, key := r.key, dies := [die] } : Todo)
  let mine := l.reps.filter (fun r => r.die == die)
  let others := l.picksBut die
  match u.search l.record ((mine.filter (·.needed)).map todo) others with
  | none => none
  | some picks =>
    let picks := ((mine.filter (fun r => !r.needed)).map todo).foldl (fun ps t => u.add l.record ps t) picks
    (u.serve l.record picks).map (fun fs =>
      let s := s.modLaunch l.id (fun l => { l with
        shares := l.shares.drop 1
        reps := l.reps.filterMap (fun r => if r.die ≠ die then some r
          else (picks.find? (fun p => p.key == r.key)).map (fun p => { r with cid := some p.cid })) })
      fs.foldl (fun s f => s.enterFound l.id f) s)

/-- A binding entry (R131). -/
def bindWord (wr : Bool) (port : Nat) (queue : Bool) (til off : Nat) : Nat :=
  1 + bitsIf wr 3 + port * 2 ^ 4 + bitsIf queue 7 + til * 2 ^ 8 + off / 64 * 2 ^ 18

/-- The tiller and the offset of a block. -/
def blockPlace (loc : Nat) : Bool × Nat × Nat :=
  match qCore loc with
  | some k => (true, k / 4, (loc - 2 ^ 51) % 2 ^ 14)
  | none => (false, (spadTil loc).getD 0, (loc - 2 ^ 50) % 2 ^ 20)

/-- The replicas of a stage in order. -/
def Launch.repsOf (l : Launch) (stage : Nat) : List Replica := l.reps.filter (fun r => r.stage == stage)

/-- The reading ends of a wire without DEAL in the order of their cursors (R140): replica and end. -/
def Launch.readers (l : Launch) (w : Wire) : List (Replica × Nat) :=
  w.cons.flatMap (fun e => (l.repsOf e.1).map (fun r => (r, e.2)))

/-- Is a stage order-restoring (R142)? -/
def Record.restores (r : Record) (stage : Nat) : Bool :=
  r.wires.any (fun w => w.ordered && w.deal && w.cons.any (fun e => e.1 == stage))

/-- Build a channel of a wire (R126, R140, R142, R144). -/
def State.buildChan (s : State) (l : Launch) (c : Chan) : State :=
  match l.record.wires[c.wire]? with
  | none => s
  | some w =>
    let pl := blockPlace c.loc
    let cons := if w.deal then l.reps.filter (fun r => r.key == c.key) else (l.readers w).map (·.1)
    let all := (l.repsOf w.pstage ++ cons).filterMap (·.cid)
    let far := all.any (fun x => tilOf x ≠ pl.2.1)
    let xord := l.record.restores w.pstage
    let scope := if far then 4 else if all.all (fun x => coreOf x == coreOf (all.headD 0)) then 1 else 2
    let flags := bitsIf w.vector 0 + bitsIf far 1 + bitsIf xord 2 + (cons.length - 1) * 2 ^ 3 + (2 ^ cons.length - 1) * 2 ^ 5
    let off := pl.2.2 + 64
    let base := off + (if pl.1 then 2 ^ 20 + ((qCore c.loc).getD 0 % 4) * 2 ^ 21 else 0)
    let x := match c.ext with
      | none => 0
      | some e => 64 * (Config.xpoolBase l.part % 2 ^ 45 + 1) + e.1
    let cb := bytesOfNat 64 (base + c.depth * 2 ^ 32 + x % 2 ^ 64 * 2 ^ 256 + (if c.ext.isSome then 3 * c.depth else 0) * 2 ^ 320 +
      flags * 2 ^ 384 + scope * 2 ^ 448)
    let s := (s.store c.loc cb none).store (c.loc + 64 + (if w.vector then 64 else 8) * c.depth) (List.replicate (8 * c.depth) 0) none
    s.setRing { Ring.fresh c.loc with
      geo := some (s.geometry c.loc), dealt := w.deal, prods := if xord then (l.repsOf w.pstage).filterMap (·.cid) else [] }

/-- The channels of a wire that a producer block names, in target order. -/
def Launch.targets (l : Launch) (w : Nat) : List Chan :=
  (l.record.wires[w]?).elim [] (fun x =>
    if x.deal then (l.readers x).filterMap (fun r => l.chans.find? (fun c => c.wire == w && c.key == r.1.key))
    else l.chans.filter (fun c => c.wire == w))

/-- Build a producer block of a wire (R129, R140). -/
def State.buildBlock (s : State) (l : Launch) (b : PBlock) : State :=
  match l.record.wires[b.wire]? with
  | none => s
  | some w =>
    let ts := l.targets b.wire
    let refs := ts.zipIdx.foldl (fun a p =>
      let pl := blockPlace p.1.loc
      a + (pl.2.1 + pl.2.2 / 64 * 2 ^ 10) * 2 ^ (24 * p.2)) 0
    let flags := bitsIf w.vector 0 + bitsIf w.deal 1 + (ts.length - 1) * 2 ^ 2
    s.store b.loc (bytesOfNat 64 (refs + flags * 2 ^ 384)) none

/-- The binding entry of one end of a replica that a wire names, if it names that end. -/
def Launch.entryFor (l : Launch) (r : Replica) (e : Nat) (p : Wire × Nat) : Option Nat :=
  let w := p.1
  if w.pstage = r.stage ∧ w.pend = e then
    match l.blocks.find? (fun b => b.wire == p.2 && b.key == r.key), l.chans.find? (fun c => c.wire == p.2) with
    | some b, _ => (let pl := blockPlace b.loc
                    some (bindWord true 1 pl.1 pl.2.1 pl.2.2))
    | none, some c => (let pl := blockPlace c.loc
                       some (bindWord true 0 pl.1 pl.2.1 pl.2.2))
    | none, none => none
  else if w.cons.any (fun x => x.1 == r.stage && x.2 == e) then
    match l.chans.find? (fun c => c.wire == p.2 && (!w.deal || c.key == r.key)) with
    | none => none
    | some c =>
      let cur := if w.deal then 0 else (l.readers w).findIdx (fun x => x.1.key == r.key && x.2 == e)
      let pl := blockPlace c.loc
      some (bindWord false cur pl.1 pl.2.1 pl.2.2)
  else none

/-- The spawn block of a replica (R85, R110, R111). -/
def Launch.spawnBlock (l : Launch) (r : Replica) : List Byte :=
  match l.record.stages[r.stage]? with
  | none => []
  | some g =>
    let arg := if l.record.arg ≠ 0 then l.record.arg.toNat else if g.spad = 0 then 0
      else 0xF0 * 2 ^ 56 + 2 ^ 42 + r.run
    let peers := l.repsOf r.stage
    let pos := r.stage + (peers.findIdx (fun p => p.key == r.key)) * 2 ^ 4 + (peers.length - 1) * 2 ^ 8
    let binds := (List.range 12).flatMap (fun e =>
      bytesOfNat 8 ((l.record.wires.zipIdx.reverse.findSome? (l.entryFor r e)).getD 0))
    [g.entry.toNat, l.lrec, arg, pos, g.fmt.toNat, g.scla.toNat, g.sclb.toNat, 0].flatMap (bytesOfNat 8) ++ binds ++
      List.replicate 96 0

/-- The placement identifier of a replica (R110). -/
def Launch.pid (l : Launch) (r : Replica) : Nat := (l.id * 256 + r.key) % 2 ^ 32

/-- Write a replica's spawn block and send its placement message (R110, R384). -/
def State.placeReplica (s : State) (l : Launch) (r : Replica) : State :=
  match r.cid with
  | none => s
  | some c =>
    let s := s.store (locSpad (tilOf c) r.block) (l.spawnBlock r) none
    s.send (coreOf c) 0 { header := headerDevice 3
                          body := bodyOf [(0, 4, l.pid r), (4, 1, ctxNo c), (5, 1, bitsIf (l.record.tiled r.stage) 0),
                            (8, 8, (nearAddr (tilOf c) r.block).toNat)] }

/-- The reservation is complete (R102, R110). DESIGN CHOICE: a placement message that waits in the distributor for a full steward box
counts as sent (R113, R382; log 23). -/
def State.completeLaunch (s : State) (id : Nat) : State :=
  match s.launches.find? (fun l => l.id == id) with
  | none => s
  | some l =>
    let s := match s.objAt l.part l.til l.record.obj with
      | none => s
      | some o => ((s.lvPut l.part o 0 8 l.reps.length).lvPut l.part o 8 8 0).lvPut l.part o 25 1 2
    let s := l.chans.foldl (fun s c => s.buildChan l c) s
    let s := l.blocks.foldl (fun s b => s.buildBlock l b) s
    let s := l.reps.foldl (fun s r => s.placeReplica l r) s
    s.modLaunch id (fun l => { l with at_ := .complete, reps := l.reps.map (fun r => { r with sent := true }) })

/-- A reservation takes its next share, if it may and can (R109, R113, R114). DESIGN CHOICE: one whose launch is seen to be cancelled as
its last share completes is incomplete still, and is released (log 23). -/
def State.reserveShare (s : State) (id : Nat) : State :=
  match s.launches.find? (fun l => l.id == id) with
  | none => s
  | some l => match l.at_, l.shares with
    | .slot, die :: rest =>
      if l.spanning ∧ !s.eligible l die ∧ s.age l < agedAt then s
      else match s.takeShare l die with
        | none => s
        | some t =>
          if t.chainCancelled l.part l.til l.record then t.cancelLaunch l
          else if rest.isEmpty then t.completeLaunch id else t.laterOnce (.shareReserve id)
    | _, _ => s

/-- R109. A share is reserved. -/
def execShareReserve (id : Nat) (s : State) : Host.Outcome State Fault Refusal := .next (s.reserveShare id)

/-! ### Instructions (R115 to R121) -/

/-- The checks of R115 on the address in A: global, and 64-byte aligned. -/
def globalAddr (va : Word) : Op Unit := do
  if 2 ^ 52 ≤ va.toNat then raiseAt Cause.addr 0 va
  if va.toNat % 64 ≠ 0 then raiseAt Cause.align 0 va

/-- The location of a level object, for an access of a kind (R115). -/
def objectLane (k : Acc) (va : Word) : Op Lane := do
  globalAddr va
  let l := (← translateLanes k 64 [(0, va, .global va.toNat)]).headD
    { i := 0, va := va, loc := 0, n := 64, own := false, global := true, nc := false, repl := false }
  if k = .atomic ∧ l.repl then raiseAt Cause.repl 0 va
  return l

/-- The status word (R115). -/
def lvStatus (o : List Byte) : Word := BitVec.ofNat 64 (numAt o 25 1 + numAt o 26 1 * 2 ^ 8 + numAt o 27 1 * 2 ^ 16)

/-- R116. Append a record to a device-mode queue. DESIGN CHOICE: a descriptor whose PART byte is not the own partition's answers
3 even where only its reserved bits [7:4] differ, for which R94 would answer 2 (log 55). -/
def execLaunch (d a b : BitVec 5) (s : State) : Host.Outcome State Fault Refusal :=
  perform (.launch d a b) (thenNext do
    let p ← rdS a
    let q ← rdS b
    globalAddr p
    let s ← get
    let me := s.partOf s.myTil
    let n := q.toNat
    let desc := queueDesc n
    if 131072 ≤ n ∨ s.rd (desc + 10) 1 ≠ me ∨ (s.queueOwner n).any (· ≠ me) then wrS d (failCode 3)
    else if s.qMode desc % 2 = 0 ∨ s.descBad desc ∨ (s.queueOwner n).isNone ∨ s.qMode desc / 2 % 2 = 0 then wrS d (failCode 2)
    else if 2 ^ s.qLog desc ≤ s.qLen desc then wrS d (failCode 1)
    else
      let slot : Word := BitVec.ofNat 64 (s.qSlot desc (s.qTail desc))
      if 2 ^ 52 ≤ slot.toNat then stop (.fault .store 1 0 slot)
      (← translateLanes .store 8 [(0, slot, .global slot.toNat)]).forM (fun l => strandStore false l (bytesOfNat 8 p.toNat))
      upd (fun s => s.qPut desc me 16 8 ((s.qTail desc + 1) % 2 ^ 64))
      wrS d 0) s

/-- R117. Add to a level counter. -/
def execDone (d a b : BitVec 5) (i : BitVec 1) (s : State) : Host.Outcome State Fault Refusal :=
  perform (.done d a b i) (thenNext do
    let va ← rdS a
    let n ← rdB i b
    let l ← objectLane .atomic va
    let s ← get
    if s.poisoned l.loc 64 then raiseAt Cause.poison 0 va
    if s.lvBad l.loc then wrS d (failCode 2)
    else if s.lvLevel l.loc = 1 then wrS d (failCode 3)
    else
      if n ≠ 0 then upd (fun s => s.lvAdd (s.partOf s.myTil) s.myTil l.loc n.toNat)
      acquirePkg
      wrS d (BitVec.ofNat 64 ((s.lvCompleted l.loc + n.toNat) % 2 ^ 64))) s

/-- Cancel notices to all four distributors (R113). -/
def State.noticeCancel (s : State) (part o : Nat) : State :=
  (List.range 4).foldl (fun s d => s.later (.cancelNotice d part o)) s

/-- R118. Cancel a level; an object that has ended is not changed (log 23). -/
def execCancel (d a : BitVec 5) (s : State) : Host.Outcome State Fault Refusal :=
  perform (.cancel d a) (thenNext do
    let va ← rdS a
    let l ← objectLane .atomic va
    let s ← get
    if s.poisoned l.loc 64 then raiseAt Cause.poison 0 va
    if s.lvBad l.loc then wrS d (failCode 2)
    else if s.lvTerminal l.loc then wrS d 2
    else if s.lvCancelled l.loc then wrS d 1
    else
      let part := s.partOf s.myTil
      upd (fun s => (s.lvOr part l.loc 1).noticeCancel part l.loc)
      wrS d 0) s

/-- Read a level object whole, with an acquire at PKG scope; none where it is malformed (R119, R120). -/
def readObject (va : Word) : Op (Lane × Option (List Byte)) := do
  let l ← objectLane .load va
  let s ← get
  let bs ← loadLane 0 false l
  if !s.me.tx.active then acquirePkg
  return (l, if s.lvBad l.loc then none else some bs)

/-- One field of a level object (R119). -/
def lcnt (i : Instr) (d a : BitVec 5) (f : List Byte → Word) (s : State) : Host.Outcome State Fault Refusal :=
  perform i (thenNext do
    match (← readObject (← rdS a)).2 with
    | none => wrS d (failCode 2)
    | some o => wrS d (f o)) s

/-- R119. Read COMPLETED. -/
def execLcntCmp (d a : BitVec 5) (s : State) : Host.Outcome State Fault Refusal :=
  lcnt (.lcntCmp d a) d a (fun o => BitVec.ofNat 64 (numAt o 8 8)) s
/-- R119. Read EXPECTED. -/
def execLcntExp (d a : BitVec 5) (s : State) : Host.Outcome State Fault Refusal :=
  lcnt (.lcntExp d a) d a (fun o => BitVec.ofNat 64 (numAt o 0 8)) s
/-- R119. Read the status word. -/
def execLcntSt (d a : BitVec 5) (s : State) : Host.Outcome State Fault Refusal :=
  lcnt (.lcntSt d a) d a lvStatus s

/-- R120. Wait on a level. -/
def execLwait (d a b : BitVec 5) (i : BitVec 1) (s : State) : Host.Outcome State Fault Refusal :=
  perform (.lwait d a b i) (thenNext do
    let va ← rdS a
    let n ← rdB i b
    let r ← readObject va
    match r.2 with
    | none => wrS d (failCode 2)
    | some o =>
      if terminal (numAt o 25 1) ∨ (n ≠ 0 ∧ n.toNat ≤ numAt o 8 8) then wrS d (lvStatus o)
      else stop (.sleep 5 [.line (r.1.loc / 64)] [])) s

/-- The replica of a placement identifier of a partition that is not acknowledged. -/
def State.placed (s : State) (part pid : Nat) : Option (Launch × Replica) :=
  s.launches.findSome? (fun l => if l.part = part then
    (l.reps.find? (fun r => l.pid r == pid && r.sent && !r.acked)).map (fun r => (l, r)) else none)

/-- A placement is acknowledged: the spawn block's bytes return; a failure rejects the launch (R121). DESIGN CHOICE: the
failure rejects also a launch whose CANCEL is set, and the launch completes toward its parent once its replicas have all
counted (log 55). -/
def State.acknowledge (s : State) (l : Launch) (r : Replica) (failed : Bool) : State :=
  let s := (s.modLaunch l.id (fun m => { m with
      reps := m.reps.map (fun x => if x.key = r.key then { x with acked := true, gone := x.gone || failed } else x) })).dropGrants
    l.id (fun u => u == .block r.key || (failed && u == .spad r.key))
  let s :=
    if failed then match s.objAt l.part l.til l.record.obj with
      | none => s
      | some o =>
        let s := if s.lvTerminal o then s else (s.lvPut l.part o 27 1 5).lvPut l.part o 25 1 5
        let s := match s.launches.find? (fun m => m.id == l.id) with
          | none => s
          | some m => s.killReplicas m
        (s.lvAdd l.part l.til o 1).letIn ((r.cid.map tilOf).getD l.til)
    else s
  s.retryShares.forgetLaunches

/-- R121. Acknowledge a placement. -/
def execPlace (d a b : BitVec 5) (s : State) : Host.Outcome State Fault Refusal :=
  performRaw (.place d a b) (thenNext do
    stewardOnly
    examineFields (.place d a b)
    let x ← rdS a
    let y ← rdS b
    let s ← get
    match s.placed (s.partOf s.myTil) (x.extractLsb' 0 32).toNat with
    | none => wrS d (failCode 1)
    | some (l, r) =>
      upd (fun s => s.acknowledge l r (y.getLsbD 63))
      wrS d 0) s

end Sys2Proof.Machine
end

