-- ==== Sys2Proof/Machine/Memory.lean ====
section
/-! DEFINITION. The memory access class (R226 to R235). -/

namespace Sys2Proof.Machine

/-! ### Scalar accesses (R229, R232) -/

/-- The address of a format-J word. -/
def addrJ (a : BitVec 5) (k : BitVec 14) : Op Word := do return (← rdS a) + k.signExtend 64

/-- Element size of a type in bytes (R37). -/
def sizeOf (t : BitVec 4) : Nat := widthOf t.toNat / 8

/-- A loaded element in 64 bits: i-types extend their sign (R37, R227). -/
def extendTo64 (t : BitVec 4) (x : Nat) : Word := BitVec.ofInt 64 (laneInt t.toNat x)

/-- R229. Load a doubleword. -/
def execLd (d a : BitVec 5) (k : BitVec 14) (s : State) : Host.Outcome State Fault Refusal :=
  perform (.ld d a k) (thenNext do
    let va ← addrJ a k
    wrS d (BitVec.ofNat 64 (← loadScalar 8 va 0))) s

/-- R229. Store a doubleword. -/
def execSt (d a : BitVec 5) (k : BitVec 14) (s : State) : Host.Outcome State Fault Refusal :=
  perform (.st d a k) (thenNext do
    let va ← addrJ a k
    let x ← rdS d
    storeScalar .store 8 va x.toNat) s

/-- R229. Load an element by index. -/
def execLdx (d a b : BitVec 5) (t : BitVec 4) (h : BitVec 2) (s : State) : Host.Outcome State Fault Refusal :=
  perform (.ldx d a b t h) (thenNext do
    let base ← rdS a
    let i ← rdS b
    wrS d (extendTo64 t (← loadScalar (sizeOf t) (base + i * BitVec.ofNat 64 (sizeOf t)) h.toNat))) s

/-- R229. Store an element by index. -/
def execStx (d a b : BitVec 5) (t : BitVec 4) (s : State) : Host.Outcome State Fault Refusal :=
  perform (.stx d a b t) (thenNext do
    let base ← rdS a
    let i ← rdS b
    let x ← rdS d
    storeScalar .store (sizeOf t) (base + i * BitVec.ofNat 64 (sizeOf t)) x.toNat) s

/-- R232. Store to every replica; a near address raises ADDR, and inside an attempt the store is remote (R173). -/
def execStm (d a : BitVec 5) (k : BitVec 14) (s : State) : Host.Outcome State Fault Refusal :=
  perform (.stm d a k) (thenNext do
    let va ← addrJ a k
    let x ← rdS d
    let s ← get
    if s.me.tx.active then stop (.abort 3 0)
    match s.place s.myTil va with
    | some (.near _ _) => raiseAt Cause.addr 0 va
    | _ => storeScalar .stm 8 va x.toNat) s

/-! ### Vector accesses (R230, R231) -/

/-- Load lanes in order: each lane's number and value. -/
def loadLanes (hint : Nat) : List Lane → Op (List (Nat × Nat))
  | [] => return []
  | l :: r => do
    let x := natOfBytes (← loadLane hint true l)
    return (l.i, x) :: (← loadLanes hint r)

/-- Store lanes in order. -/
def storeLanes (w : Nat) (v : VReg) (ls : List Lane) : Op Unit :=
  ls.forM (fun l => strandStore false l (bytesOfNat l.n (lane w v l.i)))

/-- The active lanes of a vector access with their addresses. -/
def laneAddrs (w : Nat) (m : Word) (va : Nat → Word) : List (Nat × Word) :=
  ((List.range (512 / w)).filter (fun i => m.getLsbD i)).map (fun i => (i, va i))

/-- A load of active lanes; inactive ones are zero (R227). -/
def vecLoad (d : BitVec 5) (w hint : Nat) (vas : List (Nat × Word)) : Op Unit := do
  let xs ← loadLanes hint (← resolve .load (w / 8) vas)
  wrV d (ofLanes w ((List.range (512 / w)).map (fun i => (tget xs i).getD 0)))

/-- A store of active lanes (R227). -/
def vecStore (v : VReg) (w : Nat) (vas : List (Nat × Word)) : Op Unit := do
  storeLanes w v (← resolveStore .store (w / 8) vas)

/-- R230. Load a line. -/
def execVld (d a : BitVec 5) (k : BitVec 14) (s : State) : Host.Outcome State Fault Refusal :=
  perform (.vld d a k) (thenNext do
    let va ← addrJ a k
    wrV d (BitVec.ofNat 512 (← loadScalar 64 va 0))) s

/-- R230. Store a line. -/
def execVst (d a : BitVec 5) (k : BitVec 14) (s : State) : Host.Outcome State Fault Refusal :=
  perform (.vst d a k) (thenNext do
    let va ← addrJ a k
    let x ← rdV d
    storeScalar .store 64 va x.toNat) s

/-- The addresses of a strided access. -/
def strided (base off : Word) (i : Nat) : Word := base + off * BitVec.ofNat 64 i

/-- The addresses of an indexed access: natural lane values scaled by the element size. -/
def indexed (w : Nat) (base : Word) (v : VReg) (i : Nat) : Word := base + BitVec.ofNat 64 (lane w v i * (w / 8))

/-- R231. Load with a stride. -/
def execVlds (d a b : BitVec 5) (t : BitVec 4) (h : BitVec 2) (m : BitVec 3) (s : State) :
    Host.Outcome State Fault Refusal :=
  perform (.vlds d a b t h m) (thenNext do
    let base ← rdS a
    let off ← rdS b
    let k ← rdM m.toNat
    vecLoad d (widthOf t.toNat) h.toNat (laneAddrs (widthOf t.toNat) k (strided base off))) s

/-- R231. Store with a stride. -/
def execVsts (d a b : BitVec 5) (t : BitVec 4) (m : BitVec 3) (s : State) : Host.Outcome State Fault Refusal :=
  perform (.vsts d a b t m) (thenNext do
    let base ← rdS a
    let off ← rdS b
    let v ← rdV d
    let k ← rdM m.toNat
    vecStore v (widthOf t.toNat) (laneAddrs (widthOf t.toNat) k (strided base off))) s

/-- R231. Gather. -/
def execVgth (d a b : BitVec 5) (t : BitVec 4) (h : BitVec 2) (m : BitVec 3) (s : State) :
    Host.Outcome State Fault Refusal :=
  perform (.vgth d a b t h m) (thenNext do
    let base ← rdS a
    let off ← rdAB b (widthOf t.toNat)
    let k ← rdM m.toNat
    vecLoad d (widthOf t.toNat) h.toNat (laneAddrs (widthOf t.toNat) k (indexed (widthOf t.toNat) base off))) s

/-- R231. Scatter. -/
def execVsct (d a b : BitVec 5) (t : BitVec 4) (m : BitVec 3) (s : State) : Host.Outcome State Fault Refusal :=
  perform (.vsct d a b t m) (thenNext do
    let base ← rdS a
    let off ← rdAB b (widthOf t.toNat)
    let v ← rdV d
    let k ← rdM m.toNat
    vecStore v (widthOf t.toNat) (laneAddrs (widthOf t.toNat) k (indexed (widthOf t.toNat) base off))) s

/-! ### Cache maintenance (R233 to R235) -/

/-- The physical address and the entry of a global address for a cache operation; none where there is nothing to act on.
An address that no TLB maps starts a walk, unless the operation does without one. -/
def cachePage (walk : Bool) (va : Word) : Op (Option (Nat × Word)) := do
  let s ← get
  match s.place s.myTil va with
  | some (.global a) =>
    if ctxNo s.cur = 15 then return (if a < 2 ^ 40 then some (a, 0) else none)
    match s.lookup s.cur false a with
    | (some e, s') =>
      set s'
      return some (e.pa a (dieOfTil s.myTil), e.entry)
    | (none, _) => if walk then stop (.miss .load 0 va true) else return none
  | _ => return none

/-- R233. Into L2, which holds what memory holds: a translation is looked up, and nothing else changes. A prefetch that
misses every TLB starts no walk. -/
def execPrfL2 (a : BitVec 5) (k : BitVec 14) (s : State) : Host.Outcome State Fault Refusal :=
  perform (.prfL2 a k) (thenNext do
    let _ ← cachePage false (← addrJ a k)) s

/-- R233. Into L2 and the tiller's L1. -/
def execPrfL1 (a : BitVec 5) (k : BitVec 14) (s : State) : Host.Outcome State Fault Refusal :=
  perform (.prfL1 a k) (thenNext do
    match ← cachePage false (← addrJ a k) with
    | none => return ()
    | some (pa, e) =>
      let s ← get
      let t := s.til s.myTil
      if (ctxNo s.cur ≠ 15 ∧ (permFault .load e).isSome) ∨ entNc e ∨ ctxNo s.cur = 15 ∨ s.me.mig ∨ t.l1sz = 0 ∨
          s.poisoned (pa / 64 * 64) 64 ∨ t.l1.any (fun l => l.line == pa / 64) then return ()
      else upd (fun s => s.modTil s.myTil (fun t => { t with
        l1 := l1Fill (128 * t.l1sz) false t.l1 (s.lineNow (pa / 64)) }))) s

/-- R234. Flush a line: memory holds what it held, and the tiller's L1 loses it. A poisoned line is not flushed (R214). -/
def execCfl (a : BitVec 5) (k : BitVec 14) (s : State) : Host.Outcome State Fault Refusal :=
  perform (.cfl a k) (thenNext do
    match ← cachePage true (← addrJ a k) with
    | none => return ()
    | some (pa, _) => upd (fun s => if s.poisoned (pa / 64 * 64) 64 then s else s.dropL1 s.myTil pa 1)) s

/-- Invalidate the line of an address in the caches named, once the strand's earlier stores to the line are performed; until then the
context is held (R235). -/
def invalidate (data code : Bool) (va : Word) : Op Unit := do
  match ← cachePage true va with
  | none => return ()
  | some (pa, _) => upd (fun s => s.holdOrder false (some (pa / 64)) 0 (.line (pa / 64) data code))

/-- R235. In the L1 data cache. -/
def execCinvD (a : BitVec 5) (k : BitVec 14) (s : State) : Host.Outcome State Fault Refusal :=
  perform (.cinvD a k) (thenNext do invalidate true false (← addrJ a k)) s

/-- R235. In the instruction cache. -/
def execCinvI (a : BitVec 5) (k : BitVec 14) (s : State) : Host.Outcome State Fault Refusal :=
  perform (.cinvI a k) (thenNext do invalidate false true (← addrJ a k)) s

/-- R235. In both. -/
def execCinvDi (a : BitVec 5) (k : BitVec 14) (s : State) : Host.Outcome State Fault Refusal :=
  perform (.cinvDi a k) (thenNext do invalidate true true (← addrJ a k)) s

end Sys2Proof.Machine
end

