-- ==== Sys2Proof/Machine/Ordering.lean ====
section
/-! DEFINITION. The ordering-and-atomics class (R262 to R267). In a model that performs each access in one step in program
order, an order adds what R250 gives: a path that avoids the L1, and its invalidation. -/

namespace Sys2Proof.Machine

/-! ### Codes (R31) -/

/-- Size of a width in bytes (R262). -/
def widthSize (w : BitVec 3) : Nat := if w = 2 ∨ w = 3 then 8 else if w = 5 then 2 else 4

/-- A value of a width in 64 bits (R263). -/
def extendW (w : BitVec 3) (x : Nat) : Word :=
  if w = 0 then (BitVec.ofNat 32 x).signExtend 64 else BitVec.ofNat 64 x

/-- The orders with an acquire part (R250). -/
def acquires (o : BitVec 3) : Bool := o == 1 || o == 3 || o == 4

/-- The orders with a release part (R250). -/
def releases (o : BitVec 3) : Bool := o == 2 || o == 3 || o == 4

/-- The acquire part of an access at a scope, outside an attempt (R173, R250). -/
def acquirePart (o sc : BitVec 3) : Op Unit := do
  let x ← ask State.me
  if acquires o ∧ !x.tx.active then upd (fun s => s.acquire s.myTil sc.toNat)

/-! ### LDAQ, STRL, FENCE (R264) -/

/-- R264. Load acquire; at DIE scope and wider it reads L2 (R250). -/
def execLdaq (d a : BitVec 5) (sc o w : BitVec 3) (s : State) : Host.Outcome State Fault Refusal :=
  perform (.ldaq d a sc o w) (thenNext do
    let va ← rdS a
    let ls ← resolve .load (widthSize w) [(0, va)]
    ls.forM (fun l => do
      let x := natOfBytes (← loadLane 0 (sc.toNat < 3) l)
      acquirePart o sc
      wrS d (extendW w x))) s

/-- R264. Store release. With order sc it acquires too (R247, R250). -/
def execStrl (d a : BitVec 5) (sc o w : BitVec 3) (s : State) : Host.Outcome State Fault Refusal :=
  perform (.strl d a sc o w) (thenNext do
    let va ← rdS a
    let x ← rdS d
    storeScalar .store (widthSize w) va x.toNat
    acquirePart o sc) s

/-- R264. Fence: it holds the context until every earlier access is performed, or, without a release part, every earlier load is
bound; then its acquire part acts. At ctx scope and inside an attempt it holds nothing (R173). -/
def execFence (sc o : BitVec 3) (s : State) : Host.Outcome State Fault Refusal :=
  perform (.fence sc o) (thenNext do
    if !(← inTx) ∧ sc ≠ 0 ∧ (acquires o ∨ releases o) then
      upd (fun s => s.holdOrder (!releases o) none 0 (if acquires o then .acquire sc.toNat else .none))) s

/-! ### Operations (R265) -/

/-- A value of a width as an integer. -/
def intW (w : BitVec 3) (x : Nat) : Int :=
  if w = 0 then (BitVec.ofNat 32 x).toInt else if w = 2 then (BitVec.ofNat 64 x).toInt else (x : Int)

def fmtW (w : BitVec 3) : Fmt := if w = 4 then FP32 else BF16

/-- Op of R265 and R267, by the operation codes of RED; 6 is the swap. -/
def atomicOp (p : Nat) (w : BitVec 3) (old y : Nat) : Nat × Flags :=
  let m := 2 ^ (8 * widthSize w)
  match p with
  | 0 => if w = 4 ∨ w = 5 then (fmtW w).add 0 old y else ((old + y) % m, 0)
  | 1 => if w = 4 then FP32.minmax false old y else (if intW w y < intW w old then y else old, 0)
  | 2 => if w = 4 then FP32.minmax true old y else (if intW w old < intW w y then y else old, 0)
  | 3 => (old &&& y, 0)
  | 4 => (old ||| y, 0)
  | 5 => (old ^^^ y, 0)
  | _ => (y, 0)

/-- The lane an atomic acts on: checked, translated, and on no replicated page (R220, R224). -/
def atomicLane (n : Nat) (va : Word) : Op (List Lane) := do
  let ls ← resolveStore .atomic n [(0, va)]
  if ls.any (·.repl) then raiseAt Cause.repl 0 va
  return ls

/-- After an atomic to global space the line leaves the tiller's L1 (R253). -/
def leaveL1 (l : Lane) : Op Unit := do
  if l.global then upd (fun s => s.dropL1 s.myTil l.loc l.n)

/-- An AMO that always writes (R265). -/
def amo (i : Instr) (p : Nat) (d a b : BitVec 5) (sc o w : BitVec 3) (s : State) : Host.Outcome State Fault Refusal :=
  perform i (thenNext do
    let n := widthSize w
    let va ← rdS a
    let y := (← rdS b).toNat % 2 ^ (8 * n)
    (← atomicLane n va).forM (fun l => do
      let old := natOfBytes (← loadLane 0 false l)
      let r := atomicOp p w old y
      strandStore false l (bytesOfNat n r.1)
      leaveL1 l
      acquirePart o sc
      wrS d (extendW w old)
      setFlags r.2)) s

/-- R265. Add. -/
def execAmoadd (d a b : BitVec 5) (sc o w : BitVec 3) (s : State) : Host.Outcome State Fault Refusal :=
  amo (.amoadd d a b sc o w) 0 d a b sc o w s
/-- R265. Swap. -/
def execAmoswp (d a b : BitVec 5) (sc o w : BitVec 3) (s : State) : Host.Outcome State Fault Refusal :=
  amo (.amoswp d a b sc o w) 6 d a b sc o w s
/-- R265. Minimum. -/
def execAmomin (d a b : BitVec 5) (sc o w : BitVec 3) (s : State) : Host.Outcome State Fault Refusal :=
  amo (.amomin d a b sc o w) 1 d a b sc o w s
/-- R265. Maximum. -/
def execAmomax (d a b : BitVec 5) (sc o w : BitVec 3) (s : State) : Host.Outcome State Fault Refusal :=
  amo (.amomax d a b sc o w) 2 d a b sc o w s
/-- R265. And. -/
def execAmoand (d a b : BitVec 5) (sc o w : BitVec 3) (s : State) : Host.Outcome State Fault Refusal :=
  amo (.amoand d a b sc o w) 3 d a b sc o w s
/-- R265. Or. -/
def execAmoor (d a b : BitVec 5) (sc o w : BitVec 3) (s : State) : Host.Outcome State Fault Refusal :=
  amo (.amoor d a b sc o w) 4 d a b sc o w s
/-- R265. Exclusive or. -/
def execAmoxor (d a b : BitVec 5) (sc o w : BitVec 3) (s : State) : Host.Outcome State Fault Refusal :=
  amo (.amoxor d a b sc o w) 5 d a b sc o w s

/-- R266. Compare and swap: a failure is a read (R243), though inside an attempt it counts in both sets (R174). -/
def execAmocas (d a b : BitVec 5) (sc o w : BitVec 3) (s : State) : Host.Outcome State Fault Refusal :=
  perform (.amocas d a b sc o w) (thenNext do
    let n := widthSize w
    let va ← rdS a
    let y := (← rdS b).toNat % 2 ^ (8 * n)
    let cmp := (← rdS d).toNat % 2 ^ (8 * n)
    (← atomicLane n va).forM (fun l => do
      let old := natOfBytes (← loadLane 0 false l)
      if old = cmp then strandStore false l (bytesOfNat n y)
      else if (← inTx) then writeKey (.line (l.loc / 64))
      leaveL1 l
      acquirePart o sc
      wrS d (extendW w old))) s

/-- R267. Reduce; remote inside an attempt (R173). Nothing is returned, so poison raises nothing and stays (R214). -/
def execRed (p a b : BitVec 5) (sc o w : BitVec 3) (s : State) : Host.Outcome State Fault Refusal :=
  perform (.red p a b sc o w) (thenNext do
    let n := widthSize w
    let va ← rdS a
    let y := (← rdS b).toNat % 2 ^ (8 * n)
    if (← inTx) then stop (.abort 3 0)
    (← atomicLane n va).forM (fun l => do
      let s ← get
      let r := atomicOp p.toNat w (s.rd l.loc n) y
      strandStore false l (bytesOfNat n r.1)
      if s.poisoned l.loc n then upd (fun t => { t with poison := addOnce (eccUnit l.loc) t.poison })
      leaveL1 l)) s

end Sys2Proof.Machine
end

