-- ==== Sys2Proof/Machine/Ports.lean ====
section
/-! DEFINITION. The outside of the module (R397 to R401, R407 to R421): the command port and its commands, partitions and
their swap, uncorrectable errors, peer links, die edges, firmware, the board bus, power on and off. -/

namespace Sys2Proof.Machine

/-! ### Requests and answers (R407, R409, R410) -/

def State.modPort (s : State) (f : Port → Port) : State := { s with port := f s.port }

/-- The queue pair of an answer. -/
def Answer.qp : Answer → Option Nat
  | .ack q => some q
  | .data q _ => some q
  | .nakInvalid q => some q
  | .nakAccess q => some q
  | .status q _ _ _ _ => some q
  | .report q _ _ _ _ _ => some q
  | .event q _ _ => some q
  | .i3c _ _ => none

/-- Answer; nothing is sent on a queue pair in the error state (R407). -/
def State.reply (s : State) (a : Answer) : State :=
  if a.qp.any s.port.broken.contains then s else s.modPort (fun p => { p with sent := p.sent ++ [a] })

/-- Is a SEND well formed under a command's OP (R410)? -/
def SendHeader.good (h : SendHeader) (op : Nat) : Bool := h.op == op && h.len == h.body && h.ok

/-- OP and TAG of the answer to a command: OP with bit 15 set (R410). -/
def SendHeader.answerOp (h : SendHeader) : Nat := h.op % 2 ^ 15 + 2 ^ 15
def SendHeader.answerTag (h : SendHeader) : Nat := h.tag % 2 ^ 16

/-- The answer to a command. -/
def State.answerCmd (s : State) (qp : Nat) (h : SendHeader) (st : Nat) (info : List Nat) : State :=
  s.reply (.status qp h.answerTag h.answerOp st info)

/-- Take the request at the head of the inbox, if a step is for it. One on a queue pair that does not exist or is in the error
state, or before the port accepts connections, gets no answer (R407, R419). -/
def State.serveHead (s : State) (qp : Nat) (f : State → State) : State :=
  let t := s.modPort (fun p => { p with inbox := p.inbox.drop 1 })
  if s.port.openPort ∧ qp < 64 ∧ !s.port.broken.contains qp then f t else t

/-- Serve a command at the head of the inbox: one that is malformed has no effect and answers STATUS 1 (R410). -/
def State.serveCmd (s : State) (qp op : Nat) (h : SendHeader) (f : State → State) : State :=
  s.serveHead qp (fun s => if h.good op then f s else s.answerCmd qp h 1 [])

/-- Is a request a management command? -/
def Request.isCommand : Request → Bool
  | .write _ _ _ _ => false
  | .read _ _ _ _ => false
  | .unsupported _ => false
  | .intr _ _ => false
  | .i3cRead _ _ => false
  | .i3cAddress _ _ => false
  | .shutdown _ => false
  | .peerElement _ _ _ _ => false
  | .peerCredit _ _ _ => false
  | .peerReturn _ _ _ => false
  | .peerReserve _ _ _ _ => false
  | _ => true

/-- Must a request wait? Commands of a queue pair are executed in order, so one waits for a swap or an image load of its queue
pair; a shutdown, which destroys every partition, waits for a swap as PART_DESTROY would be answered busy (R410, R420). -/
def Port.blocked (p : Port) : Request → Bool
  | .shutdown _ => p.swap.isSome
  | r => r.isCommand && (p.swap.any (fun w => r.qp == some w.1) || p.loading.any (fun w => r.qp == some w.1))

/-- The next request that can be served, put at the head of the inbox; requests are served in order of arrival, which keeps
the order of each queue pair (R409). -/
def State.nextRequest (s : State) : Option (State × Request) :=
  (s.port.inbox.find? (fun r => !s.port.blocked r)).map (fun r =>
    (s.modPort (fun p => { p with inbox := r :: p.inbox.erase r }), r))

/-- R407. An operation that is not supported: a NAK, and the queue pair is in the error state. -/
def execInvalidRequest (s : State) : Host.Outcome State Fault Refusal :=
  .next (match s.port.inbox with
    | .unsupported qp :: _ => s.serveHead qp (fun s =>
        (s.reply (.nakInvalid qp)).modPort (fun p => { p with broken := addOnce qp p.broken }))
    | _ => s)

/-! ### RDMA (R408) -/

/-- The partition that a memory key names, if the key is right. -/
def State.keyPart (s : State) (key : BitVec 32) : Option Nat :=
  let p := (key.extractLsb' 0 4).toNat
  if (tget s.parts p).any (fun x => x.key == key.extractLsb' 4 28) then some p else none

/-- Write page by page; earlier pages stay written when a later one fails. -/
def State.hostWrite (s : State) (part : Nat) : Nat → Nat → List Byte → State × Bool
  | 0, _, _ => (s, true)
  | f + 1, va, bs =>
    if bs.isEmpty then (s, true)
    else match s.devXlate part 0 va .store with
      | .error _ => (s, false)
      | .ok (pa, e) =>
        let n := 65536 - va % 65536
        let s := (replicas (entRepl e) true pa).foldl (fun s a => s.devStore a part (bs.take n)) s
        s.hostWrite part f (va + n) (bs.drop n)

/-- Read page by page; poisoned data is not returned. -/
def State.hostRead (s : State) (part : Nat) : Nat → Nat → Nat → Option (List Byte)
  | 0, _, _ => some []
  | f + 1, va, len =>
    if len = 0 then some []
    else match s.devXlate part 0 va .load with
      | .error _ => none
      | .ok (pa, _) =>
        let n := Nat.min len (65536 - va % 65536)
        if s.poisoned pa n then none else (s.hostRead part f (va + n) (len - n)).map (s.bytes pa n ++ ·)

/-- R408. An RDMA WRITE. -/
def execRdmaWrite (s : State) : Host.Outcome State Fault Refusal :=
  .next (match s.port.inbox with
    | .write qp key va data :: _ => s.serveHead qp (fun s => match s.keyPart key with
        | none => s.reply (.nakAccess qp)
        | some p =>
          let r := s.hostWrite p (data.length / 65536 + 2) va data
          r.1.reply (if r.2 then .ack qp else .nakAccess qp))
    | _ => s)

/-- R408. An RDMA READ. -/
def execRdmaRead (s : State) : Host.Outcome State Fault Refusal :=
  .next (match s.port.inbox with
    | .read qp key va len :: _ => s.serveHead qp (fun s =>
        match (s.keyPart key).bind (fun p => s.hostRead p (len / 65536 + 2) va len) with
        | none => s.reply (.nakAccess qp)
        | some bs => s.reply (.data qp bs))
    | _ => s)

/-! ### Events (R411) -/

/-- R411. Name the queue pair that receives event records. -/
def execEvents (s : State) : Host.Outcome State Fault Refusal :=
  .next (match s.port.inbox with
    | .events qp h :: _ => s.serveCmd qp 9 h (fun s =>
        (s.modPort (fun p => { p with
          eventsQp := some qp, sent := p.sent ++ p.events.map (Answer.event qp eventOp), events := [] })).answerCmd qp h 0 [])
    | _ => s)

/-! ### Partitions (R397, R410) -/

/-- Is a creation refused (R14, R397, R416)? A tiller is taken while it has an active partition (log 24). DESIGN CHOICE: so is one whose
designation names a core outside the partition's tillers, of which R14 and R397 say nothing (log 24). -/
def State.createRefused (s : State) (p : Nat) (x : Part) : Bool :=
  15 < p || (tget s.parts p).isSome || !s.port.untrained.isEmpty || x.tils.isEmpty ||
  x.tils.any (fun t => 1024 ≤ t || (s.til t).part.isSome) ||
  x.services.any (fun k => !x.tils.contains (k / 4)) ||
  x.tils.any (fun t => !x.services.any (fun k => k / 1024 == dieOfTil t)) ||
  x.blocks.any (fun b => 128 ≤ b || s.parts.any (fun q => q.2.blocks.contains b)) ||
  2 ^ 40 < x.xpool + x.spill + s.parts.foldl (fun n q => n + q.2.xpool + q.2.spill) 0

/-- Pengal enters a leaf in a partition's tables, from a table of the level that `f` more follow; it gives the partition the
tables that are missing on the way (R217). -/
def State.mapLeaf (s : State) (part va : Nat) (leaf : Word) : Nat → Nat → State
  | 0, tbl => s.globalStore (tbl + 8 * (va / 2 ^ 16 % 512)) part (bytesOfNat 8 leaf.toNat) none
  | f + 1, tbl =>
    let a := tbl + 8 * (va / 2 ^ (16 + 9 * (f + 1)) % 512)
    let e := BitVec.ofNat 64 (s.rd a 8)
    if entV e && !entLeaf e then s.mapLeaf part va leaf f (entPa e)
    else
      let t := Config.tablePage part f (va / 2 ^ (16 + 9 * (f + 1))) % 2 ^ 24 * 2 ^ 16
      ((s.globalStore t part (List.replicate 4096 0) none).globalStore a part (bytesOfNat 8 (t + 1)) none).mapLeaf part va leaf f t

/-- The virtual base at which a queue block is mapped: the start of a page of global space (R93). -/
def blockVa (part block : Nat) : Nat := Config.blockBase part block % 2 ^ 36 * 2 ^ 16

/-- Pengal maps the page of a queue block into its partition, with RD, WR and PART, or unmaps it (R93, R218). -/
def State.mapBlock (s : State) (part block : Nat) (on : Bool) : State :=
  s.mapLeaf part (blockVa part block)
    (if on then BitVec.ofNat 64 (0xF + queueDesc (block * 1024) + part * 2 ^ 52) else 0) 3 (Config.tableRoot part)

/-- No TLB keeps a translation of a partition. -/
def State.dropTlb (s : State) (part : Nat) : State :=
  let keep := fun (l : List TlbEntry) => l.filter (fun e => entPart e.entry ≠ part)
  { s with
    cores := s.cores.map (fun k => (k.1, { k.2 with itlb := keep k.2.itlb, dtlb := keep k.2.dtlb }))
    tils := s.tils.map (fun t => (t.1, { t.2 with stlb := keep t.2.stlb }))
    dies := s.dies.map (fun d => (d.1, { d.2 with lltlb := keep d.2.lltlb })) }

/-- R410. Create a partition: its tillers' user contexts have generation 0x000 (R17), and Pengal maps its queue blocks (R93). -/
def execPartCreate (s : State) : Host.Outcome State Fault Refusal :=
  .next (match s.port.inbox with
    | .partCreate qp h p x :: _ => s.serveCmd qp 1 h (fun s =>
        if s.createRefused p x then s.answerCmd qp h 2 []
        else
          let s : State := { s with
            parts := tset s.parts p x
            ctxs := s.ctxs.map (fun c => if x.tils.contains (tilOf c.1) ∧ !privileged c.1 then (c.1, { c.2 with gen := 0 }) else c) }
          let s := x.tils.foldl (fun s t => s.modTil t (fun y => { y with part := some p })) s
          (x.blocks.foldl (fun s b => s.mapBlock p b true) s).answerCmd qp h 0 [])
    | _ => s)

/-- The queues of a partition are disabled (R400, R410). -/
def State.disableQueues (s : State) (p : Nat) : State :=
  (((tget s.parts p).map (·.blocks)).getD []).foldl (fun s b => (List.range 1024).foldl (fun s j =>
    let d := queueDesc (b * 1024 + j)
    if s.qMode d % 2 = 1 then s.qDisable d p else s) s) s

/-- The active tillers of a partition. -/
def State.tilsOf (s : State) (p : Nat) : List Nat := (s.tils.filter (fun t => t.2.part == some p)).map (·.1)

/-- A strand away from home is killed wherever it is, on its way too; the entry reserved for its ticket is free (R258). -/
def State.killAway (s : State) (h cause : Nat) : State :=
  let s := s.modCtx h (fun x => { x with life := .killing })
  match s.tils.findSome? (fun t => (t.2.landing.arriving.find? (fun m => m.home == h)).map (fun m => (t.1, m))) with
  | some (t, m) =>
    let s := s.modTil t (fun y => { y with landing := { y.landing with
      arriving := y.landing.arriving.erase m, reserved := y.landing.reserved.filter (· ≠ m.ticket) } })
    ((if m.src = h then s else s.leaveHost m.src).migrantDead h cause).laterOnce (.migrantLand t)
  | none => s.killMigrant h cause

/-- Every strand of a partition is killed with a cause (R400). -/
def State.killAll (s : State) (p cause : Nat) : State :=
  (s.ctxs.filter (fun x => !privileged x.1 && x.2.home.isNone && (s.til (tilOf x.1)).part == some p)).foldl (fun s x =>
    match (s.ctx x.1).life with
    | .free => s
    | .exited => s
    | .migrated => s.killAway x.1 cause
    | .killing => s.killAway x.1 cause
    | _ => s.killStrand x.1 cause) s

/-- A strand of a swapped-out partition ends: its steward is told, it counts in its launch, and what was reserved for it returns
(R102, R110, R400). -/
def State.killStowed (s : State) (p til c : Nat) (x : Ctx) (cause : Nat) : State :=
  let sid := p * 2 ^ 28 + c * 2 ^ 12 + x.gen.toNat
  let s := s.send (coreOf c) 0 { header := headerFrom c 2
                                 body := bodyOf [(0, 4, sid), (4, 1, 1), (5, 1, cause), (8, 8, killedStatus.toNat)] }
  let s :=
    if x.lobj = 0 then s
    else match s.objAt p til x.lobj.toNat with
      | none => s
      | some o => (if s.lvBad o then s else s.lvOr p o 2).lvAdd p til o 1
  s.replicaGone p c

/-- The scratchpad that a shadow array's partition has, after its members have left their counters by a kill (R366). -/
def State.shadowLeft (s : State) (til : Nat) (h : Shadow) : List Host.Cell × List Span :=
  let lo := locSpad til 0
  let hi := locSpad til (2 ^ 20)
  (h.members.foldl (fun u m => u.dropMember til m true) (s.regrab lo hi (h.cells, h.loose))).grab lo hi

/-- The strands that a shadow array holds are killed: it keeps only those that had ended. -/
def State.killShadow (s : State) (til cause : Nat) : State :=
  match (s.til til).shadow with
  | none => s
  | some h =>
    let near := s.shadowLeft til h
    let live := h.ctxs.filter (fun x => x.2.life != .free && x.2.life != .exited)
    let s := live.foldl (fun s x => s.killStowed h.part til x.1 x.2 cause) s
    s.modTil til (fun t => { t with shadow := t.shadow.map (fun g => { g with
      ctxs := h.ctxs.map (fun x => if x.2.life = .exited then x else (x.1, { Ctx.reset x.1 with cnt := x.2.cnt, gen := x.2.gen }))
      cells := near.1, loose := near.2, holders := [], owner := none, lost := [], members := [], credits := [], refs := []
      streams := [], merge := none, rings := [] }) })

/-- The tillers whose shadow arrays hold a partition. -/
def State.stowedOf (s : State) (p : Nat) : List Nat := (s.tils.filter (fun t => t.2.shadow.any (fun h => h.part == p))).map (·.1)

/-- The copies of a partition fail as copy errors (R361, R400); no CODE is stated for it, so the message carries a free one. -/
def State.failCopies (s : State) (p : Nat) : State :=
  (s.copies.filter (fun q => s.partOf (tilOf q.cid) == p)).foldl (fun s q => match q.state with
    | .landed => s
    | .failed _ => s
    | _ => s.tick.failCopy q (Config.freeNat s.nonce % 256) ((q.dests.head?.map (·.va)).getD 0)) s

/-- The strands of a partition, those in shadow arrays too. -/
def State.strandsOf (s : State) (p : Nat) : List (Nat × Ctx) :=
  s.ctxs.filter (fun x => (s.til (tilOf x.1)).part == some p) ++
  s.tils.flatMap (fun t => (t.2.shadow.toList.filter (fun h => h.part == p)).flatMap (·.ctxs))

/-- The job objects that the launches and strands of a partition name. -/
def State.jobsOf (s : State) (p : Nat) : List Nat :=
  let own := (s.strandsOf p).filter (fun x => x.2.lobj ≠ 0)
  ((s.launches.filter (fun l => l.part == p)).filterMap (fun l => s.objAt p l.til l.record.job) ++
    own.flatMap (fun x => (s.chainFrom p (tilOf x.1) maxObjects [] x.2.lobj.toNat).filter (fun o => s.lvLevel o == 4))).eraseDups

/-- A partition is charged with an uncorrectable error (R400). -/
def State.chargePart (s : State) (p : Nat) : State :=
  let s := s.disableQueues p
  let jobs := (s.jobsOf p).filter (fun o => !s.lvTerminal o)
  let s := jobs.foldl (fun s o => s.lvOr p o 1) s
  let s := (s.launches.filter (fun l => l.part == p)).foldl (fun s l =>
    match s.launches.find? (fun m => m.id == l.id) with
    | none => s
    | some l => s.cancelLaunch l) s
  let s := s.killAll p 12
  let s := (s.stowedOf p).foldl (fun s t => s.killShadow t 12) s
  let s := jobs.foldl (fun s o => if s.lvTerminal o then s else s.lvPut p o 25 1 4) s
  ((s.failCopies p).event 1 p).levelsMoved

/-- The words of a tiller's shadow array, as an error names them: locations from 2^53 on, by tiller (R399). -/
def shadowLoc (til : Nat) : Nat := 2 ^ 53 + til

/-- The unit at a location is damaged and counted; the partition that owns it, if any (R214, R399, R405). -/
def State.damage (s : State) (loc : Nat) : State × Option Nat :=
  if 2 ^ 53 ≤ loc then (s, ((s.til ((loc - 2 ^ 53) % 1024)).shadow).map (·.part))
  else if 2 ^ 52 ≤ loc then (s, some (loc - 2 ^ 52))
  else
    let s := if s.poison.contains (eccUnit loc) then s else { s with poison := eccUnit loc :: s.poison }
    match spadTil loc, qCore loc with
    | some t, _ => (s.modTil t (fun x => { x with spuecc := x.spuecc + 1 }), (s.til t).part)
    | none, some k => (s.modTil (k / 4) (fun x => { x with spuecc := x.spuecc + 1 }), (s.til (k / 4)).part)
    | none, none => (s.modDie (loc / 2 ^ 38 % 4) (fun d => { d with hbmuecc := d.hbmuecc + 1 }), tget s.owners (loc / 64))

/-- R400. An uncorrectable error. -/
def execUncorrectableError (loc : Nat) (s : State) : Host.Outcome State Fault Refusal :=
  let r := s.damage loc
  .next (match r.2 with
    | none => r.1.event 1 0xFF
    | some p => r.1.chargePart p)

/-- End a partition: its strands, launches, copies and queues, and all that is held for it (R410). -/
def State.endPart (s : State) (p : Nat) : State :=
  let s := s.disableQueues p
  let s := ((((tget s.parts p).map (·.blocks)).getD []).foldl (fun s b => s.mapBlock p b false) s).dropTlb p
  let s := (s.launches.filter (fun l => l.part == p)).foldl (fun s l => s.dropLaunch l) s
  let s := (s.killAll p 16).failCopies p
  let ts := s.tilsOf p
  let s := (s.stowedOf p).foldl (fun s t => (s.killShadow t 16).modTil t (fun y => { y with shadow := none })) s
  let s : State := { s with
    ctxs := s.ctxs.map (fun x => if ts.contains (tilOf x.1) ∧ !privileged x.1 then
      (x.1, { Ctx.reset x.1 with cnt := x.2.cnt, gen := x.2.gen }) else x)
    parts := tdel s.parts p, spills := tdel s.spills p, saves := s.saves.filter (fun v => v.part ≠ p)
    rings := s.rings.filter (fun r => isXring r.ring || !ts.contains (ringTil r.ring))
    flights := s.flights.filter (fun f => isXring f.ring || !ts.contains (ringTil f.ring)) }
  let s := s.modPort (fun q => { q with peerCopies := q.peerCopies.filter (fun c => c.part ≠ p) })
  ts.foldl (fun s t => (s.freePatterns t).modTil t (fun y => { y with
    part := none, members := [], refs := [], streams := [], merge := none, credits := [], landing := .reset
    lease := Tiller.reset.lease, owner := none, holders := [] })) s

/-- R410. Destroy a partition. -/
def execPartDestroy (s : State) : Host.Outcome State Fault Refusal :=
  .next (match s.port.inbox with
    | .partDestroy qp h p :: _ => s.serveCmd qp 2 h (fun s =>
        if s.port.swap.isSome then s.answerCmd qp h 3 []
        else if (tget s.parts p).isNone then s.answerCmd qp h 2 []
        else (s.endPart p).answerCmd qp h 0 [])
    | _ => s)

/-! ### Partition swap (R398) -/

/-- The user contexts of a tiller. -/
def userOf (til : Nat) : List Nat := ((List.range 64).map (til * 64 + ·)).filter (fun c => !privileged c)

/-- What a tiller's shadow array and save area take of its active partition. -/
def State.stow (s : State) (til p : Nat) : Shadow :=
  let t := s.til til
  let spad := s.grab (locSpad til 0) (locSpad til (2 ^ 20))
  { part := p, ctxs := s.ctxs.filter (fun x => (userOf til).contains x.1)
    tags := (List.range 4).map (fun k => (til * 4 + k, (s.core (til * 4 + k)).tags, (s.core (til * 4 + k)).tagb,
      (s.core (til * 4 + k)).tage))
    acc := t.acc, accFree := t.accFree, geom := t.geom, holders := t.holders, owner := t.owner, lost := t.lease.lost
    cells := spad.1, loose := spad.2, poison := s.poison.filter (fun u => spadTil u == some til)
    queues := (List.range 4).map (fun k => (til * 4 + k, s.grab (locQ (til * 4 + k) 0) (locQ (til * 4 + k) 16384)))
    tring := t.tring, thead := t.thead, landed := t.landed, members := t.members, credits := t.credits, landing := t.landing
    merge := t.merge, refs := t.refs, streams := t.streams
    rings := s.rings.filter (fun r => !isXring r.ring && ringTil r.ring == til)
    spad := t.spad }

/-- A tiller without a partition: contexts FREE, nothing held, and its SRAM unspecified. -/
def State.clearTil (s : State) (til : Nat) : State :=
  let s : State := { s with
    ctxs := s.ctxs.map (fun x => if (userOf til).contains x.1 then
      (x.1, { Ctx.reset x.1 with cnt := x.2.cnt, gen := x.2.gen }) else x)
    poison := s.poison.filter (fun u => spadTil u ≠ some til), 
    rings := s.rings.filter (fun r => isXring r.ring || ringTil r.ring ≠ til) }
  let s := s.scramble (locSpad til 0) (locSpad til (2 ^ 20))
  let s := (List.range 4).foldl (fun s k => (s.scramble (locQ (til * 4 + k) 0) (locQ (til * 4 + k) 16384)).modCore (til * 4 + k)
    (fun c => { c with tags := 0, tagb := 0, tage := 0 })) s
  s.modTil til (fun t => { t with
    part := none, acc := [], accFree := [], geom := Vector.replicate 8 geomReset, holders := [], owner := none
    tring := Vector.replicate 16 0, thead := Vector.replicate 16 0, landed := [], members := [], credits := []
    lease := Tiller.reset.lease, landing := .reset, merge := none, refs := [], streams := [], stageA := none, stageB := none
    stageV := none, half := none, jobs := [], l1 := [], spad := [] })

/-- A tiller takes the state of a partition that its shadow array held; generations increase (R396), and the tile lease is the
owner's if there is one (R309, R395). -/
def State.unstow (s : State) (til : Nat) (h : Shadow) : State :=
  let s := h.ctxs.foldl (fun s x => s.setCtx x.1 { x.2 with gen := if x.2.life = .free then x.2.gen else x.2.gen + 1 }) s
  let s := h.tags.foldl (fun s k => s.modCore k.1 (fun c => { c with tags := k.2.1, tagb := k.2.2.1, tage := k.2.2.2 })) s
  let s := s.regrab (locSpad til 0) (locSpad til (2 ^ 20)) (h.cells, h.loose)
  let s := h.queues.foldl (fun s q => s.regrab (locQ q.1 0) (locQ q.1 16384) q.2) s
  let s : State := { s with poison := h.poison ++ s.poison, rings := s.rings ++ h.rings }
  s.modTil til (fun t => { t with
    part := some h.part, acc := h.acc, accFree := h.accFree, geom := h.geom, holders := h.holders, owner := h.owner
    tring := h.tring, thead := h.thead, landed := h.landed, members := h.members, credits := h.credits
    landing := h.landing, merge := h.merge, refs := h.refs, streams := h.streams, spad := h.spad
    lease := { Tiller.reset.lease with holder := h.owner, lost := h.lost } })

/-- One tiller's exchange. -/
def State.exchange (s : State) (til : Nat) : State :=
  let s := (userOf til).foldl (fun s c => if (s.ctx c).life = .free then s else s.park c) s
  let s := s.freePatterns til
  let t := s.til til
  let out := t.part.map (s.stow til)
  let s := (s.clearTil til).modTil til (fun t => { t with shadow := out })
  let s := match t.shadow with
    | none => s
    | some h => s.unstow til h
  (List.range 4).foldl (fun s k => s.modCore (til * 4 + k) (fun c => { c with saving := none })) s

/-- The cores of a set of tillers, and those of them that are service cores of its partitions. -/
def coresOf (tils : List Nat) : List Nat := tils.flatMap (fun t => (List.range 4).map (t * 4 + ·))
def State.serviceCores (s : State) (tils : List Nat) : List Nat :=
  (coresOf tils).filter (fun k => s.parts.any (fun p => p.2.services.contains k))

/-- Elements on their way to rings of the set reach them. -/
def State.landFlights (s : State) (tils : List Nat) : State :=
  (s.flights.filter (fun f => !isXring f.ring && tils.contains (ringTil f.ring))).foldl (fun s f => s.arrive f.ring) s

/-- A swap halts a core; a save in progress keeps its area. -/
def State.haltCore (s : State) (k : Nat) : State := s.beginHalt k ((s.core k).saving.getD [])

/-- A pending swap goes on: service cores are halted once the others have drained (R393), and when all have, the partitions
are exchanged. -/
def State.swapOn (s : State) (qp : Nat) (h : SendHeader) (tils : List Nat) : State :=
  let svc := s.serviceCores tils
  let others := (coresOf tils).filter (fun k => !svc.contains k)
  if !others.all s.drained then s
  else if svc.any (fun k => (s.core k).saving.isNone) then svc.foldl (fun s k => if (s.core k).saving.isSome then s else s.haltCore k) s
  else if !svc.all s.drained then s
  else
    let s := s.landFlights tils
    let s := tils.foldl (fun s t => s.exchange t) s
    let s := (tils.filterMap (fun t => (s.til t).part)).eraseDups.foldl (fun s p => s.unspill p) s
    let s := tils.foldl (fun s t => s.laterOnce (.migrantLand t)) s
    ((s.modPort (fun p => { p with swap := none })).retryShares).answerCmd qp h 0 []

/-- May a set of tillers be swapped: one active partition, one held partition, and every tiller of each (log 24)? -/
def State.swapOk (s : State) (tils : List Nat) : Bool :=
  let act := (tils.map (fun t => (s.til t).part)).eraseDups
  let held := (tils.map (fun t => (s.til t).shadow.map (·.part))).eraseDups
  let whole := fun (p : Option Nat) => match p with
    | none => true
    | some p => ((tget s.parts p).map (·.tils)).any (fun ts => ts.all tils.contains)
  act.length == 1 && held.length == 1 && (act ++ held).all whole && (act ++ held).any Option.isSome && tils.all (· < 1024)

/-- A pending swap, if there is one, goes on. -/
def State.goOn (s : State) : State :=
  match s.port.swap with
  | none => s
  | some w => s.swapOn w.1 w.2.1 w.2.2

/-- R398. Swap a tiller set: the command halts its cores; the exchange follows when they have drained. A command of the queue pair
of the pending swap waits for it (R410). -/
def execPartSwap (s : State) : Host.Outcome State Fault Refusal :=
  .next (match s.port.inbox with
    | .partSwap qp h tils :: _ => if s.port.blocked (.partSwap qp h tils) then s.goOn else s.serveCmd qp 3 h (fun s =>
        if s.port.swap.isSome then s.answerCmd qp h 3 []
        else if !s.swapOk tils then s.answerCmd qp h 2 []
        else
          let svc := s.serviceCores tils
          ((coresOf tils).foldl (fun s k => if svc.contains k then s else s.haltCore k) s).modPort
            (fun p => { p with swap := some (qp, h, tils) }))
    | _ => s.goOn)

/-! ### Hold, tables, clock (R401, R410) -/

/-- A debug hold of a tiller, or its release. -/
def State.setHold (s : State) (qp : Nat) (h : SendHeader) (til : Nat) (on : Bool) : State :=
  if 1024 ≤ til then s.answerCmd qp h 1 [] else (s.modTil til (fun t => { t with hold := on })).answerCmd qp h 0 []

/-- R401. Hold a tiller. -/
def execHold (s : State) : Host.Outcome State Fault Refusal :=
  .next (match s.port.inbox with
    | .hold qp h til :: _ => s.serveCmd qp 4 h (fun s => s.setHold qp h til true)
    | _ => s)

/-- R401. Release a tiller. -/
def execUnhold (s : State) : Host.Outcome State Fault Refusal :=
  .next (match s.port.inbox with
    | .unhold qp h til :: _ => s.serveCmd qp 5 h (fun s => s.setHold qp h til false)
    | _ => s)

/-- R410. The physical bases of the queue tables, and the virtual bases of a partition's queue blocks. -/
def execQtable (s : State) : Host.Outcome State Fault Refusal :=
  .next (match s.port.inbox with
    | .qtable qp h p :: _ => s.serveCmd qp 6 h (fun s => match tget s.parts p with
        | none => s.answerCmd qp h 2 []
        | some x => s.answerCmd qp h 0 ((List.range 4).map (fun d => queueDesc (d * 2 ^ 15)) ++ x.blocks.map (blockVa p)))
    | _ => s)

/-- R410. Set the clock of a die. -/
def execClkset (s : State) : Host.Outcome State Fault Refusal :=
  .next (match s.port.inbox with
    | .clkset qp h die n :: _ => s.serveCmd qp 11 h (fun s =>
        if 4 ≤ die ∨ 16 ≤ n then s.answerCmd qp h 1 []
        else (s.modDie die (fun d => { d with clk := BitVec.ofNat 4 n })).answerCmd qp h 0 [])
    | _ => s)

/-- R384. An INTR message from the command port. DESIGN CHOICE: its reserved bytes are delivered as sent (log 55). -/
def execCommandPortIntr (s : State) : Host.Outcome State Fault Refusal :=
  .next (match s.port.inbox with
    | .intr core body :: r => ({ s with port := { s.port with inbox := r } } : State).send (core % 4096) 0
        { header := headerDevice 7, body := body }
    | _ => s)

/-! ### Peers (R412 to R414) -/

/-- R412. The module's number and its peers. -/
def execPeermap (s : State) : Host.Outcome State Fault Refusal :=
  .next (match s.port.inbox with
    | .peermap qp h own peers :: _ => s.serveCmd qp 10 h (fun s =>
        if 8192 ≤ own ∨ peers.any (fun p => 8192 ≤ p.1 || p.2.1 = 0 || 8 < p.2.1 || 2 ^ 48 ≤ p.2.2) then s.answerCmd qp h 1 []
        else (s.modPort (fun p => { p with own := some own, peers := peers })).answerCmd qp h 0 [])
    | _ => s)

/-- R414. A peer port is marked down. The producer ends bound until now over it get no more credit, and what they had sent and send
from now on is lost: such a channel is rebuilt only by work that binds its ends anew. Copies over it that the peer has not acknowledged
fail, and the peer's own come to nothing. -/
def execPeerLinkDown (port : Nat) (s : State) : Host.Outcome State Fault Refusal :=
  let away := fun (r : Nat) => isXring r && s.port.peers.any (fun p => p.1 == xringModule r && p.2.1 == port)
  let s : State := { s with
    flights := s.flights.filter (fun f => !away f.ring)
    port := { s.port with
      portsDown := addOnce port s.port.portsDown, linksUp := s.port.linksUp.filter (· ≠ port)
      failures := s.port.failures ++ [port], peerCopies := s.port.peerCopies.filter (fun q => q.port ≠ port) } }
  let hit := s.copies.filter (fun q => q.xmod.any (fun m => s.port.peers.any (fun p => p.1 == m && p.2.1 == port)))
  .next ((hit.foldl (fun s q => match q.state with
    | .landed => s
    | .failed _ => s
    | _ => s.failCopy q 5 ((q.dests.head?.map (·.va)).getD 0)) s).event 2 0xFF)

/-- R414. The link of a port that was marked down is up again: the port serves what is bound and issued from now on, and nothing
that was cut off starts by itself. -/
def execPeerLinkUp (port : Nat) (s : State) : Host.Outcome State Fault Refusal :=
  .next (if s.port.portsDown.contains port then s.modPort (fun p => { p with linksUp := addOnce port p.linksUp }) else s)

/-- Where a near address of another module's copy lies under a partition: it names a tiller of the partition (R201, R413). -/
def State.peerNear (s : State) (part va n : Nat) : Option (Nat × Nat) :=
  if (BitVec.ofNat 64 va).getLsbD 42 then none
  else (s.tilsOf part).head?.bind (fun t => match s.place t (BitVec.ofNat 64 va) with
    | some (.near u off) => if off + n ≤ (s.til u).spadSize then some (u, off) else none
    | _ => none)

/-- The pages of a global address, up to one that does not translate: for each the locations to write and the bytes. -/
def State.peerPages (s : State) (part : Nat) : Nat → Nat → Nat → List (List Nat × Nat)
  | 0, _, _ => []
  | f + 1, va, n =>
    if n = 0 then []
    else match s.devXlate part 0 va .store with
      | .error _ => []
      | .ok (pa, e) =>
        let k := Nat.min n (65536 - va % 65536)
        (replicas (entRepl e) true pa, k) :: s.peerPages part f (va + k) (n - k)

/-- The slots of a claim from a copy-order number on. -/
def Claim.pieces (c : Claim) : Nat → Nat → Nat → List (List Nat × Nat)
  | 0, _, _ => []
  | f + 1, pos, n => if n = 0 then [] else
    ([(c.spot pos).1], Nat.min n (c.spot pos).2) :: c.pieces f (pos + Nat.min n (c.spot pos).2) (n - Nat.min n (c.spot pos).2)

/-- What becomes of a write of another module's copy: it waits for slots (R314), or for its partition to be there; it is refused with a
code; or it goes to pieces of memory, which do not take in all of it where a page does not translate. -/
inductive PeerFate where
  | waits
  | refused (code : Nat)
  | goes (ps : List (List Nat × Nat)) (q : PeerCopy)
  deriving DecidableEq, Repr

/-- The codes are those of R361. With DRING the first write claims the copy's slots (R314, R356). -/
def State.peerFate (s : State) (q : PeerCopy) (va : Nat) (w : PeerWrite) : State × PeerFate :=
  let n := w.data.length
  if w.dring then
    match q.claim with
    | some c => (s, if (s.til c.til).part = some q.part then .goes (c.pieces (n / 512 + 2) q.pos n) q else .waits)
    | none =>
      if (s.tilsOf q.part).isEmpty then (s, .waits)
      else match s.peerNear q.part (va - va % 16) 0 with
        | none => (s, .refused 1)
        | some (t, off) =>
          let r := (t, va % 16)
          if off ≠ 0 then (s, .refused 1)
          else if s.ringRefuses r w.total then (s, .refused 3)
          else if !s.slotsFree r w.total then (s, .waits)
          else
            let c := (s.claimIn r w.total).2
            ((s.claimIn r w.total).1, .goes (c.pieces (n / 512 + 2) q.pos n) { q with claim := some c })
  else if va < 2 ^ 52 then (s, .goes (s.peerPages q.part (n / 65536 + 2) va n) q)
  else if (s.tilsOf q.part).isEmpty then (s, .waits)
  else match s.peerNear q.part va n with
    | none => (s, .refused 1)
    | some (t, off) => (s, .goes [([locSpad t off], n)] q)

/-- Write pieces one after another. -/
def State.writePieces (s : State) (part : Nat) : List (List Nat × Nat) → List Byte → State
  | [], _ => s
  | p :: ps, bs => (p.1.foldl (fun s a => s.devStore a part (bs.take p.2)) s).writePieces part ps (bs.drop p.2)

/-- Bytes of another module's copy land; those that a copy in flight shares hold unspecified values (R355). -/
def State.landPeer (s : State) (q : PeerCopy) (ps : List (List Nat × Nat)) (bs : List Byte) : State × PeerCopy :=
  let here := ps.flatMap (fun p => p.1.map (fun a => (a, p.2)))
  let rest := s.modPort (fun x => { x with peerCopies := x.peerCopies.filter (fun p => !(p.port == q.port && p.id == q.id)) })
  let r := rest.sharers none here
  let s := ((r.1.keepSources r.2).writePieces q.part ps bs).scrambleAll r.2
  let ends := (List.range bs.length).map (q.pos + · + 1)
  (match q.claim with
    | none => s
    | some c => (ends.filter (fun n => n % ringSlot c.reg = 0)).foldl (fun s n => s.landClaim c n) s,
    { q with pos := q.pos + bs.length, landed := q.landed ++ here })

/-- R413. Bytes of another module's copy arrive on a port and are written under the partition that they name: in near space, in global
space page by page up to a page that does not translate, or in the slots of a ring. The last is acknowledged; a copy that
is refused, by a fault with code 5, is over. -/
def execXmodCopyWrite (port part va : Nat) (w : PeerWrite) (s : State) : Host.Outcome State Fault Refusal :=
  let same := fun (q : PeerCopy) => q.port == port && q.id == w.copy
  let q := (s.port.peerCopies.find? same).getD { port := port, id := w.copy, part := part, pos := 0, landed := [], claim := none }
  let close := fun (s : State) (m : PeerMsg) =>
    (s.modPort (fun x => { x with peerCopies := x.peerCopies.filter (fun q => !same q) })).toPeer m
  .next (if s.port.isDown port ∨ !s.port.peers.any (fun p => p.2.1 == port) then s
    else if (tget s.parts part).isNone then close s (.refused port w.copy 5)
    else
      let f := s.peerFate q va w
      match f.2 with
      | .waits => s
      | .refused code => close s (.refused port w.copy code)
      | .goes ps q =>
        let r := f.1.landPeer q ps w.data
        if (ps.foldl (fun n p => n + p.2) 0) < w.data.length then close r.1 (.refused port w.copy 5)
        else if w.total ≤ r.2.pos then close r.1 (.acked port w.copy)
        else r.1.modPort (fun x => { x with peerCopies := x.peerCopies ++ [r.2] }))

/-! ### Die edges (R415) -/

/-- The dies that an edge joins: edges 0 to 3 are 0–1, 1–3, 3–2 and 2–0. -/
def edgeDies (e : Nat) : List Nat := if e = 0 then [0, 1] else if e = 1 then [1, 3] else if e = 2 then [3, 2] else [2, 0]

/-- Partitions with a tiller on a die. -/
def State.partsOn (s : State) (die : Nat) : List Nat :=
  (s.parts.filter (fun p => p.2.tils.any (fun t => dieOfTil t == die))).map (·.1)

/-- R415. A flit is replayed; the replay succeeds, or fails and is tried again, up to 64 times in a row. -/
def execFlitReplay (edge : Nat) (s : State) : Host.Outcome State Fault Refusal :=
  .next (if s.port.edgesDown.contains edge then s
    else
      let n := (tget s.port.replays edge).getD 0 + 1
      let fails := Config.freeBool s.nonce
      let s := s.tick
      if !fails then s.modPort (fun p => { p with replays := tdel p.replays edge })
      else (s.modPort (fun p => { p with replays := tset p.replays edge n })).laterOnce
        (if n < 64 then .flitReplay edge else .ucieEdgeDown edge))

/-- R415. An edge is marked down; a die that has lost two edges has its partitions charged. -/
def execUcieEdgeDown (edge : Nat) (s : State) : Host.Outcome State Fault Refusal :=
  let e := edge % 4
  .next (if s.port.edgesDown.contains e then s
    else
      let s := (s.modPort (fun p => { p with edgesDown := p.edgesDown ++ [e], replays := tdel p.replays e })).event 3 0xFF
      let cut := (edgeDies e).filter (fun d => 2 ≤ (s.port.edgesDown.filter (fun x => (edgeDies x).contains d)).length)
      (cut.flatMap s.partsOn).eraseDups.foldl (fun s p => s.chargePart p) s)

/-! ### Firmware and attestation (R417 to R419) -/

/-- MAGIC of a firmware image. -/
def imageMagic : Nat := 0x47465750

def imageSvn (bs : List Byte) : Nat := numAt bs 4 4
def imagePayload (bs : List Byte) : List Byte := (bs.drop 4707).take (numAt bs 8 8)

/-- Does the boot ROM accept an image (R417)? -/
def imageOk (min : Nat) (bs : List Byte) : Bool :=
  numAt bs 0 4 = imageMagic && bs.length = 4707 + numAt bs 8 8 &&
  Config.mldsaVerify (bs.take 80) ((bs.drop 80).take 4627) &&
  numAt bs 16 64 = (Config.sha3 (imagePayload bs)).toNat && min ≤ imageSvn bs

/-- The running image after a reset: the staged one if the boot ROM accepts it, else the one kept (R417). -/
def Port.boot (p : Port) : Port :=
  match p.staged with
  | none => p
  | some bs =>
    if imageOk p.svnMin bs then
      { p with image := bs, svn := imageSvn bs, staged := none
               svnMin := Nat.max p.svnMin ((Config.imageMinimum (imagePayload bs)).getD 0) }
    else { p with staged := none }

/-- Is the image that is being loaded staged now? -/
def State.loadDue (s : State) : Option (Nat × SendHeader × List Byte × Word) :=
  s.port.loading.filter (fun w => w.2.2.2 ≤ (s.core 0).cycle)

/-- R410. Stage a firmware image: the command begins the load, which lasts for a number of cycles that the manual does not give
(log 45), and its end stages the image; a second FWLOAD meanwhile is busy. -/
def execFwload (s : State) : Host.Outcome State Fault Refusal :=
  .next (match s.loadDue with
    | some w => (s.modPort (fun p => { p with staged := some w.2.2.1, loading := none })).answerCmd w.1 w.2.1 0 []
    | none => match s.port.inbox with
      | .fwload qp h bs :: _ => s.serveCmd qp 8 h (fun s =>
          if s.port.loading.isSome then s.answerCmd qp h 3 []
          else (s.modPort (fun p => { p with
            loading := some (qp, h, bs, (s.core 0).cycle + BitVec.ofNat 64 (Config.freeNat s.nonce % 2 ^ 32)) })).tick)
      | _ => s)

/-- An attestation report (R418): MAGIC, family and part, stepping, Pengal release, SVN, measurements, stacks, edges and the
nonce. DESIGN CHOICE: R418 gives the fields no widths; stepping, release and SVN take 4 bytes each, the stacks 2 and the
edges 1 (log 45). -/
def State.attestation (s : State) (nonce : List Byte) : List Byte :=
  let p := s.port
  Config.reportHead ++ bytesOfNat 4 Config.stepping ++ bytesOfNat 4 p.release ++ bytesOfNat 4 p.svn ++
    bytesOfNat 64 (Config.sha3 p.image).toNat ++ bytesOfNat 2 (p.untrained.foldl (fun a k => a ||| 2 ^ k) 0) ++
    bytesOfNat 1 (p.edgesDown.foldl (fun a k => a ||| 2 ^ k) 0) ++ nonce

/-- R418. Attest; during a FWLOAD the answer is busy. -/
def execAttest (s : State) : Host.Outcome State Fault Refusal :=
  .next (match s.port.inbox with
    | .attest qp h nonce :: _ => s.serveCmd qp 7 h (fun s =>
        if nonce.length ≠ 64 then s.answerCmd qp h 1 []
        else if s.port.loading.isSome then s.answerCmd qp h 3 []
        else s.reply (.report qp h.answerTag h.answerOp 0 (s.attestation nonce) (Config.mldsaSign (s.attestation nonce))))
    | _ => s)

/-- R419. Power good: the module boots and is as after reset; which stacks train is not the module's to choose. What is fused
or stored stays: the image, the minimum and the security version (R417). -/
def execPowerGood (s : State) : Host.Outcome State Fault Refusal :=
  let p := s.port.boot
  .next { State.reset with
    nonce := s.nonce + 16
    port := { Port.reset with
      svn := p.svn, svnMin := p.svnMin, image := p.image, release := p.release
      untrained := (List.range 16).filter (fun k => Config.freeBool (s.nonce + k)) } }

/-! ### Board management and envelope (R420, R421) -/

/-- Does the module answer at an address on the board bus: its static or its dynamic one (R420)? -/
def Port.onBus (p : Port) (at_ : BitVec 7) : Bool := at_ == 0x4C || p.i3c == some at_

/-- R420. The controller assigns a dynamic address. -/
def execI3cDynamicAddress (s : State) : Host.Outcome State Fault Refusal :=
  .next (match s.port.inbox with
    | .i3cAddress at_ a :: r => { s with port := { s.port with
        inbox := r, i3c := if s.port.onBus at_ then some a else s.port.i3c } }
    | _ => s)

/-- What a read on the board bus returns: 0 stepping, 1 the module number, 2 the fault summary; temperatures and power are
the environment's (log 13). -/
def State.boardValue (s : State) (what : Nat) : Word :=
  if what = 0 then BitVec.ofNat 64 Config.stepping
  else if what = 1 then BitVec.ofNat 64 (s.port.own.getD 0)
  else if what = 2 then BitVec.ofNat 64 (s.port.faults.foldl (fun a k => a ||| 2 ^ k) 0)
  else Config.freeWord s.nonce

/-- R420. A read on the board bus. -/
def execI3cRead (s : State) : Host.Outcome State Fault Refusal :=
  .next (match s.port.inbox with
    | .i3cRead at_ what :: r =>
      let t : State := { s with port := { s.port with inbox := r } }
      if s.port.onBus at_ then (t.reply (.i3c what (s.boardValue what))).tick else t
    | _ => s)

/-- R420. Orderly shutdown: every partition is destroyed, once no swap is pending. -/
def execOrderlyShutdown (s : State) : Host.Outcome State Fault Refusal :=
  .next (match s.port.inbox with
    | .shutdown at_ :: r =>
      if s.port.onBus at_ ∧ s.port.swap.isSome then s
      else
        let t : State := { s with port := { s.port with inbox := r } }
        if s.port.onBus at_ then s.parts.foldl (fun s p => s.endPart p.1) t else t
    | _ => s)

/-- R421. At 95 °C a die's throttle is raised. -/
def execThermalThrottle (die : Nat) (throt : BitVec 4) (s : State) : Host.Outcome State Fault Refusal :=
  .next ((s.modDie (die % 4) (fun d => { d with throt := if d.throt.toNat < throt.toNat then throt else d.throt })).event 4 0xFF)

/-- R421. At 110 °C the module shuts down, and the command port drops. -/
def execThermalShutdown (s : State) : Host.Outcome State Fault Refusal :=
  .next (s.modPort (fun p => { p with down := true, openPort := false }))

/-! ### Unassigned words (R40) -/

/-- R40. A word whose opcode is not assigned raises ILLEGAL. -/
def execUnassignedOpcode (w : IWord) (s : State) : Host.Outcome State Fault Refusal :=
  performRaw (.unassignedOpcode w) (raise Cause.illegal) s

end Sys2Proof.Machine
end

