-- ==== Sys2Proof/Machine/Timing.lean ====
section
/-! DEFINITION. Time (R56, R69 to R78, R206 to R208, R212 to R215, R318, R344): issue distances, waves and ports of the
scratchpad, readiness and rotation, the charging of cycles, the cycle of a core, and what an issue comes to. -/

namespace Sys2Proof.Machine

/-! ### Issue distances (R56, R72) -/

/-- The issue distance of a word's results where it does not depend on an address (R72, R115, R155, R321, R339, R368, R385,
R386, R390). -/
def issueDistance (w : IWord) : Nat :=
  let op := opOf w
  let fp := isFloat (w.extractLsb' 5 4).toNat
  let code := (w.extractLsb' 16 3).toNat
  if op = 0x03 ∨ op = 0x04 ∨ op = 0x05 then 8
  else if 0x06 ≤ op ∧ op ≤ 0x09 then 36
  else if op = 0x39 ∨ op = 0x3A then 8
  else if op ≤ 0x37 then 4
  else if op = 0x48 ∨ op = 0x49 ∨ op = 0x4A ∨ op = 0x4B ∨ op = 0x4D ∨ op = 0x4F ∨ op = 0x51 then 12
  else if 0x60 ≤ op ∧ op ≤ 0x6D ∨ op = 0x78 then 12
  else if 0x7B ≤ op ∧ op ≤ 0x82 then 16
  else if 0x88 ≤ op ∧ op ≤ 0x8D then 12
  else if op = 0x93 ∨ op = 0x94 then 12
  else if op = 0x90 ∨ op = 0x91 ∨ op = 0x92 ∨ op = 0x95 ∨ op = 0x96 then (if fp then 12 else 8)
  else if op = 0xA7 ∨ op = 0xA8 then (if code = 2 ∨ code = 3 ∨ code = 6 then 12 else 8)
  else if 0x99 ≤ op ∧ op ≤ 0x9C then 24
  else if op = 0xAB ∨ op = 0xAC then 20
  else if op = 0xAE ∨ op = 0xAF ∨ op = 0xB0 then 12
  else if 0x97 ≤ op ∧ op ≤ 0xAD then 8
  else if op = 0xC2 ∨ op = 0xC3 ∨ op = 0xCB then 8
  else if 0xD1 ≤ op ∧ op ≤ 0xD4 then 8
  else if op = 0xD8 ∨ op = 0xD9 then 12
  else if 0xDA ≤ op ∧ op ≤ 0xDC then 8
  else if 0xDD ≤ op ∧ op ≤ 0xE1 then 16
  else if op = 0xE8 ∨ op = 0xEC ∨ op = 0xEE ∨ op = 0xEF ∨ op = 0xF1 then 8
  else 4

/-! ### Registers that are waited for -/

/-- Registers in one numbering: s0 to s31, then v0 to v15, then m0 to m7. -/
def Fld.reg : Fld → Nat
  | .s n => n
  | .v n => 32 + n
  | .ab n => if n < 16 then 32 + n else n

/-- The number of FSTAT as something waited for (R278). -/
def regFstat : Nat := 56

/-- The special register that an MFS or MTS names, as something waited for: FSTAT or a mask (R278, R289, R379). -/
def specialReg (n : Nat) : List Nat :=
  if n = 0x13 then [regFstat] else if 0x20 ≤ n ∧ n ≤ 0x26 then [48 + (n - 0x1F)] else []

/-- The masks that a word reads (R35): its F[2:0], the fields of the mask instructions, or what MFS and MTS name. -/
def maskReads (w : IWord) : List Nat :=
  let op := opOf w
  if (0x66 ≤ op ∧ op ≤ 0x69) ∨ (0x88 ≤ op ∧ op ≤ 0xA5) ∨ (0xAB ≤ op ∧ op ≤ 0xB0) then [48 + (w.extractLsb' 0 3).toNat]
  else if op = 0xB1 ∨ op = 0xB2 then [48 + (w.extractLsb' 14 3).toNat, 48 + (w.extractLsb' 9 3).toNat]
  else if op = 0xB3 then [48 + (w.extractLsb' 14 3).toNat]
  else if op = 0xE8 ∨ op = 0xE9 then specialReg (w.extractLsb' 0 16).toNat
  else []

/-- The second register of BACC's pair (R329). -/
def pairReg (w : IWord) : List Nat := if opOf w = 0xCB then [(w.extractLsb' 19 5).toNat, (w.extractLsb' 19 5).toNat + 1] else []

/-- The registers that fields name: one that names a bound end names no register (R36). -/
def Ctx.regsOf (x : Ctx) (fs : List Fld) : List Nat := (fs.filter (fun f => (x.endOf f).isNone)).map Fld.reg

/-- The registers a word reads. -/
def Ctx.wordReads (x : Ctx) (w : IWord) : List Nat :=
  (match decode w with
  | .ok i => x.regsOf (i.reads ++ i.readsAndWrites)
  | .error _ => []) ++ maskReads w ++ pairReg w

/-- The registers a word writes. DESIGN CHOICE: s0 and m0 count as such though a write to them is discarded (R56, R297; log 55). -/
def Ctx.wordWrites (x : Ctx) (w : IWord) : List Nat :=
  (match decode w with
  | .ok i => x.regsOf (i.writes ++ i.readsAndWrites)
  | .error _ => []) ++
  (if opOf w = 0x9D ∨ (0xB1 ≤ opOf w ∧ opOf w ≤ 0xB3) then [48 + (w.extractLsb' 19 3).toNat]
   else if opOf w = 0xE9 then (specialReg (w.extractLsb' 0 16).toNat).filter (· ≠ regFstat) else []) ++ pairReg w

/-- The results that an attempt holds for ends, each of which a TXE publishes. DEDUCED: so it issues no earlier than all of them
are there (R68), for its commit is one step (R178; log 55). -/
def Ctx.heldDues (x : Ctx) : List Due :=
  x.tx.point.ops.filterMap (fun o => match o with
    | .deq _ => none
    | .enq _ _ due => some { reg := regNext, at_ := due, plain := due })

/-- What of a context still holds back a word (R56). -/
def Ctx.blocking (x : Ctx) (cycle : Word) (w : IWord) : List Due :=
  let regs := regNext :: (x.wordReads w ++ x.wordWrites w)
  (x.ready ++ if opOf w = 0x5A then x.heldDues else []).filter
    (fun d => regs.contains d.reg && cycle.toNat < d.at_.toNat)

/-- The spacing of R69: no issue in the three preceding cycles. -/
def Ctx.spaced (x : Ctx) (cycle : Word) : Bool :=
  match x.lastIssue with
  | none => true
  | some t => t.toNat + 4 ≤ cycle.toNat

/-! ### What an instruction touches -/

/-- The accesses of an instruction: whether they are atomics, whether they go to every replica of a page (R232), whether they are
loads that may hit the L1, the bytes of each, the addresses, and a die whose L2 it goes to besides (R115). -/
structure Touch where
  atomic : Bool
  all : Bool
  l1 : Bool
  n : Nat
  vas : List (Nat × Word)
  die : Option Nat
  deriving DecidableEq, Repr

def loads (n : Nat) (vas : List (Nat × Word)) : Touch := { atomic := false, all := false, l1 := true, n := n, vas := vas, die := none }
def stores (n : Nat) (vas : List (Nat × Word)) : Touch := { atomic := false, all := false, l1 := false, n := n, vas := vas, die := none }
def atomics (n : Nat) (vas : List (Nat × Word)) : Touch := { atomic := true, all := false, l1 := false, n := n, vas := vas, die := none }

/-- The addresses of an atomic, counter or level-object instruction: the one in A. -/
def atomicAt (a : BitVec 5) (n : Nat) : Op Touch := do return atomics n [(0, ← rdS a)]

/-- The addresses of a vector access. -/
def lanesAt (t : BitVec 4) (m : BitVec 3) (va : Nat → Word) : Op (Nat × List (Nat × Word)) := do
  return (widthOf t.toNat / 8, laneAddrs (widthOf t.toNat) (← rdM m.toNat) va)

/-- What an instruction of the memory, atomic, counter and launch classes touches. -/
def touchBody : Instr → Option (Op Touch)
  | .ld _ a k => some (do return loads 8 [(0, ← addrJ a k)])
  | .st _ a k => some (do return stores 8 [(0, ← addrJ a k)])
  | .stm _ a k => some (do return { stores 8 [(0, ← addrJ a k)] with all := true })
  | .vld _ a k => some (do return loads 64 [(0, ← addrJ a k)])
  | .vst _ a k => some (do return stores 64 [(0, ← addrJ a k)])
  | .ldx _ a b t _ => some (do return loads (sizeOf t) [(0, (← rdS a) + (← rdS b) * BitVec.ofNat 64 (sizeOf t))])
  | .stx _ a b t => some (do return stores (sizeOf t) [(0, (← rdS a) + (← rdS b) * BitVec.ofNat 64 (sizeOf t))])
  | .vlds _ a b t _ m => some (do
      let p ← lanesAt t m (strided (← rdS a) (← rdS b))
      return loads p.1 p.2)
  | .vsts _ a b t m => some (do
      let p ← lanesAt t m (strided (← rdS a) (← rdS b))
      return stores p.1 p.2)
  | .vgth _ a b t _ m => some (do
      let p ← lanesAt t m (indexed (widthOf t.toNat) (← rdS a) (← rdAB b (widthOf t.toNat)))
      return loads p.1 p.2)
  | .vsct _ a b t m => some (do
      let p ← lanesAt t m (indexed (widthOf t.toNat) (← rdS a) (← rdAB b (widthOf t.toNat)))
      return stores p.1 p.2)
  | .ldaq _ a sc _ w => some (do return { loads (widthSize w) [(0, ← rdS a)] with l1 := decide (sc.toNat < 3) })
  | .strl _ a _ _ w => some (do return stores (widthSize w) [(0, ← rdS a)])
  | .red _ a _ _ _ w => some (do return stores (widthSize w) [(0, ← rdS a)])
  | .amoadd _ a _ _ _ w => some (atomicAt a (widthSize w))
  | .amoswp _ a _ _ _ w => some (atomicAt a (widthSize w))
  | .amocas _ a _ _ _ w => some (atomicAt a (widthSize w))
  | .amomin _ a _ _ _ w => some (atomicAt a (widthSize w))
  | .amomax _ a _ _ _ w => some (atomicAt a (widthSize w))
  | .amoand _ a _ _ _ w => some (atomicAt a (widthSize w))
  | .amoor _ a _ _ _ w => some (atomicAt a (widthSize w))
  | .amoxor _ a _ _ _ w => some (atomicAt a (widthSize w))
  | .aexp _ a _ _ => some (atomicAt a 16)
  | .arrv _ a _ _ => some (atomicAt a 16)
  | .wphsWait _ a _ _ => some (atomicAt a 16)
  | .wphsTest _ a _ _ => some (atomicAt a 16)
  | .bjoin _ a => some (atomicAt a 16)
  | .bleav _ a => some (atomicAt a 16)
  | .launch _ _ b => some (do return { atomics 8 [] with die := some (queueDesc (← rdS b).toNat / 2 ^ 38 % 4) })
  | .done _ a _ _ => some (atomicAt a 64)
  | .cancel _ a => some (atomicAt a 64)
  | .lcntCmp _ a => some (atomicAt a 64)
  | .lcntExp _ a => some (atomicAt a 64)
  | .lcntSt _ a => some (atomicAt a 64)
  | .lwait _ a _ _ => some (atomicAt a 64)
  | .place _ _ _ => some (do return { atomics 8 [] with die := some (dieOfTil (← get).myTil) })
  | _ => none

/-- What the instruction of a context touches, in a state in which its operands can be read. -/
def State.touchOf (s : State) (c : Nat) (i : Instr) : Option Touch :=
  (touchBody i).bind (fun f => match (do
      examineFields i
      f : Op Touch) { s with cur := c } with
    | .ok (t, _) => some t
    | .error _ => none)

/-- Where a lane is served: in the own scratchpad or that of another tiller at an offset, by the L1, or by the L2 of a die. -/
inductive Path where
  | own (off : Nat)
  | remote (til off : Nat)
  | hit (line : Nat)
  | slice (die line : Nat)
  deriving DecidableEq, Repr

/-- The paths of a lane, and what its translation adds (R209, R211, R216): one, but for a store to every replica of a page
(R232). -/
def State.pathsOf (s : State) (c : Nat) (t : Touch) (va : Word) : List (Path × Nat) :=
  let til := tilOf c
  match s.place til va with
  | none => []
  | some (.near n off) => [(if n = til then .own off else .remote n off, 0)]
  | some (.global a) =>
    let direct := ctxNo c = 15
    let entry := if direct then none else (s.lookup c false a).1
    let pa := (entry.map (fun e => e.pa a (dieOfTil til))).getD a
    let hit := t.l1 && !direct && !(s.ctx c).mig && !(s.ctx c).tx.active && (s.til til).l1sz ≠ 0 &&
      (s.til til).l1.any (fun x => x.line == pa / 64)
    let add := if direct then 0 else s.tlbDelay c false a
    if hit then [(.hit (pa / 64), add)]
    else (replicas (entry.any (fun e => entRepl e.entry)) t.all pa).map (fun l => (.slice (l / 2 ^ 38 % 4) (l / 64), add))

/-- The least and the most that a load served by an L2 slice takes on an idle package (R212): of the own die, an adjacent or the
diagonal one, and whether the L2 has the line. -/
def sliceBounds (a b : Nat) (inL2 : Bool) : Nat × Nat :=
  let far := a ^^^ b
  if inL2 then (if far = 0 then (172, 280) else if far = 3 then (322, 450) else (322, 430))
  else if far = 0 then (560, 780) else (710, 950)

/-- The cycles after which a lane's value is there (R72, R212, R213, R253): on an idle package those of R213, or a row of R212. The
device has or has not the line in L2; 4 cycles for each hop to the slice are among the row's, and the rest of them is free
(log 11). Else a remote lane and a miss of the L1 wait for the data however long that takes, so a free number is added to the least
they take. -/
def Path.cycles (p : Path) (til : Nat) (atomic quiet : Bool) (n : Nat) : Nat :=
  let more := fun (most : Nat) => if quiet then Config.freeNat n % (most + 1) else Config.freeNat n
  match p with
  | .own _ => if atomic then 16 else 12
  | .remote t _ => meshCycles til t + (if atomic then 4 else 0) + more 0
  | .hit _ => 28
  | .slice d line =>
    let row := sliceBounds d (dieOfTil til) (Config.freeBool n)
    let hops := Config.sliceHops til (homeSlice (64 * line)) % ((row.2 - row.1) / 4 + 1)
    row.1 + 4 * hops + more (row.2 - row.1 - 4 * hops)

/-! ### Banks and waves (R205, R206) -/

/-- The quadrant and bank of an offset in one number (R204, R205). -/
def spadBank (swz : BitVec 16) (o : Nat) : Nat :=
  let b := o / 8 % 32
  o / 256 % 4 * 32 + (if swz.getLsbD (o / 65536) then b ^^^ (o / 1024 % 32) else b)

/-- The number of waves for distinct words in some banks: max(M, ceil(D / 16)) (R206). -/
def waveCount (banks : List Nat) : Nat :=
  banks.eraseDups.foldl (fun m b => Nat.max m (banks.filter (· == b)).length) ((banks.length + 15) / 16)

/-- The banks of each wave: words of one bank are dealt to different waves, and no wave has more than 16. -/
def wavesOf (banks : List Nat) : List (List Nat) :=
  let l := banks.eraseDups.flatMap (fun b => banks.filter (· == b))
  let w := waveCount banks
  (List.range w).map (fun j => (l.zipIdx.filter (fun p => p.2 % w == j)).map (·.1))

/-- An access outside the own scratchpad: to another tiller's, or to global space and there served by the L1 or not; its line; and
the cycles that it lasts. -/
structure Ask where
  far : Bool
  hit : Bool
  line : Nat
  cycles : Nat
  deriving DecidableEq, Repr

/-- What the accesses of an instruction take: its waves, those of its core that are to be served before them, the cycles of its
slowest lane outside the own scratchpad, and its accesses there. -/
structure Reach where
  waves : List (List Nat)
  ahead : Nat
  slow : Nat
  reqs : List Ask
  deriving DecidableEq, Repr

/-- The accesses on some paths, one for each line. DESIGN CHOICE: also in remote near space, of which R215 does not say what one
request covers (log 55). -/
def requestsOf (til : Nat) (atomic quiet : Bool) (n : Nat) (ps : List (Path × Nat)) : List Ask :=
  let all := ps.zipIdx.filterMap (fun p =>
    let ask := fun (far hit : Bool) (line : Nat) =>
      some ({ far := far, hit := hit, line := line, cycles := p.1.1.cycles til atomic quiet (n + p.2) + p.1.2 } : Ask)
    match p.1.1 with
    | .own _ => none
    | .remote t off => ask true false (t * 2 ^ 20 + off / 64)
    | .hit line => ask false true line
    | .slice _ line => ask false false line)
  ((all.map (fun x => { x with cycles := 0 })).eraseDups).map (fun k =>
    { k with cycles := (all.filter (fun x => { x with cycles := 0 } == k)).foldl (fun m x => Nat.max m x.cycles) 0 })

/-- What a touch takes; free numbers are drawn from `n` on. -/
def State.reach (s : State) (c : Nat) (t : Touch) (n : Nat) : Reach :=
  let til := tilOf c
  let ps := t.vas.flatMap (fun p => s.pathsOf c t p.2)
  let own := ps.filterMap (fun p => match p.1 with
    | .own off => some off
    | _ => none)
  let slow := ps.zipIdx.foldl (fun m p => match p.1.1 with
    | .own _ => m
    | q => Nat.max m (q.cycles til t.atomic s.quiet (n + p.2) + p.1.2)) 0
  let waves := wavesOf ((wordsOf t.n own).map (spadBank (s.til til).swz))
  { waves := waves
    ahead := if waves.isEmpty then 0 else (s.core (coreOf c)).waves.length
    slow := match t.die with
      | none => slow
      | some d => Nat.max slow ((Path.slice d 0).cycles til true s.quiet (n + ps.length))
    reqs := requestsOf til t.atomic s.quiet n ps }

/-! ### What an instruction that has completed leaves (R56, R206, R278) -/

/-- Does an instruction set flags of FSTAT, and after how many cycles, where that is its distance (R277, R278)? -/
def setsFlags (w : IWord) : Bool :=
  let op := opOf w
  let fp := isFloat (w.extractLsb' 5 4).toNat
  let code := (w.extractLsb' 16 3).toNat
  let width := (w.extractLsb' 0 3).toNat
  (0x88 ≤ op ∧ op ≤ 0x8D ∧ op ≠ 0x8C) || op = 0xB0 || op = 0xCB ||
  ((op = 0xA7 || op = 0xA8) && (code = 2 || code = 3 || code = 6)) ||
  (fp && ((0x90 ≤ op && op ≤ 0x96) || (0x99 ≤ op && op ≤ 0x9D) || op = 0xAB || op = 0xAC)) ||
  ((op = 0x7B || op = 0x7E || op = 0x7F) && (width = 4 || width = 5))

/-- Does an instruction have a result, in a register or at an end? -/
def hasResult (i : Instr) : Bool := !(i.writes ++ i.readsAndWrites).isEmpty

/-- When an instruction's results are there: the cycles in all, and those that they would be with one wave (R75 cause 8). -/
def resultCycles (w : IWord) (r : Option Reach) : Nat × Nat :=
  let d := issueDistance w
  match r with
  | none => (d, d)
  | some r =>
    if r.waves.isEmpty then (let n := if r.slow = 0 then d else r.slow
                             (n, n))
    else (Nat.max (d + (r.waves.length - 1) + r.ahead) r.slow, Nat.max d r.slow)

/-- What later instructions wait for: the registers, FSTAT after a tile multiply once its accumulator can be read, and the next
instruction after a store to the own scratchpad (R56, R72, R206, R278). `t` is the tiller after the instruction. DESIGN CHOICE: the
flags of a TSTA are there as it has issued, since R278 and R326 give no cycle for them (log 55). -/
def State.duesOf (s : State) (c : Nat) (w : IWord) (i : Instr) (r : Option Reach) (t : Tiller) : List Due :=
  let now := (s.core (coreOf c)).cycle
  let d := resultCycles w r
  let regs := (s.ctx c).wordWrites w
  let due := fun (k a p : Nat) => ({ reg := k, at_ := now + BitVec.ofNat 64 a, plain := now + BitVec.ofNat 64 p } : Due)
  let waves := ((r.map (·.waves)).getD []).length
  let ahead := (r.map (·.ahead)).getD 0
  regs.map (fun k => due k d.1 d.2) ++
  (if setsFlags w then [due regFstat d.1 d.2] else match i with
    | .tmma _ _ _ _ _ _ _ => [due regFstat 24 24]
    | .tmmt _ _ _ _ _ _ _ => [due regFstat 24 24]
    | .spmma k _ _ _ _ => [{ reg := regFstat, at_ := (tget t.storeNext k.toNat).getD now
                             plain := (tget t.storeNext k.toNat).getD now }]
    | _ => []) ++
  (if 0 < waves ∧ !hasResult i then [due regNext (4 + (waves - 1) + ahead) 4] else [])

/-- Did an instruction complete: it neither waits, nor traps, nor gave way to an awn, nor ended or restarted its attempt, nor took
the lease to be executed again? A hold by a FENCE, CINV or TLBI is no such wait. -/
def State.completed (pre post : State) (c : Nat) : Bool :=
  let x := pre.ctx c
  let y := post.ctx c
  let held := match y.wait with
    | .order _ _ _ _ => true
    | _ => y.wait == .none
  y.life == .running && held && (pre.til (tilOf c)).leased c == (post.til (tilOf c)).leased c && x.hmode == y.hmode && x.tx.active == y.tx.active &&
  x.tx.alts.length == y.tx.alts.length && (post.core (coreOf c)).halted == (pre.core (coreOf c)).halted

/-- The results that an instruction has sent to ends, to be read no earlier than a register would be (R68). -/
def State.sentBy (pre post : State) (c : Nat) : List Sent :=
  (post.rings.flatMap (fun y => (y.soon.filter (fun p => !(pre.ringX y.ring).soon.contains p)).map (fun p => Sent.elem y.ring p.1))) ++
  (post.flights.drop pre.flights.length).map (fun f => Sent.far f.ring) ++
  (((post.til (tilOf c)).intake.filter (fun i => !(pre.til (tilOf c)).intake.contains i)).map (fun i => Sent.unit i.e)) ++
  ((List.range (post.ctx c).tx.point.ops.length).drop (pre.ctx c).tx.point.ops.length).map Sent.held

/-- What is left to wait for after the instruction of an issue, whose accesses take so much. One that did not complete leaves nothing
(R56, R137, R170). -/
def State.settle (pre post : State) (c : Nat) (i : Instr) (r : Option Reach) : State :=
  let post : State := { post with due := 0 }
  if !pre.completed post c then post
  else
    let w := wordOf i
    let now := (post.core (coreOf c)).cycle
    let regs := (pre.ctx c).wordWrites w
    let waves := (r.map (·.waves)).getD []
    let own := (if hasResult i then issueDistance w else 4) + (waves.length - 1) + (r.map (·.ahead)).getD 0
    let s := post.modCtx c (fun x => { x with
      ready := x.ready.filter (fun d => now.toNat < d.at_.toNat) ++
        pre.duesOf c w i r (post.til (tilOf c)) })
    s.modCore (coreOf c) (fun k => { k with
      waves := k.waves ++ waves.map (fun b =>
        { cid := c, regs := if hasResult i then regs else [regNext], sent := pre.sentBy post c
          spad := now + BitVec.ofNat 64 own
          at_ := now + BitVec.ofNat 64 (if hasResult i then (resultCycles w r).1 else own), banks := b, late := none })
      reqs := k.reqs ++ ((r.map (·.reqs)).getD []).map (fun q =>
        { cid := c, far := q.far, hit := q.hit, load := hasResult i, line := q.line
          until_ := now + BitVec.ofNat 64 q.cycles }) })

/-! ### Readiness and rotation (R69, R70) -/

/-- Has a context become ready with the word at its pc, and not issued it (R69)? -/
def Ctx.latched (x : Ctx) : Bool := x.word.any (fun p => p.1 == x.pc)

/-- Requests of an instruction's accesses to other tillers, or to global space (R215). -/
def Reach.count (r : Reach) (far : Bool) : Nat := (r.reqs.filter (fun q => q.far == far && !q.hit)).length

/-- The instruction that a context would execute next. -/
def State.nextInstr (s : State) (c : Nat) : Option Instr :=
  match s.nextWord c with
  | .word w => (decode w).toOption
  | _ => none

/-- Requests of the contexts of a core but one that are ready and have not issued: the unit has promised room to them. -/
def State.promised (s : State) (c : Nat) (far : Bool) : Nat :=
  ((List.range 16).map (fun j => coreOf c * 16 + j)).foldl (fun n d =>
    if d ≠ c ∧ (s.ctx d).latched then
      n + (match (s.nextInstr d).bind (s.touchOf d) with
        | some t => (s.reach d t s.nonce).count far
        | none => 0)
    else n) 0

/-- Would an instruction's requests exceed a limit of the load-store unit, while others are outstanding or promised room (R215)? -/
def State.overLimit (s : State) (c : Nat) (r : Reach) (promises far : Bool) : Bool :=
  let k := s.core (coreOf c)
  let new := r.count far
  let out := (k.reqs.filter (fun q => q.far == far && !q.hit && k.cycle.toNat < q.until_.toNat)).length
  0 < new && (
    let out := out + if promises then s.promised c far else 0
    decide (0 < out ∧ (if far then 32 else 64) < out + new))

/-- Do an instruction's accesses wait for a change of LSPLIT or SWZ to take effect (R203, R205)? -/
def State.splitting (s : State) (c : Nat) (i : Instr) : Bool :=
  (s.til (tilOf c)).resizing && (s.touchOf c i).isSome

/-- Can the load-store unit not accept an instruction of a context that has not been ready yet: waves of its core are left, its
requests would exceed the unit's limits, or the split of the local SRAM changes (R69, R203, R206, R215)? DESIGN CHOICE: room is
kept for the requests of contexts that are ready already, since these stay ready until they issue (R69, R71; log 55). -/
def State.unitBusy (s : State) (c : Nat) (i : Instr) : Bool :=
  match s.touchOf c i with
  | none => false
  | some t =>
    let r := s.reach c t s.nonce
    (!r.waves.isEmpty && !(s.core (coreOf c)).waves.isEmpty) || s.overLimit c r true false || s.overLimit c r true true ||
    s.splitting c i

/-- Does a tile command that otherwise would issue wait for its staging, for the unit, or for a TLDA (R317, R318, R344)? -/
def State.tileWaits (s : State) (c : Nat) (i : Instr) : Bool :=
  let t := s.til (tilOf c)
  let now := (s.core (coreOf c)).cycle.toNat
  let loading := fun (acc : Nat) => t.jobs.any (fun j => j.load && j.acc == acc)
  let multiply := fun (acc : Nat) => !(s.wants c).isEmpty || decide (now < t.mulNext.toNat) || loading acc
  match i with
  | .tmma a b k _ f _ _ => (s.mulPlan c a b k.toNat f).isSome && multiply k.toNat
  | .tmmt a b k _ f _ _ => (s.mulPlan c a b k.toNat f).isSome && multiply k.toNat
  | .spmma d a b f _ => (s.sparsePlan c d a b f).isSome && multiply d.toNat
  | .tsta d _ _ _ _ _ _ => t.leased c && (t.heldBy c).contains d.toNat &&
      (decide (now < ((tget t.storeNext d.toNat).getD 0).toNat) || loading d.toNat)
  | _ => false

/-- Is the context in the interval of R46, before a captured word may issue? -/
def State.inCapture (s : State) (c : Nat) : Bool :=
  (s.ctx c).framed && (s.core (coreOf c)).cycle.toNat < (s.ctx c).capture.toNat

/-- What keeps even a context that has been ready from issuing, since a rule says so of its instruction: the split of the local
SRAM changes (R203), what was staged for it is gone or the tile unit is not free (R317, R318), or a line that the L1 has lost since
would make one request too many (R215). Waves of other contexts do not: its own queue behind them. -/
def State.mustWait (s : State) (c : Nat) (i : Instr) : Bool :=
  s.splitting c i || s.tileWaits c i || (s.touchOf c i).any (fun t =>
    let r := s.reach c t s.nonce
    s.overLimit c r false false || s.overLimit c r false true)

/-- Does the load-store unit keep a context's instruction from issuing (R75 cause 15)? -/
def State.loadsWait (s : State) (c : Nat) (i : Instr) : Bool :=
  if (s.ctx c).latched then s.mustWait c i && !s.tileWaits c i else s.unitBusy c i

/-- Does a unit or port keep a word from issuing? -/
def State.refused (s : State) (c : Nat) (w : IWord) : Bool :=
  match decode w with
  | .ok i => if (s.ctx c).latched then s.mustWait c i else s.unitBusy c i || s.tileWaits c i
  | .error _ => false

/-- A context is ready (R69), and stays so until it issues. A word that traps where it stands is ready too. -/
def State.isReady (s : State) (c : Nat) : Bool :=
  let x := s.ctx c
  let cycle := (s.core (coreOf c)).cycle
  s.active c && x.spaced cycle && !s.inCapture c && (match s.nextWord c with
    | .word w => (x.latched || (x.blocking cycle w).isEmpty) && !s.refused c w
    | .trap _ => true
    | .late _ => false
    | .miss => false
    | .fault _ => false)

/-- The context that issues: the slot's owner, else the first ready one after it (R70). -/
def State.pick (s : State) (k : Nat) : Option Nat :=
  if s.permitted k then
    ((List.range 16).map (fun j => k * 16 + ((s.core k).rot.toNat + j) % 16)).find? s.isReady
  else none

/-- Is a context's next word fetched: it runs or starts, and waits for nothing? -/
def State.fetches (s : State) (c : Nat) : Bool :=
  s.active c || ((s.ctx c).life == .starting && (s.ctx c).wait == .none && !(s.til (tilOf c)).hold)

/-- A fetch that is late, misses or faults is posted (R75, R83, R219). -/
def State.postFetch (s : State) (c : Nat) : State :=
  if s.fetches c then
    match s.nextWord c with
    | .late n => s.tick.modCtx c (fun x => { x with wait := .code ((s.core (coreOf c)).cycle + BitVec.ofNat 64 n) })
    | .miss => s.postMiss c .fetch 0 (s.ctx c).pc false
    | .fault cause => if (s.ctx c).tx.active then s.abortTx c 5 0
      else (s.modCtx c Ctx.began).postFault c .fetch cause 0 (s.ctx c).pc
    | .word _ => s
    | .trap _ => s
  else s

/-! ### Charging (R74 to R76) -/

/-- The counter that a context is charged to which waits for nothing but its issue: causes 11, 15, 8 and 1, or 17 for ELIGIBLE.
In the three cycles after an issue an interlock of R56 counts as the spacing it hides behind, as the run of R56 shows; the
tile unit's occupancy is charged in them too, as the run of R318 shows (log 58). -/
def State.chargeReady (s : State) (c : Nat) : Nat :=
  let x := s.ctx c
  let cycle := (s.core (coreOf c)).cycle
  match s.nextWord c with
  | .word w =>
    let due := x.blocking cycle w
    let i := match decode w with
      | .ok i => some i
      | .error _ => none
    let tile := i.any (fun i => s.tileWaits c i)
    if !x.spaced cycle then (if tile then 1 else 17)
    else if s.inCapture c then 11
    else if i.any (fun i => s.loadsWait c i) then 15
    else if due.any (fun d => d.plain.toNat ≤ cycle.toNat) then 8
    else if !due.isEmpty || tile then 1 else 17
  | _ => 17

/-- The counter, in the order of `Ctx.cnt`, that a context's cycle is charged to: 16 is ISSUED and 17 ELIGIBLE. DESIGN CHOICE: a
withheld cycle of a FREE or EXITED context is charged 12, since R76 does not place cause 0 (log 55); an EXIT or a migration that
waits for the strand's accesses is charged 15, and so is a user context that a partition swap's halt has stopped, as one that
CSAVE.save has (R75 names neither; log 58). DEDUCED: a context that CSAVE.save has stopped and that another cause holds too is
charged as R76 orders them; R392's sentence names the cause of its own (log 58). -/
def State.charge (s : State) (c : Nat) (issued : Bool) : Option Nat :=
  let x := s.ctx c
  let k := s.core (coreOf c)
  if x.life = .saved then none
  else if (s.til (tilOf c)).hold then some 13
  else if issued then some 16
  else if !s.permitted (coreOf c) ∨ (s.die (coreOf c / 1024)).droop.isSome then some 12
  else
    match x.life with
    | .starting => some 14
    | .migrated => some 10
    | .killing => some 10
    | .free => some 0
    | .exited => some 0
    | .stopped => some 6
    | _ =>
      match x.wait with
      | .ticket => some 10
      | .fault _ _ _ => some 6
      | .sleep cause _ => some cause
      | .retry _ => some 4
      | .miss .fetch _ _ _ => some 9
      | .code _ => some 9
      | .begin_ _ => some 14
      | .post _ _ => some 15
      | .drain => some 15
      | .order _ _ _ _ => some 15
      | .ending _ => some 15
      | .moving _ => some 15
      | .tokenHold _ => some 15
      | .miss _ _ _ _ => some (if s.stopped c then 15 else 1)
      | .box _ => some 0
      | .none => some (if k.halted then 6
                       else if s.stopped c then (if s.inCapture c ∧ x.spaced k.cycle then 11 else 15) else s.chargeReady c)

/-- A wait that the next cycle ends: after so many cycles, or after a drain, or after earlier accesses, when what a FENCE or CINV is
to drop goes and the next instruction issues 4 cycles later (R235, R264), an EXIT takes effect (R89), or a strand departs (R255). -/
def State.endWait (s : State) (c : Nat) : State :=
  let next := (s.core (coreOf c)).cycle.toNat + 1
  match (s.ctx c).wait with
  | .code u => if u.toNat ≤ next then s.codeHere c else s
  | .begin_ u => if u.toNat ≤ next then s.modCtx c (fun x => { x with wait := .none }) else s
  | .drain => if s.drained (coreOf c) then s.modCtx c (fun x => { x with wait := .none }) else s
  | .order loads line u flush =>
    if (s.core (coreOf c)).outstanding c next loads line ∨ next < u.toNat then s
    else (s.modCtx c (fun x => { x with wait := .none, lastIssue := some (BitVec.ofNat 64 next) })).flush (tilOf c) flush
  | .ending code =>
    if (s.core (coreOf c)).outstanding c next false none then s else s.exitStrand c code
  | .moving t =>
    if (s.core (coreOf c)).outstanding c next false none then s else s.depart c t false
  | _ => s

/-- A STARTING context becomes ready once its first word is there (R78). -/
def State.begins (s : State) (c : Nat) : State :=
  if (s.ctx c).life = .starting ∧ (s.ctx c).wait = .none then
    match s.nextWord c with
    | .word _ => s.laterOnce (.strandStart c)
    | .trap _ => s.laterOnce (.strandStart c)
    | _ => s
  else s

/-- One cycle of a context: its charge, the waits that it ends, its watchdog (R74, R78, R402, R403). -/
def State.clockCtx (s : State) (c : Nat) (issued : Bool) : State :=
  let s := match s.charge c issued with
    | none => s
    | some n => s.modCtx c (fun x => { x with cnt := x.cnt.setIfInBounds n ((x.cnt[n]?).getD 0 + 1) })
  let s := (s.endWait c).begins c
  let x := s.ctx c
  if x.life = .running ∧ x.wait.counted then
    let x := if s.keysHeld x.wait.keys then x else { x with slept := x.slept + 1 }
    let s := s.setCtx c x
    let k := s.core (coreOf c)
    if k.wdog ≠ 0 ∧ k.wdog.toNat * 65536 ≤ x.slept then s.laterOnce (.watchdogExpire c) else s
  else s.setCtx c { x with slept := 0 }

/-! ### The ports of the scratchpad (R207, R208) -/

/-- Who asks for banks. -/
inductive Requester where
  | tile | stream
  | core (k : Nat)
  deriving DecidableEq, Repr

/-- A request: whether it was delayed and since when, its place in the cycle's order, and its banks. -/
structure PortReq where
  who : Requester
  late : Option Word
  rank : Nat
  banks : List Nat
  deriving DecidableEq, Repr

/-- Delayed requests come first, oldest first; the others in the cycle's order. -/
def PortReq.key (r : PortReq) : Nat :=
  match r.late with
  | some t => t.toNat * 8 + r.rank
  | none => 2 ^ 64 * 8 + r.rank

def insertReq (r : PortReq) : List PortReq → List PortReq
  | [] => [r]
  | x :: l => if r.key < x.key then r :: x :: l else x :: insertReq r l

/-- The requests granted, in order: each that needs no bank of one granted before it. -/
def granted : List Nat → List PortReq → List Requester
  | _, [] => []
  | used, r :: l => if r.banks.any used.contains then granted used l else r.who :: granted (r.banks ++ used) l

/-- The words of a block that is to be staged. -/
def Tiller.wantWords (t : Tiller) (w : Wanted) : List Nat :=
  let o := (if w.buf < 2 then slotOff (t.ring w.ring) w.seq else w.seq) + 512 * w.block
  (List.range 64).map (fun j => o + 8 * j)

/-- The strand that has a tiller's tile unit. -/
def Tiller.lessee (t : Tiller) : Option Nat := match t.owner with
  | some c => some c
  | none => t.lease.holder

/-- The next block that the tile port begins: transfers in issue order, then staging (R318). -/
def State.nextBlock (s : State) (til : Nat) : Option (HalfOf × List Nat) :=
  let t := s.til til
  match t.jobs.findSome? (fun j => j.left.head?) with
  | some ws => some (.job, ws)
  | none => t.lessee.bind (fun c =>
      ((s.wants c).find? (fun w => !(t.half.any (fun h => h.what == .stage c w)))).map (fun w => (.stage c w, t.wantWords w)))

/-- The halves of a block: its words with o[7] = 0, and those with o[7] = 1 (R208). -/
def lowHalf (ws : List Nat) : List Nat := ws.filter (fun o => o / 128 % 2 == 0)
def highHalf (ws : List Nat) : List Nat := ws.filter (fun o => o / 128 % 2 == 1)

/-- The words that the tile port asks for in a cycle: the second half of the block on its way with the first half of the next, or
the first half of a block (R208). -/
def State.tileTurn (s : State) (til : Nat) : Option (List Nat) :=
  match (s.til til).half, s.nextBlock til with
  | none, none => none
  | some h, n => some (h.words ++ (n.map (fun b => lowHalf b.2)).getD [])
  | none, some b => some (lowHalf b.2)

/-- Does a block count as staged with its first half? It does in a staging that began while the port was moving, which takes a cycle
for each block; its last half moves in the cycle after (R317, R318, log 22). -/
def Tiller.counts (t : Tiller) : HalfOf → Bool
  | .job => false
  | .stage c _ => match t.half with
    | some { what := .stage d _, counted := k, .. } => if d = c then k else t.moved
    | _ => t.moved

/-- A block has moved whole. -/
def State.blockDone (s : State) (til : Nat) : HalfOf → State
  | .job => s.modTil til (fun t => { t with jobs := match t.jobs with
      | [] => []
      | j :: r => if j.left.isEmpty then r else j :: r })
  | .stage c w => if (s.wants c).head? = some w then s.laterOnce (.tileStaging c) else s

/-- A block of the oldest transfer that has one begins. -/
def dropBlock : List TileJob → List TileJob
  | [] => []
  | j :: r => if j.left.isEmpty then j :: dropBlock r else { j with left := j.left.drop 1 } :: r

def Tiller.beginBlock (t : Tiller) : HalfOf → Tiller
  | .job => { t with jobs := dropBlock t.jobs }
  | .stage _ _ => t

/-- The tile port's turn is granted. -/
def State.tileMoves (s : State) (til : Nat) : State :=
  let t := s.til til
  let next := s.nextBlock til
  let s := match t.half with
    | none => s
    | some h => if h.counted then s else s.blockDone til h.what
  let s := s.modTil til (fun t => { t with half := none, moved := true, tileLate := none })
  match next with
  | none => s
  | some (what, ws) =>
    let k := t.counts what
    let s := s.modTil til (fun t => { t.beginBlock what with half := some { words := highHalf ws, what := what, counted := k } })
    if k then s.blockDone til what else s

/-- The word that the pattern compiler reads next, in the stream port's place (R335). -/
def Tiller.compilerWord (t : Tiller) : List Nat :=
  ((t.pats.find? (fun p => p.state == .compiling)).map (fun p => p.reads.take 1)).getD []

/-- The words of the stream port's place in a cycle, at most 128 bytes (R207): the compiler's, then those of the port's request. -/
def Tiller.streamTurn (t : Tiller) : Option (List Nat) :=
  if t.streamReq.isNone ∧ t.compilerWord.isEmpty then none
  else some (t.compilerWord ++ ((t.streamReq.map (·.words)).getD []).take (16 - t.compilerWord.length))

/-- The words of the stream port's place have moved; when all of a request have, its work is done. -/
def State.streamMoves (s : State) (til : Nat) : State :=
  let n := 16 - (s.til til).compilerWord.length
  let s := s.modTil til (fun t => { t with
    streamLate := none
    pats := t.pats.map (fun p => if p.state = .compiling then { p with reads := p.reads.drop 1 } else p) })
  match (s.til til).streamReq with
  | none => s
  | some r =>
    if (r.words.drop n).isEmpty then (s.modTil til (fun t => { t with streamReq := none })).laterOnce r.work
    else s.modTil til (fun t => { t with streamReq := some { r with words := r.words.drop n } })

/-- Results that were to be there in a cycle are there in another. -/
def State.putOff (s : State) (v : Wave) (t : Word) : State :=
  let s := s.modCtx v.cid (fun x => { x with
    ready := x.ready.map (fun d => if v.regs.contains d.reg ∧ d.at_ = v.at_ then { d with at_ := t } else d)
    tx := { x.tx with point := { x.tx.point with ops := x.tx.point.ops.mapIdx (fun j o => match o with
      | .enq e y _ => if v.sent.contains (.held j) then .enq e y t else o
      | .deq _ => o) } } })
  let s : State := { s with
    rings := s.rings.map (fun y => if v.sent.any (fun z => match z with
        | .elem r _ => r == y.ring
        | _ => false) then
      { y with soon := y.soon.map (fun p => if v.sent.contains (.elem y.ring p.1) then (p.1, t) else p) } else y)
    flights := s.flights.map (fun f => if f.cid = v.cid ∧ f.due = v.at_ ∧ v.sent.contains (.far f.ring) then { f with due := t }
      else f) }
  s.modTil (tilOf v.cid) (fun y => { y with intake := y.intake.map (fun i =>
    if i.cid = v.cid ∧ i.due = v.at_ ∧ v.sent.contains (.unit i.e) then { i with due := t } else i) })

/-- A wave that comes a cycle later, and its instruction's result with it unless others of the lanes take longer (R207, R231). -/
def Wave.later (w : Wave) : Wave :=
  { w with spad := w.spad + 1, at_ := if w.at_.toNat < (w.spad + 1).toNat then w.spad + 1 else w.at_ }

/-- A wave is refused: it and those behind it are a cycle later (R207). -/
def State.delayWave (s : State) (k : Nat) : State :=
  match (s.core k).waves with
  | [] => s
  | v :: r =>
    let s := s.modCore k (fun x => { x with waves := { v.later with late := some (v.late.getD x.cycle) } :: r.map Wave.later })
    ((v :: r).map (fun w => { w with banks := [], late := none })).eraseDups.foldl
      (fun s w => if w.later.at_ = w.at_ then s else s.putOff w w.later.at_) s

/-- The requests of a tiller's cycle, in the order in which they are granted (R207). -/
def State.requests (s : State) (til : Nat) : List PortReq :=
  let t := s.til til
  let now := (s.core (til * 4)).cycle.toNat
  let banks := fun (ws : List Nat) => (ws.map (spadBank t.swz)).eraseDups
  let tile := (s.tileTurn til).toList.map (fun ws => ({ who := .tile, late := t.tileLate, rank := 0, banks := banks ws } : PortReq))
  let stream := t.streamTurn.toList.map (fun ws => ({ who := .stream, late := t.streamLate, rank := 1, banks := banks ws } : PortReq))
  let cores := (List.range 4).filterMap (fun j => (s.core (til * 4 + j)).waves.head?.map (fun v =>
    ({ who := .core (til * 4 + j), late := v.late, rank := 2 + (j + 4 - now % 4) % 4, banks := v.banks } : PortReq)))
  (tile ++ stream ++ cores).foldl (fun l r => insertReq r l) []

/-- What becomes of a request. -/
def State.answerReq (s : State) (til : Nat) (ok : Bool) (who : Requester) : State :=
  let now := (s.core (til * 4)).cycle
  match who with
  | .tile => if ok then s.tileMoves til else s.modTil til (fun t => { t with moved := false, tileLate := some (t.tileLate.getD now) })
  | .stream => if ok then s.streamMoves til else s.modTil til (fun t => { t with streamLate := some (t.streamLate.getD now) })
  | .core k => if ok then s.modCore k (fun x => { x with waves := x.waves.drop 1 }) else s.delayWave k

/-- The scratchpad of a tiller serves a cycle's requests (R207). -/
def State.servePorts (s : State) (til : Nat) : State :=
  let rs := s.requests til
  let ok := granted [] rs
  let s := if rs.any (fun r => r.who == .tile) then s else s.modTil til (fun t => { t with moved := false })
  rs.foldl (fun s r => s.answerReq til (ok.contains r.who) r.who) s

/-- Results that are there in the next cycle are published in their rings (R68). -/
def State.openResults (s : State) (til : Nat) : State :=
  let next := (s.core (til * 4)).cycle.toNat + 1
  (s.rings.filter (fun y => !isXring y.ring && ringTil y.ring == til && y.soon.any (fun p => p.2.toNat ≤ next))).foldl (fun s y =>
    (s.setRing { s.ringX y.ring with soon := y.soon.filter (fun p => next < p.2.toNat) }).passPublished y.ring
      (y.soon.filter (fun p => p.2.toNat ≤ next)).length) s

/-- The values to be staged for the sparse multiply that is the lessee's next instruction, if it is one (R317, R342). -/
def State.nextValues (s : State) (til : Nat) : Option Staged :=
  (s.til til).lessee.bind (fun c => match s.nextInstr c with
    | some (.spmma d a b f _) => (s.sparsePlan c d a b f).map (fun p =>
        s.valueBuffer til p.2.1.ent p.2.2.2 ((if f = 1 then 1 else 2) * p.2.2.1) (s.til til).stageV)
    | _ => none)

/-- A sparse multiply that is to be staged holds its pattern entry, whether or not it has values; one that is no longer its strand's
next instruction holds it no longer (R195, R335, R343). -/
def State.holdValues (s : State) (til : Nat) : State :=
  let new := s.nextValues til
  match (s.til til).stageV with
  | none => if new.isNone then s else s.modTil til (fun t => { t with stageV := new })
  | some g =>
    if new.any (fun n => n.ring == g.ring) then s
    else (s.modTil til (fun t => { t with stageV := new })).changeKey (.pat til g.ring)

/-- Results that are there in the next cycle reach the units they were sent to, those over one end in order (R68). -/
def State.fillUnits (s : State) (til : Nat) : State :=
  let next := (s.core (til * 4)).cycle.toNat + 1
  ((s.til til).intake.foldl (fun (p : State × List (Nat × Nat)) i =>
    if next < i.due.toNat ∨ p.2.contains (i.cid, i.e) then (p.1, (i.cid, i.e) :: p.2) else (p.1.takeIn i, p.2)) (s, [])).1

/-- The end of a cycle of a tiller whose cores have entered it. -/
def State.endCycle (s : State) (til : Nat) : State :=
  if (s.core (til * 4)).ran.isNone then s else (((s.servePorts til).openResults til).fillUnits til).holdValues til

/-! ### The cycle of a core (R70, R74) -/

/-- What the cycle of a die's first core does for the die: lengthened and withheld cycles are counted (R405), errors that the L2
and the stacks correct are counted as they occur (R400, R416), a pending swap and a firmware load go on (R398, R417), launches
whose dependences are met become ready (R105), and a dispatch attempt comes every 16 cycles (R107). -/
def State.clockDie (s : State) (k : Nat) : State :=
  if k % 1024 = 0 then
    let d := k / 1024
    let s := (s.modDie d (fun x => { x with
      droopcyc := if x.droop.isSome then x.droopcyc + 1 else x.droopcyc, droop := x.droop.map (· + 1)
      throtcyc := if s.permitted k then x.throtcyc else x.throtcyc + 1
      l2cecc := if Config.freeBool s.nonce then x.l2cecc + 1 else x.l2cecc
      hbmcecc := if Config.freeBool (s.nonce + 1) then x.hbmcecc + 1 else x.hbmcecc })).tick.tick
    let s := if d = 0 ∧ s.port.swap.isSome then s.laterOnce .partSwap else s
    let s := if d = 0 ∧ s.loadDue.isSome then s.laterOnce .fwload else s
    let s := if d = 0 then (s.rings.filter (fun y => isXring y.ring && !y.waiters.isEmpty)).foldl
      (fun s y => s.laterOnce (.creditGrant y.ring)) s else s
    let mine := s.launches.filter (fun l => l.queue / 2 ^ 15 == d)
    let s := (mine.filter (fun l => l.at_ == .pool && s.depsMet l)).foldl (fun s l => s.laterOnce (.launchReady l.id)) s
    if (s.core k).cycle.toNat % 16 = 0 ∧ mine.any (fun l => l.at_ == .bank || l.at_ == .slot) then
      s.laterOnce (.dispatchAttempt d) else s
  else s

/-- What a cycle does for the pattern compiler: a compilation whose time has come ends, or the next one starts (R335). -/
def State.clockPats (s : State) (til : Nat) (cycle : Word) : State :=
  let ps := (s.til til).pats
  match ps.find? (fun p => p.state == .compiling) with
  | some p => if p.due.toNat ≤ cycle.toNat then s.laterOnce (.patternCompileEnd til) else s
  | none => if ps.any (fun p => p.state == .queued) then s.laterOnce (.patternCompileStart til) else s

/-- The words of a tiller's scratchpad among `n` bytes at some locations. -/
def nearWords (til n : Nat) (locs : List Nat) : List Nat :=
  locs.flatMap (fun l => if spadTil l = some til then wordsOf n [(l - 2 ^ 50) % 2 ^ 20] else [])

/-- The words of its tiller's scratchpad that a copy's next piece lies in, from its source and then to its destinations. -/
def State.copyWords (s : State) (til : Nat) (q : Copy) : List Nat :=
  let src := runStart q.src q.c1 q.ss1 q.ss2 (q.pos / q.c0) + BitVec.ofNat 64 (q.pos % q.c0)
  let ps := s.pieceAt til src .load :: (if q.xmod.isSome then [] else (q.dests.filter (!·.failed)).map (s.destPiece q))
  let n := ps.foldl (fun n p => match p with
    | .at_ _ m => Nat.min n m
    | _ => n) (Nat.min 128 (q.c0 - q.pos % q.c0))
  ps.flatMap (fun p => match p with
    | .at_ locs _ => nearWords til n locs
    | _ => [])

/-- The words of its tiller's scratchpad that a stream's next element lies in. -/
def State.streamWords (s : State) (til : Nat) (b : StreamBind) : List Nat :=
  let n := if 8 ≤ b.e % 16 then 64 else 8
  match s.spot til (b.addr b.pos) n (if b.write then .store else .load) with
  | .at_ loc _ => nearWords til n [loc]
  | _ => []

/-- What the stream port of a tiller may do next: the next piece of a copy, or of a stream (R150, R355). A saved strand's streams
stand as they were saved (log 20). -/
def State.streamWork (s : State) (til : Nat) : List StreamReq :=
  (s.copies.filter (fun q => tilOf q.cid == til && q.state == .running)).map (fun q =>
    { work := .copyTransfer q.id, words := s.copyWords til q }) ++
  (s.til til).streams.filterMap (fun b =>
    if b.stalled ∨ (s.ctx b.cid).life = .saved then none
    else if b.write then (if b.buf.isEmpty then none else some { work := .streamStoreElement b.cid b.e, words := s.streamWords til b })
    else if b.ended ∨ readAhead ≤ b.buf.length then none
    else some { work := .streamReadElement b.cid b.e, words := s.streamWords til b })

/-- The stream port takes up its next work, of which the device chooses one; none while the split of the local SRAM is to change
(R203). -/
def State.clockStream (s : State) (til : Nat) : State :=
  if (s.til til).streamReq.isSome ∨ (s.til til).resizing then s
  else
    let ws := s.streamWork til
    if ws.isEmpty then s
    else (s.modTil til (fun t => { t with streamReq := ws[Config.freeNat s.nonce % ws.length]? })).tick

/-- What the cycle of a tiller's first core does for the tiller: copies that are due start (R357), a copy to another module may
be acknowledged (R413), the stream port takes up work, the pattern compiler goes on (R335), a migrant that has come lands (R256), a
change of LSPLIT or SWZ takes effect (R203), a lease that has lasted long enough is re-arbitrated (R308), and a corrected error of the
scratchpad is counted as it occurs (R405). -/
def State.clockTil (s : State) (k : Nat) : State :=
  if k % 4 = 0 then
    let til := k / 4
    let mine := s.copies.filter (fun q => tilOf q.cid == til)
    let s := (mine.filter (fun q => q.state == .queued && q.due.toNat ≤ (s.core k).cycle.toNat)).foldl
      (fun s q => s.laterOnce (.copyStart q.id)) s
    let s := (mine.filter (fun q => q.state == .sent)).foldl (fun s q =>
      if Config.freeBool s.nonce then s.tick.laterOnce (.copyComplete q.id) else s.tick) s
    let s := (((s.clockStream til).clockPats til (s.core k).cycle).resize til)
    let s := if (s.landing til).isSome then s.laterOnce (.migrantLand til) else s
    let s := (s.modTil til (fun t => { t with spcecc := if Config.freeBool s.nonce then t.spcecc + 1 else t.spcecc })).tick
    if (s.til til).leaseDue (s.core k).cycle then s.laterOnce (.leaseRearbitration til) else s
  else s

/-- A core enters its next cycle: after a cycle CYCLE advances, and the pointer unless the cycle was withheld (R70, R378). -/
def State.enterCycle (s : State) (k : Nat) : State :=
  let s := s.modCore k (fun x => match x.ran with
    | none => x
    | some p => { x with cycle := x.cycle + 1, rot := if p then x.rot + 1 else x.rot })
  s.modCore k (fun x => { x with ran := some (s.permitted k), reqs := x.reqs.filter (fun q => x.cycle.toNat < q.until_.toNat) })

/-- A context that is ready keeps the word that has been fetched and translated for it until it issues, unless a hold, a halt or a
save stops it (R69). -/
def State.keepWord (s : State) (c : Nat) : State :=
  let x := s.ctx c
  if s.isReady c then
    match s.nextRaw c with
    | .word w => s.setCtx c { x with word := some (x.pc, w) }
    | _ => s
  else if x.word.isNone ∨ (s.active c && x.word.any (fun p => p.1 == x.pc)) then s
  else s.setCtx c { x with word := none }

/-- A core's clock cycle (R70, R74): the tiller before ends its cycle, fetches are posted, one context is chosen, and every
context is charged. -/
def State.clockCycle (s : State) (k : Nat) : State :=
  let s := if k % 4 = 0 then s.endCycle ((k / 4 + 1023) % 1024) else s
  let s := s.enterCycle k
  let s := (List.range 16).foldl (fun s j => s.postFetch (k * 16 + j)) s
  let s := (List.range 16).foldl (fun s j => s.keepWord (k * 16 + j)) s
  let chosen := s.pick k
  let s := (s.clockDie k).clockTil k
  let s := (List.range 16).foldl (fun s j => s.clockCtx (k * 16 + j) (chosen == some (k * 16 + j))) s
  match chosen with
  | none => s
  | some c => { (s.modCtx c (fun x => { x with lastIssue := some (s.core k).cycle })) with issue := some c }

/-- R74. One clock cycle of a core. -/
def execCoreClockCycle (core : Nat) (s : State) : Host.Outcome State Fault Refusal := .next (s.clockCycle (core % 4096))

/-! ### Issue -/

/-- A trap at the pc of a context, outside any instruction's row: in an attempt it aborts (R169, R381). -/
def State.trapAt (s : State) (cause : Nat) (va : Word) (word : IWord) : State := s.onStop word (.trap cause 0 va)

/-- The step of the command port or the board bus that a request calls for. -/
def Request.event : Request → Instr
  | .write _ _ _ _ => .rdmaWrite
  | .read _ _ _ _ => .rdmaRead
  | .unsupported _ => .invalidRequest
  | .partCreate _ _ _ _ => .partCreate
  | .partDestroy _ _ _ => .partDestroy
  | .partSwap _ _ _ => .partSwap
  | .hold _ _ _ => .hold
  | .unhold _ _ _ => .unhold
  | .qtable _ _ _ => .qtable
  | .attest _ _ _ => .attest
  | .fwload _ _ _ => .fwload
  | .events _ _ => .events
  | .peermap _ _ _ _ => .peermap
  | .clkset _ _ _ _ => .clkset
  | .intr _ _ => .commandPortIntr
  | .i3cRead _ _ => .i3cRead
  | .i3cAddress _ _ => .i3cDynamicAddress
  | .shutdown _ => .orderlyShutdown
  | .peerElement _ ref _ _ => .elementArrival (refRing ref)
  | .peerCredit _ ref _ => .creditGrant (refRing ref)
  | .peerReturn _ ref _ => .creditGrant (refRing ref)
  | .peerReserve _ ref _ _ => .creditGrant (refRing ref)

/-- What an issue comes to: an instruction to run and what its accesses take, or what becomes of the context without one. -/
inductive Issued where
  | run (i : Instr) (r : Option Reach) (s : State)
  | done (s : State)
  deriving DecidableEq, Repr

/-- An instruction begins: what its accesses take is fixed, and from when the results that it sends to ends can be read (R68). -/
def State.starts (s : State) (c : Nat) (i : Instr) : Issued :=
  let t := s.touchOf c i
  let r := t.map (fun t => s.reach c t s.nonce)
  let sends := i.writes.any (fun f => ((s.ctx c).endOf f).isSome)
  .run i r { s with
    nonce := s.nonce + (t.map (fun t => t.vas.length + 1)).getD 0
    due := if sends then (s.core (coreOf c)).cycle + BitVec.ofNat 64 (resultCycles (wordOf i) r).1 else 0 }

/-- The instruction that a context issues, or what becomes of it. A word that does not decode raises ILLEGAL (R29, R40);
in a frame's capture a word that is not arithmetic clears the frame first (R44), and a captured word is kept before it
executes. A context that a step since its choice has halted, held or stopped does not issue, nor one whose operands have landed
since and are to be staged (R317, R330). -/
def State.issueOf (s : State) (c : Nat) : Issued :=
  if !s.active c then .done (({ s with issue := some c } : State).withdrawIssue c) else
  if (s.nextInstr c).any (fun i => s.tileWaits c i) then
    .done ((({ s with issue := some c } : State).withdrawIssue c).modCtx c (fun x => { x with lastIssue := none })) else
  let raw := s.nextRaw c
  let s := { s with cur := c }.modMe (fun x => { x with word := none })
  match raw with
  | .late n => .done (s.tick.modCtx c (fun x => { x with wait := .code ((s.core (coreOf c)).cycle + BitVec.ofNat 64 n) }))
  | .miss => .done (s.postMiss c .fetch 0 (s.ctx c).pc false)
  | .fault cause => .done (if s.me.tx.active then s.abortTx c 5 0 else s.postFault c .fetch cause 0 s.me.pc)
  | .trap cause => .done (s.trapAt cause s.me.pc 0)
  | .word w =>
    if s.me.framed then
      if !isArithmetic w then
        .done ((s.modMe (fun x => { x with frame := .clear })).trapAt Cause.illegal 0 w)
      else
        let s := s.modMe (fun x => { x with frame := { x.frame with
          words := if x.frame.i < x.frame.words.length then x.frame.words else x.frame.words ++ [w] } })
        let w := s.me.frame.stepWord w s.me.frame.k
        match decode w with
        | .ok i => s.starts c i
        | .error _ => .done (s.trapAt Cause.illegal 0 w)
    else match decode w with
      | .ok i => s.starts c i
      | .error _ => .done (s.trapAt Cause.illegal 0 w)

/-- A page of 64 KiB that maps a global address to the same address of memory for fetching. -/
def codePage (part pc : Nat) : TlbEntry :=
  { va := pc / 65536 * 65536, size := 65536
    entry := BitVec.ofNat 64 (part * 2 ^ 52 + pc % 2 ^ 40 / 65536 * 65536 + 0x13) }

/-- A word placed where the acting context fetches next, in memory and in the instruction cache, and that context chosen to
issue (log 7). -/
def State.placeWord (s : State) (w : IWord) : State :=
  let x := s.me
  let pc := x.pc.toNat
  let s := s.setMe { x with
    life := .running, wait := .none, word := none, frame := if x.framed then .clear else x.frame }
  let s := s.modCore s.myCore (fun k => { k with halted := false, saving := none, itlb := codePage (s.partOf s.myTil) pc :: k.itlb.take 31 })
  let a := pc % 2 ^ 40
  let s := { (s.putBytes a (wordBytes w)) with poison := s.poison.filter (· ≠ eccUnit a) }
  let s := s.modTil s.myTil (fun t => { t with
    hold := false, icache := s.lineNow (a / 64) :: (t.icache.filter (fun l => l.line ≠ a / 64)).take 1023 })
  { s with agenda := [], issue := some s.cur, due := 0, port := { s.port with inbox := [], down := false } }

end Sys2Proof.Machine
end

