-- ==== Sys2Proof/Machine/Vector.lean ====
section
/-! DEFINITION. The vector class (R288 to R307). -/

namespace Sys2Proof.Machine

/-! ### Lane operations -/

/-- An integer or a floating operation by type (R293). -/
def byType (t : Nat) (i : Nat → Nat → Nat) (f : Fmt → Nat → Nat → Nat × Flags) (x y : Nat) : Nat × Flags :=
  if isFloat t then f (fmtOf t) x y else (i x y % 2 ^ widthOf t, 0)

def laneAdd (t mode : Nat) : Nat → Nat → Nat × Flags := byType t (· + ·) (fun f => f.add mode)
def laneSub (t mode : Nat) : Nat → Nat → Nat × Flags :=
  byType t (fun x y => x + (2 ^ widthOf t - y)) (fun f => f.sub mode)
def laneMul (t mode : Nat) : Nat → Nat → Nat × Flags := byType t (· * ·) (fun f => f.mul mode)
def laneMin (t : Nat) : Nat → Nat → Nat × Flags :=
  byType t (fun x y => if laneInt t y < laneInt t x then y else x) (fun f => f.minmax false)
def laneMax (t : Nat) : Nat → Nat → Nat × Flags :=
  byType t (fun x y => if laneInt t x < laneInt t y then y else x) (fun f => f.minmax true)
def laneFma (t mode : Nat) (x y c : Nat) : Nat × Flags := (fmtOf t).fma mode x y ((fmtOf t).val c)
/-- x × y − c is x × y + (−c), to the bit (R294). -/
def laneFms (t mode : Nat) (x y c : Nat) : Nat × Flags := (fmtOf t).fma mode x y ((fmtOf t).val c).neg
def laneShl (t x y : Nat) : Nat × Flags := (x * 2 ^ (y % widthOf t) % 2 ^ widthOf t, 0)
def laneShr (t x y : Nat) : Nat × Flags := (x / 2 ^ (y % widthOf t), 0)
def laneSra (t x y : Nat) : Nat × Flags :=
  let w := widthOf t
  ((((BitVec.ofNat w x).toInt / (2 ^ (y % w) : Nat)) % (2 ^ w : Nat)).toNat, 0)
def bits (f : Nat → Nat → Nat) (x y : Nat) : Nat × Flags := (f x y, 0)

/-- |a|: the sign bit cleared, a NaN canonical (R295). -/
def laneAbs (t x : Nat) : Nat × Flags :=
  if isFloat t then (let f := fmtOf t; if (f.val x).isNan then f.nan else x % f.signBit, 0)
  else if isSigned t then (wrapLane t (laneInt t x).natAbs, 0) else (x, 0)
/-- −a: the sign bit inverted, a NaN canonical (R295). -/
def laneNeg (t x : Nat) : Nat × Flags :=
  if isFloat t then
    (let f := fmtOf t; if (f.val x).isNan then f.nan else if x < f.signBit then x + f.signBit else x - f.signBit, 0)
  else ((2 ^ widthOf t - x) % 2 ^ widthOf t, 0)

/-- Less-than of VCMP, and its flag (R297). -/
def laneLess (t x y : Nat) : Bool × Flags :=
  if isFloat t then
    let a := (fmtOf t).val x
    let b := (fmtOf t).val y
    (a.less b, flagIf (a.isSnan || b.isSnan) INVALID)
  else (laneInt t x < laneInt t y, 0)

/-- The mask of the active lanes where A is less than B. -/
def compare (t : Nat) (k : Word) (x y : VReg) : Word × Flags :=
  let w := widthOf t
  let rs := (List.range (512 / w)).map (fun i =>
    if k.getLsbD i then laneLess t (lane w x i) (lane w y i) else (false, 0))
  (BitVec.ofNat 64 (natOfLanes 1 (rs.map (fun r => if r.1 then 1 else 0))), rs.foldl (fun a r => a ||| r.2) 0)

/-! ### Immediates (R300) -/

/-- The element type that T selects. -/
def typeOfT (t : BitVec 3) : Nat :=
  match t.toNat with
  | 0 => 0
  | 1 => 1
  | 2 => 3
  | 3 => 4
  | 4 => 9
  | 5 => 10
  | _ => 2

/-- The immediate in lane `i`. -/
def immLane (t : BitVec 3) (k : BitVec 16) (i : Nat) : Nat :=
  match t.toNat with
  | 0 => (k.signExtend 32).toNat
  | 1 => k.toNat
  | 2 => k.toNat
  | 3 => k.toNat
  | 4 => if i % 2 = 0 then k.toNat % 256 else k.toNat / 256
  | 5 => if i % 2 = 0 then k.toNat % 256 else k.toNat / 256
  | _ => k.toNat * 65536

/-- Every lane of D with the immediate as second operand. -/
def immOp (d : BitVec 5) (t : BitVec 3) (k : BitVec 16) (f : Nat → Nat → Nat → Nat × Flags) : Op Flow := thenNext do
  let ty := typeOfT t
  let w := widthOf ty
  let c ← rdV d
  putV d (lanesWith w (512 / w) (fun i => f ty (lane w c i) (immLane t k i)))

/-! ### Reductions and scans (R302, R303) -/

def redOp (p t mode : Nat) : Nat → Nat → Nat × Flags :=
  match p with
  | 0 => laneAdd t mode
  | 1 => laneMin t
  | 2 => laneMax t
  | 3 => bits (· &&& ·)
  | 4 => bits (· ||| ·)
  | _ => bits (· ^^^ ·)

/-- Canon(e): a floating NaN becomes the canonical one. -/
def canon (t x : Nat) : Nat × Flags :=
  if isFloat t ∧ ((fmtOf t).val x).isNan then ((fmtOf t).nan, flagIf ((fmtOf t).val x).isSnan INVALID) else (x, 0)

/-- Combine two tree nodes, either of which may be inactive. -/
def node (op : Nat → Nat → Nat × Flags) : Option Nat → Option Nat → Option Nat × Flags
  | some x, some y => let r := op x y; (some r.1, r.2)
  | none, y => (y, 0)
  | x, none => (x, 0)

/-- The tree of R302: halve the lanes until one is left. -/
def tree (op : Nat → Nat → Nat × Flags) : Nat → List (Option Nat) → Flags → Option Nat × Flags
  | 0, l, fl => (l.headD none, fl)
  | n + 1, l, fl =>
    let s := l.length / 2
    let rs := (List.range s).map (fun i => node op (l.getD i none) (l.getD (i + s) none))
    tree op n (rs.map (·.1)) (rs.foldl (fun a r => a ||| r.2) fl)

def reduce (p t mode : Nat) (k : Word) (x : VReg) : VReg × Flags :=
  let w := widthOf t
  let L := 512 / w
  let vs := (List.range L).map (fun i => if k.getLsbD i then some (lane w x i) else none)
  let r := match vs.filterMap id with
    | [e] => let c := canon t e; (some c.1, c.2)
    | _ => tree (redOp p t mode) (Nat.log2 L) vs 0
  (ofLanes w [r.1.getD 0], r.2)

/-- The running value through the lanes in order. -/
def scan (op : Nat → Nat → Nat × Flags) (t : Nat) : Option Nat → List (Option Nat) → List Nat × Flags
  | _, [] => ([], 0)
  | acc, none :: r => let q := scan op t acc r; (0 :: q.1, q.2)
  | none, some e :: r =>
    let c := canon t e
    let q := scan op t (some c.1) r
    (c.1 :: q.1, c.2 ||| q.2)
  | some a, some e :: r =>
    let c := op a e
    let q := scan op t (some c.1) r
    (c.1 :: q.1, c.2 ||| q.2)

/-! ### Compress, expand, dot (R305, R306) -/

def compress (w : Nat) (k : Word) (x : VReg) : VReg :=
  ofLanes w (((List.range (512 / w)).filter (fun i => k.getLsbD i)).map (lane w x))

/-- Mask bits below a lane. -/
def bitsBelow (k : Word) (i : Nat) : Nat := ((List.range i).filter (fun j => k.getLsbD j)).length

def expand (w : Nat) (k : Word) (x : VReg) : VReg :=
  ofLanes w ((List.range (512 / w)).map (fun i => if k.getLsbD i then lane w x (bitsBelow k i) else 0))

def dot (t : Nat) (x y : VReg) (c i : Nat) : Nat × Flags :=
  satLane 0 (laneInt 0 c + ((List.range 4).map (fun j =>
    laneInt t (lane 8 x (4 * i + j)) * laneInt t (lane 8 y (4 * i + j)))).foldl (· + ·) 0)

/-! ### Meanings -/

/-- R293. Lane-wise sum. -/
def execVadd (d a b : BitVec 5) (t : BitVec 4) (r : BitVec 2) (m : BitVec 3) (s : State) : Host.Outcome State Fault Refusal :=
  perform (.vadd d a b t r m) (vec2 d a b t m (laneAdd t.toNat r.toNat)) s

/-- R293. Lane-wise difference. -/
def execVsub (d a b : BitVec 5) (t : BitVec 4) (r : BitVec 2) (m : BitVec 3) (s : State) : Host.Outcome State Fault Refusal :=
  perform (.vsub d a b t r m) (vec2 d a b t m (laneSub t.toNat r.toNat)) s

/-- R293. Lane-wise product. -/
def execVmul (d a b : BitVec 5) (t : BitVec 4) (r : BitVec 2) (m : BitVec 3) (s : State) : Host.Outcome State Fault Refusal :=
  perform (.vmul d a b t r m) (vec2 d a b t m (laneMul t.toNat r.toNat)) s

/-- R294. A × B + D, rounded once. -/
def execVfma (d a b : BitVec 5) (t : BitVec 4) (r : BitVec 2) (m : BitVec 3) (s : State) : Host.Outcome State Fault Refusal :=
  perform (.vfma d a b t r m) (vec3 d a b t m (laneFma t.toNat r.toNat)) s

/-- R294. A × B − D, rounded once. -/
def execVfms (d a b : BitVec 5) (t : BitVec 4) (r : BitVec 2) (m : BitVec 3) (s : State) : Host.Outcome State Fault Refusal :=
  perform (.vfms d a b t r m) (vec3 d a b t m (laneFms t.toNat r.toNat)) s

/-- R293. Lane-wise minimum. -/
def execVmin (d a b : BitVec 5) (t : BitVec 4) (m : BitVec 3) (s : State) : Host.Outcome State Fault Refusal :=
  perform (.vmin d a b t m) (vec2 d a b t m (laneMin t.toNat)) s

/-- R293. Lane-wise maximum. -/
def execVmax (d a b : BitVec 5) (t : BitVec 4) (m : BitVec 3) (s : State) : Host.Outcome State Fault Refusal :=
  perform (.vmax d a b t m) (vec2 d a b t m (laneMax t.toNat)) s

/-- R293. Bitwise and. -/
def execVand (d a b : BitVec 5) (t : BitVec 4) (m : BitVec 3) (s : State) : Host.Outcome State Fault Refusal :=
  perform (.vand d a b t m) (vec2 d a b t m (bits (· &&& ·))) s

/-- R293. Bitwise or. -/
def execVor (d a b : BitVec 5) (t : BitVec 4) (m : BitVec 3) (s : State) : Host.Outcome State Fault Refusal :=
  perform (.vor d a b t m) (vec2 d a b t m (bits (· ||| ·))) s

/-- R293. Bitwise exclusive or. -/
def execVxor (d a b : BitVec 5) (t : BitVec 4) (m : BitVec 3) (s : State) : Host.Outcome State Fault Refusal :=
  perform (.vxor d a b t m) (vec2 d a b t m (bits (· ^^^ ·))) s

/-- R293. Lane-wise shift left. -/
def execVshl (d a b : BitVec 5) (t : BitVec 4) (m : BitVec 3) (s : State) : Host.Outcome State Fault Refusal :=
  perform (.vshl d a b t m) (vec2 d a b t m (laneShl t.toNat)) s

/-- R293. Lane-wise logical shift right. -/
def execVshr (d a b : BitVec 5) (t : BitVec 4) (m : BitVec 3) (s : State) : Host.Outcome State Fault Refusal :=
  perform (.vshr d a b t m) (vec2 d a b t m (laneShr t.toNat)) s

/-- R293. Lane-wise arithmetic shift right. -/
def execVsra (d a b : BitVec 5) (t : BitVec 4) (m : BitVec 3) (s : State) : Host.Outcome State Fault Refusal :=
  perform (.vsra d a b t m) (vec2 d a b t m (laneSra t.toNat)) s

/-- R295. Absolute value. -/
def execVabs (d a : BitVec 5) (t : BitVec 4) (m : BitVec 3) (s : State) : Host.Outcome State Fault Refusal :=
  perform (.vabs d a t m) (vec1 d a t m (laneAbs t.toNat)) s

/-- R295. Negation. -/
def execVneg (d a : BitVec 5) (t : BitVec 4) (m : BitVec 3) (s : State) : Host.Outcome State Fault Refusal :=
  perform (.vneg d a t m) (vec1 d a t m (laneNeg t.toNat)) s

/-- R296. Reciprocal. -/
def execVrcp (d a : BitVec 5) (t : BitVec 4) (r : BitVec 2) (m : BitVec 3) (s : State) : Host.Outcome State Fault Refusal :=
  perform (.vrcp d a t r m) (vec1 d a t m ((fmtOf t.toNat).rcp r.toNat)) s

/-- R296. Reciprocal square root. -/
def execVrsq (d a : BitVec 5) (t : BitVec 4) (r : BitVec 2) (m : BitVec 3) (s : State) : Host.Outcome State Fault Refusal :=
  perform (.vrsq d a t r m) (vec1 d a t m ((fmtOf t.toNat).rsq r.toNat)) s

/-- R296. Power of two. -/
def execVexp2 (d a : BitVec 5) (t : BitVec 4) (r : BitVec 2) (m : BitVec 3) (s : State) : Host.Outcome State Fault Refusal :=
  perform (.vexp2 d a t r m) (vec1 d a t m ((fmtOf t.toNat).exp2 r.toNat)) s

/-- R296. Base-2 logarithm. -/
def execVlog2 (d a : BitVec 5) (t : BitVec 4) (r : BitVec 2) (m : BitVec 3) (s : State) : Host.Outcome State Fault Refusal :=
  perform (.vlog2 d a t r m) (vec1 d a t m ((fmtOf t.toNat).log2 r.toNat)) s

/-- R297. The mask of the lanes where A is less than B. -/
def execVcmp (d a b : BitVec 5) (t : BitVec 4) (m : BitVec 3) (s : State) : Host.Outcome State Fault Refusal :=
  perform (.vcmp d a b t m) (thenNext do
    let w := widthOf t.toNat
    let x ← rdAB a w
    let y ← rdAB b w
    let k ← rdM m.toNat
    let r := compare t.toNat k x y
    wrM d.toNat r.1
    setFlags r.2) s

/-- R298. Each lane from A or B by the mask. -/
def execVsel (d a b : BitVec 5) (t : BitVec 4) (m : BitVec 3) (s : State) : Host.Outcome State Fault Refusal :=
  perform (.vsel d a b t m) (thenNext do
    let w := widthOf t.toNat
    let x ← rdAB a w
    let y ← rdAB b w
    let k ← rdM m.toNat
    putV d (lanesWith w (512 / w) (fun i => (if k.getLsbD i then lane w x i else lane w y i, 0)))) s

/-- R299. Lanes of A by the indices in B. -/
def execVperm (d a b : BitVec 5) (t : BitVec 4) (m : BitVec 3) (s : State) : Host.Outcome State Fault Refusal :=
  perform (.vperm d a b t m) (thenNext do
    let w := widthOf t.toNat
    let x ← rdAB a w
    let y ← rdAB b w
    let k ← rdM m.toNat
    putV d (governed w k (fun i => (lane w x (lane w y i % (512 / w)), 0)))) s

/-- R300. The immediate in every lane. -/
def execVbcst (d : BitVec 5) (t : BitVec 3) (k : BitVec 16) (s : State) : Host.Outcome State Fault Refusal :=
  perform (.vbcst d t k) (thenNext (putV d (lanesWith (widthOf (typeOfT t)) (512 / widthOf (typeOfT t)) (fun i => (immLane t k i, 0))))) s

/-- R300. D plus the immediate, to nearest. -/
def execVaddi (d : BitVec 5) (t : BitVec 3) (k : BitVec 16) (s : State) : Host.Outcome State Fault Refusal :=
  perform (.vaddi d t k) (immOp d t k (fun ty => laneAdd ty 0)) s

/-- R300. D times the immediate, to nearest. -/
def execVmuli (d : BitVec 5) (t : BitVec 3) (k : BitVec 16) (s : State) : Host.Outcome State Fault Refusal :=
  perform (.vmuli d t k) (immOp d t k (fun ty => laneMul ty 0)) s

/-- R301. One lane to a scalar. -/
def execVmvs (d a b : BitVec 5) (t : BitVec 4) (s : State) : Host.Outcome State Fault Refusal :=
  perform (.vmvs d a b t) (thenNext do
    let w := widthOf t.toNat
    let x ← rdAB a w
    let y ← rdAB b w
    let e := lane w x (lane w y 0 % (512 / w))
    wrS d (if isSigned t.toNat then BitVec.ofInt 64 (laneInt t.toNat e) else BitVec.ofNat 64 e)) s

/-- R301. Lane 0 of A into one lane of D. -/
def execVmsv (d a b : BitVec 5) (t : BitVec 4) (s : State) : Host.Outcome State Fault Refusal :=
  perform (.vmsv d a b t) (thenNext do
    let w := widthOf t.toNat
    let x ← rdAB a w
    let y ← rdAB b w
    let c ← rdV d
    let k := lane w y 0 % (512 / w)
    putV d (lanesWith w (512 / w) (fun i => (if i = k then lane w x 0 else lane w c i, 0)))) s

/-- R302. The active lanes combined in a fixed tree. -/
def execVred (d a p : BitVec 5) (t : BitVec 4) (r : BitVec 2) (m : BitVec 3) (s : State) : Host.Outcome State Fault Refusal :=
  perform (.vred d a p t r m) (thenNext do
    let x ← rdAB a (widthOf t.toNat)
    let k ← rdM m.toNat
    putV d (reduce p.toNat t.toNat r.toNat k x)) s

/-- R303. An inclusive scan in lane order. -/
def execVscan (d a p : BitVec 5) (t : BitVec 4) (r : BitVec 2) (m : BitVec 3) (s : State) : Host.Outcome State Fault Refusal :=
  perform (.vscan d a p t r m) (thenNext do
    let w := widthOf t.toNat
    let x ← rdAB a w
    let k ← rdM m.toNat
    let q := scan (redOp p.toNat t.toNat r.toNat) t.toNat none
      ((List.range (512 / w)).map (fun i => if k.getLsbD i then some (lane w x i) else none))
    putV d (ofLanes w q.1, q.2)) s

/-- R304. One bits of A and B over the active lanes. -/
def execVpopc (d a b : BitVec 5) (t : BitVec 4) (m : BitVec 3) (s : State) : Host.Outcome State Fault Refusal :=
  perform (.vpopc d a b t m) (thenNext do
    let w := widthOf t.toNat
    let x ← rdAB a w
    let y ← rdAB b w
    let k ← rdM m.toNat
    wrS d (BitVec.ofNat 64 (((List.range (512 / w)).filter (fun i => k.getLsbD i)).foldl (fun n i =>
      n + ((List.range w).filter (fun j => (lane w x i &&& lane w y i).testBit j)).length) 0))) s

/-- R305. The selected lanes, packed toward lane 0. -/
def execVcmpr (d a : BitVec 5) (t : BitVec 4) (m : BitVec 3) (s : State) : Host.Outcome State Fault Refusal :=
  perform (.vcmpr d a t m) (thenNext do
    let w := widthOf t.toNat
    let x ← rdAB a w
    let k ← rdM m.toNat
    wrV d (compress w k x)) s

/-- R305. Lanes from lane 0 upward, spread to the selected lanes. -/
def execVxpnd (d a : BitVec 5) (t : BitVec 4) (m : BitVec 3) (s : State) : Host.Outcome State Fault Refusal :=
  perform (.vxpnd d a t m) (thenNext do
    let w := widthOf t.toNat
    let x ← rdAB a w
    let k ← rdM m.toNat
    wrV d (expand w k x)) s

/-- R306. Dot products of four bytes added to i32 lanes. -/
def execVdot (d a b : BitVec 5) (t : BitVec 4) (m : BitVec 3) (s : State) : Host.Outcome State Fault Refusal :=
  perform (.vdot d a b t m) (thenNext do
    let x ← rdAB a 8
    let y ← rdAB b 8
    let c ← rdV d
    let k ← rdM m.toNat
    putV d (governedKeep 32 k c (fun i => dot t.toNat x y (lane 32 c i) i))) s

/-- R307. Mask and. -/
def execMand (d a b : BitVec 5) (s : State) : Host.Outcome State Fault Refusal :=
  perform (.mand d a b) (thenNext do
    let x ← rdM a.toNat
    let y ← rdM b.toNat
    wrM d.toNat (x &&& y)) s

/-- R307. Mask or. -/
def execMor (d a b : BitVec 5) (s : State) : Host.Outcome State Fault Refusal :=
  perform (.mor d a b) (thenNext do
    let x ← rdM a.toNat
    let y ← rdM b.toNat
    wrM d.toNat (x ||| y)) s

/-- R307. Mask complement. -/
def execMnot (d a : BitVec 5) (s : State) : Host.Outcome State Fault Refusal :=
  perform (.mnot d a) (thenNext do
    let x ← rdM a.toNat
    wrM d.toNat (~~~x)) s

end Sys2Proof.Machine
end

