-- ==== Sys2Proof/Machine/Dispatch.lean ====
section
/-! DEFINITION. The dispatch of every instruction and step to its meaning. -/

namespace Sys2Proof.Machine

def exec (i : Instr) (s : State) : Host.Outcome State Fault Refusal :=
  match i with
  | .add d a b imm => Sys2Proof.Machine.execAdd d a b imm s
  | .sub d a b imm => Sys2Proof.Machine.execSub d a b imm s
  | .mul d a b imm => Sys2Proof.Machine.execMul d a b imm s
  | .mulh d a b imm => Sys2Proof.Machine.execMulh d a b imm s
  | .mulhn d a b imm => Sys2Proof.Machine.execMulhn d a b imm s
  | .div d a b imm => Sys2Proof.Machine.execDiv d a b imm s
  | .divn d a b imm => Sys2Proof.Machine.execDivn d a b imm s
  | .rem d a b imm => Sys2Proof.Machine.execRem d a b imm s
  | .remn d a b imm => Sys2Proof.Machine.execRemn d a b imm s
  | .and d a b imm => Sys2Proof.Machine.execAnd d a b imm s
  | .or d a b imm => Sys2Proof.Machine.execOr d a b imm s
  | .xor d a b imm => Sys2Proof.Machine.execXor d a b imm s
  | .andn d a b imm => Sys2Proof.Machine.execAndn d a b imm s
  | .shl d a b imm => Sys2Proof.Machine.execShl d a b imm s
  | .shr d a b imm => Sys2Proof.Machine.execShr d a b imm s
  | .sra d a b imm => Sys2Proof.Machine.execSra d a b imm s
  | .rot d a b imm => Sys2Proof.Machine.execRot d a b imm s
  | .clz d a => Sys2Proof.Machine.execClz d a s
  | .ctz d a => Sys2Proof.Machine.execCtz d a s
  | .popc d a => Sys2Proof.Machine.execPopc d a s
  | .min d a b imm => Sys2Proof.Machine.execMin d a b imm s
  | .max d a b imm => Sys2Proof.Machine.execMax d a b imm s
  | .minn d a b imm => Sys2Proof.Machine.execMinn d a b imm s
  | .maxn d a b imm => Sys2Proof.Machine.execMaxn d a b imm s
  | .slt d a b imm => Sys2Proof.Machine.execSlt d a b imm s
  | .sltn d a b imm => Sys2Proof.Machine.execSltn d a b imm s
  | .seq d a b imm => Sys2Proof.Machine.execSeq d a b imm s
  | .sel d a b imm => Sys2Proof.Machine.execSel d a b imm s
  | .lea d a b sc imm => Sys2Proof.Machine.execLea d a b sc imm s
  | .bfx d a b x imm w => Sys2Proof.Machine.execBfx d a b x imm w s
  | .bfi d a b imm w => Sys2Proof.Machine.execBfi d a b imm w s
  | .addi d a k => Sys2Proof.Machine.execAddi d a k s
  | .andi d a k => Sys2Proof.Machine.execAndi d a k s
  | .lih d t k => Sys2Proof.Machine.execLih d t k s
  | .beq a b k => Sys2Proof.Machine.execBeq a b k s
  | .bne a b k => Sys2Proof.Machine.execBne a b k s
  | .blt a b k => Sys2Proof.Machine.execBlt a b k s
  | .bge a b k => Sys2Proof.Machine.execBge a b k s
  | .bltn a b k => Sys2Proof.Machine.execBltn a b k s
  | .bgen a b k => Sys2Proof.Machine.execBgen a b k s
  | .jal d k => Sys2Proof.Machine.execJal d k s
  | .jalr d a k => Sys2Proof.Machine.execJalr d a k s
  | .repf n c d a b => Sys2Proof.Machine.execRepf n c d a b s
  | .spawn d a b imm t g => Sys2Proof.Machine.execSpawn d a b imm t g s
  | .reap d a b imm => Sys2Proof.Machine.execReap d a b imm s
  | .exit a b imm => Sys2Proof.Machine.execExit a b imm s
  | .launch d a b => Sys2Proof.Machine.execLaunch d a b s
  | .done d a b imm => Sys2Proof.Machine.execDone d a b imm s
  | .cancel d a => Sys2Proof.Machine.execCancel d a s
  | .lcntCmp d a => Sys2Proof.Machine.execLcntCmp d a s
  | .lcntExp d a => Sys2Proof.Machine.execLcntExp d a s
  | .lcntSt d a => Sys2Proof.Machine.execLcntSt d a s
  | .lwait d a b imm => Sys2Proof.Machine.execLwait d a b imm s
  | .place d a b => Sys2Proof.Machine.execPlace d a b s
  | .qbind d a b k => Sys2Proof.Machine.execQbind d a b k s
  | .qunb d a => Sys2Proof.Machine.execQunb d a s
  | .qtry d a b => Sys2Proof.Machine.execQtry d a b s
  | .qpeek d a b => Sys2Proof.Machine.execQpeek d a b s
  | .qawn d a b => Sys2Proof.Machine.execQawn d a b s
  | .qlen d a => Sys2Proof.Machine.execQlen d a s
  | .qend d a => Sys2Proof.Machine.execQend d a s
  | .rres d a b imm => Sys2Proof.Machine.execRres d a b imm s
  | .rpub d a b w => Sys2Proof.Machine.execRpub d a b w s
  | .rcurGet d a => Sys2Proof.Machine.execRcurGet d a s
  | .rcurSkip d a b => Sys2Proof.Machine.execRcurSkip d a b s
  | .tokh d k => Sys2Proof.Machine.execTokh d k s
  | .txb k => Sys2Proof.Machine.execTxb k s
  | .txo k => Sys2Proof.Machine.execTxo k s
  | .txa k => Sys2Proof.Machine.execTxa k s
  | .watch a k => Sys2Proof.Machine.execWatch a k s
  | .ld d a k => Sys2Proof.Machine.execLd d a k s
  | .st d a k => Sys2Proof.Machine.execSt d a k s
  | .ldx d a b t h => Sys2Proof.Machine.execLdx d a b t h s
  | .stx d a b t => Sys2Proof.Machine.execStx d a b t s
  | .vld d a k => Sys2Proof.Machine.execVld d a k s
  | .vst d a k => Sys2Proof.Machine.execVst d a k s
  | .vlds d a b t h m => Sys2Proof.Machine.execVlds d a b t h m s
  | .vsts d a b t m => Sys2Proof.Machine.execVsts d a b t m s
  | .vgth d a b t h m => Sys2Proof.Machine.execVgth d a b t h m s
  | .vsct d a b t m => Sys2Proof.Machine.execVsct d a b t m s
  | .prfL2 a k => Sys2Proof.Machine.execPrfL2 a k s
  | .prfL1 a k => Sys2Proof.Machine.execPrfL1 a k s
  | .cfl a k => Sys2Proof.Machine.execCfl a k s
  | .cinvD a k => Sys2Proof.Machine.execCinvD a k s
  | .cinvI a k => Sys2Proof.Machine.execCinvI a k s
  | .cinvDi a k => Sys2Proof.Machine.execCinvDi a k s
  | .stm d a k => Sys2Proof.Machine.execStm d a k s
  | .ldaq d a sc o w => Sys2Proof.Machine.execLdaq d a sc o w s
  | .strl d a sc o w => Sys2Proof.Machine.execStrl d a sc o w s
  | .fence sc o => Sys2Proof.Machine.execFence sc o s
  | .amoadd d a b sc o w => Sys2Proof.Machine.execAmoadd d a b sc o w s
  | .amoswp d a b sc o w => Sys2Proof.Machine.execAmoswp d a b sc o w s
  | .amocas d a b sc o w => Sys2Proof.Machine.execAmocas d a b sc o w s
  | .amomin d a b sc o w => Sys2Proof.Machine.execAmomin d a b sc o w s
  | .amomax d a b sc o w => Sys2Proof.Machine.execAmomax d a b sc o w s
  | .amoand d a b sc o w => Sys2Proof.Machine.execAmoand d a b sc o w s
  | .amoor d a b sc o w => Sys2Proof.Machine.execAmoor d a b sc o w s
  | .amoxor d a b sc o w => Sys2Proof.Machine.execAmoxor d a b sc o w s
  | .red p a b sc o w => Sys2Proof.Machine.execRed p a b sc o w s
  | .migrantLand til => Sys2Proof.Machine.execMigrantLand til s
  | .migrantRecall til => Sys2Proof.Machine.execMigrantRecall til s
  | .migrantKill cid => Sys2Proof.Machine.execMigrantKill cid s
  | .vcvt d a b t r m => Sys2Proof.Machine.execVcvt d a b t r m s
  | .vpack d a b t r m => Sys2Proof.Machine.execVpack d a b t r m s
  | .vunpk d a h sc t r m => Sys2Proof.Machine.execVunpk d a h sc t r m s
  | .vscl d a b t r m => Sys2Proof.Machine.execVscl d a b t r m s
  | .vclsExp d a t m => Sys2Proof.Machine.execVclsExp d a t m s
  | .vclsCls d a t m => Sys2Proof.Machine.execVclsCls d a t m s
  | .vtriD2 d a m => Sys2Proof.Machine.execVtriD2 d a m s
  | .vtriD5 d a m => Sys2Proof.Machine.execVtriD5 d a m s
  | .vtriE2 d a m => Sys2Proof.Machine.execVtriE2 d a m s
  | .vtriE5 d a m => Sys2Proof.Machine.execVtriE5 d a m s
  | .vadd d a b t r m => Sys2Proof.Machine.execVadd d a b t r m s
  | .vsub d a b t r m => Sys2Proof.Machine.execVsub d a b t r m s
  | .vmul d a b t r m => Sys2Proof.Machine.execVmul d a b t r m s
  | .vfma d a b t r m => Sys2Proof.Machine.execVfma d a b t r m s
  | .vfms d a b t r m => Sys2Proof.Machine.execVfms d a b t r m s
  | .vmin d a b t m => Sys2Proof.Machine.execVmin d a b t m s
  | .vmax d a b t m => Sys2Proof.Machine.execVmax d a b t m s
  | .vabs d a t m => Sys2Proof.Machine.execVabs d a t m s
  | .vneg d a t m => Sys2Proof.Machine.execVneg d a t m s
  | .vrcp d a t r m => Sys2Proof.Machine.execVrcp d a t r m s
  | .vrsq d a t r m => Sys2Proof.Machine.execVrsq d a t r m s
  | .vexp2 d a t r m => Sys2Proof.Machine.execVexp2 d a t r m s
  | .vlog2 d a t r m => Sys2Proof.Machine.execVlog2 d a t r m s
  | .vcmp d a b t m => Sys2Proof.Machine.execVcmp d a b t m s
  | .vsel d a b t m => Sys2Proof.Machine.execVsel d a b t m s
  | .vand d a b t m => Sys2Proof.Machine.execVand d a b t m s
  | .vor d a b t m => Sys2Proof.Machine.execVor d a b t m s
  | .vxor d a b t m => Sys2Proof.Machine.execVxor d a b t m s
  | .vshl d a b t m => Sys2Proof.Machine.execVshl d a b t m s
  | .vshr d a b t m => Sys2Proof.Machine.execVshr d a b t m s
  | .vsra d a b t m => Sys2Proof.Machine.execVsra d a b t m s
  | .vperm d a b t m => Sys2Proof.Machine.execVperm d a b t m s
  | .vbcst d t k => Sys2Proof.Machine.execVbcst d t k s
  | .vaddi d t k => Sys2Proof.Machine.execVaddi d t k s
  | .vmuli d t k => Sys2Proof.Machine.execVmuli d t k s
  | .vmvs d a b t => Sys2Proof.Machine.execVmvs d a b t s
  | .vmsv d a b t => Sys2Proof.Machine.execVmsv d a b t s
  | .vred d a p t r m => Sys2Proof.Machine.execVred d a p t r m s
  | .vscan d a p t r m => Sys2Proof.Machine.execVscan d a p t r m s
  | .vpopc d a b t m => Sys2Proof.Machine.execVpopc d a b t m s
  | .vcmpr d a t m => Sys2Proof.Machine.execVcmpr d a t m s
  | .vxpnd d a t m => Sys2Proof.Machine.execVxpnd d a t m s
  | .vdot d a b t m => Sys2Proof.Machine.execVdot d a b t m s
  | .mand d a b => Sys2Proof.Machine.execMand d a b s
  | .mor d a b => Sys2Proof.Machine.execMor d a b s
  | .mnot d a => Sys2Proof.Machine.execMnot d a s
  | .tacq d a b imm => Sys2Proof.Machine.execTacq d a b imm s
  | .trel d a => Sys2Proof.Machine.execTrel d a s
  | .tzro d => Sys2Proof.Machine.execTzro d s
  | .tmma a b c n f y x => Sys2Proof.Machine.execTmma a b c n f y x s
  | .tmmt a b c n f y x => Sys2Proof.Machine.execTmmt a b c n f y x s
  | .tlda d a b x => Sys2Proof.Machine.execTlda d a b x s
  | .tsta d a b x r imm t => Sys2Proof.Machine.execTsta d a b x r imm t s
  | .tgeo d a b => Sys2Proof.Machine.execTgeo d a b s
  | .bsum d a b => Sys2Proof.Machine.execBsum d a b s
  | .bacc d a b => Sys2Proof.Machine.execBacc d a b s
  | .tileStaging cid => Sys2Proof.Machine.execTileStaging cid s
  | .tileCommandComplete til => Sys2Proof.Machine.execTileCommandComplete til s
  | .leaseRearbitration til => Sys2Proof.Machine.execLeaseRearbitration til s
  | .spmma d a b f p => Sys2Proof.Machine.execSpmma d a b f p s
  | .sppre d a b => Sys2Proof.Machine.execSppre d a b s
  | .spinvOne d a b => Sys2Proof.Machine.execSpinvOne d a b s
  | .spinvAll d => Sys2Proof.Machine.execSpinvAll d s
  | .spqry d a b => Sys2Proof.Machine.execSpqry d a b s
  | .mrgcStat d a => Sys2Proof.Machine.execMrgcStat d a s
  | .mrgcClr d a => Sys2Proof.Machine.execMrgcClr d a s
  | .mzkey d a b => Sys2Proof.Machine.execMzkey d a b s
  | .mzkeyInv d a => Sys2Proof.Machine.execMzkeyInv d a s
  | .patternCompileStart til => Sys2Proof.Machine.execPatternCompileStart til s
  | .patternCompileEnd til => Sys2Proof.Machine.execPatternCompileEnd til s
  | .mergeEmit til => Sys2Proof.Machine.execMergeEmit til s
  | .cpy d a b imm => Sys2Proof.Machine.execCpy d a b imm s
  | .cpym d a b => Sys2Proof.Machine.execCpym d a b s
  | .tffr d a => Sys2Proof.Machine.execTffr d a s
  | .wany d a => Sys2Proof.Machine.execWany d a s
  | .wall d a => Sys2Proof.Machine.execWall d a s
  | .aexp d a b imm => Sys2Proof.Machine.execAexp d a b imm s
  | .arrv d a b imm => Sys2Proof.Machine.execArrv d a b imm s
  | .wphsWait d a b imm => Sys2Proof.Machine.execWphsWait d a b imm s
  | .wphsTest d a b imm => Sys2Proof.Machine.execWphsTest d a b imm s
  | .bjoin d a => Sys2Proof.Machine.execBjoin d a s
  | .bleav d a => Sys2Proof.Machine.execBleav d a s
  | .copyStart id => Sys2Proof.Machine.execCopyStart id s
  | .copyTransfer id => Sys2Proof.Machine.execCopyTransfer id s
  | .copyComplete id => Sys2Proof.Machine.execCopyComplete id s
  | .copyFaultReply til body => Sys2Proof.Machine.execCopyFaultReply til body s
  | .mfs d k => Sys2Proof.Machine.execMfs d k s
  | .mts d k => Sys2Proof.Machine.execMts d k s
  | .lsplitWrite d => Sys2Proof.Machine.execLsplitWrite d s
  | .swzWrite d => Sys2Proof.Machine.execSwzWrite d s
  | .tringWrite d n => Sys2Proof.Machine.execTringWrite d n s
  | .fstatClear d => Sys2Proof.Machine.execFstatClear d s
  | .svcmapWrite d => Sys2Proof.Machine.execSvcmapWrite d s
  | .wdogWrite d => Sys2Proof.Machine.execWdogWrite d s
  | .sysc k => Sys2Proof.Machine.execSysc k s
  | .brk k => Sys2Proof.Machine.execBrk k s
  | .tlbf d a b => Sys2Proof.Machine.execTlbf d a b s
  | .tlbiVa d a => Sys2Proof.Machine.execTlbiVa d a s
  | .tlbiPart d => Sys2Proof.Machine.execTlbiPart d s
  | .mbxr d a y x => Sys2Proof.Machine.execMbxr d a y x s
  | .mbxsFrep d a b => Sys2Proof.Machine.execMbxsFrep d a b s
  | .mbxsCrep d a b => Sys2Proof.Machine.execMbxsCrep d a b s
  | .mbxsErep d a b => Sys2Proof.Machine.execMbxsErep d a b s
  | .mbxsResume d a b => Sys2Proof.Machine.execMbxsResume d a b s
  | .mbxsIntr d a b => Sys2Proof.Machine.execMbxsIntr d a b s
  | .mbxsUser d a b => Sys2Proof.Machine.execMbxsUser d a b s
  | .mailboxDelivery core box => Sys2Proof.Machine.execMailboxDelivery core box s
  | .csaveSave d a => Sys2Proof.Machine.execCsaveSave d a s
  | .csaveRest d a => Sys2Proof.Machine.execCsaveRest d a s
  | .pcnt d b imm => Sys2Proof.Machine.execPcnt d b imm s
  | .pcntCtx d a b imm => Sys2Proof.Machine.execPcntCtx d a b imm s
  | .strandStart cid => Sys2Proof.Machine.execStrandStart cid s
  | .strandWake who => Sys2Proof.Machine.execStrandWake who s
  | .changeNotice til key => Sys2Proof.Machine.execChangeNotice til key s
  | .faultReply til body => Sys2Proof.Machine.execFaultReply til body s
  | .engineFetchComplete cid e => Sys2Proof.Machine.execEngineFetchComplete cid e s
  | .engineReply til body => Sys2Proof.Machine.execEngineReply til body s
  | .streamReadElement cid e => Sys2Proof.Machine.execStreamReadElement cid e s
  | .streamStoreElement cid e => Sys2Proof.Machine.execStreamStoreElement cid e s
  | .elementArrival ring => Sys2Proof.Machine.execElementArrival ring s
  | .extensionMove ring => Sys2Proof.Machine.execExtensionMove ring s
  | .creditGrant ring => Sys2Proof.Machine.execCreditGrant ring s
  | .queueEntryTake q => Sys2Proof.Machine.execQueueEntryTake q s
  | .launchReady id => Sys2Proof.Machine.execLaunchReady id s
  | .dispatchAttempt die => Sys2Proof.Machine.execDispatchAttempt die s
  | .shareReserve id => Sys2Proof.Machine.execShareReserve id s
  | .cancelNotice die part obj => Sys2Proof.Machine.execCancelNotice die part obj s
  | .budgetPublish die level throt => Sys2Proof.Machine.execBudgetPublish die level throt s
  | .droopResponse die => Sys2Proof.Machine.execDroopResponse die s
  | .droopEnd die => Sys2Proof.Machine.execDroopEnd die s
  | .watchdogExpire cid => Sys2Proof.Machine.execWatchdogExpire cid s
  | .uncorrectableError loc => Sys2Proof.Machine.execUncorrectableError loc s
  | .peerLinkDown port => Sys2Proof.Machine.execPeerLinkDown port s
  | .flitReplay edge => Sys2Proof.Machine.execFlitReplay edge s
  | .ucieEdgeDown edge => Sys2Proof.Machine.execUcieEdgeDown edge s
  | .thermalThrottle die throt => Sys2Proof.Machine.execThermalThrottle die throt s
  | .coreClockCycle core => Sys2Proof.Machine.execCoreClockCycle core s
  | .unassignedOpcode w => Sys2Proof.Machine.execUnassignedOpcode w s
  | .tlbEntryDisplaced level unit index => Sys2Proof.Machine.execTlbEntryDisplaced level unit index s
  | .peerLinkUp port => Sys2Proof.Machine.execPeerLinkUp port s
  | .xmodCopyWrite port part va data => Sys2Proof.Machine.execXmodCopyWrite port part va data s
  | .tret => Sys2Proof.Machine.execTret s
  | .txe => Sys2Proof.Machine.execTxe s
  | .txr => Sys2Proof.Machine.execTxr s
  | .tlse => Sys2Proof.Machine.execTlse s
  | .tlrl => Sys2Proof.Machine.execTlrl s
  | .powerGood => Sys2Proof.Machine.execPowerGood s
  | .rdmaWrite => Sys2Proof.Machine.execRdmaWrite s
  | .rdmaRead => Sys2Proof.Machine.execRdmaRead s
  | .invalidRequest => Sys2Proof.Machine.execInvalidRequest s
  | .partCreate => Sys2Proof.Machine.execPartCreate s
  | .partDestroy => Sys2Proof.Machine.execPartDestroy s
  | .partSwap => Sys2Proof.Machine.execPartSwap s
  | .hold => Sys2Proof.Machine.execHold s
  | .unhold => Sys2Proof.Machine.execUnhold s
  | .qtable => Sys2Proof.Machine.execQtable s
  | .attest => Sys2Proof.Machine.execAttest s
  | .fwload => Sys2Proof.Machine.execFwload s
  | .events => Sys2Proof.Machine.execEvents s
  | .peermap => Sys2Proof.Machine.execPeermap s
  | .clkset => Sys2Proof.Machine.execClkset s
  | .thermalShutdown => Sys2Proof.Machine.execThermalShutdown s
  | .i3cDynamicAddress => Sys2Proof.Machine.execI3cDynamicAddress s
  | .i3cRead => Sys2Proof.Machine.execI3cRead s
  | .orderlyShutdown => Sys2Proof.Machine.execOrderlyShutdown s
  | .commandPortIntr => Sys2Proof.Machine.execCommandPortIntr s

end Sys2Proof.Machine
end

