-- ==== Sys2Proof/Machine/Step.lean ====
section
/-! DEFINITION. One step of the module (log 4): a device step that is due, else a request at a port that can be served, else the
issue of the context that the clock has chosen, else the clock cycle of the next core. -/

namespace Sys2Proof.Machine

/-- What follows the execution of an instruction issued in a state, whose accesses take so much: later instructions wait for its
results. -/
def settled (pre : State) (c : Nat) (i : Instr) (r : Option Reach) :
    Host.Outcome State Fault Refusal → Host.Outcome State Fault Refusal
  | .next s => .next (pre.settle s c i r)
  | .fault r => .fault r
  | .refused r => .refused r

/-- A module that has shut down takes no step but one of power good. -/
def step (s : State) : Host.Outcome State Fault Refusal :=
  if s.port.down ∧ s.agenda.head? ≠ some .powerGood then .fault .moduleDown
  else match s.agenda with
    | i :: r => exec i { s with agenda := r }
    | [] => match s.nextRequest with
      | some (s', q) => exec q.event s'
      | none => match s.issue with
        | some c => match State.issueOf { s with issue := none } c with
          | .run i r s' => settled s' c i r (exec i s')
          | .done s' => .next s'
        | none => exec (.coreClockCycle s.clock) { s with clock := (s.clock + 1) % 4096 }

/-- The state with a word placed where the acting context fetches next, mapped for fetching at its own address, and that
context chosen to issue (log 7). -/
def State.withFetchWord (s : State) (nbits w : Nat) : State :=
  s.placeWord (BitVec.ofNat 32 (w % 2 ^ nbits))

end Sys2Proof.Machine
end

