-- ==== Sys2Proof/Safety.lean ====
section
/-! DEFINITION. What a safe run keeps, and what the statements ask of a state: the canonical forms of its tables, the
hard-wired registers (R15), and a strand that may run an instruction whose fields name registers only (R36, R88, R173). -/

namespace Sys2Proof.Machine

/-- The keys of a table rise strictly. -/
def tableOk {α : Type} : List (Nat × α) → Bool
  | [] => true
  | [_] => true
  | (a, _) :: (b, y) :: r => a < b && tableOk ((b, y) :: r)

/-- Memory is in its canonical form: one listing for one content (log 1). -/
def State.memOk (s : State) : Prop := memWf s.mem = true

/-- The sparse tables list no number twice, so that a number has one context, core, tiller and die. -/
def State.tablesOk (s : State) : Prop :=
  tableOk s.ctxs = true ∧ tableOk s.cores = true ∧ tableOk s.tils = true ∧ tableOk s.dies = true

/-- A context may run an instruction as far as its row goes, and no field of the instruction names a bound end: a MIG strand
keeps to its rows and to s0 to s15 (R88), and inside an attempt the instruction is no content that R173 forbids. -/
def Plain (i : Instr) (s : State) : Prop :=
  (s.me.mig = true → i.migOk = true ∧ ∀ f ∈ i.reads ++ i.writes ++ i.readsAndWrites, Fld.high f = false) ∧
  (s.me.tx.active = true → i.content = false) ∧
  ∀ f ∈ i.reads ++ i.writes ++ i.readsAndWrites, s.me.endOf f = none

/-- The second operand of a format-A word when it names no bound end (R30). -/
def Ctx.opB (x : Ctx) (i : BitVec 1) (b : BitVec 5) : Word := if i = 1 then b.setWidth 64 else x.getS b.toNat

/-! ### Operands as relations

A field may name a register or a bound end (R36). These relations hold for both: they give what the field yields, and the
state after it. -/

/-- The row lets the strand execute the instruction, and every end that its fields name is ready (R36, R88, R138, R173, R189).
The second state differs from the first only inside an attempt, whose sets take the ends' keys (R174). -/
def Ready (i : Instr) (s t : State) : Prop := rowCheck i s = .ok ((), s) ∧ examineFields i s = .ok ((), t)

/-- As `Ready`, for an instruction that examines its ends itself. -/
def Allowed (i : Instr) (s : State) : Prop := rowCheck i s = .ok ((), s)

/-- A scalar field is read: its value and the state after (ReadOp). -/
def Reads (n : BitVec 5) (s : State) (x : Word) (t : State) : Prop := rdS n s = .ok (x, t)
/-- The B field or the immediate is read (R30). -/
def ReadsB (i : BitVec 1) (n : BitVec 5) (s : State) (x : Word) (t : State) : Prop := rdB i n s = .ok (x, t)
/-- A scalar field is written (WriteOp). -/
def Writes (n : BitVec 5) (s : State) (w : Word) (t : State) : Prop := wrS n w s = .ok ((), t)
/-- A vector field is read. -/
def ReadsV (n : BitVec 5) (s : State) (x : VReg) (t : State) : Prop := rdV n s = .ok (x, t)
/-- An A or B field of the vector classes is read for lanes of a width (R35). -/
def ReadsAB (n : BitVec 5) (w : Nat) (s : State) (x : VReg) (t : State) : Prop := rdAB n w s = .ok (x, t)
/-- A vector field is written. -/
def WritesV (n : BitVec 5) (s : State) (w : VReg) (t : State) : Prop := wrV n w s = .ok ((), t)

/-- The state past an instruction that has completed. -/
def State.past (s : State) : State := s.modMe Ctx.advance

/-- The acting context alone changes, and goes past the instruction. -/
def State.after (s : State) (f : Ctx → Ctx) : State := (s.modMe f).past

end Sys2Proof.Machine
end

