-- ==== Sys2Proof/Certificates/Slice0/Obligations.lean ====
section
/-! DEFINITION. The statements for the provers. Each says what an instruction, a step or the machine does, from every state that
meets its hypotheses. `exec i s = .next t` says that the instruction completes; the relations of Safety.lean say what its
operand fields yield, for registers and bound ends alike. -/

open Sys2Proof Sys2Proof.Machine

/-! ### Words and their decoding -/

/-- R27 to R40, the encoding tables: the word of a well-formed instruction decodes to it, whatever its fields hold. -/
def Obligations.DecodeOfEncode : Prop :=
  ∀ (i : Instr) (w : IWord), i.wellFormed = true → encode i = [w] → decode w = .ok i

/-- R29: a word that decodes is the one word of its instruction, whose fields keep the limits of its row; so no fixed bit and
no reserved value is passed over. -/
def Obligations.EncodeOfDecode : Prop :=
  ∀ (w : IWord) (i : Instr), decode w = .ok i → encode i = [w] ∧ i.wellFormed = true

/-- Words and the instructions they stand for, at least one of each class of R39. The first four are those that R67 writes out.
The next twelve stand beside assembly text of the chapters, one each of the classes control, launch, channel, transaction,
memory, ordering, conversion, vector, tile, sparse, copy and system. The last seven are put together field by field from the
encoding tables (R29 to R34). -/
def Obligations.WordsDecode : Prop :=
  decode 0x223E0123 = .ok (.lih 7 6 0x0123) ∧ decode 0x22414567 = .ok (.lih 8 1 0x4567) ∧
  decode 0x0B39D000 = .ok (.or 7 7 8 0) ∧ decode 0x0E39E020 = .ok (.shl 7 7 16 1) ∧
  decode 0x30683FF4 = .ok (.beq 13 0 0x3FF4) ∧ decode 0x40310A00 = .ok (.launch 6 4 5) ∧
  decode 0x48709A02 = .ok (.qbind 14 2 13 2) ∧ decode 0x58000013 = .ok (.txb 0x13) ∧ decode 0x609A8000 = .ok (.ld 19 10 0) ∧
  decode 0x7893010A = .ok (.ldaq 18 12 4 1 2) ∧ decode 0x88524520 = .ok (.vcvt 10 9 2 9 0 0) ∧
  decode 0x9D0D0400 = .ok (.vcmp 1 20 2 0 0) ∧ decode 0xC5141F92 = .ok (.tmma 1 4 0 31 9 1 0) ∧
  decode 0xD000B200 = .ok (.spmma 0 2 25 0 0) ∧ decode 0xD8298620 = .ok (.cpy 5 6 3 1) ∧
  decode 0xE9710040 = .ok (.tringWrite 14 0) ∧
  decode 0x38FFF01F = .ok (.repf 15 255 0 1 15) ∧ decode 0x53000000 = .ok .tret ∧
  decode (0x30#8 ++ 3#5 ++ 4#5 ++ 0x3FFF#14) = .ok (.beq 3 4 0x3FFF) ∧
  decode (0x4A#8 ++ 5#5 ++ 2#5 ++ 6#5 ++ 0#9) = .ok (.qtry 5 2 6) ∧
  decode (0x60#8 ++ 9#5 ++ 10#5 ++ 8#14) = .ok (.ld 9 10 8) ∧
  decode (0xC1#8 ++ 0#24) = .ok .tlrl ∧
  decode (0xB1#8 ++ 1#5 ++ 2#5 ++ 3#5 ++ 0#9) = .ok (.mand 1 2 3)

/-! ### Steps -/

/-- A step runs the decoded instruction. With no device step due and no request to serve, the context chosen to issue, if it
still may, takes the word at its pc; the word, kept in a capturing frame and stepped by its strides (R43, R44), is decoded and
executed. What its accesses take is fixed as it begins, with a free number for each (log 53), and so is the cycle from which
what it sends to an end can be read (R68); later instructions wait for its results (R56). A context that a step since its
choice has stopped does not issue, and a multiply whose operands have landed since, and are not staged yet, issues later (R317).
The order of what a step may be is the model's choice (log 4): a device step that is due,
else the first request at a port that need not wait, else an issue, else the clock cycle of the core whose turn it is. R29,
R40, R44: a fetched word that decodes to nothing raises ILLEGAL; so does, in a frame's capture, a word that is not arithmetic,
once the frame is cleared. R69: the word that was fetched and translated as the context became ready is the word at its pc.
R83, R214, R216, R219, R236: else it is fetched. A fetch below 2^52, by a context other than 15 (log 7), whose page the core's
instruction TLB holds needs EX, and gives the little-endian word of a line of the tiller's instruction cache, the word at the
physical address unless that was written since; without the line it comes some cycles later, of which the model fixes no
number (log 53), or traps where the word is poisoned. From 2^52 on it traps with ADDR. A trap of a fetch carries the pc. -/
def Obligations.StepRunsDecoded : Prop :=
  (∀ (s : State) (c : Nat) (w : IWord) (i : Instr),
     let t := ({ s with issue := none, cur := c } : State).modMe (fun x => { x with word := none })
     let runs := fun (u : State) =>
       let p := u.touchOf c i
       let r := p.map (fun a => u.reach c a u.nonce)
       let v : State := { u with
         nonce := u.nonce + (p.map (fun a => a.vas.length + 1)).getD 0
         due := if i.writes.any (fun f => ((u.ctx c).endOf f).isSome) then
           (u.core (coreOf c)).cycle + BitVec.ofNat 64 (resultCycles (wordOf i) r).1 else 0 }
       step s = settled v c i r (exec i v)
     let staging := (s.nextInstr c).any (fun j => ({ s with issue := none } : State).tileWaits c j) = true
     s.port.down = false → s.agenda = [] → s.nextRequest = none → s.issue = some c →
     (s.active c = true → ¬staging → s.nextRaw c = .word w →
       (t.me.framed = false → decode w = .ok i → runs t) ∧
       (t.me.framed = true → isArithmetic w = true →
         let u := t.modMe (fun x => { x with frame := { x.frame with
           words := if x.frame.i < x.frame.words.length then x.frame.words else x.frame.words ++ [w] } })
         decode (u.me.frame.stepWord w u.me.frame.k) = .ok i → runs u)) ∧
     (s.active c = false ∨ staging → ∃ u, step s = .next u ∧ u.issue = none ∧ (u.ctx c).pc = (s.ctx c).pc ∧ u.mem = s.mem)) ∧
  (∀ s : State, s.port.down = false →
     (∀ i r, s.agenda = i :: r → step s = exec i { s with agenda := r }) ∧
     (s.agenda = [] → ∀ q r, s.port.inbox = q :: r → s.port.blocked q = false → step s = exec q.event s) ∧
     (s.agenda = [] → s.nextRequest = none → s.issue = none →
       step s = exec (.coreClockCycle s.clock) { s with clock := (s.clock + 1) % 4096 }) ∧
     ((∀ q ∈ s.port.inbox, s.port.blocked q = true) ↔ s.nextRequest = none)) ∧
  (∀ (s : State) (c : Nat) (w : IWord) (e : DecodeErr) (cause : Nat),
     let t := ({ s with issue := none, cur := c } : State).modMe (fun x => { x with word := none })
     s.port.down = false → s.agenda = [] → s.nextRequest = none → s.issue = some c → s.active c = true →
     t.me.tx.active = false → (∀ j, s.nextInstr c = some j → ({ s with issue := none } : State).tileWaits c j = false) →
     (s.nextRaw c = .trap cause → step s = .next (t.takeTrap c cause 0 t.me.pc 0)) ∧
     (s.nextRaw c = .word w →
       (t.me.framed = false → decode w = .error e → step s = .next (t.takeTrap c Cause.illegal 0 0 w)) ∧
       (t.me.framed = true → isArithmetic w = false →
         step s = .next ((t.modMe (fun x => { x with frame := .clear })).takeTrap c Cause.illegal 0 0 w)))) ∧
  (∀ (s : State) (c : Nat) (w : IWord), (s.ctx c).framed = false →
     ((s.ctx c).word = none → s.nextRaw c = s.fetch c (s.ctx c).pc) ∧
     ((s.ctx c).word = some ((s.ctx c).pc, w) → s.nextRaw c = .word w)) ∧
  (∀ (s : State) (c : Nat) (pc : Word), ctxNo c ≠ 15 →
     (2 ^ 52 ≤ pc.toNat → s.fetch c pc = .trap Cause.addr) ∧
     (∀ e : TlbEntry, pc.toNat < 2 ^ 52 → tlbFind (s.core (coreOf c)).itlb (s.partOf (tilOf c)) pc.toNat = some e →
       let pa := e.pa pc.toNat (dieOfTil (tilOf c))
       let line := (s.til (tilOf c)).icache.find? (fun l => l.line == pa / 64)
       (entEx e.entry = false → s.fetch c pc = .fault 4) ∧
       (entEx e.entry = true → line = none → s.poisoned pa 4 = true → s.fetch c pc = .trap Cause.poison) ∧
       (entEx e.entry = true → line = none → s.poisoned pa 4 = false → ∃ n, 0 < n ∧ s.fetch c pc = .late n) ∧
       (∀ l, entEx e.entry = true → line = some l → l.data.extractLsb' (8 * (pa % 64)) 32 = BitVec.ofNat 32 (s.rd pa 4) →
         s.fetch c pc = .word (BitVec.ofNat 32 (s.rd pa 4)))))

/-! ### Reset and what every step keeps -/

/-- R78, R419, R311: after reset contexts 0 and 15 of every core run and the others are FREE, with generation 0; CYCLE is 0,
no message is held, LSPLIT is 2 and the geometry of every accumulator is 32 rows and columns; no partition exists. Memory and
the sparse tables are in their canonical form (log 1). -/
def Obligations.ResetState : Prop :=
  (∀ c, (State.reset.ctx c).life = if c % 16 = 0 ∨ c % 16 = 15 then .running else .free) ∧
  (∀ c, (State.reset.ctx c).gen = 0 ∧ (State.reset.ctx c).tx.active = false ∧ ∀ e, (State.reset.ctx c).getBind e = 0) ∧
  (∀ k, (State.reset.core k).cycle = 0 ∧ (State.reset.core k).stw = [] ∧ (State.reset.core k).svcmap = 0) ∧
  (∀ t, (State.reset.til t).l1sz = 2 ∧ (State.reset.til t).part = none ∧ (State.reset.til t).lease.holder = none ∧
    ∀ a < 8, (State.reset.til t).geom[a]? = some 0x2020) ∧
  State.reset.parts = [] ∧ State.reset.launches = [] ∧ State.reset.mem = [] ∧ State.reset.memOk ∧ State.reset.tablesOk

/-- Every step keeps memory in its canonical form: addresses rise, and no byte is listed that an unlisted one reads as (log
1). -/
def Obligations.StepKeepsMemory : Prop := ∀ s t : State, s.memOk → step s = .next t → t.memOk

/-- Every step keeps the tables of contexts, cores, tillers and dies in order, so that a number has one entry: what one
instruction writes of a context, a core, a tiller or a die is what a later one reads. R15, R35: s0 reads zero and m0 all ones in
whatever state a step gives, of every context. -/
def Obligations.StepKeepsTables : Prop :=
  ∀ s t : State, s.tablesOk → step s = .next t →
    t.tablesOk ∧ ∀ c, (t.ctx c).getS 0 = 0 ∧ (t.ctx c).getM 0 = BitVec.allOnes 64

/-- That a module that has shut down answers a fault to every step but one of power good is the model's choice (log 46); R421
says that it shuts down. Every other step of every module gives a next state: no instruction is refused and none faults. -/
def Obligations.StepsComplete : Prop :=
  ∀ s : State,
    (s.port.down = true → s.agenda.head? ≠ some .powerGood → step s = .fault .moduleDown) ∧
    (s.port.down = false → ∃ t, step s = .next t)

/-! ### Operands and the scalar integer class -/

/-- The instructions of R58 and R59 with the operation that each performs on its two operands. -/
def Sys2Proof.Machine.scalarTwo : List ((BitVec 5 → BitVec 5 → BitVec 5 → BitVec 1 → Instr) × (Word → Word → Word)) :=
  [(.add, fun x y => BitVec.ofNat 64 (x.toNat + y.toNat)),
   (.sub, fun x y => BitVec.ofInt 64 ((x.toNat : Int) - y.toNat)),
   (.mul, fun x y => BitVec.ofNat 64 (x.toNat * y.toNat)),
   (.mulh, fun x y => BitVec.ofInt 64 (x.toInt * y.toInt / 2 ^ 64)),
   (.mulhn, fun x y => BitVec.ofNat 64 (x.toNat * y.toNat / 2 ^ 64)),
   (.and, fun x y => x &&& y),
   (.or, fun x y => x ||| y),
   (.xor, fun x y => x ^^^ y),
   (.andn, fun x y => x &&& ~~~y),
   (.shl, fun x y => BitVec.ofNat 64 (x.toNat * 2 ^ (y.toNat % 64))),
   (.shr, fun x y => BitVec.ofNat 64 (x.toNat / 2 ^ (y.toNat % 64))),
   (.sra, fun x y => BitVec.ofInt 64 (x.toInt / 2 ^ (y.toNat % 64))),
   (.rot, fun x y => BitVec.ofNat 64 (x.toNat / 2 ^ (y.toNat % 64) + x.toNat * 2 ^ (64 - y.toNat % 64))),
   (.min, fun x y => BitVec.ofInt 64 (min x.toInt y.toInt)),
   (.max, fun x y => BitVec.ofInt 64 (max x.toInt y.toInt)),
   (.minn, fun x y => BitVec.ofNat 64 (min x.toNat y.toNat)),
   (.maxn, fun x y => BitVec.ofNat 64 (max x.toNat y.toNat)),
   (.slt, fun x y => if x.toInt < y.toInt then 1 else 0),
   (.sltn, fun x y => if x.toNat < y.toNat then 1 else 0),
   (.seq, fun x y => if x = y then 1 else 0),
   (.div, fun x y => if y = 0 then BitVec.allOnes 64 else BitVec.ofInt 64 (x.toInt.tdiv y.toInt)),
   (.divn, fun x y => if y = 0 then BitVec.allOnes 64 else BitVec.ofNat 64 (x.toNat / y.toNat)),
   (.rem, fun x y => if y = 0 then x else BitVec.ofInt 64 (x.toInt - x.toInt.tdiv y.toInt * y.toInt)),
   (.remn, fun x y => if y = 0 then x else BitVec.ofNat 64 (x.toNat % y.toNat))]

/-- R58, R59: each of the two-operand instructions reads A, then B or the immediate, writes its operation's result to D and
goes on to the next word, whatever its fields name. -/
def Obligations.ScalarTwoOperands : Prop :=
  ∀ p ∈ scalarTwo, ∀ (d a b : BitVec 5) (i : BitVec 1) (s r t u v : State) (x y : Word),
    Ready (p.1 d a b i) s r → Reads a r x t → ReadsB i b t y u → Writes d u (p.2 x y) v →
    exec (p.1 d a b i) s = .next v.past

/-- R61 to R65: scaled add, select, and bit-field extract and insert in both forms of position and width. R60: the counting
instructions, each with the count it takes of its operand. R66, R67: the immediate forms, with their sign extensions and
placements. -/
def Obligations.ScalarUnary : Prop :=
  (∀ (d a b : BitVec 5) (i : BitVec 1) (s r t u v w : State) (c x y : Word), Reads a t x u → ReadsB i b u y v →
    (∀ sc : BitVec 3, Ready (.lea d a b sc i) s t → Writes d v (BitVec.ofNat 64 (x.toNat + y.toNat * 2 ^ sc.toNat)) w →
      exec (.lea d a b sc i) s = .next w.past) ∧
    (Reads d r c t → Ready (.sel d a b i) s r → Writes d v (if c ≠ 0 then x else y) w →
      exec (.sel d a b i) s = .next w.past) ∧
    (∀ wd : BitVec 5,
      let pos := y.toNat % 64
      let n := if i = 1 then wd.toNat + 1 else if y.toNat / 256 % 64 = 0 then 64 else y.toNat / 256 % 64
      let field := x.toNat / 2 ^ pos % 2 ^ n
      let mask := BitVec.ofNat 64 ((2 ^ n - 1) * 2 ^ pos)
      (Ready (.bfx d a b 0 i wd) s t → Writes d v (BitVec.ofNat 64 field) w → exec (.bfx d a b 0 i wd) s = .next w.past) ∧
      (Ready (.bfx d a b 1 i wd) s t →
        Writes d v (BitVec.ofInt 64 (if field < 2 ^ (n - 1) then field else (field : Int) - 2 ^ n)) w →
        exec (.bfx d a b 1 i wd) s = .next w.past) ∧
      (Reads d r c t → Ready (.bfi d a b i wd) s r →
        Writes d v ((c &&& ~~~mask) ||| (BitVec.ofNat 64 (x.toNat * 2 ^ pos) &&& mask)) w →
        exec (.bfi d a b i wd) s = .next w.past))) ∧
  (∀ (d a : BitVec 5) (s r t v : State) (x : Word), Reads a r x t →
     (Ready (.clz d a) s r →
       Writes d t (BitVec.ofNat 64 ((List.range 64).takeWhile (fun j => !x.getLsbD (63 - j))).length) v →
       exec (.clz d a) s = .next v.past) ∧
     (Ready (.ctz d a) s r → Writes d t (BitVec.ofNat 64 ((List.range 64).takeWhile (fun j => !x.getLsbD j)).length) v →
       exec (.ctz d a) s = .next v.past) ∧
     (Ready (.popc d a) s r → Writes d t (BitVec.ofNat 64 ((List.range 64).filter (fun j => x.getLsbD j)).length) v →
       exec (.popc d a) s = .next v.past)) ∧
  (∀ (d a : BitVec 5) (s r t v : State) (x : Word),
     (∀ k : BitVec 14, Reads a r x t →
       (Ready (.addi d a k) s r → Writes d t (BitVec.ofInt 64 (x.toNat + k.toInt)) v → exec (.addi d a k) s = .next v.past) ∧
       (Ready (.andi d a k) s r → Writes d t (x &&& BitVec.ofInt 64 k.toInt) v → exec (.andi d a k) s = .next v.past)) ∧
     (∀ k : BitVec 16,
       (Ready (.lih d 0 k) s r → Writes d r (BitVec.ofInt 64 k.toInt) v → exec (.lih d 0 k) s = .next v.past) ∧
       (Ready (.lih d 1 k) s r → Writes d r (BitVec.ofNat 64 k.toNat) v → exec (.lih d 1 k) s = .next v.past) ∧
       (Ready (.lih d 6 k) s r → Writes d r (BitVec.ofNat 64 (k.toNat * 65536)) v → exec (.lih d 6 k) s = .next v.past)))

/-- R15, R35, R36: a field that names no bound end reads its register, s0 reading zero, and a write sets that register alone;
a write of s0 changes nothing. An A or B field of the vector classes of 16 or more spreads its scalar over the lanes. -/
def Obligations.RegisterOperands : Prop :=
  ∀ (n : BitVec 5) (s : State) (w : Word) (q : VReg),
    (s.me.endOf (.s n.toNat) = none →
      Reads n s (if n = 0 then 0 else (s.me.s[n.toNat]?).getD 0) s ∧
      ∃ t, Writes n s w t ∧ t = s.modMe (fun x => if n = 0 then x else { x with s := x.s.setIfInBounds n.toNat w }) ∧
        ∀ m : BitVec 5, t.me.endOf (.s m.toNat) = none →
          Reads m t (if m = 0 then 0 else if m = n then w else (s.me.s[m.toNat]?).getD 0) t) ∧
    (s.me.endOf (.v n.toNat) = none → n.toNat < 16 →
      ReadsV n s ((s.me.v[n.toNat]?).getD 0) s ∧ WritesV n s q (s.modMe (fun x => { x with v := x.v.setIfInBounds n.toNat q })) ∧
      ∀ width, ReadsAB n width s ((s.me.v[n.toNat]?).getD 0) s) ∧
    (s.me.endOf (.s n.toNat) = none → 16 ≤ n.toNat → ∀ width, 0 < width → width ≤ 64 → 512 % width = 0 →
      ∃ x, ReadsAB n width s x s ∧ ∀ i, i < 512 / width → lane width x i = ((s.me.s[n.toNat]?).getD 0).toNat % 2 ^ width)

/-- An enqueue at a bound end has been made: in an attempt, tentatively (R36, R173). -/
def Sys2Proof.Machine.Enqueues (e : Nat) (x : Elem) (s t : State) : Prop := enq e x s = .ok ((), t)

/-- R36, R156: outside an attempt a field that names a bound end yields the element at its head, which is consumed, and a write
enqueues the value as one element: a scalar field the low 64 bits, a vector field all 512; a scalar source of the vector
classes spreads the low bits over the lanes. R173: inside an attempt the same field acts tentatively: a read
takes the element after those the attempt has taken, and a write leaves the end as it is while it would have room for all
that the attempt enqueues. -/
def Obligations.EndOperands : Prop :=
  (∀ (n : BitVec 5) (e : Nat) (s : State), s.me.tx.active = false →
     (s.me.endOf (.s n.toNat) = some e →
       (∀ x, s.endHead s.cur e 0 = .elem x → Reads n s (x.data.extractLsb' 0 64) (s.endTake s.cur e)) ∧
       (∀ w t, s.endPut s.cur e { awn := false, data := w.setWidth 512 } = .done t → Writes n s w t) ∧
       (∀ x width, 16 ≤ n.toNat → 0 < width → width ≤ 64 → 512 % width = 0 → s.endHead s.cur e 0 = .elem x →
         ∃ y, ReadsAB n width s y (s.endTake s.cur e) ∧ ∀ i, i < 512 / width → lane width y i = x.data.toNat % 2 ^ width)) ∧
     (s.me.endOf (.v n.toNat) = some e →
       (∀ x, s.endHead s.cur e 0 = .elem x → ReadsV n s x.data (s.endTake s.cur e) ∧
         ∀ width, n.toNat < 16 → ReadsAB n width s x.data (s.endTake s.cur e)) ∧
       (∀ w t, s.endPut s.cur e { awn := false, data := w } = .done t → WritesV n s w t))) ∧
  (∀ (n : BitVec 5) (e : Nat) (s : State), s.me.tx.active = true →
     let hold := fun (o : TxOp) => s.modMe (fun x => { x with tx := { x.tx with point := { x.tx.point with
       ops := x.tx.point.ops ++ [o] } } })
     let head := s.endHead s.cur e (s.me.tx.point.ops.count (.deq e))
     let room := fun (x : Elem) => ∃ t, s.runOps s.cur (s.me.tx.point.ops ++ [.enq e x s.due]) = .done t
     (s.me.endOf (.s n.toNat) = some e →
       (∀ x, head = .elem x → Reads n s (x.data.extractLsb' 0 64) (hold (.deq e))) ∧
       (∀ w, room { awn := false, data := w.setWidth 512 } →
         Writes n s w (hold (.enq e { awn := false, data := w.setWidth 512 } s.due)))) ∧
     (s.me.endOf (.v n.toNat) = some e →
       (∀ x, head = .elem x → ReadsV n s x.data (hold (.deq e))) ∧
       (∀ w, room { awn := false, data := w } → WritesV n s w (hold (.enq e { awn := false, data := w } s.due)))))

/-- The frame of the scalar integer instructions on registers: whatever they answer, memory, the end bindings, the flags, the
special registers and every scalar register but D are as before, and so is every other context. -/
def Obligations.ScalarFrame : Prop :=
  ∀ (i : Instr) (d : BitVec 5) (s t : State),
    ((∃ p ∈ scalarTwo, ∃ a b j, i = p.1 d a b j) ∨ (∃ a, i = .clz d a ∨ i = .ctz d a ∨ i = .popc d a) ∨
      (∃ a b j, i = .sel d a b j) ∨ (∃ a b sc j, i = .lea d a b sc j) ∨ (∃ a b x j w, i = .bfx d a b x j w) ∨
      (∃ a b j w, i = .bfi d a b j w) ∨ (∃ a k, i = .addi d a k ∨ i = .andi d a k) ∨ (∃ p k, i = .lih d p k)) →
    Plain i s → exec i s = .next t →
    (∀ m : Nat, m ≠ d.toNat → t.me.getS m = s.me.getS m) ∧ t.me.v = s.me.v ∧ t.me.m = s.me.m ∧ t.me.bind = s.me.bind ∧
    t.me.af = s.me.af ∧ t.me.ef = s.me.ef ∧ t.me.hmode = s.me.hmode ∧ t.me.fstat = s.me.fstat ∧ t.me.fmt = s.me.fmt ∧
    t.me.scla = s.me.scla ∧ t.me.sclb = s.me.sclb ∧ t.me.tx = s.me.tx ∧ t.me.tokv = s.me.tokv ∧ t.me.tokpc = s.me.tokpc ∧
    (∀ a, t.byteAt a = s.byteAt a) ∧ (∀ c, c ≠ s.cur → t.ctx c = s.ctx c) ∧ t.cores = s.cores ∧ t.tils = s.tils ∧
    t.dies = s.dies ∧ t.rings = s.rings

/-! ### Control and strands -/

/-- An earlier access of a context that is outstanding (R215, R264): a request whose cycle has not come, or a wave that the
scratchpad has yet to serve. -/
def Sys2Proof.Machine.State.Outstanding (s : State) (c : Nat) : Prop :=
  (∃ q ∈ (s.core (coreOf c)).reqs, q.cid = c ∧ (s.core (coreOf c)).cycle.toNat < q.until_.toNat) ∨
  ∃ w ∈ (s.core (coreOf c)).waves, w.cid = c

/-- A message with these fields of its body, by offset and size, comes to the end of a box. -/
def Sys2Proof.Machine.Posted (s t : State) (k b type : Nat) (fields : List (Nat × Nat × Nat)) : Prop :=
  ∃ m : Msg, (t.core k).box b = (s.core k).box b ++ [m] ∧ m.header.extractLsb' 0 8 = BitVec.ofNat 8 type ∧
    ∀ f ∈ fields, Body.field m.body f.1 f.2.1 = f.2.2

/-- The compare-branches of R80 with their conditions. -/
def Sys2Proof.Machine.branchTable : List ((BitVec 5 → BitVec 5 → BitVec 14 → Instr) × (Word → Word → Bool)) :=
  [(.beq, fun x y => x = y), (.bne, fun x y => x ≠ y), (.blt, fun x y => x.toInt < y.toInt),
   (.bge, fun x y => y.toInt ≤ x.toInt), (.bltn, fun x y => x.toNat < y.toNat), (.bgen, fun x y => y.toNat ≤ x.toNat)]

/-- R80: a compare-branch goes to its target, four times the offset from its own address, when its condition holds, else to
the next word; a target of 2^52 or more raises ADDR. R81, R82: the jumps write the address of the next word to D and go to
their target. JALR reads its source before the link is written; a target that is no word address raises ALIGN, and then one
of 2^52 or more ADDR. -/
def Obligations.ControlTransfers : Prop :=
  (∀ p ∈ branchTable, ∀ (a b : BitVec 5) (k : BitVec 14) (s r t u : State) (x y : Word),
     Ready (p.1 a b k) s r → Reads a r x t → Reads b t y u →
     let dest := if p.2 x y then u.me.pc + BitVec.ofInt 64 (4 * k.toInt) else u.me.pc + 4
     (dest.toNat < 2 ^ 52 → exec (p.1 a b k) s = .next (u.modMe (fun c => { c with pc := dest }))) ∧
     (2 ^ 52 ≤ dest.toNat → exec (p.1 a b k) s = .next (s.onStop (wordOf (p.1 a b k)) (.trap Cause.addr 0 dest)))) ∧
  (∀ (d a : BitVec 5) (s r t v : State) (x : Word),
     (∀ k : BitVec 19, Ready (.jal d k) s r →
       let dest := r.me.pc + BitVec.ofInt 64 (4 * k.toInt)
       (dest.toNat < 2 ^ 52 → Writes d r (r.me.pc + 4) v → exec (.jal d k) s = .next (v.modMe (fun c => { c with pc := dest }))) ∧
       (2 ^ 52 ≤ dest.toNat → exec (.jal d k) s = .next (s.onStop (wordOf (.jal d k)) (.trap Cause.addr 0 dest)))) ∧
     (∀ k : BitVec 14, Ready (.jalr d a k) s r → Reads a r x t →
       let dest := x + BitVec.ofInt 64 k.toInt
       (dest.toNat % 4 = 0 → dest.toNat < 2 ^ 52 → Writes d t (r.me.pc + 4) v →
         exec (.jalr d a k) s = .next (v.modMe (fun c => { c with pc := dest }))) ∧
       (dest.toNat % 4 ≠ 0 → exec (.jalr d a k) s = .next (s.onStop (wordOf (.jalr d a k)) (.trap Cause.align 0 dest))) ∧
       (dest.toNat % 4 = 0 → 2 ^ 52 ≤ dest.toNat →
         exec (.jalr d a k) s = .next (s.onStop (wordOf (.jalr d a k)) (.trap Cause.addr 0 dest)))))

/-- R44, R46: REPF where no frame is on begins one at the next word, of N words, 16 for N = 0, and CNT + 1 replays; in a
token handler the frame runs in that handler. No context issues a word of its frame before the cycle, 8 after the REPF, that
the frame begins at. With a frame on, as in a token handler entered from a captured word, REPF raises ILLEGAL (R45). -/
def Obligations.RepeatFrame : Prop :=
  (∀ (n : BitVec 4) (cnt : BitVec 8) (d a b : BitVec 4) (s r : State), Ready (.repf n cnt d a b) s r →
    (r.me.frame.on = false → exec (.repf n cnt d a b) s = .next (r.modMe (fun x => { x with
      pc := x.pc + 4
      capture := (r.core r.myCore).cycle + 8
      frame := { on := true, handler := x.hmode, base := x.pc + 4, n := if n.toNat = 0 then 16 else n.toNat
                 count := cnt.toNat + 1, sd := d, sa := a, sb := b, words := [], k := 0, i := 0 } }))) ∧
    (r.me.frame.on = true →
      exec (.repf n cnt d a b) s = .next (s.onStop (wordOf (.repf n cnt d a b)) (.trap Cause.illegal 0 0)))) ∧
  (∀ (s : State) (c : Nat), (s.ctx c).frame.on = true → (s.ctx c).frame.handler = (s.ctx c).hmode →
    (s.core (coreOf c)).cycle.toNat < (s.ctx c).capture.toNat → s.isReady c = false)

/-- R84 to R87: SPAWN by the steward, of a FREE user context of its core, with a well-formed spawn block in its own
scratchpad: the context is STARTING at the block's ENTRY, one generation on, with the launch record, argument and position in
s1 to s3, ready 8 cycles later (R78, R87), and D gets its SID. -/
def Obligations.SpawnStarts : Prop :=
  ∀ (d a b : BitVec 5) (i t g : BitVec 1) (s r u v w : State) (va n : Word) (off : Nat),
    Ready (.spawn d a b i t g) s r → ctxNo s.cur = 0 → Reads a r va u → ReadsB i b u n v →
    v.cur = s.cur → v.place v.myTil va = some (.near v.myTil off) → off % 256 = 0 → off + 256 ≤ (v.til v.myTil).spadSize →
    1 ≤ n.toNat → n.toNat ≤ 14 →
    let l := locSpad v.myTil off
    let cid := v.myCore * 16 + n.toNat
    let blk := v.block l
    (v.ctx cid).life = .free → v.poisoned l 256 = false → v.blockBad l cid blk (g = 1) = false →
    (t = 1 → (v.til v.myTil).owner = none) → (∀ p ∈ blk.bind, bindKind p.2 ≠ 1 → v.bindPoison cid p.2 = false) →
    let z := v.startStrand cid blk (t = 1) (g = 1)
    (Writes d z ((z.sid cid).setWidth 64) w → exec (.spawn d a b i t g) s = .next w.past) ∧
    (blk.bind = [] →
      (z.ctx cid).wait = .begin_ ((v.core (coreOf cid)).cycle + 8) ∧
      (z.ctx cid).life = .starting ∧ (z.ctx cid).pc = BitVec.ofNat 64 blk.entry ∧ (z.ctx cid).gen = (v.ctx cid).gen + 1 ∧
      (z.ctx cid).getS 1 = BitVec.ofNat 64 blk.lrec ∧ (z.ctx cid).getS 2 = BitVec.ofNat 64 blk.arg ∧
      (z.ctx cid).getS 3 = BitVec.ofNat 64 blk.pos ∧ (∀ m, 4 ≤ m → (z.ctx cid).getS m = 0) ∧
      (z.ctx cid).fmt = BitVec.ofNat 64 blk.fmt ∧ (z.ctx cid).mig = (g = 1 : Bool) ∧ (z.ctx cid).tile = (t = 1 : Bool) ∧
      ∀ c, c ≠ cid → z.ctx c = v.ctx c)

/-- R90: REAP of an EXITED context yields the strand's status and frees the context; of one that runs, starts or is stopped
or saved it kills the strand, yields the killed status and leaves the context FREE; of one whose strand is away it makes the
context KILLING and yields bit 62; of a FREE context, and of a number that is no user context, all ones. R89: EXIT, by any strand
but that of context 0, waits until the strand's earlier accesses have completed, and then ends the strand with the low 32 bits of
its operand as status: the strand's own context becomes EXITED. Which accesses are outstanding, and for how long, is log 5. -/
def Obligations.StrandEnds : Prop :=
  (∀ (d a b : BitVec 5) (i : BitVec 1) (s r u v : State) (n : Word),
     Ready (.reap d a b i) s r → ctxNo s.cur = 0 → (if i = 1 then n = b.setWidth 64 ∧ u = r else Reads a r n u) →
     let cid := u.myCore * 16 + n.toNat
     let x := u.ctx cid
     ((n.toNat = 0 ∨ 14 < n.toNat) → Writes d u (BitVec.allOnes 64) v → exec (.reap d a b i) s = .next v.past) ∧
     (1 ≤ n.toNat → n.toNat ≤ 14 → x.home = none →
       (x.life = .free → Writes d u (BitVec.allOnes 64) v → exec (.reap d a b i) s = .next v.past) ∧
       (x.life = .exited →
         Writes d (((u.modCtx cid (fun x => { x with life := .free })).replicaGone (u.partOf (tilOf cid)) cid).freed cid) x.status v →
         exec (.reap d a b i) s = .next v.past) ∧
       (x.life = .migrated →
         Writes d ((u.modCtx cid (fun x => { x with life := .killing })).later (.migrantKill cid)) (BitVec.ofNat 64 (2 ^ 62)) v →
         exec (.reap d a b i) s = .next v.past) ∧
       (x.life = .killing → Writes d u (BitVec.ofNat 64 (2 ^ 62)) v → exec (.reap d a b i) s = .next v.past) ∧
       (x.life = .running ∨ x.life = .starting ∨ x.life = .stopped ∨ x.life = .saved →
         Writes d (u.killStrand cid 16) (BitVec.ofNat 64 (2 ^ 63)) v → exec (.reap d a b i) s = .next v.past) ∧
       (x.life = .running ∨ x.life = .starting ∨ x.life = .stopped → ((u.killStrand cid 16).ctx cid).life = .free))) ∧
  (∀ (a b : BitVec 5) (i : BitVec 1) (s r u : State) (n : Word),
     Ready (.exit a b i) s r → ctxNo s.cur ≠ 0 → (if i = 1 then n = b.setWidth 64 ∧ u = r else Reads a r n u) →
     let code := n.extractLsb' 0 32
     (¬u.Outstanding u.cur → exec (.exit a b i) s = .next (u.exitStrand u.cur code)) ∧
     (u.Outstanding u.cur → exec (.exit a b i) s = .next (u.modMe (fun x => { x with wait := .ending code })))) ∧
  (∀ (s : State) (c : Nat) (code : BitVec 32),
     ((s.ctx c).home = none → (s.ctx c).lobj = 0 → ((s.exitStrand c code).ctx c).life = .exited ∧
       ((s.exitStrand c code).ctx c).status = code.setWidth 64) ∧
     ((s.ctx c).wait = .ending code → ((s.core (coreOf c)).waves.any (fun w => w.cid == c) = true → s.endWait c = s) ∧
       ((s.core (coreOf c)).reqs = [] → (s.core (coreOf c)).waves = [] → s.endWait c = s.exitStrand c code)))

/-- R380, R384: a trap of a user strand that stands in its own context stops it where it is, registers and pc unchanged, and
tells its steward: the message of type 1 carries SID, cause, pc, the word and the faulting address. No other context of
another core, and no byte of memory, changes. R381: a trap of context 0 or 15 halts its core, stops no context, and its
partition is charged. -/
def Obligations.TrapEntry : Prop :=
  (∀ (s : State) (c cause aux : Nat) (va : Word) (w : IWord), privileged c = false → (s.ctx c).home = none →
     cause < 256 → aux < 2 ^ 32 → s.boxRoom (coreOf c) 0 = true →
     let t := s.takeTrap c cause aux va w
     t.ctx c = { s.ctx c with life := .stopped, wait := .none, slept := 0 } ∧
     (∀ e, coreOf e ≠ coreOf c → t.ctx e = s.ctx e) ∧ (∀ a, t.byteAt a = s.byteAt a) ∧ t.tils = s.tils ∧
     ∃ m : Msg, (t.core (coreOf c)).stw = (s.core (coreOf c)).stw ++ [m] ∧ m.header.extractLsb' 0 8 = 1 ∧
       Body.field m.body 0 4 = (s.sid c).toNat ∧ Body.field m.body 4 1 = cause ∧ Body.field m.body 8 8 = (s.ctx c).pc.toNat ∧
       Body.field m.body 16 4 = w.toNat ∧ Body.field m.body 20 4 = aux ∧ Body.field m.body 24 8 = va.toNat) ∧
  (∀ (s : State) (c cause aux : Nat) (va : Word) (w : IWord), privileged c = true →
     let t := s.takeTrap c cause aux va w
     (t.core (coreOf c)).halted = true ∧ t.ctxs = s.ctxs ∧ t.mem = s.mem ∧
     t.agenda = s.agenda ++ [.uncorrectableError (2 ^ 52 + ((s.til (tilOf c)).part.getD 0xFF))])

/-- The instructions that only context 0 may execute (R79, R376, R385, R386, R392, R396). -/
def Sys2Proof.Machine.stewardInstrs (d a b : BitVec 5) (i t g : BitVec 1) : List Instr :=
  [.spawn d a b i t g, .reap d a b i, .place d a b, .lsplitWrite d, .swzWrite d, .svcmapWrite d, .wdogWrite d,
   .mbxsResume d a b, .mbxsIntr d a b, .mbxsUser d a b, .csaveSave d a, .csaveRest d a, .pcntCtx d a b i]

/-- R40: a word of an unassigned opcode raises ILLEGAL where it stands, as every word that is no instruction does; inside an
attempt it aborts with cause 4 (R170). R389: SYSC and BRK of a user context trap with their cause and immediate; contexts 0
and 15 raise PRIV. R79, R376: outside context 0 the steward's instructions raise PRIV, and outside contexts 0 and 15 TLBF and
TLBI do, before any operand is looked at. -/
def Obligations.SystemCalls : Prop :=
  (∀ (w : IWord) (s : State), s.me.mig = false →
    (s.me.tx.active = false → exec (.unassignedOpcode w) s = .next (s.takeTrap s.cur Cause.illegal 0 0 w)) ∧
    (s.me.tx.active = true → exec (.unassignedOpcode w) s = .next (s.abortTx s.cur 4 0))) ∧
  (∀ (k : BitVec 16) (s : State), s.me.tx.active = false → s.me.mig = false →
     (privileged s.cur = false →
       exec (.sysc k) s = .next (s.takeTrap s.cur Cause.syscall k.toNat 0 (wordOf (.sysc k))) ∧
       exec (.brk k) s = .next (s.takeTrap s.cur Cause.break_ k.toNat 0 (wordOf (.brk k)))) ∧
     (privileged s.cur = true →
       exec (.sysc k) s = .next (s.takeTrap s.cur Cause.priv 0 0 (wordOf (.sysc k))) ∧
       exec (.brk k) s = .next (s.takeTrap s.cur Cause.priv 0 0 (wordOf (.brk k))))) ∧
  (∀ (d a b : BitVec 5) (i t g : BitVec 1) (s : State), s.me.tx.active = false → s.me.mig = false →
     (ctxNo s.cur ≠ 0 → ∀ j ∈ stewardInstrs d a b i t g, rowCheck j s = .ok ((), s) →
       exec j s = .next (s.takeTrap s.cur Cause.priv 0 0 (wordOf j))) ∧
     (privileged s.cur = false → ∀ j ∈ [Instr.tlbf d a b, .tlbiVa d a, .tlbiPart d], rowCheck j s = .ok ((), s) →
       exec j s = .next (s.takeTrap s.cur Cause.priv 0 0 (wordOf j))))

/-! ### Memory -/

/-- R229, R230, R264: the loads of one address. Each forms its address, loads its size there with every check and cache of
the space, and writes D: LD and VLD the bytes, LDX the element extended by its type, LDAQ the value of its width, after the
acquire part of its order. R227, R231: the loads of many lanes. The lanes that the mask makes active are checked and loaded
in order, each at its own address; D gets their values, and zero in inactive lanes. -/
def Obligations.Loads : Prop :=
  (∀ (d a b : BitVec 5) (s r t u v w : State) (x y : Word) (n : Nat), Reads a r x t →
     (∀ k : BitVec 14, Ready (.ld d a k) s r → loadScalar 8 (x + BitVec.ofInt 64 k.toInt) 0 t = .ok (n, u) →
       Writes d u (BitVec.ofNat 64 n) v → exec (.ld d a k) s = .next v.past) ∧
     (∀ k : BitVec 14, Ready (.vld d a k) s r → loadScalar 64 (x + BitVec.ofInt 64 k.toInt) 0 t = .ok (n, u) →
       WritesV d u (BitVec.ofNat 512 n) v → exec (.vld d a k) s = .next v.past) ∧
     (∀ (ty : BitVec 4) (h : BitVec 2), Ready (.ldx d a b ty h) s r → Reads b t y u →
       let e := widthOf ty.toNat / 8
       loadScalar e (x + y * BitVec.ofNat 64 e) h.toNat u = .ok (n, v) →
       Writes d v (if isSigned ty.toNat then BitVec.ofInt 64 (laneInt ty.toNat n) else BitVec.ofNat 64 n) w →
       n < 2 ^ widthOf ty.toNat → exec (.ldx d a b ty h) s = .next w.past) ∧
     (∀ (sc o wd : BitVec 3) (l : Lane) (bs : List Byte) (z : State), Ready (.ldaq d a sc o wd) s r →
       resolve .load (widthSize wd) [(0, x)] t = .ok ([l], u) → loadLane 0 (sc.toNat < 3) l u = .ok (bs, v) →
       acquirePart o sc v = .ok ((), w) →
       Writes d w (if wd = 0 then (BitVec.ofNat 32 (natOfBytes bs)).signExtend 64 else BitVec.ofNat 64 (natOfBytes bs)) z →
       exec (.ldaq d a sc o wd) s = .next z.past)) ∧
  (∀ (d a b : BitVec 5) (ty : BitVec 4) (h : BitVec 2) (m : BitVec 3) (s r t u v w : State) (base : Word) (ls : List Lane)
     (xs : List (Nat × Nat)),
     let e := widthOf ty.toNat
     let act := (List.range (512 / e)).filter (fun j => (u.me.getM m.toNat).getLsbD j)
     Reads a r base t →
     (∀ off : Word, Ready (.vlds d a b ty h m) s r → Reads b t off u →
       resolve .load (e / 8) (act.map (fun j => (j, base + off * BitVec.ofNat 64 j))) u = .ok (ls, v) →
       loadLanes h.toNat ls v = .ok (xs, w) →
       ∀ z, WritesV d w (ofLanes e ((List.range (512 / e)).map (fun j => (tget xs j).getD 0))) z →
       exec (.vlds d a b ty h m) s = .next z.past) ∧
     (∀ off : VReg, Ready (.vgth d a b ty h m) s r → ReadsAB b e t off u →
       resolve .load (e / 8) (act.map (fun j => (j, base + BitVec.ofNat 64 (lane e off j * (e / 8))))) u = .ok (ls, v) →
       loadLanes h.toNat ls v = .ok (xs, w) →
       ∀ z, WritesV d w (ofLanes e ((List.range (512 / e)).map (fun j => (tget xs j).getD 0))) z →
       exec (.vgth d a b ty h m) s = .next z.past))

/-- R229, R230, R232, R264: the stores of one address. Each forms its address, reads the value, and stores its size there; STM
does so at every replica and takes no near address. STRL of order sc acquires after its store. R227, R231: the stores of many
lanes: every active lane is checked before any is stored, and then they are stored in order. -/
def Obligations.Stores : Prop :=
  (∀ (d a b : BitVec 5) (s r t u v w : State) (x y z : Word) (q : VReg), Reads a r x t →
     (∀ k : BitVec 14,
       let va := x + BitVec.ofInt 64 k.toInt
       (Ready (.st d a k) s r → Reads d t z u → storeScalar .store 8 va z.toNat u = .ok ((), v) →
         exec (.st d a k) s = .next v.past) ∧
       (Ready (.vst d a k) s r → ReadsV d t q u → storeScalar .store 64 va q.toNat u = .ok ((), v) →
         exec (.vst d a k) s = .next v.past) ∧
       (Ready (.stm d a k) s r → Reads d t z u → u.me.tx.active = false → (∀ p o, u.place u.myTil va ≠ some (.near p o)) →
         storeScalar .stm 8 va z.toNat u = .ok ((), v) → exec (.stm d a k) s = .next v.past)) ∧
     (∀ ty : BitVec 4, Ready (.stx d a b ty) s r → Reads b t y u → Reads d u z v →
       let e := widthOf ty.toNat / 8
       storeScalar .store e (x + y * BitVec.ofNat 64 e) z.toNat v = .ok ((), w) → exec (.stx d a b ty) s = .next w.past) ∧
     (∀ sc o wd : BitVec 3, Ready (.strl d a sc o wd) s r → Reads d t z u →
       storeScalar .store (widthSize wd) x z.toNat u = .ok ((), v) → acquirePart o sc v = .ok ((), w) →
       exec (.strl d a sc o wd) s = .next w.past)) ∧
  (∀ (d a b : BitVec 5) (ty : BitVec 4) (m : BitVec 3) (s r t u v w z : State) (base : Word) (q : VReg) (ls : List Lane),
     let e := widthOf ty.toNat
     let act := (List.range (512 / e)).filter (fun j => (v.me.getM m.toNat).getLsbD j)
     Reads a r base t → ReadsV d u q v → storeLanes e q ls w = .ok ((), z) →
     (∀ off : Word, Ready (.vsts d a b ty m) s r → Reads b t off u →
       resolveStore .store (e / 8) (act.map (fun j => (j, base + off * BitVec.ofNat 64 j))) v = .ok (ls, w) →
       exec (.vsts d a b ty m) s = .next z.past) ∧
     (∀ off : VReg, Ready (.vsct d a b ty m) s r → ReadsAB b e t off u →
       resolveStore .store (e / 8) (act.map (fun j => (j, base + BitVec.ofNat 64 (lane e off j * (e / 8))))) v = .ok (ls, w) →
       exec (.vsct d a b ty m) s = .next z.past))

/-- The accesses of one address, by loads, stores and atomics, with their sizes and the operands that give the address: for a
state with its ends examined, the address, and the state in which it is checked (R229, R230, R262, R264 to R267). -/
def Sys2Proof.Machine.accessTable (d a b : BitVec 5) (k : BitVec 14) (ty : BitVec 4) (h : BitVec 2) (sc o wd : BitVec 3) :
    List (Instr × Nat × (State → Word → State → Prop)) :=
  let e := widthOf ty.toNat / 8
  let disp := fun (r : State) (va : Word) (t : State) => ∃ x, Reads a r x t ∧ va = x + BitVec.ofInt 64 k.toInt
  let index := fun (r : State) (va : Word) (t : State) =>
    ∃ x y u, Reads a r x u ∧ Reads b u y t ∧ va = x + y * BitVec.ofNat 64 e
  let base := fun (r : State) (va : Word) (t : State) => Reads a r va t
  let withB := fun (r : State) (va : Word) (t : State) => ∃ u y, Reads a r va u ∧ Reads b u y t
  [(.ld d a k, 8, disp), (.vld d a k, 64, disp), (.ldx d a b ty h, e, index), (.ldaq d a sc o wd, widthSize wd, base),
   (.st d a k, 8, fun r va t => ∃ z u, disp r va u ∧ Reads d u z t),
   (.vst d a k, 64, fun r va t => ∃ z u, disp r va u ∧ ReadsV d u z t),
   (.stx d a b ty, e, fun r va t => ∃ z u, index r va u ∧ Reads d u z t),
   (.strl d a sc o wd, widthSize wd, fun r va t => ∃ z u, base r va u ∧ Reads d u z t),
   (.amoadd d a b sc o wd, widthSize wd, withB), (.amoswp d a b sc o wd, widthSize wd, withB),
   (.amomin d a b sc o wd, widthSize wd, withB), (.amomax d a b sc o wd, widthSize wd, withB),
   (.amoand d a b sc o wd, widthSize wd, withB), (.amoor d a b sc o wd, widthSize wd, withB),
   (.amoxor d a b sc o wd, widthSize wd, withB), (.red d a b sc o wd, widthSize wd, withB),
   (.amocas d a b sc o wd, widthSize wd, fun r va t => ∃ z u, withB r va u ∧ Reads d u z t)]

/-- R220: an access of one address, by any load, store or atomic, checks its space, its alignment and the bounds of near space in
that order, before any effect: an address in neither space raises ADDR, one that is no multiple of the size ALIGN, one past the
scratchpad BOUNDS, with the address in the message. R232: an STM to near space raises ADDR. R255: an aligned near address of
another tiller sends a MIG strand there once its earlier accesses are performed, with nothing else done. R200, R201, R202: where
an address lies. Global addresses lie below 2^52; a near address names a tiller of the strand's partition and an offset in its
local SRAM; every other address lies in neither space, as one of tag 0xF0 does whose bits 55 to 43 or 31 to 20 are not zero, or
that names a tiller beside SELF. -/
def Obligations.AccessChecks : Prop :=
  (∀ (d a b : BitVec 5) (k : BitVec 14) (ty : BitVec 4) (h : BitVec 2) (sc o wd : BitVec 3) (s r t : State) (va : Word),
     ∀ p ∈ accessTable d a b k ty h sc o wd, Ready p.1 s r → p.2.2 r va t → s.me.tx.active = false → t.me.tx.active = false →
     let stops := fun (cause : Nat) => exec p.1 s = .next (s.takeTrap s.cur cause 0 va (wordOf p.1))
     (t.me.mig = false →
       (t.place t.myTil va = none → stops Cause.addr) ∧
       (∀ q, t.place t.myTil va = some q → va.toNat % p.2.1 ≠ 0 → stops Cause.align) ∧
       (∀ til off, t.place t.myTil va = some (.near til off) → va.toNat % p.2.1 = 0 → (t.til til).spadSize < off + p.2.1 →
         stops Cause.bounds)) ∧
     (∀ til off, t.me.mig = true → t.place t.myTil va = some (.near til off) → til ≠ t.myTil → va.toNat % p.2.1 = 0 →
       (¬s.Outstanding s.cur → exec p.1 s = .next (s.depart s.cur til false)) ∧
       (s.Outstanding s.cur → exec p.1 s = .next (s.modMe (fun x => { x with wait := .moving til }))))) ∧
  (∀ (d a : BitVec 5) (k : BitVec 14) (s r t u : State) (x z : Word), Ready (.stm d a k) s r → Reads a r x t → Reads d t z u →
     s.me.tx.active = false → u.me.tx.active = false →
     let va := x + BitVec.ofInt 64 k.toInt
     let stops := fun (cause : Nat) => exec (.stm d a k) s = .next (s.takeTrap s.cur cause 0 va (wordOf (.stm d a k)))
     ((∀ g, u.place u.myTil va ≠ some (.global g)) → stops Cause.addr) ∧
     (∀ g, u.place u.myTil va = some (.global g) → va.toNat % 8 ≠ 0 → stops Cause.align)) ∧
  (∀ (s : State) (me : Nat) (va : Word),
     (va.toNat < 2 ^ 52 → s.place me va = some (.global va.toNat)) ∧
     (∀ off, off < 2 ^ 20 → va.toNat = 0xF0 * 2 ^ 56 + 2 ^ 42 + off → s.place me va = some (.near me off)) ∧
     (∀ til off, til < 1024 → off < 2 ^ 20 → va.toNat = 0xF0 * 2 ^ 56 + til * 2 ^ 32 + off →
       s.place me va = if (s.til til).part = (s.til me).part then some (.near til off) else none) ∧
     (2 ^ 52 ≤ va.toNat → va.toNat < 0xF0 * 2 ^ 56 → s.place me va = none) ∧
     (0xF1 * 2 ^ 56 ≤ va.toNat → s.place me va = none) ∧
     (va.toNat / 2 ^ 56 = 0xF0 → (va.toNat / 2 ^ 43 % 2 ^ 13 ≠ 0 ∨ va.toNat / 2 ^ 20 % 2 ^ 12 ≠ 0 ∨
       (va.toNat / 2 ^ 42 % 2 = 1 ∧ va.toNat / 2 ^ 32 % 2 ^ 10 ≠ 0)) → s.place me va = none) ∧
     (s.til me).spadSize = 2 ^ 20 - 65536 * (s.til me).l1sz)

/-- No structure that the device keeps for channels, engines, levels, counters or queues has a byte among these, so that a
store there is a store and nothing more (R94, R102, R126, R145, R353, R363). -/
def Sys2Proof.Machine.State.Ordinary (s : State) (a n : Nat) : Prop := ∀ t : State, t.tamper s a n = t

/-- The frame of ST on registers, to the strand's own scratchpad: it changes no register, flag or special register, and no byte
outside the eight that it stores at its address, which is the one that the instruction computes. The frame of LD on registers,
from the strand's own scratchpad: D gets the eight bytes, and nothing else changes. -/
def Obligations.MemoryFrames : Prop :=
  (∀ (d a : BitVec 5) (k : BitVec 14) (off : Nat) (s : State), s.memOk → Plain (.st d a k) s → s.me.tx.active = false →
     let va := s.me.getS a.toNat + BitVec.ofInt 64 k.toInt
     s.place s.myTil va = some (.near s.myTil off) → va.toNat % 8 = 0 → off + 8 ≤ (s.til s.myTil).spadSize →
     (s.til s.myTil).token.holder = none → s.Ordinary (locSpad s.myTil off) 8 →
     ∃ t, exec (.st d a k) s = .next t ∧ t.rd (locSpad s.myTil off) 8 = (s.me.getS d.toNat).toNat ∧
       (∀ j, j < locSpad s.myTil off ∨ locSpad s.myTil off + 8 ≤ j → t.byteAt j = s.byteAt j) ∧
       t.me = s.me.advance ∧ t.cores = s.cores ∧ t.dies = s.dies) ∧
  (∀ (d a : BitVec 5) (k : BitVec 14) (off : Nat) (s : State), Plain (.ld d a k) s → s.me.tx.active = false →
     let va := s.me.getS a.toNat + BitVec.ofInt 64 k.toInt
     s.place s.myTil va = some (.near s.myTil off) → va.toNat % 8 = 0 → off + 8 ≤ (s.til s.myTil).spadSize →
     s.poisoned (locSpad s.myTil off) 8 = false →
     exec (.ld d a k) s = .next (s.after (fun x => x.setS d.toNat (BitVec.ofNat 64 (s.rd (locSpad s.myTil off) 8)))))

/-- The stores of one address whose fields are registers, with what `resolveStore` checks and translates for them, the size,
the address and the value. -/
def Sys2Proof.Machine.storeTable (d a b : BitVec 5) (k : BitVec 14) (ty : BitVec 4) (sc o wd : BitVec 3) (x : Ctx) :
    List (Instr × Acc × Nat × Word × Nat) :=
  let e := widthOf ty.toNat / 8
  let va := x.getS a.toNat + BitVec.ofInt 64 k.toInt
  [(.st d a k, .store, 8, va, (x.getS d.toNat).toNat), (.vst d a k, .store, 64, va, (x.getV d.toNat).toNat),
   (.stm d a k, .stm, 8, va, (x.getS d.toNat).toNat),
   (.stx d a b ty, .store, e, x.getS a.toNat + x.getS b.toNat * BitVec.ofNat 64 e, (x.getS d.toNat).toNat),
   (.strl d a sc o wd, .store, widthSize wd, x.getS a.toNat, (x.getS d.toNat).toNat)]

/-- The atomics of one address. -/
def Sys2Proof.Machine.atomicInstrs (d a b : BitVec 5) (sc o wd : BitVec 3) : List Instr :=
  [.amoadd d a b sc o wd, .amoswp d a b sc o wd, .amomin d a b sc o wd, .amomax d a b sc o wd, .amoand d a b sc o wd,
   .amoor d a b sc o wd, .amoxor d a b sc o wd, .amocas d a b sc o wd, .red d a b sc o wd]

/-- Each lane of a vector store finds none of its bytes in a structure of the device as it is stored. -/
def Sys2Proof.Machine.OrdinaryLanes (e : Nat) (q : VReg) : List Lane → State → Prop
  | [], _ => True
  | l :: r, s => s.Ordinary l.loc l.n ∧
    ∀ t, strandStore false l (bytesOfNat l.n (lane e q l.i)) s = .ok ((), t) → OrdinaryLanes e q r t

/-- No context but the acting one has a register changed, and no end bound or unbound. -/
def Sys2Proof.Machine.State.othersKeep (s t : State) : Prop :=
  ∀ c, c ≠ s.cur → (t.ctx c).s = (s.ctx c).s ∧ (t.ctx c).v = (s.ctx c).v ∧ (t.ctx c).m = (s.ctx c).m ∧
    (t.ctx c).bind = (s.ctx c).bind

/-- The frames of the storing instructions on registers, outside an attempt, in near and global space alike; the lanes stored
to are those that the instruction's own check and translation of its address give. R229, R230, R232, R264: a store of one
address writes its value there, STM in all four replicas of a replicated page, and changes no other byte, no register and no
special register. R265 to R267: an atomic changes no byte outside its address, and no register but D; RED changes none.
R231: a store of many lanes changes no byte outside its active lanes, and no register. -/
def Obligations.StoreFrames : Prop :=
  (∀ (d a b : BitVec 5) (k : BitVec 14) (ty : BitVec 4) (sc o wd : BitVec 3) (s u : State) (l : Lane),
     ∀ p ∈ storeTable d a b k ty sc o wd s.me, s.memOk → Plain p.1 s → s.me.wait = .none → s.me.tx.active = false →
     resolveStore p.2.1 p.2.2.1 [(0, p.2.2.2.1)] s = .ok ([l], u) → (p.2.1 = .stm → l.global = true) →
     soleHold l.loc l.n u = .ok ((), u) → u.Ordinary l.loc l.n →
     let locs := replicas l.repl (p.2.1 = .stm) l.loc
     ∃ t, exec p.1 s = .next t ∧ (∀ j ∈ locs, t.rd j p.2.2.1 = p.2.2.2.2 % 2 ^ (8 * p.2.2.1)) ∧
       (∀ j, (∀ q ∈ locs, j < q ∨ q + p.2.2.1 ≤ j) → t.byteAt j = s.byteAt j) ∧ t.me = s.me.advance ∧ s.othersKeep t) ∧
  (∀ (d a b : BitVec 5) (sc o wd : BitVec 3) (s u : State) (l : Lane),
     ∀ i ∈ atomicInstrs d a b sc o wd, s.memOk → Plain i s → s.me.wait = .none → s.me.tx.active = false →
     atomicLane (widthSize wd) (s.me.getS a.toNat) s = .ok ([l], u) → u.poisoned l.loc (widthSize wd) = false →
     soleHold l.loc l.n u = .ok ((), u) → u.Ordinary l.loc l.n →
     ∃ t, exec i s = .next t ∧ (∀ j, (j < l.loc ∨ l.loc + widthSize wd ≤ j) → t.byteAt j = s.byteAt j) ∧
       (i = .red d a b sc o wd → t.me = s.me.advance) ∧
       (i ≠ .red d a b sc o wd → (∀ m : Nat, m ≠ d.toNat → t.me.getS m = s.me.getS m) ∧ t.me.v = s.me.v ∧ t.me.m = s.me.m ∧
         t.me.bind = s.me.bind ∧ t.me.af = s.me.af ∧ t.me.ef = s.me.ef ∧ t.me.fmt = s.me.fmt ∧ t.me.scla = s.me.scla ∧
         t.me.sclb = s.me.sclb ∧ t.me.tx = s.me.tx ∧ t.me.tokv = s.me.tokv ∧ t.me.tokpc = s.me.tokpc) ∧ s.othersKeep t) ∧
  (∀ (d a b : BitVec 5) (ty : BitVec 4) (m : BitVec 3) (s u z : State) (ls : List Lane),
     let e := widthOf ty.toNat
     let act := (List.range (512 / e)).filter (fun j => (s.me.getM m.toNat).getLsbD j)
     let base := s.me.getS a.toNat
     let index := fun (j : Nat) => if b.toNat < 16 then lane e (s.me.getV b.toNat) j else (s.me.getS b.toNat).toNat % 2 ^ e
     ∀ p ∈ [(Instr.vsts d a b ty m, fun j => base + s.me.getS b.toNat * BitVec.ofNat 64 j),
        (.vsct d a b ty m, fun j => base + BitVec.ofNat 64 (index j * (e / 8)))],
     s.memOk → Plain p.1 s → s.me.wait = .none → s.me.tx.active = false →
     resolveStore .store (e / 8) (act.map (fun j => (j, p.2 j))) s = .ok (ls, u) →
     storeLanes e (s.me.getV d.toNat) ls u = .ok ((), z) → OrdinaryLanes e (s.me.getV d.toNat) ls u →
     ∃ t, exec p.1 s = .next t ∧ (∀ j, (∀ l ∈ ls, j < l.loc ∨ l.loc + l.n ≤ j) → t.byteAt j = s.byteAt j) ∧
       t.me = s.me.advance ∧ s.othersKeep t)

/-- R209, R216, R219: outside an attempt a global access by a context other than 15, whose page the core's data TLB holds,
needs the page's read permission, without which the strand posts a translation fault with cause 2 and waits for the reply.
With it, a line that the L1 holds answers, and becomes the most recently used; an address that it does not hold reads memory at
the physical address, and its line enters the L1 unless there is none, the page is NC, or the line holds poison. A MIG strand
reads past the L1. R219: an address that no TLB level holds stops the strand with a miss record in the walker's box, and
nothing else of the access happens. R219, R221, R384: what a miss and a fault leave: the context waits for the walk or for the
reply, the box of the core, or of the service core that R14 designates, has the record at its end with the fields that its
format names, and no other context but one that waits at that box, and no byte of memory, changes. -/
def Obligations.GlobalAccess : Prop :=
  (∀ (s : State) (va : Word) (n : Nat) (e : TlbEntry), s.me.tx.active = false → ctxNo s.cur ≠ 15 → va.toNat < 2 ^ 52 →
     va.toNat % n = 0 → 0 < n → tlbFind (s.core s.myCore).dtlb (s.partOf s.myTil) va.toNat = some e →
     let pa := e.pa va.toNat (dieOfTil s.myTil)
     let line := (s.til s.myTil).l1.find? (fun l => l.line == pa / 64)
     let lines := fun (f : List CacheLine → List CacheLine) => s.modTil s.myTil (fun t => { t with l1 := f t.l1 })
     let loads := fun (x : Nat) (t : State) => loadScalar n va 0 s = .ok (x, t)
     (entRd e.entry = false → loadScalar n va 0 s = .error (.fault .load 2 0 va)) ∧
     (entRd e.entry = true → (s.til s.myTil).l1sz = 0 ∨ s.me.mig = true → s.poisoned pa n = false → loads (s.rd pa n) s) ∧
     (entRd e.entry = true → (s.til s.myTil).l1sz ≠ 0 → s.me.mig = false →
       (∀ c, line = some c → loads (natOfBytes (c.get pa n)) (lines (fun l => c :: l.filter (fun x => x.line ≠ c.line)))) ∧
       (line = none → s.poisoned pa n = false →
         (entNc e.entry = true ∨ s.poisoned (pa / 64 * 64) 64 = true → loads (s.rd pa n) s) ∧
         (entNc e.entry = false → s.poisoned (pa / 64 * 64) 64 = false → loads (s.rd pa n)
           (lines (fun l => l1Fill (128 * (s.til s.myTil).l1sz) false l (s.lineNow (pa / 64)))))) ∧
       (line = none → s.poisoned pa n = true → loadScalar n va 0 s = .error (.trap Cause.poison 0 va)))) ∧
  (∀ (d a : BitVec 5) (k : BitVec 14) (s r t : State) (x : Word), Ready (.ld d a k) s r → Reads a r x t →
     ctxNo t.cur ≠ 15 →
     let va := x + BitVec.ofInt 64 k.toInt
     va.toNat < 2 ^ 52 → va.toNat % 8 = 0 → (t.lookup t.cur false va.toNat).1 = none →
     exec (.ld d a k) s = .next (s.postMiss s.cur .load 0 va false)) ∧
  (∀ (s : State) (c lane cause : Nat) (kind : Acc) (va : Word) (quiet : Bool), c < 65536 → lane < 64 → cause < 256 →
     let code := match kind with
       | .load => 0
       | .store => 1
       | .fetch => 2
       | .atomic => 3
       | .stm => 4
     let leaves := fun (t : State) (k b : Nat) (w : Wait) => t.ctx c = { s.ctx c with wait := w } ∧
       (∀ e, e ≠ c → (s.ctx e).wait ≠ .box b → t.ctx e = s.ctx e) ∧ t.mem = s.mem ∧ t.tils = s.tils ∧
       ∀ j, j ≠ k → t.core j = s.core j
     let who := [(0, 4, (s.sid c).toNat), (4, 1, code), (8, 8, va.toNat), (16, 8, (s.ctx c).pc.toNat)]
     let dest := s.service (tilOf c)
     leaves (s.postMiss c kind lane va quiet) (coreOf c) 2 (.miss kind lane va quiet) ∧
     (s.boxRoom (coreOf c) 2 = true → Posted s (s.postMiss c kind lane va quiet) (coreOf c) 2 24 who) ∧
     leaves (s.postFault c kind cause lane va) dest 1 (.fault kind lane va) ∧
     (s.boxRoom dest 1 = true → Posted s (s.postFault c kind cause lane va) dest 1 16
       (who ++ [(5, 1, cause), (6, 2, lane), (24, 4, tilOf c)])))

/-- What holds a context under cause 15 (R75): an earlier access of it that is outstanding (R215), be it any of them, a load, or
a store to a line, or a cycle that has not come. Without one the context drops what it is to drop, and goes on. -/
def Sys2Proof.Machine.OrderHeld (loads : Bool) (line : Option Nat) (at_ : Word) (flush : Flush) (s t : State) : Prop :=
  let k := s.core s.myCore
  let waits := (∃ q ∈ k.reqs, q.cid = s.cur ∧ k.cycle.toNat < q.until_.toNat ∧ (loads = true → q.load = true) ∧
      ∀ l, line = some l → q.far = false ∧ q.load = false ∧ q.line = l) ∨
    (line = none ∧ ∃ w ∈ k.waves, w.cid = s.cur ∧ (loads = true → w.regs ≠ [regNext])) ∨ k.cycle.toNat < at_.toNat
  (waits → t = s.modMe (fun x => { x with wait := .order loads line at_ flush })) ∧ (¬waits → t = s.flush s.myTil flush)

/-- An instruction that writes a result to D which is there after some cycles, and holds its context until then and until its
earlier accesses are performed. -/
def Sys2Proof.Machine.Finishes (i : Instr) (d : BitVec 5) (w : Word) (s z : State) : Prop :=
  ∃ n : Nat, let at_ := (z.core z.myCore).cycle + BitVec.ofNat 64 n
    ∀ x y : State, Writes d { z.tick with due := at_ } w x → OrderHeld false none at_ .none x y → exec i s = .next y.past

/-- R250, R264: a fence holds its context until every earlier access is performed, or without a release part every earlier load;
then one whose order has an acquire part drops the tiller's L1 at DIE scope and wider, and the next instruction issues 4 cycles
later. The accesses that are outstanding are those that log 5 has outstanding. At CTX scope, and in an attempt, it only goes on to
the next word. R233 to R235: cache instructions on a global address whose page is at hand. A flush drops the line from the tiller's
L1; an invalidation holds its context until its earlier stores to the line are performed, and then drops the line from the
caches that it names; a prefetch into L2 changes nothing, and one into the L1 puts the line there, if it may be read and
cached. A poisoned line is not flushed (R214). That a prefetch and a flush complete in their own step is the model's choice
(log 5, 33). -/
def Obligations.CachesAndFences : Prop :=
  (∀ (sc o : BitVec 3) (s r t : State), Ready (.fence sc o) s r →
     let acq := o = 1 ∨ o = 3 ∨ o = 4
     let rel := o = 2 ∨ o = 3 ∨ o = 4
     (sc ≠ 0 → r.me.tx.active = false → acq ∨ rel →
       OrderHeld (decide ¬rel) none 0 (if acq then .acquire sc.toNat else .none) r t → exec (.fence sc o) s = .next t.past) ∧
     (sc = 0 ∨ r.me.tx.active = true ∨ ¬(acq ∨ rel) → exec (.fence sc o) s = .next r.past)) ∧
  (∀ (s : State) (c til l scope : Nat) (loads data code : Bool) (line : Option Nat) (at_ : Word) (flush : Flush),
     let next := (s.core (coreOf c)).cycle + 1
     let kept := fun (b : Bool) (ls : List CacheLine) => if b then ls.filter (fun x => x.line ≠ l) else ls
     (s.flush til .none = s) ∧
     (s.flush til (.acquire scope) = if 3 ≤ scope then s.modTil til (fun t => { t with l1 := [] }) else s) ∧
     (s.flush til (.line l data code) = s.modTil til (fun t => { t with l1 := kept data t.l1, icache := kept code t.icache })) ∧
     ((s.ctx c).wait = .order loads line at_ flush → (s.core (coreOf c)).cycle.toNat + 1 < 2 ^ 64 →
       (next.toNat < at_.toNat → s.endWait c = s) ∧
       (at_.toNat ≤ next.toNat → (s.core (coreOf c)).reqs = [] → (s.core (coreOf c)).waves = [] →
         s.endWait c = (s.modCtx c (fun x => { x with wait := .none, lastIssue := some next })).flush (tilOf c) flush))) ∧
  (∀ (a : BitVec 5) (k : BitVec 14) (s r t u : State) (x : Word) (pa : Nat) (e : Word), Reads a r x t →
     let va := x + BitVec.ofInt 64 k.toInt
     (cachePage false va t = .ok (some (pa, e), u) →
       (Ready (.prfL2 a k) s r → exec (.prfL2 a k) s = .next u.past) ∧
       (Ready (.prfL1 a k) s r → ctxNo u.cur ≠ 15 → entRd e = true → entNc e = false → u.me.mig = false →
         0 < (u.til u.myTil).l1sz → u.poisoned (pa / 64 * 64) 64 = false →
         (u.til u.myTil).l1.any (fun l => l.line == pa / 64) = false →
         exec (.prfL1 a k) s = .next (u.modTil u.myTil (fun t => { t with
           l1 := l1Fill (128 * t.l1sz) false t.l1 (u.lineNow (pa / 64)) })).past)) ∧
     (cachePage true va t = .ok (some (pa, e), u) →
       let held := fun (data code : Bool) => OrderHeld false (some (pa / 64)) 0 (.line (pa / 64) data code) u
       (Ready (.cfl a k) s r →
         (u.poisoned (pa / 64 * 64) 64 = false → exec (.cfl a k) s = .next (u.dropL1 u.myTil pa 1).past) ∧
         (u.poisoned (pa / 64 * 64) 64 = true → exec (.cfl a k) s = .next u.past)) ∧
       ∀ v, (Ready (.cinvD a k) s r → held true false v → exec (.cinvD a k) s = .next v.past) ∧
         (Ready (.cinvI a k) s r → held false true v → exec (.cinvI a k) s = .next v.past) ∧
         (Ready (.cinvDi a k) s r → held true true v → exec (.cinvDi a k) s = .next v.past)))

/-- The atomics that always write (R265), with the new value for an old one and an operand of an integer width. -/
def Sys2Proof.Machine.amoTable :
    List ((BitVec 5 → BitVec 5 → BitVec 5 → BitVec 3 → BitVec 3 → BitVec 3 → Instr) × (BitVec 3 → Nat → Nat → Nat)) :=
  [(.amoadd, fun w x y => (x + y) % 2 ^ (8 * widthSize w)), (.amoswp, fun _ _ y => y),
   (.amomin, fun w x y => if intW w y < intW w x then y else x), (.amomax, fun w x y => if intW w x < intW w y then y else x),
   (.amoand, fun _ x y => x &&& y), (.amoor, fun _ x y => x ||| y), (.amoxor, fun _ x y => x ^^^ y)]

/-- The atomics of the floating widths (R263, R265): f32 is width 4 and bf16 width 5. -/
def Sys2Proof.Machine.floatTable :
    List ((BitVec 5 → BitVec 5 → BitVec 5 → BitVec 3 → BitVec 3 → BitVec 3 → Instr) × BitVec 3 × (Nat → Nat → Nat × Flags)) :=
  [(.amoadd, 4, laneAdd 2 0), (.amoadd, 5, laneAdd 3 0), (.amomin, 4, laneMin 2), (.amomax, 4, laneMax 2)]

/-- R263, R265: an atomic of an integer width (0 to 3) reads the old value at its address, writes the operation's result
there, drops the line of a global address from the tiller's L1, acquires by its order, and returns the old value, extended by
its width, in D. At a floating width it writes the sum rounded to nearest even, or the smaller or larger value, as the lanes of
VADD, VMIN and VMAX have them (what these are is said of the lanes), and sets the flags of that besides. R266, R267: AMOCAS
writes its B operand only where the old value is D's, and returns the old value in D either way; RED writes the result of the
operation that its D field names, 0 to 5 for add, min, max, and, or and xor, and returns nothing. -/
def Obligations.Atomics : Prop :=
  (∀ p ∈ amoTable, ∀ (d a b : BitVec 5) (sc o wd : BitVec 3) (s r t u v w x y z q : State) (va n : Word) (l : Lane)
     (bs : List Byte), wd.toNat ≤ 3 → Ready (p.1 d a b sc o wd) s r → Reads a r va t → Reads b t n u →
     let m := 2 ^ (8 * widthSize wd)
     let old := natOfBytes bs
     atomicLane (widthSize wd) va u = .ok ([l], v) → loadLane 0 false l v = .ok (bs, w) →
     strandStore false l (bytesOfNat (widthSize wd) (p.2 wd old (n.toNat % m))) w = .ok ((), x) →
     leaveL1 l x = .ok ((), y) → acquirePart o sc y = .ok ((), z) → Writes d z (extendW wd old) q →
     exec (p.1 d a b sc o wd) s = .next q.past) ∧
  (∀ p ∈ floatTable, ∀ (d a b : BitVec 5) (sc o : BitVec 3) (s r t u v w x y z q : State) (va n : Word) (l : Lane)
     (bs : List Byte), Ready (p.1 d a b sc o p.2.1) s r → Reads a r va t → Reads b t n u →
     let size := widthSize p.2.1
     let new := p.2.2 (natOfBytes bs) (n.toNat % 2 ^ (8 * size))
     atomicLane size va u = .ok ([l], v) → loadLane 0 false l v = .ok (bs, w) →
     strandStore false l (bytesOfNat size new.1) w = .ok ((), x) → leaveL1 l x = .ok ((), y) →
     acquirePart o sc y = .ok ((), z) → Writes d z (BitVec.ofNat 64 (natOfBytes bs)) q →
     exec (p.1 d a b sc o p.2.1) s = .next (q.after (fun x => { x with fstat := x.fstat ||| new.2 }))) ∧
  (∀ (d a b : BitVec 5) (sc o wd : BitVec 3) (s r t u v w x y z q f : State) (va n c : Word) (l : Lane) (bs : List Byte),
     let m := 2 ^ (8 * widthSize wd)
     Reads a r va t → Reads b t n u →
     (Ready (.amocas d a b sc o wd) s r → Reads d u c v → atomicLane (widthSize wd) va v = .ok ([l], w) →
       loadLane 0 false l w = .ok (bs, x) → w.me.tx.active = false → x.me.tx.active = false →
       (natOfBytes bs = c.toNat % m → strandStore false l (bytesOfNat (widthSize wd) (n.toNat % m)) x = .ok ((), y)) →
       (natOfBytes bs ≠ c.toNat % m → y = x) →
       leaveL1 l y = .ok ((), z) → acquirePart o sc z = .ok ((), q) → Writes d q (extendW wd (natOfBytes bs)) f →
       exec (.amocas d a b sc o wd) s = .next f.past) ∧
     (Ready (.red d a b sc o wd) s r → u.me.tx.active = false → atomicLane (widthSize wd) va u = .ok ([l], v) →
       v.poisoned l.loc (widthSize wd) = false →
       strandStore false l (bytesOfNat (widthSize wd)
         (atomicOp d.toNat wd (v.rd l.loc (widthSize wd)) (n.toNat % m)).1) v = .ok ((), w) →
       leaveL1 l w = .ok ((), x) → exec (.red d a b sc o wd) s = .next x.past)) ∧
  (∀ (wd : BitVec 3) (x y : Nat),
     (wd.toNat ≤ 3 → (atomicOp 0 wd x y).1 = (x + y) % 2 ^ (8 * widthSize wd) ∧
       (atomicOp 1 wd x y).1 = (if intW wd y < intW wd x then y else x) ∧
       (atomicOp 2 wd x y).1 = (if intW wd x < intW wd y then y else x)) ∧
     (atomicOp 0 4 x y).1 = (laneAdd 2 0 x y).1 ∧ (atomicOp 0 5 x y).1 = (laneAdd 3 0 x y).1 ∧
     (atomicOp 1 4 x y).1 = (laneMin 2 x y).1 ∧ (atomicOp 2 4 x y).1 = (laneMax 2 x y).1 ∧
     (atomicOp 3 wd x y).1 = x &&& y ∧ (atomicOp 4 wd x y).1 = x ||| y ∧ (atomicOp 5 wd x y).1 = x ^^^ y)

/-! ### Channels and attempts -/

/-- R152, R157: QBIND of an unbound end to an entry of the kind named, which nothing forbids, writes zero and binds the end; an
end that is bound already gives code 1, and an entry of another kind, or whose own fields are wrong for the end, code 2. Of
what it names, poison comes first: a descriptor of an engine, the merge unit or the stream port that holds poison raises
POISON; else what is wrong gives its code. None of these binds. R158: QUNB of a bound end writes zero to D, and the end is
unbound then and the register that it aliases holds zero; of the other ends, the result end of the reference whose request
end it was is unbound with it, and every other keeps its entry. An unbound end gives code 1. -/
def Obligations.EndBindings : Prop :=
  (∀ (d a b k : BitVec 5) (s r t u : State) (w : Word), Ready (.qbind d a b k) s r → Reads b r w t →
     let fails := fun (n : Nat) => Writes d t (failCode n) u → exec (.qbind d a b k) s = .next u.past
     let ok := t.me.getBind a.toNat = 0 ∧ bindKind w = k.toNat ∧ t.entryOk t.cur a.toNat w = true
     let poison := bindKind w ≠ 1 ∧ t.bindPoison t.cur w = true
     let why := t.bindWhy t.cur a.toNat w (t.otherEnds t.cur a.toNat) false
     (t.me.getBind a.toNat ≠ 0 → fails 1) ∧
     (t.me.getBind a.toNat = 0 → bindKind w ≠ k.toNat ∨ t.entryOk t.cur a.toNat w = false → fails 2) ∧
     (ok → poison → exec (.qbind d a b k) s = .next (s.onStop (wordOf (.qbind d a b k)) (.trap Cause.poison 0 0))) ∧
     (ok → ¬ poison → why ≠ 0 → fails why) ∧
     (ok → ¬ poison → why = 0 → Writes d t 0 u → exec (.qbind d a b k) s = .next (u.doBind u.cur a.toNat w).past ∧
       (a.toNat < 12 → ((u.doBind u.cur a.toNat w).ctx u.cur).getBind a.toNat = w) ∧
       ∀ e : Nat, e ≠ a.toNat → ((u.doBind u.cur a.toNat w).ctx u.cur).getBind e = u.me.getBind e)) ∧
  (∀ (d a : BitVec 5) (s r u : State), Ready (.qunb d a) s r →
     (r.me.getBind a.toNat = 0 → Writes d r (failCode 1) u → exec (.qunb d a) s = .next u.past) ∧
     (r.me.getBind a.toNat ≠ 0 → Writes d r 0 u →
       let z := u.unbind u.cur a.toNat
       let gone := fun (e : Nat) => (z.ctx u.cur).getBind e = 0 ∧ (e < 8 → (z.ctx u.cur).getS (24 + e) = 0) ∧
         (8 ≤ e → (z.ctx u.cur).getV (e + 4) = 0)
       let own := (u.til (tilOf u.cur)).refs.find? (fun q => q.cid == u.cur && q.idx == a.toNat)
       let w := u.me.getBind a.toNat
       let result := fun (e : Nat) => bindKind w = 2 ∧ bindPort w = 0 ∧ own.bind (·.res) = some e
       exec (.qunb d a) s = .next z.past ∧ (a.toNat < 12 → gone a.toNat) ∧ (∀ e, e < 12 → result e → gone e) ∧
       ∀ e, e ≠ a.toNat → ¬result e → (z.ctx u.cur).getBind e = u.me.getBind e))

/-- R156, R159: QTRY and QPEEK of a read end whose data and status fields are registers, outside an attempt; the data field is
a scalar register for ends 0 to 7 and a vector register for ends 8 to 11. A data element gives
its data and status zero, an awn its status word with AF set, an empty end all ones with EF set; QTRY alone consumes what it
finds. Past a stream's last element QTRY traps with BOUNDS, and QPEEK finds its end empty, which is the model's choice (log 55).
R160: QAWN and QEND enqueue an awn of
their level, 7 for QEND, with the low 32 bits of A as code, at a write end with room. -/
def Obligations.EndTransfers : Prop :=
  (∀ (d a b : BitVec 5) (s : State), s.me.tx.active = false → s.me.getBind a.toNat ≠ 0 → readEnd (s.me.getBind a.toNat) = true →
     s.me.endOf (dataFld a d) = none → s.me.endOf (.s b.toNat) = none →
     let done := fun (t : State) (f : Ctx → Ctx) (st : Word) (af ef : Bool) =>
       (t.modMe (fun x => { ((f x).setS b.toNat st) with af := af, ef := ef })).past
     let data := fun (y : Elem) (x : Ctx) =>
       if a.toNat ≤ 7 then x.setS d.toNat (y.data.extractLsb' 0 64) else x.setV d.toNat y.data
     let taken := s.endTake s.cur a.toNat
     (∀ y, s.endHead s.cur a.toNat 0 = .elem y → y.awn = false →
       (rowCheck (.qpeek d a b) s = .ok ((), s) → exec (.qpeek d a b) s = .next (done s (data y) 0 false false)) ∧
       (rowCheck (.qtry d a b) s = .ok ((), s) → taken.me.bind = s.me.bind → taken.cur = s.cur → exec (.qtry d a b) s =
         .next (done taken (data y) 0 false false))) ∧
     (∀ y, s.endHead s.cur a.toNat 0 = .elem y → y.awn = true →
       let st : Word := BitVec.ofNat 64 (2 ^ 62 + a.toNat * 2 ^ 36 + y.level * 2 ^ 32 + y.code.toNat)
       (rowCheck (.qpeek d a b) s = .ok ((), s) → exec (.qpeek d a b) s = .next (done s id st true false)) ∧
       (rowCheck (.qtry d a b) s = .ok ((), s) → taken.me.bind = s.me.bind → taken.cur = s.cur →
         exec (.qtry d a b) s = .next (done taken id st true false))) ∧
     (s.endHead s.cur a.toNat 0 = .empty →
       (rowCheck (.qpeek d a b) s = .ok ((), s) → exec (.qpeek d a b) s = .next (done s id (BitVec.allOnes 64) false true)) ∧
       (rowCheck (.qtry d a b) s = .ok ((), s) → exec (.qtry d a b) s = .next (done s id (BitVec.allOnes 64) false true))) ∧
     (s.endHead s.cur a.toNat 0 = .over →
       (rowCheck (.qpeek d a b) s = .ok ((), s) → exec (.qpeek d a b) s = .next (done s id (BitVec.allOnes 64) false true)) ∧
       (rowCheck (.qtry d a b) s = .ok ((), s) →
         exec (.qtry d a b) s = .next (s.takeTrap s.cur Cause.bounds 0 0 (wordOf (.qtry d a b)))))) ∧
  (∀ (d a b : BitVec 5) (s u : State) (x : Word), s.me.getBind d.toNat ≠ 0 → readEnd (s.me.getBind d.toNat) = false →
     s.me.tx.active = false → s.me.endOf (.s a.toNat) = none → x = s.me.getS a.toNat →
     (rowCheck (.qawn d a b) s = .ok ((), s) → examine [] [(d.toNat, awnElem b.toNat 0)] s = .ok ((), s) →
       s.endPut s.cur d.toNat (awnElem b.toNat (x.extractLsb' 0 32)) = .done u → exec (.qawn d a b) s = .next u.past) ∧
     (rowCheck (.qend d a) s = .ok ((), s) → examine [] [(d.toNat, awnElem 7 0)] s = .ok ((), s) →
       s.endPut s.cur d.toNat (awnElem 7 (x.extractLsb' 0 32)) = .done u → exec (.qend d a) s = .next u.past))

/-- R161, R163: QLEN gives the count of a bound end, RCUR.get the next sequence number of a PEER end on a ring, and RCUR.skip
advances a read cursor past the data elements that it can take, up to the number asked for, and gives how many. R162: RRES
takes the next N sequence numbers of a ring with room for them and gives the first, answers 1 for an N of zero, above 64 or
above the ring's size, and raises ILLEGAL at an end that reserves none; RPUB publishes an element under a number that its end
has reserved, and raises BOUNDS for any other number. R143, R154: RPUB waits while an XORD ring does not accept the strand's open
group, or the spill queue has no room for the element. A ring that software has built is taken up as RRES first names it, and one
whose block is rejected (R4) has no numbers to give, which is log 27; the size of a ring of another module is log 54, and that
RCUR.skip acts as so many dequeues is log 55. -/
def Obligations.RingNumbers : Prop :=
  (∀ (d a b : BitVec 5) (s r t u v : State) (n : Word),
     (Ready (.qlen d a) s r → r.me.getBind a.toNat ≠ 0 → r.me.tx.active = false →
       Writes d (r.polled r.cur a.toNat) (BitVec.ofNat 64 (r.endCount r.cur a.toNat)) u → exec (.qlen d a) s = .next u.past) ∧
     (Ready (.rcurGet d a) s r → r.me.tx.active = false →
       let w := r.me.getBind a.toNat
       let ring := bindLoc r.cur w
       bindKind w = 1 →
       (bindWr w = false → Writes d r (BitVec.ofNat 64 (r.rCur ring (bindPort w) % 2 ^ 32)) u →
         exec (.rcurGet d a) s = .next u.past) ∧
       (bindWr w = true → bindPort w = 0 → Writes d r (BitVec.ofNat 64 (r.rRseq ring % 2 ^ 32)) u →
         exec (.rcurGet d a) s = .next u.past)) ∧
     (Ready (.rcurSkip d a b) s r → Reads b r n t → r.me.getBind a.toNat ≠ 0 → t.me.tx.active = false →
       let w := r.me.getBind a.toNat
       let k := t.skippable (bindLoc t.cur w) (bindPort w) (Nat.min n.toNat (t.rDepth (bindLoc t.cur w))) 0
       bindKind w = 1 → bindWr w = false →
         ((List.replicate k ()).forM (fun _ => (do let _ ← deq a.toNat : Op Unit)) : Op Unit) t = .ok ((), u) →
       Writes d u (BitVec.ofNat 64 k) v → exec (.rcurSkip d a b) s = .next v.past)) ∧
  (∀ (d a b : BitVec 5) (i : BitVec 1) (s r t u : State) (n : Word) (ring : Nat),
     Ready (.rres d a b i) s r → r.me.getBind a.toNat ≠ 0 →
     (r.reserveRing r.cur a.toNat = none →
       exec (.rres d a b i) s = .next (s.onStop (wordOf (.rres d a b i)) (.trap Cause.illegal 0 0))) ∧
     (r.reserveRing r.cur a.toNat = some ring → ReadsB i b r n t →
       let q := t.adopt ring
       let room := if isXring ring then Config.peerCap ring else q.rDepth ring + q.rXsize ring
       let y := q.useCredits q.cur a.toNat ring n.toNat
       (n.toNat = 0 ∨ 64 < n.toNat ∨ room < n.toNat → Writes d q (failCode 1) u → exec (.rres d a b i) s = .next u.past) ∧
       (isXring ring = false → 1 ≤ n.toNat → n.toNat ≤ 64 → n.toNat ≤ room → (q.ringX ring).geo = none →
         exec (.rres d a b i) s = .next (s.onStop (wordOf (.rres d a b i)) (.sleep 3 [q.waitKey a.toNat] [a.toNat]))) ∧
       (isXring ring = false → 1 ≤ n.toNat → n.toNat ≤ 64 → n.toNat ≤ room → (q.ringX ring).geo ≠ none →
         q.tokenBlocks q.cur a.toNat = false →
         (n.toNat : Int) ≤ y.rFree ring → y.xordAccepts ring q.me.group n.toNat = true →
         Writes d ((y.reserve q.cur a.toNat ring (q.rRseq ring) n.toNat).rPut ring 12 (q.rRseq ring + n.toNat))
           (BitVec.ofNat 64 (q.rRseq ring)) u → exec (.rres d a b i) s = .next u.past)) ∧
     (∀ seq k, t.rXord ring = false → (t.reserve t.cur a.toNat ring seq k).ringX ring =
       { t.ringX ring with resv := (t.ringX ring).resv ++ (List.range k).map (fun j =>
         (t.cur, a.toNat, (seq + j) % 2 ^ 32)) }) ∧
     (∀ e : Nat, e < 12 → let w := t.me.getBind e
       (bindKind w ≠ 1 ∨ bindWr w = false → t.reserveRing t.cur e = none) ∧
       (bindKind w = 1 → bindWr w = true → bindPort w = 0 → t.reserveRing t.cur e = some (bindLoc t.cur w)) ∧
       (bindKind w = 1 → bindWr w = true → bindPort w ≠ 0 → t.pDeal (bindLoc t.cur w) = true →
         t.reserveRing t.cur e = none))) ∧
  (∀ (d a b : BitVec 5) (w : BitVec 1) (s r t u : State) (q : Word) (x : VReg), Ready (.rpub d a b w) s r →
     r.me.getBind d.toNat ≠ 0 → readEnd (r.me.getBind d.toNat) = false → rdData d a r = .ok (x, t) → Reads b t q u →
     let seq := q.toNat % 2 ^ 32
     let bounds := exec (.rpub d a b w) s = .next (s.onStop (wordOf (.rpub d a b w)) (.trap Cause.bounds 0 0))
     (u.reserveRing u.cur d.toNat = none → bounds) ∧
     (∀ ring, u.reserveRing u.cur d.toNat = some ring → let y := u.ringX ring
       (y.resv.contains (u.cur, d.toNat, seq) = false → bounds) ∧
       let accepts := u.xordAccepts ring u.me.group 0 = true ∧ u.spillRoom ring 1 = true
       (y.resv.contains (u.cur, d.toNat, seq) = true → ¬accepts → exec (.rpub d a b w) s =
         .next (s.onStop (wordOf (.rpub d a b w)) (.sleep 3 [u.endKey u.cur d.toNat] [d.toNat]))) ∧
       (y.resv.contains (u.cur, d.toNat, seq) = true → accepts →
         let el : Elem := if w = 1 then awnElem (x.extractLsb' 32 3).toNat (x.extractLsb' 0 32) else { awn := false, data := x }
         let z := u.setRing { y with resv := y.resv.filter (· ≠ (u.cur, d.toNat, seq)) }
         exec (.rpub d a b w) s = .next (if isXring ring then z.sendFar u.cur d.toNat ring (.elem el u.me.group none false (some seq))
           else z.publishAt ring seq el u.me.group).past)))

/-- The scalar integer instructions that read sources. -/
def Sys2Proof.Machine.scalarInstrs (d a b : BitVec 5) (i x : BitVec 1) (sc : BitVec 3) (wd : BitVec 5) (k : BitVec 14) :
    List Instr :=
  scalarTwo.map (fun p => p.1 d a b i) ++
  [.lea d a b sc i, .sel d a b i, .clz d a, .ctz d a, .popc d a, .bfx d a b x i wd, .bfi d a b i wd, .addi d a k, .andi d a k]

/-- R68, R189: outside an attempt an integer instruction whose sources, in their order, hold data up to one that is empty waits
under stall cause 2 on the keys of its empty source ends, and on that of a destination that is full, whatever the sources behind
hold (log 25); with every source filled and its destination full it waits under cause 3 on that end's key. Neither changes a
register, a byte or another context. R137, R138: an awn at the head of a source before which every source holds data suppresses
it, whatever stands behind. With a handler, and no handler running, the awn alone is consumed and the handler entered; otherwise
the strand traps with AWN and nothing is consumed. R36, R138: an instruction that names one end as both sources takes two
elements, the earlier for A; it waits while the second is not there, and traps with AWN where either is an awn, handler or not.
R139, R164: TOKH sets the handler of a bound end to its target, or removes it where the offset is zero; TRET in a handler leaves
it for TOKPC, and outside one raises ILLEGAL. -/
def Obligations.EndsThatStop : Prop :=
  (∀ (d a b : BitVec 5) (i x : BitVec 1) (sc : BitVec 3) (wd : BitVec 5) (k : BitVec 14) (s : State),
     ∀ j ∈ scalarInstrs d a b i x sc wd k, rowCheck j s = .ok ((), s) → s.me.tx.active = false →
     let src := j.reads.filterMap s.me.endOf
     let dst := j.writes.filterMap s.me.endOf
     let waits := fun (cause : Nat) (keys : List Key) => ∃ t, exec j s = .next t ∧
       t.ctx s.cur = { s.me with wait := .sleep cause keys } ∧ (∀ c, c ≠ s.cur → t.ctx c = s.ctx c) ∧
       ∀ p, t.byteAt p = s.byteAt p
     src.Nodup → (∀ e ∈ src, readEnd (s.me.getBind e) = true ∧ s.endHead s.cur e 0 ≠ .over) →
     (∀ e ∈ dst, readEnd (s.me.getBind e) = false) →
     let empty := src.filter (fun e => s.endHead s.cur e 0 = .empty)
     let isFull := fun (f : Nat) => (match s.endPut s.cur f dataElem with | .full => true | _ => false)
     (∀ pre e post, src = pre ++ e :: post → (∀ f ∈ pre, ∃ y, s.endHead s.cur f 0 = .elem y ∧ y.awn = false) →
       s.endHead s.cur e 0 = .empty → (∀ f ∈ dst, s.tokenBlocks s.cur f = false) →
       waits 2 ((empty ++ dst.filter isFull).map (s.endKey s.cur))) ∧
     (∀ f, dst = [f] → (∀ e ∈ src, ∃ y, s.endHead s.cur e 0 = .elem y ∧ y.awn = false) →
       s.tokenBlocks s.cur f = false → isFull f = true → waits 3 [s.endKey s.cur f]) ∧
     (∀ pre e post y, src = pre ++ e :: post →
       (∀ f ∈ pre, ∃ z, s.endHead s.cur f 0 = .elem z ∧ z.awn = false) → s.endHead s.cur e 0 = .elem y → y.awn = true →
       (∀ h, s.me.hmode = false → s.me.handler[e]? = some (some h) →
         exec j s = .next ((s.endTake s.cur e).modCtx s.cur (fun x => { x with
           tokv := BitVec.ofNat 64 (e * 2 ^ 36 + y.level * 2 ^ 32 + y.code.toNat), tokpc := x.pc, hmode := true, pc := h }))) ∧
       (s.me.hmode = true ∨ s.me.handler[e]? = some none →
         exec j s = .next (s.takeTrap s.cur Cause.awn 0 0 (wordOf j))))) ∧
  (∀ (d a : BitVec 5) (s : State) (e : Nat), ∀ p ∈ scalarTwo, let j := p.1 d a a 0
     rowCheck j s = .ok ((), s) → s.me.tx.active = false → s.me.endOf (.s a.toNat) = some e →
     s.me.endOf (.s d.toNat) = none → readEnd (s.me.getBind e) = true →
     let traps := exec j s = .next (s.takeTrap s.cur Cause.awn 0 0 (wordOf j))
     ∀ x, s.endHead s.cur e 0 = .elem x →
       (x.awn = true → traps) ∧
       (x.awn = false → s.endHead s.cur e 1 = .empty → exec j s = .next (s.sleepOn s.cur 2 [s.endKey s.cur e] [e])) ∧
       ∀ y, x.awn = false → s.endHead s.cur e 1 = .elem y →
         (y.awn = true → traps) ∧
         (let u := s.endTake s.cur e
          y.awn = false → u.cur = s.cur → u.me.bind = s.me.bind → u.me.tx.active = false → u.endHead s.cur e 0 = .elem y →
          ∀ v, Writes d (u.endTake s.cur e) (p.2 (x.data.extractLsb' 0 64) (y.data.extractLsb' 0 64)) v →
            exec j s = .next v.past)) ∧
  (∀ (d : BitVec 5) (k : BitVec 19) (s r : State), s.me.tx.active = false →
     (Ready (.tokh d k) s r → r.me.getBind d.toNat ≠ 0 →
       let dest := r.me.pc + BitVec.ofInt 64 (4 * k.toInt)
       (k = 0 ∨ dest.toNat < 2 ^ 52 → exec (.tokh d k) s = .next (r.after (fun x => { x with
         handler := x.handler.setIfInBounds d.toNat (if k = 0 then none else some dest) }))) ∧
       (k ≠ 0 → 2 ^ 52 ≤ dest.toNat →
         exec (.tokh d k) s = .next (s.onStop (wordOf (.tokh d k)) (.trap Cause.addr 0 dest)))) ∧
     (Ready .tret s r →
       (r.me.hmode = true → exec .tret s = .next (r.modMe (fun x => { x with hmode := false, pc := x.tokpc }))) ∧
       (r.me.hmode = false → exec .tret s = .next (s.takeTrap s.cur Cause.illegal 0 0 (wordOf .tret)))))

/-- R182, R183, R186: TXB outside sole mode begins an attempt at its own pc with empty sets and its fail target; TXO opens an
alternative while fewer than four are open; TXA abandons the attempt for the fail target with its code. R184: TXE of an attempt
that changed nothing ends it and goes on: no byte, no end and no register changes. R185, R187: TXR falls back to the innermost
alternative, or, with none open, sleeps at the TXB on the keys of the read set; WATCH adds the line of its address, of the
strand's own scratchpad, to the read set. R170: an abort of an attempt leaves for its fail target, with cause and, for cause 7,
code; a conflict restarts it at its TXB with NCONF one higher, which issues no earlier than 4 cycles later; that NCONF stays 4 at
a further conflict is the model's choice (log 55). Both drop the sets and the tentative state, give up the token (R180) and change
no byte of memory. -/
def Obligations.AttemptControl : Prop :=
  (∀ (k : BitVec 19) (code : BitVec 16) (s : State),
     let dest := s.me.pc + BitVec.ofInt 64 (4 * k.toInt)
     (Allowed (.txb k) s → dest.toNat < 2 ^ 52 → (s.me.tx.rst = true → s.me.tx.nconf ≠ 4) →
       ∃ t, exec (.txb k) s = .next t ∧ t.me.pc = (s.me.advance).pc ∧ t.me.tx.active = true ∧ t.me.tx.sole = false ∧
         t.me.tx.fail = dest ∧ t.me.tx.txbpc = s.me.pc ∧ t.me.tx.reads = [] ∧ t.me.tx.writes = [] ∧ t.me.tx.alts = [] ∧
         t.me.tx.point = .empty ∧ t.me.tx.nconf = (if s.me.tx.rst then s.me.tx.nconf else 0) ∧ t.me.s = s.me.s) ∧
     (Allowed (.txo k) s → s.me.tx.active = true → dest.toNat < 2 ^ 52 → s.me.tx.alts.length < 4 →
       exec (.txo k) s = .next (s.after (fun x => { x with tx := { x.tx with alts := (dest, x.tx.point) :: x.tx.alts } }))) ∧
     (Allowed (.txa code) s → s.me.tx.active = true →
       ∃ t, exec (.txa code) s = .next t ∧ t.me.pc = s.me.tx.fail ∧ t.me.tx.active = false ∧ t.me.tx.cause = 7 ∧
         t.me.tx.acode = code ∧ t.me.tx.nconf = 0 ∧ t.mem = s.mem)) ∧
  (∀ s : State, Allowed .txe s → s.me.tx.active = true → s.me.tx.point = .empty →
     ((s.til s.myTil).members.length ≤ 256) →
     ∃ t, exec .txe s = .next t ∧ t.me.pc = s.me.advance.pc ∧ t.me.tx.active = false ∧ t.me.tx.nconf = 0 ∧ t.me.s = s.me.s ∧
       (∀ a, t.byteAt a = s.byteAt a) ∧ t.rings = s.rings) ∧
  (∀ s : State, s.me.tx.active = true →
     (Allowed .txr s →
       (∀ dest p rest, s.me.tx.alts = (dest, p) :: rest → exec .txr s = .next (s.modMe (fun x =>
         { x with pc := dest, tx := { x.tx with alts := rest, point := p } }))) ∧
       (s.me.tx.alts = [] → ∃ t, exec .txr s = .next t ∧ t.me.wait = .retry s.me.tx.reads ∧ t.me.pc = s.me.tx.txbpc ∧
         t.me.tx.active = false ∧ t.mem = s.mem)) ∧
     (∀ (a : BitVec 5) (k : BitVec 14) (r t : State) (x : Word) (off : Nat), Ready (.watch a k) s r → Reads a r x t →
       t.me.tx.active = true → t.place t.myTil (x + BitVec.ofInt 64 k.toInt) = some (.near t.myTil off) →
       off < (t.til t.myTil).spadSize →
       let key := Key.line (locSpad t.myTil off / 64)
       (t.me.tx.reads.contains key = true → exec (.watch a k) s = .next t.past) ∧
       (t.me.tx.reads.contains key = false → t.me.tx.rcnt < 32 → exec (.watch a k) s = .next (t.after (fun x =>
         { x with tx := { x.tx with reads := x.tx.reads ++ [key], rcnt := x.tx.rcnt + 1 } }))))) ∧
  (∀ (s : State) (c cause : Nat) (code : BitVec 16),
     (let t := s.abortTx c cause code
      (t.ctx c).pc = (s.ctx c).tx.fail ∧ (t.ctx c).tx.active = false ∧ (t.ctx c).tx.cause = cause ∧ (t.ctx c).tx.nconf = 0 ∧
      (t.ctx c).tx.reads = [] ∧ (t.ctx c).tx.point = .empty ∧ (t.ctx c).s = (s.ctx c).s ∧ t.mem = s.mem) ∧
     (let t := s.restartConflict c
      (t.ctx c).pc = (s.ctx c).tx.txbpc ∧ (t.ctx c).tx.active = false ∧ (t.ctx c).tx.cause = 1 ∧ (t.ctx c).tx.rst = true ∧
      (t.ctx c).tx.nconf = Nat.min 4 ((s.ctx c).tx.nconf + 1) ∧ (t.ctx c).tx.reads = [] ∧
      (t.ctx c).lastIssue = some (s.core (coreOf c)).cycle ∧ t.mem = s.mem) ∧
     ((s.til (tilOf c)).token.holder = some c → ((s.abortTx c cause code).til (tilOf c)).token.holder = none ∧
      ((s.restartConflict c).til (tilOf c)).token.holder = none))

/-! ### Vectors and conversions -/

/-- The lane-by-lane instructions of two operands (R285, R293), with the function of type and rounding that each applies to a
pair of lanes. -/
def Sys2Proof.Machine.laneTwo :
    List ((BitVec 5 → BitVec 5 → BitVec 5 → BitVec 4 → BitVec 2 → BitVec 3 → Instr) × (Nat → Nat → Nat → Nat → Nat × Flags)) :=
  [(.vadd, laneAdd), (.vsub, laneSub), (.vmul, laneMul), (.vscl, fun t r x y => scaleLane t r x (y % 256)),
   (fun d a b t _ m => .vmin d a b t m, fun t _ => laneMin t), (fun d a b t _ m => .vmax d a b t m, fun t _ => laneMax t),
   (fun d a b t _ m => .vand d a b t m, fun _ _ x y => (x &&& y, 0)),
   (fun d a b t _ m => .vor d a b t m, fun _ _ x y => (x ||| y, 0)),
   (fun d a b t _ m => .vxor d a b t m, fun _ _ x y => (x ^^^ y, 0)),
   (fun d a b t _ m => .vshl d a b t m, fun t _ => laneShl t), (fun d a b t _ m => .vshr d a b t m, fun t _ => laneShr t),
   (fun d a b t _ m => .vsra d a b t m, fun t _ => laneSra t)]

/-- The lane-by-lane instructions of one operand (R286, R295, R296). -/
def Sys2Proof.Machine.laneOne :
    List ((BitVec 5 → BitVec 5 → BitVec 4 → BitVec 2 → BitVec 3 → Instr) × (Nat → Nat → Nat → Nat × Flags)) :=
  [(.vrcp, fun t r => (fmtOf t).rcp r), (.vrsq, fun t r => (fmtOf t).rsq r), (.vexp2, fun t r => (fmtOf t).exp2 r),
   (.vlog2, fun t r => (fmtOf t).log2 r), (fun d a t _ m => .vabs d a t m, fun t _ => laneAbs t),
   (fun d a t _ m => .vneg d a t m, fun t _ => laneNeg t), (fun d a t _ m => .vclsExp d a t m, fun t _ x => (exponentOf t x, 0)),
   (fun d a t _ m => .vclsCls d a t m, fun t _ x => (classOf t x, 0))]

/-- What a lane-wise result is: each active lane the value of its function, each other lane what `idle` gives, and the flags
those of the active lanes (R289). -/
def Sys2Proof.Machine.LanesAre (w : Nat) (k : Word) (f : Nat → Nat × Flags) (idle : Nat → Nat) (res : VReg) (fl : Flags) :
    Prop :=
  (∀ i, i < 512 / w → lane w res i = (if k.getLsbD i then (f i).1 else idle i) % 2 ^ w) ∧
  (∀ j : Nat, fl.getLsbD j = true ↔ ∃ i, i < 512 / w ∧ k.getLsbD i = true ∧ (f i).2.getLsbD j = true)

/-- The state after a vector result has been written and its flags set, past the instruction. -/
def Sys2Proof.Machine.State.flagged (v : State) (fl : Flags) : State := v.after (fun x => { x with fstat := x.fstat ||| fl })

/-- R289, R293: the two-operand vector instructions apply their function to each active lane, clear the others, write the
result to D and set the flags that active lanes set. R286, R289, R295, R296: as for two operands, for the vector instructions
of one. R289, R294, R306: the instructions that accumulate into D keep its inactive lanes: VFMA and VFMS round A × B + D and A ×
B − D once, VDOT adds four products of bytes to each 32-bit lane and saturates. -/
def Obligations.VectorLanes : Prop :=
  (∀ p ∈ laneTwo, ∀ (d a b : BitVec 5) (t : BitVec 4) (rm : BitVec 2) (m : BitVec 3) (s r u v : State) (x y : VReg),
     let w := widthOf t.toNat
     Ready (p.1 d a b t rm m) s r → ReadsAB a w r x u → ReadsAB b w u y v →
     ∃ res fl, LanesAre w (v.me.getM m.toNat) (fun i => p.2 t.toNat rm.toNat (lane w x i) (lane w y i)) (fun _ => 0) res fl ∧
       ∀ z, WritesV d v res z → exec (p.1 d a b t rm m) s = .next (z.flagged fl)) ∧
  (∀ p ∈ laneOne, ∀ (d a : BitVec 5) (t : BitVec 4) (rm : BitVec 2) (m : BitVec 3) (s r u : State) (x : VReg),
     let w := widthOf t.toNat
     Ready (p.1 d a t rm m) s r → ReadsAB a w r x u →
     ∃ res fl, LanesAre w (u.me.getM m.toNat) (fun i => p.2 t.toNat rm.toNat (lane w x i)) (fun _ => 0) res fl ∧
       ∀ z, WritesV d u res z → exec (p.1 d a t rm m) s = .next (z.flagged fl)) ∧
  (∀ (d a b : BitVec 5) (t : BitVec 4) (rm : BitVec 2) (m : BitVec 3) (s r u v q : State) (x y c : VReg),
    (let w := widthOf t.toNat
     ReadsAB a w r x u → ReadsAB b w u y v → ReadsV d v c q →
     let f := fmtOf t.toNat
     (Ready (.vfma d a b t rm m) s r → ∃ res fl, LanesAre w (q.me.getM m.toNat)
        (fun i => f.fma rm.toNat (lane w x i) (lane w y i) (f.val (lane w c i))) (lane w c) res fl ∧
        ∀ z, WritesV d q res z → exec (.vfma d a b t rm m) s = .next (z.flagged fl)) ∧
     (Ready (.vfms d a b t rm m) s r → ∃ res fl, LanesAre w (q.me.getM m.toNat)
        (fun i => f.fma rm.toNat (lane w x i) (lane w y i) (f.val (lane w c i)).neg) (lane w c) res fl ∧
        ∀ z, WritesV d q res z → exec (.vfms d a b t rm m) s = .next (z.flagged fl))) ∧
    (Ready (.vdot d a b t m) s r → ReadsAB a 8 r x u → ReadsAB b 8 u y v → ReadsV d v c q →
      ∃ res fl, LanesAre 32 (q.me.getM m.toNat) (fun i => dot t.toNat x y (lane 32 c i) i) (lane 32 c) res fl ∧
        ∀ z, WritesV d q res z → exec (.vdot d a b t m) s = .next (z.flagged fl)))

/-- R297 to R301, R304: comparison into a mask, whose bits at and above the lane count are clear, selection, permutation,
immediates, moves of one lane, population count. An immediate stands in every lane as the table of R300 has it for its T field:
extended with its sign or with zeros, as it is, a byte in turn, or in the upper half. -/
def Obligations.VectorMoves : Prop :=
  ∀ (d a b : BitVec 5) (t : BitVec 4) (m : BitVec 3) (s r u v q : State) (x y c : VReg),
    let w := widthOf t.toNat
    (ReadsAB a w r x u → ReadsAB b w u y v →
      (Ready (.vcmp d a b t m) s r → ∃ k fl,
        (∀ i : Nat, i < 512 / w → k.getLsbD i = ((v.me.getM m.toNat).getLsbD i &&
          (laneLess t.toNat (lane w x i) (lane w y i)).1)) ∧
        (∀ i : Nat, 512 / w ≤ i → k.getLsbD i = false) ∧
        (∀ j : Nat, fl.getLsbD j = true ↔ ∃ i, i < 512 / w ∧ (v.me.getM m.toNat).getLsbD i = true ∧
          (laneLess t.toNat (lane w x i) (lane w y i)).2.getLsbD j = true) ∧
        exec (.vcmp d a b t m) s = .next ((v.modMe (fun z => z.setM d.toNat k)).flagged fl)) ∧
      (Ready (.vsel d a b t m) s r → ∃ res, (∀ i, i < 512 / w → lane w res i =
          if (v.me.getM m.toNat).getLsbD i then lane w x i else lane w y i) ∧
        ∀ z, WritesV d v res z → exec (.vsel d a b t m) s = .next z.past) ∧
      (Ready (.vperm d a b t m) s r → ∃ res, (∀ i, i < 512 / w → lane w res i =
          if (v.me.getM m.toNat).getLsbD i then lane w x (lane w y i % (512 / w)) else 0) ∧
        ∀ z, WritesV d v res z → exec (.vperm d a b t m) s = .next z.past) ∧
      (Ready (.vmvs d a b t) s r →
        let e := lane w x (lane w y 0 % (512 / w))
        ∀ z, Writes d v (if isSigned t.toNat then BitVec.ofInt 64 (laneInt t.toNat e) else BitVec.ofNat 64 e) z →
          exec (.vmvs d a b t) s = .next z.past) ∧
      (Ready (.vmsv d a b t) s r → ReadsV d v c q → ∃ res, (∀ i, i < 512 / w → lane w res i =
          if i = lane w y 0 % (512 / w) then lane w x 0 else lane w c i) ∧
        ∀ z, WritesV d q res z → exec (.vmsv d a b t) s = .next z.past) ∧
      (Ready (.vpopc d a b t m) s r → ∀ z, Writes d v (BitVec.ofNat 64
          (((List.range (512 / w)).filter (fun i => (v.me.getM m.toNat).getLsbD i)).foldl (fun n i => n +
            ((List.range w).filter (fun j => (lane w x i).testBit j && (lane w y i).testBit j)).length) 0)) z →
          exec (.vpopc d a b t m) s = .next z.past)) ∧
    (∀ (ty : BitVec 3) (k : BitVec 16),
      let e := widthOf (typeOfT ty)
      (Ready (.vbcst d ty k) s r → ∃ res, (∀ i, i < 512 / e → lane e res i = immLane ty k i % 2 ^ e) ∧
        ∀ z, WritesV d r res z → exec (.vbcst d ty k) s = .next z.past) ∧
      (ReadsV d r c q →
        (Ready (.vaddi d ty k) s r → ∃ res fl, LanesAre e (BitVec.allOnes 64)
            (fun i => laneAdd (typeOfT ty) 0 (lane e c i) (immLane ty k i)) (fun _ => 0) res fl ∧
          ∀ z, WritesV d q res z → exec (.vaddi d ty k) s = .next (z.flagged fl)) ∧
        (Ready (.vmuli d ty k) s r → ∃ res fl, LanesAre e (BitVec.allOnes 64)
            (fun i => laneMul (typeOfT ty) 0 (lane e c i) (immLane ty k i)) (fun _ => 0) res fl ∧
          ∀ z, WritesV d q res z → exec (.vmuli d ty k) s = .next (z.flagged fl))) ∧
      ((ty = 0 → typeOfT ty = 0) ∧ (ty = 1 → typeOfT ty = 1) ∧ (ty = 2 → typeOfT ty = 3) ∧ (ty = 3 → typeOfT ty = 4) ∧
        (ty = 4 → typeOfT ty = 9) ∧ (ty = 5 → typeOfT ty = 10) ∧ (ty = 6 → typeOfT ty = 2)) ∧
      ∀ i : Nat, (ty = 0 → immLane ty k i = if k.toNat < 2 ^ 15 then k.toNat else k.toNat + (2 ^ 32 - 2 ^ 16)) ∧
        (ty = 1 ∨ ty = 2 ∨ ty = 3 → immLane ty k i = k.toNat) ∧
        (ty = 4 ∨ ty = 5 → immLane ty k i = if i % 2 = 0 then k.toNat % 256 else k.toNat / 256) ∧
        (ty = 6 → immLane ty k i = k.toNat * 2 ^ 16))

/-- One level of the tree of R302: lane i takes in lane i + s. -/
def Sys2Proof.Machine.treeStep (op : Nat → Nat → Nat × Flags) (v : (Nat → Option Nat) × Flags) (s : Nat) :
    (Nat → Option Nat) × Flags :=
  (fun i => if i < s then (match v.1 i, v.1 (i + s) with
      | some x, some y => some (op x y).1
      | none, y => y
      | x, none => x) else v.1 i,
   (List.range s).foldl (fun fl i => match v.1 i, v.1 (i + s) with
     | some x, some y => fl ||| (op x y).2
     | _, _ => fl) v.2)

/-- The running value of R303 before a lane, with the flags so far. -/
def Sys2Proof.Machine.running (op : Nat → Nat → Nat × Flags) (t : Nat) (v : Nat → Option Nat) (n : Nat) : Option Nat × Flags :=
  (List.range n).foldl (fun a i => match a.1, v i with
    | _, none => a
    | none, some e => (some (canon t e).1, a.2 ||| (canon t e).2)
    | some x, some e => (some (op x e).1, a.2 ||| (op x e).2)) (none, 0)

/-- R302, R303, R305: reduction, scan, compress and expand over the lanes that the mask makes active. A reduction halves the
lanes, lane i with lane i + s, until lane 0 is left; a lone active lane passes, a NaN canonical; a scan goes in lane order. With
1.0, −2^24 and 2^24 in lanes 0, 4 and 8 of FP32 the reduction gives 0, inexact, and the scan, without a flag, 1 − 2^24 in lanes
4 to 7 and 1.0 in the others (R303). Compress packs the
active lanes toward lane 0 in order, and expand spreads lanes from lane 0 upward over the active ones. R307: the mask
instructions; m0 stays all ones. -/
def Obligations.VectorFolds : Prop :=
  (∀ (d a p : BitVec 5) (t : BitVec 4) (rm : BitVec 2) (m : BitVec 3) (s r u : State) (x : VReg),
     let w := widthOf t.toNat
     let k := u.me.getM m.toNat
     let act := (List.range (512 / w)).filter (fun i => k.getLsbD i)
     ReadsAB a w r x u →
     let val := fun i => if i < 512 / w ∧ k.getLsbD i = true then some (lane w x i) else none
     let op := redOp p.toNat t.toNat rm.toNat
     (Ready (.vred d a p t rm m) s r →
       let q := ((List.range (Nat.log2 (512 / w))).reverse.map (2 ^ ·)).foldl (treeStep op) (val, 0)
       let out := match act with
         | [i] => canon t.toNat (lane w x i)
         | _ => ((q.1 0).getD 0, q.2)
       ∃ res, lane w res 0 = out.1 % 2 ^ w ∧ (∀ i, 0 < i → i < 512 / w → lane w res i = 0) ∧
         ∀ z, WritesV d u res z → exec (.vred d a p t rm m) s = .next (z.flagged out.2)) ∧
     (Ready (.vscan d a p t rm m) s r → ∃ res,
       (∀ i, i < 512 / w → lane w res i =
         if k.getLsbD i then ((running op t.toNat val (i + 1)).1.getD 0) % 2 ^ w else 0) ∧
       ∀ z, WritesV d u res z → exec (.vscan d a p t rm m) s = .next (z.flagged (running op t.toNat val (512 / w)).2)) ∧
     (Ready (.vcmpr d a t m) s r → ∃ res, (∀ i, i < 512 / w → lane w res i = ((act[i]?).map (lane w x)).getD 0) ∧
       ∀ z, WritesV d u res z → exec (.vcmpr d a t m) s = .next z.past) ∧
     (Ready (.vxpnd d a t m) s r → ∃ res,
       (∀ i, i < 512 / w → lane w res i = if k.getLsbD i then
         lane w x ((List.range i).filter (fun j => k.getLsbD j)).length else 0) ∧
       ∀ z, WritesV d u res z → exec (.vxpnd d a t m) s = .next z.past)) ∧
  (∀ (d a b : BitVec 5) (s r : State),
     let x := r.me.getM a.toNat
     let y := r.me.getM b.toNat
     (Ready (.mand d a b) s r → exec (.mand d a b) s = .next (r.after (fun z => z.setM d.toNat (x &&& y)))) ∧
     (Ready (.mor d a b) s r → exec (.mor d a b) s = .next (r.after (fun z => z.setM d.toNat (x ||| y)))) ∧
     (Ready (.mnot d a) s r → exec (.mnot d a) s = .next (r.after (fun z => z.setM d.toNat (~~~x)))) ∧
     (∀ (z : Ctx) (n : Nat) (q : Word), (z.setM 0 q).getM n = z.getM n ∧ z.getM 0 = BitVec.allOnes 64)) ∧
  (let x : VReg := ofLanes 32 [0x3F800000, 0, 0, 0, 0xCB800000, 0, 0, 0, 0x4B800000]
   reduce 0 2 0 (BitVec.allOnes 64) x = (0, INEXACT) ∧
   (∀ i, i < 16 → running (redOp 0 2 0) 2 (fun j => if j < 16 then some (lane 32 x j) else none) (i + 1) =
     (some (if 4 ≤ i ∧ i < 8 then 0xCB7FFFFF else 0x3F800000), 0)) ∧
   (∀ t p, redOp p t 0 = if p = 0 then laneAdd t 0 else if p = 1 then laneMin t else if p = 2 then laneMax t else
     if p = 3 then (fun a b => (a &&& b, 0)) else if p = 4 then (fun a b => (a ||| b, 0)) else fun a b => (a ^^^ b, 0)))

/-- The source types of VPACK by destination (R283), in the numbering of R37. -/
def Sys2Proof.Machine.packTable : List (Nat × Nat) :=
  [(0, 11), (1, 12), (3, 2), (4, 2), (5, 0), (6, 1), (7, 5), (8, 6), (9, 3), (10, 3)]

/-- R282 to R284, R287: conversions between types, lane by lane under the mask, and ternary packing. VPACK takes the source type
that its destination type fixes. A weight to be packed is the sign of its lane, 0 where the lane is inactive, with SAT where an
active lane has a greater magnitude than 1; TRI2 has its code in two bits, TRI5 five weights in a byte as digits from 0 to 2, and
the bytes above are zero. A weight unpacked is a signed byte, and a bad code sets TRIBAD. -/
def Obligations.Conversions : Prop :=
  ∀ (d a b : BitVec 5) (t : BitVec 4) (rm : BitVec 2) (m : BitVec 3) (s r u v : State) (x y : VReg),
    let w := widthOf t.toNat
    (let f := b.toNat
     Ready (.vcvt d a b t rm m) s r → ReadsAB a (widthOf f) r x u →
     let n := min (512 / widthOf f) (512 / w)
     ∃ res fl, LanesAre w (u.me.getM m.toNat)
       (fun i => if i < n then convert f t.toNat rm.toNat (lane (widthOf f) x i) else (0, 0)) (fun _ => 0) res fl ∧
       ∀ z, WritesV d u res z → exec (.vcvt d a b t rm m) s = .next (z.flagged fl)) ∧
    (∀ p ∈ packTable, t.toNat = p.1 →
     let f := p.2
     let e := widthOf f
     Ready (.vpack d a b t rm m) s r → ReadsAB a e r x u → ReadsAB b e u y v →
     ∃ res fl, LanesAre w (v.me.getM m.toNat) (fun i => convert f t.toNat rm.toNat
         (if i < 512 / e then lane e x i else lane e y (i - 512 / e))) (fun _ => 0) res fl ∧
       ∀ z, WritesV d v res z → exec (.vpack d a b t rm m) s = .next (z.flagged fl)) ∧
    (∀ (h : BitVec 1) (f : BitVec 4), Ready (.vunpk d a h f t rm m) s r → ReadsAB a (widthOf f.toNat) r x u →
     ∃ res fl, LanesAre w (u.me.getM m.toNat) (fun i => convert f.toNat t.toNat rm.toNat
         (lane (widthOf f.toNat) x (h.toNat * (512 / w) + i))) (fun _ => 0) res fl ∧
       ∀ z, WritesV d u res z → exec (.vunpk d a h f t rm m) s = .next (z.flagged fl)) ∧
    (ReadsAB a 8 r x u →
      let k := u.me.getM m.toNat
      let value := fun (i : Nat) => if i < 64 ∧ k.getLsbD i = true then (BitVec.ofNat 8 (lane 8 x i)).toInt else 0
      let sat : Flags := if (List.range 64).any (fun i => decide (1 < (value i).natAbs)) then SAT else 0
      let code := fun (i : Nat) => if value i = 0 then 0 else if 0 < value i then 1 else 3
      (∀ p : Int × Bool, weightLane p = ((p.1 % 256).toNat, if p.2 then TRIBAD else 0)) ∧
      (Ready (.vtriD2 d a m) s r → ∃ res fl, LanesAre 8 k (fun i => weightLane (tri2 (x.extractLsb' 0 128).toNat i)) (fun _ => 0)
          res fl ∧ ∀ z, WritesV d u res z → exec (.vtriD2 d a m) s = .next (z.flagged fl)) ∧
      (Ready (.vtriD5 d a m) s r → ∃ res fl, LanesAre 8 k (fun i => weightLane (tri5 (x.extractLsb' 0 104).toNat i)) (fun _ => 0)
          res fl ∧ ∀ z, WritesV d u res z → exec (.vtriD5 d a m) s = .next (z.flagged fl)) ∧
      (Ready (.vtriE2 d a m) s r → ∃ res, (∀ i, i < 64 → lane 2 res i = code i) ∧ (∀ j, 16 ≤ j → j < 64 → lane 8 res j = 0) ∧
        ∀ z, WritesV d u res z → exec (.vtriE2 d a m) s = .next (z.flagged sat)) ∧
      (Ready (.vtriE5 d a m) s r → ∃ res, (∀ j, j < 13 → lane 8 res j =
            ((List.range 5).map (fun i => ((value (5 * j + i)).sign + 1).toNat * 3 ^ i)).sum) ∧
          (∀ j, 13 ≤ j → j < 64 → lane 8 res j = 0) ∧
        ∀ z, WritesV d u res z → exec (.vtriE5 d a m) s = .next (z.flagged sat)))

/-! ### What a lane's value is

The statements of the sections above speak of the model's own functions of one lane. These say what those functions compute, from
the formats of R268 and R269, the rounding of R271 and R272 and the clamping of R273. -/

/-- An integer lane as a number (R273). -/
def Sys2Proof.Machine.intOf (t x : Nat) : Int :=
  if t ∈ [0, 5, 7, 11] ∧ 2 ^ (widthOf t - 1) ≤ x then (x : Int) - 2 ^ widthOf t else x

/-- R273: the number clamped to the range of an integer type, and SAT where that changes it. -/
def Sys2Proof.Machine.Saturates (t : Nat) (n : Int) (r : Nat × Flags) : Prop :=
  let lo : Int := if t ∈ [0, 5, 7, 11] then -2 ^ (widthOf t - 1) else 0
  let hi : Int := if t ∈ [0, 5, 7, 11] then 2 ^ (widthOf t - 1) - 1 else 2 ^ widthOf t - 1
  r.1 < 2 ^ widthOf t ∧ intOf t r.1 = min hi (max lo n) ∧ r.2 = if lo ≤ n ∧ n ≤ hi then 0 else SAT

/-- A number rounded to an integer by a mode: 0 to the nearer, the even one of two; 1 toward zero; 2 down; 3 up (R38, R271). -/
def Sys2Proof.Machine.RoundsToInt (mode : Nat) (z : ℚ) (k : ℤ) : Prop :=
  (mode = 0 → |z - k| ≤ 1 / 2 ∧ (|z - k| = 1 / 2 → Even k)) ∧ (mode = 1 → |z - k| < 1 ∧ |(k : ℚ)| ≤ |z|) ∧
  (mode = 2 → k ≤ z ∧ z < k + 1) ∧ (mode = 3 → z ≤ k ∧ (k : ℚ) < z + 1)

/-- R37, R273 to R275, R285, R293, R295, R297, R306: the lanes of integer types. Sums, differences, products, absolute values and
negations keep the low bits; minimum, maximum and less-than go by the signed or natural value; shifts take their count modulo the
width, VSHR of the natural and VSRA of the signed value; VSCL rounds the lane times its power of two to an integer and clamps, and
gives 0 for the exponent −128; conversions between integer types clamp, and so does a sum of four products of bytes. Weight k of a
TRI2 array lies in byte k / 4, and of a TRI5 array in byte k / 5. -/
def Obligations.IntegerLanes : Prop :=
  ((List.range 13).map widthOf = [32, 32, 32, 16, 16, 16, 16, 8, 8, 8, 8, 64, 64]) ∧
  (∀ t mode x y : Nat, t < 13 → isFloat t = false → x < 2 ^ widthOf t → y < 2 ^ widthOf t →
     let w := widthOf t
     laneAdd t mode x y = ((x + y) % 2 ^ w, 0) ∧ laneMul t mode x y = (x * y % 2 ^ w, 0) ∧
     (laneSub t mode x y).2 = 0 ∧ ((laneSub t mode x y).1 : Int) = ((x : Int) - y) % 2 ^ w ∧
     (laneMin t x y).2 = 0 ∧ intOf t (laneMin t x y).1 = min (intOf t x) (intOf t y) ∧
     (laneMax t x y).2 = 0 ∧ intOf t (laneMax t x y).1 = max (intOf t x) (intOf t y) ∧
     (laneShl t x y).1 = x * 2 ^ (y % w) % 2 ^ w ∧ (laneShr t x y).1 = x / 2 ^ (y % w) ∧
     ((laneSra t x y).1 : Int) = (if 2 ^ (w - 1) ≤ x then (x : Int) - 2 ^ w else x) / 2 ^ (y % w) % 2 ^ w ∧
     ((laneAbs t x).1 : Int) = (intOf t x).natAbs % 2 ^ w ∧ ((laneNeg t x).1 : Int) = (-(x : Int)) % 2 ^ w ∧
     laneLess t x y = (decide (intOf t x < intOf t y), 0)) ∧
  (∀ (t : Nat) (n : Int), t < 13 → isFloat t = false → Saturates t n (satLane t n)) ∧
  (∀ t mode x e8 : Nat, t < 13 → isFloat t = false → mode < 4 → x < 2 ^ widthOf t → e8 < 256 →
     (e8 = 128 → scaleLane t mode x e8 = (0, 0)) ∧
     (e8 ≠ 128 → ∃ k : ℤ, RoundsToInt mode ((intOf t x : ℚ) * 2 ^ (if e8 < 128 then (e8 : ℤ) else e8 - 256)) k ∧
       Saturates t k (scaleLane t mode x e8))) ∧
  (∀ a b mode x : Nat, a < 13 → b < 13 → isFloat a = false → isFloat b = false → x < 2 ^ widthOf a →
     Saturates b (intOf a x) (convert a b mode x)) ∧
  (∀ (t c i : Nat) (x y : VReg), (t = 7 ∨ t = 8) → c < 2 ^ 32 → Saturates 0 (intOf 0 c +
     ((List.range 4).map (fun j => intOf t (lane 8 x (4 * i + j)) * intOf t (lane 8 y (4 * i + j)))).sum) (dot t x y c i)) ∧
  (∀ n k : Nat,
     (let code := n / 256 ^ (k / 4) % 256 / 4 ^ (k % 4) % 4
      tri2 n k = (if code = 1 then 1 else if code = 3 then -1 else 0, decide (code = 2))) ∧
     (let byte := n / 256 ^ (k / 5) % 256
      tri5 n k = if 243 ≤ byte then (0, true) else (((byte / 3 ^ (k % 5) % 3 : Nat) : Int) - 1, false)))

/-- The value of a finite pattern (R268, R269). -/
def Sys2Proof.Machine.realOf (f : Fmt) (x : Nat) : ℚ :=
  let e := x / 2 ^ f.m % 2 ^ f.ebits
  let r : ℚ := (x % 2 ^ f.m : Nat)
  (if x / 2 ^ (f.ebits + f.m) % 2 = 1 then -1 else 1) *
    (if e = 0 then 2 ^ (1 - (f.bias : ℤ)) * (r / 2 ^ f.m) else 2 ^ ((e : ℤ) - f.bias) * (1 + r / 2 ^ f.m))

/-- Is a pattern negative, a NaN, a NaN that signals, or an infinity (R268, R269)? -/
def Sys2Proof.Machine.negOf (f : Fmt) (x : Nat) : Bool := x / 2 ^ (f.ebits + f.m) % 2 == 1
def Sys2Proof.Machine.nanOf (f : Fmt) (x : Nat) : Bool :=
  if f.g8 then x % 128 == 127 else x / 2 ^ f.m % 2 ^ f.ebits == 2 ^ f.ebits - 1 && x % 2 ^ f.m != 0
def Sys2Proof.Machine.signalOf (f : Fmt) (x : Nat) : Bool := nanOf f x && !f.g8 && x / 2 ^ (f.m - 1) % 2 == 0
def Sys2Proof.Machine.infOf (f : Fmt) (x : Nat) : Bool :=
  !f.g8 && x / 2 ^ f.m % 2 ^ f.ebits == 2 ^ f.ebits - 1 && x % 2 ^ f.m == 0
def Sys2Proof.Machine.finiteOf (f : Fmt) (x : Nat) : Bool := !nanOf f x && !infOf f x

/-- R271, R272: what a number rounds to in a format, and the flags; a zero takes the given sign. -/
def Sys2Proof.Machine.RoundsTo (f : Fmt) (mode : Nat) (z : ℚ) (zneg : Bool) (r : Nat × Flags) : Prop :=
  let sign := 2 ^ (f.ebits + f.m)
  (z = 0 → r = (if zneg then sign else 0, 0)) ∧
  (z ≠ 0 → ∃ e k : ℤ, (2 : ℚ) ^ e ≤ |z| ∧ |z| < 2 ^ (e + 1) ∧
    let gap : ℚ := 2 ^ (max e (1 - f.bias) - f.m)
    let y : ℚ := k * gap
    let top : ℚ := if f.g8 then 448 else (2 - 2 ^ (-(f.m : ℤ))) * 2 ^ f.bias
    let s := if z < 0 then sign else 0
    let inf := (2 ^ f.ebits - 1) * 2 ^ f.m
    RoundsToInt mode (z / gap) k ∧
    (|y| ≤ top → finiteOf f r.1 = true ∧ realOf f r.1 = y ∧ negOf f r.1 = decide (z < 0) ∧
      r.2 = if y = z then 0 else INEXACT ||| (if |y| < 2 ^ (1 - (f.bias : ℤ)) then UNDERFLOW else 0)) ∧
    (top < |y| → r = if f.g8 then (s + 0x7E, SAT ||| INEXACT) else
      (s + (if mode = 0 ∨ (mode = 2 ∧ z < 0) ∨ (mode = 3 ∧ 0 < z) then inf else inf - 1), OVERFLOW ||| INEXACT)))

/-- The sign of a zero sum (R271). -/
def Sys2Proof.Machine.sumNeg (mode : Nat) (x y : ℚ) (nx ny : Bool) : Bool :=
  if x = 0 ∧ y = 0 ∧ nx = ny then nx else decide (mode = 2)

/-- The less-than of IEEE on patterns that are no NaNs (R297). -/
def Sys2Proof.Machine.lessOf (f : Fmt) (x y : Nat) : Bool :=
  if infOf f x then negOf f x && !(infOf f y && negOf f y) else if infOf f y then !negOf f y
  else decide (realOf f x < realOf f y)

/-- The order of VMIN and VMAX: as above, with −0 below +0 (R293). -/
def Sys2Proof.Machine.belowOf (f : Fmt) (x y : Nat) : Bool :=
  lessOf f x y || (decide (realOf f x = 0 ∧ realOf f y = 0) && negOf f x && !negOf f y)

/-- A signed infinity, and a pattern with its sign turned. -/
def Sys2Proof.Machine.infinity (f : Fmt) (neg : Bool) : Nat :=
  (if neg then 2 ^ (f.ebits + f.m) else 0) + (2 ^ f.ebits - 1) * 2 ^ f.m
def Sys2Proof.Machine.turned (f : Fmt) (x : Nat) : Nat :=
  if negOf f x then x - 2 ^ (f.ebits + f.m) else x + 2 ^ (f.ebits + f.m)

/-- R268 to R272, R276, R279, R285, R286, R292 to R297: the lanes of floating types. Sums, differences, products and fused sums of
finite lanes are the exact results rounded once, and so are the reciprocal of a lane, its reciprocal square root, its product with
a power of two and a conversion from a floating or an integer type, one to its own type giving the lane; a conversion to an
integer type rounds by the mode, INEXACT where that changes the number (judged before the clamp, which is log 50), and then
clamps. VSCL leaves an infinity as it is, and gives +0 for the exponent −128. VCLS gives the exponent of a finite lane, the least
or the greatest number for zeros, infinities and NaNs, or the class of the lane with its sign. A NaN gives the canonical NaN of
the type, with INVALID where an operand signals, and 0 with INVALID as an integer; so does an invalid operation, of a fused sum
too, and an infinity gives what it gives in arithmetic. Minimum and maximum take the smaller or larger, −0 below +0, a number
beside a NaN, and the canonical NaN for two. 2^a and log2 a are exact where R296 says so, have INEXACT everywhere else, and take
the values of its table for zeros, infinities, NaNs and negative numbers; that they are correctly rounded elsewhere is log 9, and
nothing here says it. -/
def Obligations.FloatLanes : Prop :=
  (fmtOf 2 = { ebits := 8, m := 23, bias := 127, g8 := false } ∧ fmtOf 3 = { ebits := 8, m := 7, bias := 127, g8 := false } ∧
   fmtOf 4 = { ebits := 5, m := 10, bias := 15, g8 := false } ∧ fmtOf 9 = { ebits := 4, m := 3, bias := 7, g8 := true } ∧
   fmtOf 10 = { ebits := 5, m := 2, bias := 15, g8 := false }) ∧
  (∀ t mode x y c : Nat, t < 13 → isFloat t = true → mode < 4 → x < 2 ^ widthOf t → y < 2 ^ widthOf t → c < 2 ^ widthOf t →
     let f := fmtOf t
     let X := realOf f x
     let Y := realOf f y
     let C := realOf f c
     let n := negOf f
     let canon := if f.g8 then 0x7F else (2 ^ f.ebits - 1) * 2 ^ f.m + 2 ^ (f.m - 1)
     (finiteOf f x = true → finiteOf f y = true →
       RoundsTo f mode (X + Y) (sumNeg mode X Y (n x) (n y)) (laneAdd t mode x y) ∧
       RoundsTo f mode (X - Y) (sumNeg mode X Y (n x) (!n y)) (laneSub t mode x y) ∧
       RoundsTo f mode (X * Y) (n x != n y) (laneMul t mode x y) ∧
       (finiteOf f c = true → RoundsTo f mode (X * Y + C) (sumNeg mode (X * Y) C (n x != n y) (n c)) (laneFma t mode x y c)) ∧
       (X ≠ 0 → RoundsTo f mode (1 / X) false (f.rcp mode x)) ∧
       (0 < X → ∃ lo hi : ℚ, 0 < lo ∧ lo ≤ hi ∧ lo ^ 2 * X ≤ 1 ∧ 1 ≤ hi ^ 2 * X ∧
         (lo = hi ∨ (lo ^ 2 * X < 1 ∧ 1 < hi ^ 2 * X)) ∧ ∀ z, lo ≤ z → z ≤ hi → RoundsTo f mode z false (f.rsq mode x)) ∧
       (∀ k : ℤ, X = k → RoundsTo f mode (2 ^ k) false (f.exp2 mode x)) ∧
       ((∀ k : ℤ, X ≠ k) → (f.exp2 mode x).2 &&& INEXACT = INEXACT) ∧
       (∀ k : ℤ, X = 2 ^ k → RoundsTo f mode k false (f.log2 mode x)) ∧
       (0 < X → (∀ k : ℤ, X ≠ 2 ^ k) → (f.log2 mode x).2 &&& INEXACT = INEXACT) ∧
       (X = 0 → f.rcp mode x = (infinity f (n x), 0) ∧ f.rsq mode x = (infinity f (n x), 0) ∧
         f.log2 mode x = (infinity f true, 0)) ∧
       (X < 0 → f.rsq mode x = (canon, INVALID) ∧ f.log2 mode x = (canon, INVALID)) ∧
       (∀ e8 : Nat, e8 < 256 → e8 ≠ 128 →
         RoundsTo f mode (X * 2 ^ (if e8 < 128 then (e8 : ℤ) else e8 - 256)) (n x) (scaleLane t mode x e8))) ∧
     (∀ e8 : Nat, e8 < 256 → (e8 = 128 → scaleLane t mode x e8 = (0, 0)) ∧
       (e8 ≠ 128 → infOf f x = true → scaleLane t mode x e8 = (x, 0)) ∧
       (e8 ≠ 128 → nanOf f x = true → scaleLane t mode x e8 = (canon, if signalOf f x = true then INVALID else 0))) ∧
     (let w := widthOf t
      (finiteOf f x = true → X ≠ 0 → ∃ e : ℤ, (2 : ℚ) ^ e ≤ |X| ∧ |X| < 2 ^ (e + 1) ∧
        (exponentOf t x : ℤ) = e % 2 ^ w) ∧
      (finiteOf f x = true → X = 0 → exponentOf t x = 2 ^ (w - 1)) ∧
      (finiteOf f x = false → exponentOf t x = 2 ^ (w - 1) - 1) ∧
      classOf t x = (if n x then 32 else 0) + (if nanOf f x = true then 1 else if infOf f x = true then 2 else if X = 0 then 4
        else if |X| < 2 ^ (1 - (f.bias : ℤ)) then 8 else 16)) ∧
     convert t t mode x = (if nanOf f x = true then (canon, if signalOf f x = true then INVALID else 0) else (x, 0)) ∧
     (nanOf f x = true ∨ nanOf f y = true →
       let fl := if signalOf f x = true ∨ signalOf f y = true then INVALID else 0
       laneLess t x y = (false, fl) ∧
       (∀ r ∈ [laneAdd t mode x y, laneSub t mode x y, laneMul t mode x y], r = (canon, fl)) ∧
       ∀ r ∈ [laneMin t x y, laneMax t x y], r = (if nanOf f x = false then x else if nanOf f y = false then y else canon, fl)) ∧
     (nanOf f x = true → ∀ r ∈ [f.rcp mode x, f.rsq mode x, f.exp2 mode x, f.log2 mode x],
       r = (canon, if signalOf f x = true then INVALID else 0)) ∧
     (nanOf f x = false → nanOf f y = false → laneLess t x y = (lessOf f x y, 0) ∧
       laneMin t x y = (if belowOf f y x then y else x, 0) ∧ laneMax t x y = (if belowOf f x y then y else x, 0)) ∧
     (laneAbs t x = (if nanOf f x = true then canon else x % 2 ^ (f.ebits + f.m), 0) ∧
       laneNeg t x = (if nanOf f x = true then canon else turned f x, 0)) ∧
     (infOf f x = true → f.rcp mode x = (if n x then 2 ^ (f.ebits + f.m) else 0, 0) ∧
       f.rsq mode x = (if n x then (canon, INVALID) else (0, 0)) ∧
       f.exp2 mode x = (if n x then 0 else infinity f false, 0) ∧
       f.log2 mode x = (if n x then (canon, INVALID) else (infinity f false, 0))) ∧
     (infOf f x = true → finiteOf f y = true → laneAdd t mode x y = (x, 0) ∧ laneAdd t mode y x = (x, 0) ∧
       laneSub t mode x y = (x, 0) ∧ laneSub t mode y x = (turned f x, 0) ∧
       ∀ r ∈ [laneMul t mode x y, laneMul t mode y x],
         r = if Y = 0 then (canon, INVALID) else (infinity f (n x != n y), 0)) ∧
     (infOf f x = true → infOf f y = true → laneAdd t mode x y = (if n x = n y then (x, 0) else (canon, INVALID)) ∧
       laneSub t mode x y = (if n x = n y then (canon, INVALID) else (x, 0)) ∧
       laneMul t mode x y = (infinity f (n x != n y), 0)) ∧
     (nanOf f x = true ∨ nanOf f y = true ∨ nanOf f c = true → laneFma t mode x y c =
       (canon, if signalOf f x = true ∨ signalOf f y = true ∨ signalOf f c = true then INVALID else 0)) ∧
     (nanOf f x = false → nanOf f y = false → nanOf f c = false →
       (finiteOf f x = true → finiteOf f y = true → infOf f c = true → laneFma t mode x y c = (c, 0)) ∧
       (infOf f x = true ∧ finiteOf f y = true ∧ Y = 0 ∨ infOf f y = true ∧ finiteOf f x = true ∧ X = 0 →
         laneFma t mode x y c = (canon, INVALID)) ∧
       (infOf f x = true ∧ (infOf f y = true ∨ Y ≠ 0) ∨ infOf f y = true ∧ (infOf f x = true ∨ X ≠ 0) →
         laneFma t mode x y c = if infOf f c = true ∧ n c ≠ (n x != n y) then (canon, INVALID)
           else (infinity f (n x != n y), 0))) ∧
     laneFms t mode x y c = laneFma t mode x y (turned f c)) ∧
  (∀ a b mode x : Nat, a < 13 → b < 13 → mode < 4 → x < 2 ^ widthOf a → a ≠ b →
     let f := fmtOf a
     let g := fmtOf b
     let s := if negOf f x = true then 2 ^ (g.ebits + g.m) else 0
     (isFloat a = true → isFloat b = true →
       (finiteOf f x = true → RoundsTo g mode (realOf f x) (negOf f x) (convert a b mode x)) ∧
       (infOf f x = true → convert a b mode x = if g.g8 then (s + 0x7E, SAT) else (s + (2 ^ g.ebits - 1) * 2 ^ g.m, 0)) ∧
       (nanOf f x = true → convert a b mode x =
         (if g.g8 then 0x7F else (2 ^ g.ebits - 1) * 2 ^ g.m + 2 ^ (g.m - 1), if signalOf f x = true then INVALID else 0))) ∧
     (isFloat a = false → isFloat b = true → RoundsTo g mode (intOf a x) false (convert a b mode x)) ∧
     (isFloat a = true → isFloat b = false →
       (finiteOf f x = true → ∃ k : ℤ, RoundsToInt mode (realOf f x) k ∧ ∃ r, Saturates b k r ∧
         convert a b mode x = (r.1, r.2 ||| if (k : ℚ) = realOf f x then 0 else INEXACT)) ∧
       (infOf f x = true → ∀ k : ℤ, (negOf f x = true → k < -2 ^ 64) → (negOf f x = false → 2 ^ 64 < k) →
         Saturates b k (convert a b mode x)) ∧
       (nanOf f x = true → convert a b mode x = (0, INVALID))))

/-- The vector and conversion instructions that write a vector register and flags, and nothing else. -/
def Sys2Proof.Machine.vectorInstrs (d a b p : BitVec 5) (t f : BitVec 4) (r : BitVec 2) (m ty : BitVec 3) (h : BitVec 1)
    (k : BitVec 16) : List Instr :=
  laneTwo.map (fun q => q.1 d a b t r m) ++ laneOne.map (fun q => q.1 d a t r m) ++
  [.vfma d a b t r m, .vfms d a b t r m, .vdot d a b t m, .vsel d a b t m, .vperm d a b t m, .vbcst d ty k, .vaddi d ty k,
   .vmuli d ty k, .vmsv d a b t, .vred d a p t r m, .vscan d a p t r m, .vcmpr d a t m, .vxpnd d a t m, .vcvt d a b t r m,
   .vpack d a b t r m, .vunpk d a h f t r m, .vtriD2 d a m, .vtriD5 d a m, .vtriE2 d a m, .vtriE5 d a m]

/-- The frame of the vector and conversion instructions on registers: every vector register but D, every scalar and mask
register, the end bindings, the special registers, memory and every other context are as before, and no flag is cleared
(R277). The frame of those that write a scalar register (VMVS, VPOPC) or a mask (VCMP and the mask instructions): every
other register is as before, no vector register changes, and only VCMP sets flags. -/
def Obligations.VectorFrame : Prop :=
  (∀ (d a b : BitVec 5) (t : BitVec 4) (m : BitVec 3) (s u : State),
    let masks := [Instr.vcmp d a b t m, .mand d a b, .mor d a b, .mnot d a]
    let scalars := [Instr.vmvs d a b t, .vpopc d a b t m]
    ∀ i ∈ masks ++ scalars, Plain i s → exec i s = .next u →
      u.me.v = s.me.v ∧ (i ∈ masks → u.me.s = s.me.s ∧ ∀ n : Nat, n ≠ d.toNat → u.me.getM n = s.me.getM n) ∧
      (i ∈ scalars → u.me.m = s.me.m ∧ ∀ n : Nat, n ≠ d.toNat → u.me.getS n = s.me.getS n) ∧ u.me.bind = s.me.bind ∧
      (∀ j : Nat, s.me.fstat.getLsbD j = true → u.me.fstat.getLsbD j = true) ∧
      (i ≠ .vcmp d a b t m → u.me.fstat = s.me.fstat) ∧
      u.me.af = s.me.af ∧ u.me.ef = s.me.ef ∧ u.me.hmode = s.me.hmode ∧ u.me.fmt = s.me.fmt ∧ u.me.scla = s.me.scla ∧
      u.me.sclb = s.me.sclb ∧ u.me.tx = s.me.tx ∧ (∀ x, u.byteAt x = s.byteAt x) ∧
      (∀ c, c ≠ s.cur → u.ctx c = s.ctx c) ∧ u.cores = s.cores ∧ u.tils = s.tils ∧ u.dies = s.dies ∧ u.rings = s.rings) ∧
  ∀ (d a b p : BitVec 5) (t f : BitVec 4) (r : BitVec 2) (m ty : BitVec 3) (h : BitVec 1) (k : BitVec 16) (s u : State),
    ∀ i ∈ vectorInstrs d a b p t f r m ty h k, Plain i s → exec i s = .next u →
      (∀ n : Nat, n ≠ d.toNat → u.me.getV n = s.me.getV n) ∧ u.me.s = s.me.s ∧ u.me.m = s.me.m ∧ u.me.bind = s.me.bind ∧
      (∀ j : Nat, s.me.fstat.getLsbD j = true → u.me.fstat.getLsbD j = true) ∧
      u.me.af = s.me.af ∧ u.me.ef = s.me.ef ∧ u.me.hmode = s.me.hmode ∧ u.me.fmt = s.me.fmt ∧ u.me.scla = s.me.scla ∧
      u.me.sclb = s.me.sclb ∧ u.me.tx = s.me.tx ∧ (∀ x, u.byteAt x = s.byteAt x) ∧
      (∀ c, c ≠ s.cur → u.ctx c = s.ctx c) ∧ u.cores = s.cores ∧ u.tils = s.tils ∧ u.dies = s.dies ∧ u.rings = s.rings

/-! ### Tile and sparse units -/

/-- A strand has the tile lease and holds the accumulator of a command (R308). -/
def Sys2Proof.Machine.State.mayCommand (s : State) (acc : Nat) : Prop :=
  (s.til s.myTil).leased s.cur = true ∧ acc ∈ (s.til s.myTil).heldBy s.cur

/-- A command joins the tile unit's queue, with the strand's SID and pc, counts for the lease, and will complete (R318). -/
def Sys2Proof.Machine.State.queued (s : State) (acc : Nat) (op : TileOp) : State :=
  ((s.modTil s.myTil (fun t => { t with
    cmds := t.cmds ++ [{ acc := acc, cid := s.cur, sid := s.sid s.cur, pc := s.me.pc, op := op }] })).countCommand s.myTil).later
    (.tileCommandComplete s.myTil)

/-- R322, R308: TLSE by a strand that has the lease changes nothing; a free lease it takes; else the strand waits for it,
under cause 7 and its key. TLRL gives up a lease that the strand holds, and otherwise changes nothing. A due lease passes to
the longest waiting strand of the first core behind the holder's, in order, that has one waiting, and the counter of
re-arbitrations rises; where none waits the holder keeps it and the count and the cycle start again. -/
def Obligations.TileLease : Prop :=
  ∀ (s : State) (til : Nat), let t := s.til s.myTil
    (Allowed .tlse s →
      (t.leased s.cur = true → exec .tlse s = .next s.past) ∧
      (t.leased s.cur = false → t.owner = none → t.lease.holder = none →
        exec .tlse s = .next (s.grantLease s.myTil s.cur).past ∧
        ((s.grantLease s.myTil s.cur).til s.myTil).lease.holder = some s.cur) ∧
      (t.leased s.cur = false → t.owner ≠ none ∨ t.lease.holder ≠ none →
        ∃ u, exec .tlse s = .next u ∧ u.me = { s.me with wait := .sleep 7 [.lease s.myTil] } ∧
          s.cur ∈ (u.til s.myTil).lease.waiting ∧ (u.til s.myTil).lease.holder = t.lease.holder)) ∧
    (Allowed .tlrl s →
      (t.lease.holder = some s.cur → t.owner ≠ some s.cur → exec .tlrl s = .next
        ((s.setTil s.myTil { t with lease := { t.lease with holder := none, cmds := 0 } }).changeKey (.lease s.myTil)).past) ∧
      (t.lease.holder ≠ some s.cur ∨ t.owner = some s.cur → exec .tlrl s = .next s.past)) ∧
    (∀ h c, (s.til til).lease.holder = some h → (s.til til).leaseDue (s.core (til * 4)).cycle = true →
      nextLessee h (s.til til).lease.waiting = some c → ∃ u, exec (.leaseRearbitration til) s = .next u ∧
        (u.til til).lease.holder = some c ∧ (u.til til).lease.cmds = 0 ∧
        (u.til til).leasearb = (s.til til).leasearb + 1) ∧
    (∀ h, (s.til til).lease.holder = some h → (s.til til).leaseDue (s.core (til * 4)).cycle = true →
      (s.til til).lease.waiting = [] → exec (.leaseRearbitration til) s = .next (s.modTil til (fun t => { t with
        lease := { t.lease with cmds := 0, since := (s.core (til * 4)).cycle } }))) ∧
    (∀ (h : Nat) (waiting : List Nat), (nextLessee h waiting = none ↔ waiting = []) ∧
      ∀ c, nextLessee h waiting = some c →
        let core := fun (j : Nat) => (coreOf h + j + 1) % 4
        ∃ j pre post, j < 4 ∧ coreOf c % 4 = core j ∧ (∀ i, i < j → ∀ x ∈ waiting, coreOf x % 4 ≠ core i) ∧
          waiting = pre ++ c :: post ∧ ∀ x ∈ pre, coreOf x % 4 ≠ coreOf c % 4)

/-- R323: TACQ by count takes the lowest free accumulators, by mask those of the mask, all or none, clears those newly
granted and answers with the mask of all that the strand holds; where it cannot it answers 1, and 2 for a mask that is zero
or has a bit above 7. TREL releases those of the mask that the strand holds, and answers with their mask. R310, R323: an
accumulator that TACQ grants anew has every element zero and the geometry 32 by 32. -/
def Obligations.Accumulators : Prop :=
  (∀ (d a b : BitVec 5) (s r u v : State) (x : Word),
     (let free := (r.til r.myTil).available r.cur
      let got := free.take b.toNat
      Ready (.tacq d a b 1) s r →
      (free.length < b.toNat → Writes d r (failCode 1) v → exec (.tacq d a b 1) s = .next v.past) ∧
      (b.toNat ≤ free.length →
        let z := r.modTil r.myTil (fun t => got.foldl (fun t n => t.grantAcc r.cur n) t)
        Writes d z (accMask ((z.til z.myTil).heldBy z.cur)) v → exec (.tacq d a b 1) s = .next v.past)) ∧
     (Reads a r x u →
      let free := (u.til u.myTil).available u.cur
      let want := (List.range 8).filter (fun n => x.getLsbD n)
      Ready (.tacq d a b 0) s r →
      (2 ^ 8 ≤ x.toNat ∨ x = 0 → Writes d u (failCode 2) v → exec (.tacq d a b 0) s = .next v.past) ∧
      (0 < x.toNat → x.toNat < 2 ^ 8 → (∃ n ∈ want, n ∉ free) → Writes d u (failCode 1) v →
        exec (.tacq d a b 0) s = .next v.past) ∧
      (0 < x.toNat → x.toNat < 2 ^ 8 → (∀ n ∈ want, n ∈ free) →
        let z := u.modTil u.myTil (fun t => want.foldl (fun t n => t.grantAcc u.cur n) t)
        Writes d z (accMask ((z.til z.myTil).heldBy z.cur)) v → exec (.tacq d a b 0) s = .next v.past)) ∧
     (Reads a r x u → Ready (.trel d a) s r →
      let rel := ((u.til u.myTil).heldBy u.cur).filter (fun n => x.getLsbD n)
      Writes d (rel.foldl (fun s n => s.freeAcc u.myTil n) u) (accMask rel) v → exec (.trel d a) s = .next v.past)) ∧
  (∀ (t : Tiller) (c a : Nat), a ∉ t.heldBy c → a < 8 →
     (∀ i, i < 1024 → (t.grantAcc c a).elem a i = 0) ∧ (t.grantAcc c a).edge a = (32, 32) ∧ a ∈ (t.grantAcc c a).heldBy c ∧
     ∀ b i, b ≠ a → i < 1024 → (t.grantAcc c a).elem b i = t.elem b i)

/-- R308, R313, R318, R324, R326, R327: the tile commands of a strand that has the lease and the accumulator join the unit's
queue with what they are to do, their operands taken as they issue; a write of a tile ring acts at once. Without the lease,
or the accumulator, they raise NOLEASE, the multiplies too once their format is a legal one (R315, R325, R342). That TLDA takes the
bytes of memory as it issues is log 5. -/
def Obligations.TileCommands : Prop :=
  ∀ (d a b : BitVec 5) (s : State), let til := s.myTil
    (Allowed (.tzro d) s → s.mayCommand d.toNat → exec (.tzro d) s = .next (s.queued d.toNat .zero).past) ∧
    (∀ (x y i v : BitVec 1) (rm : BitVec 2) (ty n ra rb f : BitVec 4) (c : BitVec 3) (cnt : BitVec 5) (fm : MulFmt),
      s.me.tx.active = false → s.me.formatOf f = some fm →
      (fm.scaled = true → s.me.scla.extractLsb' 62 2 ≠ 3 ∧ s.me.sclb.extractLsb' 62 2 ≠ 3) →
      let commands := [(Instr.tzro d, d.toNat), (.tlda d a b x, d.toNat), (.tsta d a b x rm i ty, d.toNat), (.tgeo d a b, d.toNat),
        (.spmma d a b x v, d.toNat), (.tmma ra rb c cnt f y x, c.toNat), (.tmmt ra rb c cnt f y x, c.toNat)]
      let traps := fun (j : Instr) => exec j s = .next (s.takeTrap s.cur Cause.nolease 0 0 (wordOf j))
      (∀ j ∈ (Instr.tringWrite d n) :: commands.map (·.1), Allowed j s → (s.til til).leased s.cur = false →
        (s.til til).lease.lost.contains s.cur = false → traps j) ∧
      (∀ j ∈ commands, Allowed j.1 s → (s.til til).leased s.cur = true → j.2 ∉ (s.til til).heldBy s.cur → traps j.1)) ∧
    (∀ (r t u : State) (va pitch : Word) (off : Nat), s.mayCommand d.toNat → Reads a r va t → Reads b t pitch u →
      u.place u.myTil va = some (.near u.myTil off) → va.toNat % 64 = 0 → pitch.toNat % 64 = 0 →
      (∀ x : BitVec 1, Ready (.tlda d a b x) s r → off + 31 * pitch.toNat + 128 ≤ (u.til u.myTil).spadSize →
        let at_ := fun (m n : Nat) => locSpad u.myTil (off + (if x = 1 then n else m) * pitch.toNat + 4 * (if x = 1 then m else n))
        (∀ r < 32, u.poisoned (locSpad u.myTil (off + r * pitch.toNat)) 128 = false) →
        exec (.tlda d a b x) s = .next ((u.addJob d.toNat true off pitch.toNat 128).queued d.toNat (.load ((List.range 1024).map (fun j =>
          BitVec.ofNat 32 (u.rd (at_ (j / 32) (j % 32)) 4))) false)).past) ∧
      (∀ (x : BitVec 1) (rm : BitVec 2) (i : BitVec 1) (ty : BitVec 4), Ready (.tsta d a b x rm i ty) s r →
        off + 31 * pitch.toNat + 32 * (widthOf ty.toNat / 8) ≤ (u.til u.myTil).spadSize →
        (∀ n, (u.til n).token.holder = none) →
        exec (.tsta d a b x rm i ty) s =
          .next ((u.addJob d.toNat false off pitch.toNat (32 * (widthOf ty.toNat / 8))).queued d.toNat
            (.store off pitch.toNat ty.toNat rm.toNat (i = 1) (x = 1))).past)) ∧
    (∀ (r t u : State) (x y : Word), s.mayCommand d.toNat → Ready (.tgeo d a b) s r → Reads a r x t → Reads b t y u →
      let tr := x.toNat % 2 ^ 16
      let tc := x.toNat / 2 ^ 16 % 2 ^ 16
      let rows := min 32 (y.toNat % 2 ^ 32 - 32 * tr)
      let cols := min 32 (y.toNat / 2 ^ 32 - 32 * tc)
      exec (.tgeo d a b) s =
        .next (u.queued d.toNat (.geom (BitVec.ofNat 64 (tc * 2 ^ 48 + tr * 2 ^ 32 + cols * 2 ^ 8 + rows)))).past) ∧
    (∀ (n : BitVec 4) (r t : State) (w : Word), (s.til til).leased s.cur = true → Ready (.tringWrite d n) s r → Reads d r w t →
      exec (.tringWrite d n) s = .next ((t.writeRing t.myTil n.toNat w).countCommand t.myTil).past)

/-- R312, R317, R325: TMMA and TMMT, with the lease, the accumulator and unretired slots in two enabled rings whose slots are
large enough, stage both slots, retire those that they name, and queue the product of the staged bytes over the counted positions,
A transposed for TMMT; the unit's next multiply issues 8 cycles later and a TSTA of the accumulator 24 (R318). That what is not
staged as a multiply executes is staged by that step is log 22. An empty ring makes the strand wait under cause 2 on the ring's
key. -/
def Obligations.TileProducts : Prop :=
  ∀ (ra rb : BitVec 4) (c : BitVec 3) (n : BitVec 5) (f : BitVec 4) (y x tr : BitVec 1) (s : State) (fm : MulFmt),
    let i : Instr := if tr = 1 then .tmmt ra rb c n f y x else .tmma ra rb c n f y x
    let til := s.myTil
    let t := s.til til
    let z := s.stageMul til s.cur fm ra.toNat rb.toNat
    let z' := z.modTil til (fun t =>
      let t := if x = 1 then t.retire ra.toNat else t
      if y = 1 ∧ (rb ≠ ra ∨ x = 0) then t.retire rb.toNat else t)
    Allowed i s → s.mayCommand c.toNat → s.me.formatOf f = some fm →
    (fm.scaled = true → s.me.scla.extractLsb' 62 2 ≠ 3 ∧ s.me.sclb.extractLsb' 62 2 ≠ 3) →
    ringEn (t.ring ra.toNat) = true → ringEn (t.ring rb.toNat) = true →
    slotShort fm fm.a s.me.scla (t.ring ra.toNat) = false → slotShort fm fm.b s.me.sclb (t.ring rb.toNat) = false →
    (t.headSeq ra.toNat ≠ t.tailSeq ra.toNat → t.headSeq rb.toNat ≠ t.tailSeq rb.toNat →
      ∀ ga gb, (z.til til).stageA = some ga → (z.til til).stageB = some gb → ga.bad = [] → gb.bad = [] →
      exec i s = .next ((z'.occupy c.toNat 8 24).queued c.toNat (.mul (if f = 15 then (s.me.fmt.extractLsb' 0 4).toNat else f.toNat)
        ((n.toNat + 1) * fm.k / 32) (tr = 1) ga.bytes gb.bytes (exponents fm s.me.scla ga.bytes)
        (exponents fm s.me.sclb gb.bytes) false)).past) ∧
    (let now := (s.core s.myCore).cycle
     (((s.occupy c.toNat 8 24).til til).mulNext = now + 8 ∧ tget ((s.occupy c.toNat 8 24).til til).storeNext c.toNat = some (now + 24))) ∧
    (t.headSeq ra.toNat = t.tailSeq ra.toNat → ra ≠ rb → t.headSeq rb.toNat ≠ t.tailSeq rb.toNat → s.me.tx.active = false →
      exec i s = .next (s.sleepOn s.cur 2 [.tring til ra.toNat] []))

/-- The rows of a TSTA find none of their bytes in a structure of the device as they are stored. -/
def Sys2Proof.Machine.OrdinaryRows (til cid : Nat) : List (Nat × List Byte × Flags) → State → Prop
  | [], _ => True
  | r :: rest, s => s.Ordinary (locSpad til r.1) r.2.1.length ∧
    OrdinaryRows til cid rest (s.store (locSpad til r.1) r.2.1 (some cid))

/-- The operand formats whose A is INT8, and those whose operands are floating: the code, the types, and the depth K (R315). -/
def Sys2Proof.Machine.weightProducts : List (Nat × Nat) := [(6, 64), (7, 64), (8, 256), (9, 256), (10, 256), (11, 256)]
def Sys2Proof.Machine.floatProducts : List (Nat × Nat × Nat × Nat) :=
  [(0, 3, 3, 32), (1, 4, 4, 32), (2, 9, 9, 64), (3, 10, 10, 64), (4, 9, 10, 64), (5, 10, 9, 64)]

/-- The touched elements of a command's accumulator take values, the others stay, and the strand that issued it gets the values'
flags (R319). -/
def Sys2Proof.Machine.Updates (s t : State) (til : Nat) (k : TileCmd) (touched : Nat → Nat → Prop)
    (r : Nat → Nat → Nat × Flags) : Prop :=
  (∀ m n, m < 32 → n < 32 →
    (touched m n → (t.til til).elem k.acc (32 * m + n) = BitVec.ofNat 32 (r m n).1) ∧
    (¬touched m n → (t.til til).elem k.acc (32 * m + n) = (s.til til).elem k.acc (32 * m + n))) ∧
  (s.sid k.cid = k.sid → ∀ j : Nat, (t.ctx k.cid).fstat.getLsbD j = true ↔ ((s.ctx k.cid).fstat.getLsbD j = true ∨
    ∃ m n, m < 32 ∧ n < 32 ∧ touched m n ∧ (r m n).2.getLsbD j = true))

/-- R319, R324, R326, R327, R318: what the tile unit's oldest command does as it completes, whose entry leaves the queue. TZRO
clears every element of its accumulator, TLDA loads every element, TGEO sets the geometry. A product, A transposed or not, gives
each element inside the edge a new value from the counted terms, and leaves the others. With INT8 A (formats 6 to 11) the terms
are products with INT8 or ternary weights: formats 6, 8 and 9 add them with saturation, the scaled ones round the element plus
their sum times the power of two of its row and column, once, to the nearer; a bad ternary code contributes zero and sets TRIBAD.
A product of floating operands is the exact sum with the old element, so scaled, rounded once. An exponent of −128 makes its row
or column zero (R276). A NaN among the element and the terms' operands gives the canonical NaN, with INVALID where one signals.
R337: SPMMA adds the products of the stored entries of a row likewise, and leaves a row without any. The flags go to the strand
that issued the command. TSTA stores each element inside the edge, converted, at its row and column, and no other byte, and sets
the flags of the conversions. No other accumulator changes. The operands are the bytes that the command holds, staged when log 22
says; the signs of zero sums, of which log 39 speaks, do not enter here. -/
def Obligations.TileCompletions : Prop :=
  ∀ (til : Nat) (s : State) (k : TileCmd) (rest : List TileCmd), (s.til til).cmds = k :: rest → k.acc < 8 →
    let el := fun (u : State) (m n : Nat) => (u.til til).elem k.acc (32 * m + n)
    let inside := fun (m n : Nat) => m < ((s.til til).edge k.acc).1 ∧ n < ((s.til til).edge k.acc).2
    let C := fun (m n : Nat) => realOf FP32 (el s m n).toNat
    let invalid : Bool → Nat × Flags := fun signals => (0x7FC00000, if signals = true then INVALID else 0)
    ∃ t, exec (.tileCommandComplete til) s = .next t ∧
      (k.op = .zero → ∀ i, i < 1024 → (t.til til).elem k.acc i = 0) ∧
      (∀ ws, k.op = .load ws false → ∀ i, i < 1024 → (t.til til).elem k.acc i = ws.getD i 0) ∧
      (∀ w, k.op = .geom w → (t.til til).geom[k.acc]? = some w ∧ t.mem = s.mem) ∧
      (∀ q ∈ weightProducts, ∀ kv tr a b ea eb, k.op = .mul q.1 kv tr a b ea eb false →
        ∃ R : Nat → Nat → Nat × Flags, Updates s t til k inside R ∧ ∀ m n, m < 32 → n < 32 → inside m n →
          let zero := fun (l : List Int) (i : Nat) => l.getD i 0 = -128
          let place := fun (j : Nat) => if tr = true then j * 32 + m else m * q.2 + j
          let weight := fun (j : Nat) => if zero eb n then (0, false)
            else if q.1 = 6 ∨ q.1 = 7 then (intOf 7 (natAt b.toArray (j * 32 + n) 1), false)
            else if q.1 = 8 ∨ q.1 = 10 then tri2 (natAt b.toArray (64 * n + j / 4) 1) (j % 4)
            else tri5 (natAt b.toArray (52 * n + j / 5) 1) (j % 5)
          let x := fun (j : Nat) => if zero ea m then 0 else intOf 7 (natAt a.toArray (place j) 1)
          let sum := ((List.range kv).map (fun j => x j * (weight j).1)).sum
          let bad : Flags := if (List.range kv).any (fun j => (weight j).2) then TRIBAD else 0
          let e : ℤ := if zero ea m ∨ zero eb n then 0 else ea.getD m 0 + eb.getD n 0
          let z := C m n + sum * 2 ^ e
          (q.1 = 6 ∨ q.1 = 8 ∨ q.1 = 9 →
            ∃ r, Saturates 0 (intOf 0 (el s m n).toNat + sum) r ∧ R m n = (r.1, r.2 ||| bad)) ∧
          (q.1 = 7 ∨ q.1 = 10 ∨ q.1 = 11 →
            (finiteOf FP32 (el s m n).toNat = true → z ≠ 0 →
              ∃ r, RoundsTo FP32 0 z false r ∧ R m n = (r.1, r.2 ||| bad)) ∧
            (nanOf FP32 (el s m n).toNat = true →
              R m n = (0x7FC00000, (invalid (signalOf FP32 (el s m n).toNat)).2 ||| bad)))) ∧
      (∀ q ∈ floatProducts, ∀ kv tr a b ea eb, k.op = .mul q.1 kv tr a b ea eb false →
        ∃ R : Nat → Nat → Nat × Flags, Updates s t til k inside R ∧ ∀ m n, m < 32 → n < 32 → inside m n →
          let zero := fun (l : List Int) (i : Nat) => l.getD i 0 = -128
          let f := fmtOf q.2.1
          let g := fmtOf q.2.2.1
          let read := fun (o : List Byte) (ty i : Nat) => natAt o.toArray (i * (widthOf ty / 8)) (widthOf ty / 8)
          let x := fun (j : Nat) => if zero ea m then 0 else read a q.2.1 (if tr = true then j * 32 + m else m * q.2.2.2 + j)
          let y := fun (j : Nat) => if zero eb n then 0 else read b q.2.2.1 (j * 32 + n)
          let e : ℤ := if zero ea m ∨ zero eb n then 0 else ea.getD m 0 + eb.getD n 0
          let z := C m n + ((List.range kv).map (fun j => realOf f (x j) * realOf g (y j))).sum * 2 ^ e
          let some_ := fun (p : Fmt → Nat → Bool) =>
            p FP32 (el s m n).toNat || (List.range kv).any (fun j => p f (x j) || p g (y j))
          (finiteOf FP32 (el s m n).toNat = true → (∀ j, j < kv → finiteOf f (x j) = true ∧ finiteOf g (y j) = true) → z ≠ 0 →
            RoundsTo FP32 0 z false (R m n)) ∧
          (some_ nanOf = true → R m n = invalid (some_ signalOf))) ∧
      (∀ int terms b ent, k.op = .sparse int terms b ent false false →
        let row := fun (m : Nat) => terms.filter (fun p => p.1 == m)
        ∃ R : Nat → Nat → Nat × Flags, Updates s t til k (fun m n => inside m n ∧ row m ≠ []) R ∧
          ∀ m n, m < 32 → n < 32 → inside m n → row m ≠ [] →
            let y := fun (p : Nat × Nat × Nat) => natAt b.toArray ((p.2.1 * 32 + n) * 2) 2
            let z := C m n + ((row m).map (fun p => realOf BF16 p.2.2 * realOf BF16 (y p))).sum
            (int = true → Saturates 0 (intOf 0 (el s m n).toNat +
              ((row m).map (fun p => laneInt 7 p.2.2 * intOf 7 (natAt b.toArray (p.2.1 * 32 + n) 1))).sum) (R m n)) ∧
            (int = false → finiteOf FP32 (el s m n).toNat = true →
              (∀ p ∈ row m, p.2.2 < 2 ^ 16 ∧ finiteOf BF16 p.2.2 = true ∧ finiteOf BF16 (y p) = true) → z ≠ 0 →
              RoundsTo FP32 0 z false (R m n))) ∧
      (∀ off pitch ty rnd int tr, k.op = .store off pitch ty rnd int tr →
        let g := (s.til til).edge k.acc
        let rows := if tr = true then g.2 else g.1
        let cols := if tr = true then g.1 else g.2
        let e := widthOf ty / 8
        let value := fun (r c : Nat) => convert (if int = true then 0 else 2) ty rnd (if tr = true then el s c r else el s r c).toNat
        let u := s.modTil til (fun x => { x with cmds := rest })
        til < 1024 → s.memOk → cols * e ≤ pitch → off + 31 * pitch + 32 * e ≤ 2 ^ 20 →
        OrdinaryRows til k.cid ((s.til til).storeRows k.acc off pitch ty rnd int tr) u →
        (∀ r c, r < rows → c < cols → t.rd (locSpad til (off + r * pitch + c * e)) e = (value r c).1 % 256 ^ e) ∧
        (∀ j, (∀ r, r < rows → j < locSpad til (off + r * pitch) ∨ locSpad til (off + r * pitch) + cols * e ≤ j) →
          t.byteAt j = s.byteAt j) ∧
        (s.sid k.cid = k.sid → ∀ j : Nat, (t.ctx k.cid).fstat.getLsbD j = true ↔ ((s.ctx k.cid).fstat.getLsbD j = true ∨
          ∃ r c, r < rows ∧ c < cols ∧ (value r c).2.getLsbD j = true))) ∧
      (k.op = .zero ∨ (∃ w, k.op = .geom w) ∨ (∃ ws, k.op = .load ws false) ∨
          (∃ code kv tr a b ea eb, k.op = .mul code kv tr a b ea eb false) →
        (t.til til).cmds = rest ∧ ∀ acc i, acc ≠ k.acc → i < 1024 → (t.til til).elem acc i = (s.til til).elem acc i)

/-- R328, R329: BSUM enqueues the sum and then its sign-extended exponent at a write end that has room for both. BACC brings
the running pair and the operand to the larger exponent, each divided by its power of two and rounded to the nearer, the even one
of two, and adds with saturation. -/
def Obligations.ScaledSums : Prop :=
  (∀ (x : Int) (k : Nat), RoundsToInt 0 ((x : ℚ) / 2 ^ k) (shiftNE x k)) ∧
  ∀ (d a b : BitVec 5) (s r t u v w : State) (x e : Word), Reads a r x t → Reads b t e u →
    (Allowed (.bsum d a b) s → s.me.getBind d.toNat ≠ 0 → readEnd (s.me.getBind d.toNat) = false →
      examine ([Fld.s a.toNat, .s b.toNat].filterMap s.me.endOf) [(d.toNat, dataElem), (d.toNat, dataElem)] s = .ok ((), r) →
      Enqueues d.toNat { awn := false, data := x.setWidth 512 } u v →
      Enqueues d.toNat { awn := false, data := (BitVec.ofInt 64 (e.extractLsb' 0 16).toInt).setWidth 512 } v w →
      exec (.bsum d a b) s = .next w.past) ∧
    (Ready (.bacc d a b) s r → s.me.endOf (.s d.toNat) = none → s.me.endOf (.s (d.toNat + 1)) = none →
      let S := (u.me.getS d.toNat).toInt
      let E := ((u.me.getS (d.toNat + 1)).extractLsb' 0 16).toInt
      let e' := (e.extractLsb' 0 16).toInt
      let top := max E e'
      let q := satLane 11 (shiftNE S (top - E).toNat + shiftNE x.toInt (top - e').toNat)
      exec (.bacc d a b) s = .next (u.after (fun z =>
        ({ z with fstat := z.fstat ||| q.2 }.setS d.toNat (BitVec.ofNat 64 q.1)).setS (d.toNat + 1) (BitVec.ofInt 64 top))))

/-- R342, R345 to R348: the sparse unit's instructions. SPMMA with a compiled entry, values in scratchpad and an unretired
slot, none of them poisoned, queues for its accumulator the entry's program, each stored place with the value that stands in
scratchpad at the issue, and the staged bytes of the B slot; the slot is retired where the instruction says so, the entry is
held, the staged values are used up, and the unit is occupied as long as R344 says. (What the queued command does to the
accumulator stands with the other completions, R337; that what is not staged yet is staged, and the values read, as it issues is
log 22, and what a use of the entry is log 40.) SPPRE
answers with the state of the entry that it finds or requests, and 1 while its copy tag has not finished; SPINV frees entries
and answers how many; SPQRY answers with version, count, entry and state; MZKEY interleaves and separates coordinates. -/
def Obligations.SparseUnit : Prop :=
  ∀ (d a b : BitVec 5) (s r t u v w : State) (va x : Word) (ref : TileRef),
    (Ready (.sppre d a b) s r → Reads a r va t → Reads b t x u → directoryAt va (x.toNat % 2 ^ 16) true 0 u = .ok (ref, v) →
      (tagReady (v.core v.myCore) (x.extractLsb' 20 6).toNat = false → Writes d v (failCode 1) w →
        exec (.sppre d a b) s = .next w.past) ∧
      (tagReady (v.core v.myCore) (x.extractLsb' 20 6).toNat = true → ∀ asked e, v.requestPattern v.myTil ref = some (asked, e) →
        Writes d (if e.compiled then asked.usePattern asked.myTil e.ent else asked) (BitVec.ofNat 64 e.state.code) w →
        exec (.sppre d a b) s = .next w.past)) ∧
    (Ready (.spinvOne d a b) s r → Reads a r va t → Reads b t x u → directoryAt va (x.toNat % 2 ^ 16) false 0 u = .ok (ref, v) →
      (v.pattern v.myTil ref = none → Writes d v 0 w → exec (.spinvOne d a b) s = .next w.past) ∧
      (∀ p, v.pattern v.myTil ref = some p → Writes d (v.freePattern v.myTil p.ent) 1 w →
        exec (.spinvOne d a b) s = .next w.past)) ∧
    (Ready (.spinvAll d) s r →
      Writes d (r.freePatterns r.myTil) (BitVec.ofNat 64 ((r.til r.myTil).pats.filter (fun p => !p.dying)).length) w →
      exec (.spinvAll d) s = .next w.past) ∧
    (Ready (.spqry d a b) s r → Reads a r va t → Reads b t x u → directoryAt va (x.toNat % 2 ^ 16) false 0 u = .ok (ref, v) →
      let top := ref.version.toNat * 2 ^ 32
      (v.pattern v.myTil ref = none → Writes d v (BitVec.ofNat 64 (top + 0xFF00)) w → exec (.spqry d a b) s = .next w.past) ∧
      (∀ p, v.pattern v.myTil ref = some p → Writes d v (BitVec.ofNat 64 (top +
          (if p.state = .sparse then p.prog.length else 0) * 2 ^ 16 + p.ent * 2 ^ 8 + p.state.code)) w →
        exec (.spqry d a b) s = .next w.past)) ∧
    (∀ f p : BitVec 1, s.mayCommand d.toNat → Ready (.spmma d a b f p) s r → Reads a r va t → Reads b t x u →
      directoryAt va (x.toNat % 2 ^ 16) true (if f = 1 then 1 else 2) u = .ok (ref, v) →
      let n := (x.extractLsb' 16 4).toNat
      let ring := (s.til s.myTil).ring n
      x.extractLsb' 20 6 = 63 → ringEn ring = true → (if f = 1 then 1024 else 2048) ≤ ringSlot ring →
      (s.til s.myTil).headSeq n ≠ (s.til s.myTil).tailSeq n →
      ∀ e vo, s.pattern s.myTil ref = some e → e.compiled = true → e.state ≠ .bad →
      v.ownNear v.myTil ref.vals = some vo →
      let wd := if f = 1 then 1 else 2
      let lo := vo + wd * ref.off
      ref.nnz = 0 ∨ lo + wd * ref.nnz ≤ (v.til v.myTil).spadSize →
      let gb := v.stageSlot v.myTil n (v.til v.myTil).stageB (blocksOf (1024 * wd))
      let gv := v.valueBuffer v.myTil e.ent lo (wd * ref.nnz) (v.til v.myTil).stageV
      gb.bad = [] → (v.stageBlocks v.myTil gv (List.range (gv.bytes.length / 512))).bad = [] →
      let issued := (v.modTil v.myTil (fun t =>
        let t := { t with stageB := some gb, stageV := none
                          pats := t.pats.map (fun q => if q.ent = e.ent then { q with held := q.held + 1 } else q) }
        if p = 1 then t.retire n else t)).usePattern v.myTil e.ent
      let terms := e.prog.map (fun y => (y.1, y.2.1, v.rd (locSpad v.myTil (vo + wd * y.2.2)) wd))
      let busy := if e.state = .dense then 8 else max 2 ((ref.nnz + 15) / 16)
      exec (.spmma d a b f p) s = .next ((issued.occupy d.toNat busy (busy + 16)).queued d.toNat
        (.sparse (f = 1) terms gb.bytes e.ent false (v.metadataOpen v.myTil ref))).past) ∧
    (Ready (.mzkey d a b) s r → Reads a r va t → Reads b t x u → ∃ z : Word,
      (∀ j, j < 32 → z.getLsbD (2 * j) = x.getLsbD j ∧ z.getLsbD (2 * j + 1) = va.getLsbD j) ∧
      (Writes d u z w → exec (.mzkey d a b) s = .next w.past)) ∧
    (Ready (.mzkeyInv d a) s r → Reads a r va t → ∃ z : Word,
      (∀ j, j < 32 → z.getLsbD j = va.getLsbD (2 * j) ∧ z.getLsbD (32 + j) = va.getLsbD (2 * j + 1)) ∧
      (Writes d t z w → exec (.mzkeyInv d a) s = .next w.past))

/-! ### Copies, tags and counters -/

/-- R354, R358, R370: CPY and CPYM of a well-formed descriptor under a tag that is not busy enter the copy that it describes,
at most one to a tag, make the tag busy and answer 0. A busy tag answers 1 and a malformed descriptor 2, with no copy. R359,
R371: TFFR takes the finished tags under its mask, clears them and answers with them; WANY completes when one is finished or
none under the mask is busy, and WALL when none is busy, each answering with the finished tags; what they observe they
acquire. Otherwise they wait under cause 5 on the core's tag bitmap. -/
def Obligations.CopyRequests : Prop :=
  (∀ (d a b : BitVec 5) (i m : BitVec 1) (s r t u v : State) (va x : Word) (loc : Nat),
     let j : Instr := if m = 1 then .cpym d a b else .cpy d a b i
     let n := if m = 1 then 128 else 64
     let tag := x.toNat % 64
     let mask := if m = 1 then x.toNat / 2 ^ 16 % 2 ^ 16 else 1
     Ready j s r → Reads a r va t → ReadsB (if m = 1 then 0 else i) b t x u → descriptorAt va n u = .ok (loc, u) →
     ((u.core u.myCore).tagb.getLsbD tag = true → Writes d u (failCode 1) v → exec j s = .next v.past) ∧
     ((u.core u.myCore).tagb.getLsbD tag = false → u.poisoned loc n = false →
       (u.descriptor loc (m = 1) mask = none → Writes d u (failCode 2) v → exec j s = .next v.past) ∧
       (∀ q, u.descriptor loc (m = 1) mask = some q →
         let y := (u.modCore u.myCore (fun k => k.busyTag tag)).tick
         let z := { y with copies := y.copies ++ [{ q with tag := tag }] }
         Writes d (if q.dring then z else z.entangle q.id) 0 v → exec j s = .next v.past)) ∧
     (∀ k : Core, (k.busyTag tag).tagb = k.tagb ||| BitVec.ofNat 64 (2 ^ tag) ∧
       (k.busyTag tag).tags = k.tags &&& ~~~BitVec.ofNat 64 (2 ^ tag))) ∧
  (∀ (d a : BitVec 5) (s r t v : State) (m : Word), Reads a r m t →
     let k := t.core t.myCore
     let got := k.tags &&& m
     let seen := fun (u : State) => if got = 0 then u else u.acquire u.myTil 4
     (Ready (.tffr d a) s r →
       Writes d (seen (t.modCore t.myCore (fun k => { k with tags := k.tags &&& ~~~got, tage := k.tage &&& ~~~got }))) got v →
       exec (.tffr d a) s = .next v.past) ∧
     (s.me.tx.active = false → t.me.tx.active = false →
       (Ready (.wany d a) s r →
         (got ≠ 0 ∨ k.tagb &&& m = 0 → Writes d (seen t) got v → exec (.wany d a) s = .next v.past) ∧
         (got = 0 → k.tagb &&& m ≠ 0 → exec (.wany d a) s = .next (s.sleepOn s.cur 5 [.tags t.myCore] []))) ∧
       (Ready (.wall d a) s r →
         (k.tagb &&& m = 0 → Writes d (seen t) got v → exec (.wall d a) s = .next v.past) ∧
         (k.tagb &&& m ≠ 0 → exec (.wall d a) s = .next (s.sleepOn s.cur 5 [.tags t.myCore] [])))))

/-- R364, R365, R367, R369, R372 to R374: the operations on a well-formed arrival counter. AEXP adds expected bytes, ARRV takes
arrivals, BJOIN and BLEAV change the members; each acquires, completes the phase if nothing more is awaited, and answers with
the phase before, whether it has completed, and whether it is broken. R367: a refused operation answers 1 and changes no
counter, one on a malformed counter answers 2, and both acquire. That BJOIN counts its arrival modulo 65,536 is the model's choice
(log 35). WPHS completes once the phase of the parity it names has. -/
def Obligations.ArrivalCounters : Prop :=
  ∀ (d a b : BitVec 5) (i : BitVec 1) (s r t u v w z : State) (va n : Word) (p : Nat × Nat) (k : Counter),
    Reads a r va t →
    (readCounter va p u = .ok (none, v) → counterAt va false u = .ok (p, u) → Writes d (v.acquire v.myTil 4) (failCode 2) z →
      (ReadsB i b t n u → (Ready (.aexp d a b i) s r → exec (.aexp d a b i) s = .next z.past) ∧
        (Ready (.arrv d a b i) s r → exec (.arrv d a b i) s = .next z.past)) ∧
      (t = u → (Ready (.bjoin d a) s r → exec (.bjoin d a) s = .next z.past) ∧
        (Ready (.bleav d a) s r → exec (.bleav d a) s = .next z.past))) ∧
    (readCounter va p u = .ok (some k, v) →
    let seen := v.acquire v.myTil 4
    let member := (seen.membersSeen p.1).find? (fun m => m.cid == seen.cur && m.off == p.2)
    let does := fun (j : Instr) (k' : Counter) (m : Option (Option (Bool × Bool))) =>
      changeCounter p k'.check m seen = .ok ((), w) →
      Writes d w (BitVec.ofNat 64 ((if k.ph then 1 else 0) + (if k'.check.ph = k.ph then 0 else 2) +
        (if k'.check.brk then 4 else 0))) z → exec j s = .next z.past
    let refuses := fun (j : Instr) => Writes d seen (failCode 1) z → exec j s = .next z.past
    (ReadsB i b t n u → counterAt va false u = .ok (p, u) →
      (Ready (.aexp d a b i) s r → let x := k.expb + n.toInt
        (-(2 ^ 63 : Int) ≤ x → x < 2 ^ 63 → does (.aexp d a b i) { k with expb := x } none) ∧
        (x < -(2 ^ 63 : Int) ∨ (2 ^ 63 : Int) ≤ x → refuses (.aexp d a b i))) ∧
      (Ready (.arrv d a b i) s r →
        (0 < n.toNat → n.toNat ≤ k.arr →
          does (.arrv d a b i) { k with arr := k.arr - n.toNat } (member.map (fun _ => some (true, k.ph)))) ∧
        (n = 0 ∨ k.arr < n.toNat → refuses (.arrv d a b i)))) ∧
    (t = u → counterAt va false u = .ok (p, u) →
      (Ready (.bjoin d a) s r →
        (member = none → k.memb ≠ 65535 → (seen.membersSeen p.1).length < 256 →
          does (.bjoin d a) { k with memb := k.memb + 1, arr := (k.arr + 1) % 65536 } (some (some (false, false)))) ∧
        (member ≠ none ∨ k.memb = 65535 ∨ 256 ≤ (seen.membersSeen p.1).length → refuses (.bjoin d a))) ∧
      (Ready (.bleav d a) s r →
        (∀ m, member = some m → does (.bleav d a) (k.leave m.arrd m.aph) (some none)) ∧
        (member = none → refuses (.bleav d a)))) ∧
    (ReadsB i b t n u → counterAt va true u = .ok (p, u) →
      let ph := if k.ph then 1 else 0
      let brk := if k.brk then 4 else 0
      (k.ph ≠ n.getLsbD 0 → Writes d seen (BitVec.ofNat 64 (ph + 2 + brk)) z →
        (Ready (.wphsWait d a b i) s r → exec (.wphsWait d a b i) s = .next z.past) ∧
        (Ready (.wphsTest d a b i) s r → exec (.wphsTest d a b i) s = .next z.past)) ∧
      (k.ph = n.getLsbD 0 →
        (Ready (.wphsTest d a b i) s r → Writes d seen (BitVec.ofNat 64 (ph + brk)) z →
          exec (.wphsTest d a b i) s = .next z.past) ∧
        (Ready (.wphsWait d a b i) s r → s.me.tx.active = false →
          exec (.wphsWait d a b i) s = .next (s.sleepOn s.cur 5 [.line (locSpad p.1 p.2 / 64)] [])))) ∧
    (k.check = if k.arr = 0 ∧ k.expb = 0 then
      { expb := 0, arr := k.memb, memb := k.memb, ph := !k.ph, brk := k.brkp, brkp := false } else k))

/-- R357 to R361, R413: the steps of a copy. A queued copy to plain addresses of this module starts. A running copy moves at
most 128 bytes of a run that lie in one piece at source and destination, unpoisoned, from one to the other; that it moves its
pieces in run order is the model's choice (log 21), and of a source byte that its own destination has scrambled before it reads
it, it moves the value the byte had (R355). A copy that has landed, or that another module has acknowledged, and that
credits no counter leaves, its tag finished and no longer busy; when another module acknowledges is log 54. A reply to a
faulted copy lets it run on, or fails it. -/
def Obligations.CopySteps : Prop :=
  ∀ (s : State) (q : Copy), s.copyOf q.id = some q →
    (q.state = .queued → q.dring = false → q.xmod = none → (∀ d ∈ q.dests, s.refusal q d = 0) →
      exec (.copyStart q.id) s = .next (s.setCopy { q with state := .running }).tick) ∧
    (∀ d a b m k, q.state = .running → q.xmod = none → q.dests = [d] → d.failed = false →
      let off := q.pos % q.c0
      s.pieceAt (tilOf q.cid) (runStart q.src q.c1 q.ss1 q.ss2 (q.pos / q.c0) + BitVec.ofNat 64 off) .load = .at_ [a] m →
      s.destPiece q d = .at_ [b] k →
      let n := min (min 128 (min m (q.c0 - off))) k
      0 < n → s.soundRun a n = n →
      let u := s.landBytes q b (overlay q.kept a (s.bytes a n))
      let q' := { (u.copyOf q.id).getD q with pos := q.pos + n }
      let t := ((u.setCopy q').landSlots q').tick
      exec (.copyTransfer q.id) s = .next (if q'.pos < q.total then t else t.endCopy q' .landed)) ∧
    (q.state = .landed ∨ q.state = .sent → (∀ d ∈ q.dests, d.ctra = none ∧ d.failed = false) → q.tag < 64 →
      ∃ t, exec (.copyComplete q.id) s = .next t ∧ t.copies = s.copies.filter (fun p => p.id ≠ q.id) ∧
        (t.core (coreOf q.cid)).tags = (s.core (coreOf q.cid)).tags ||| BitVec.ofNat 64 (2 ^ q.tag) ∧
        (t.core (coreOf q.cid)).tagb = (s.core (coreOf q.cid)).tagb &&& ~~~BitVec.ofNat 64 (2 ^ q.tag) ∧
        (t.core (coreOf q.cid)).tage = (s.core (coreOf q.cid)).tage) ∧
    (∀ (til kind cause act : Nat) (va : Word) (body : Body), q.state = .faulted kind cause va →
      s.copies.find? (fun p => p.sid == q.sid && p.tag == q.tag && (match p.state with
        | .faulted _ _ _ => true
        | _ => false)) = some q →
      Body.field body 0 4 = q.sid.toNat → Body.field body 4 1 = act → Body.field body 5 1 = q.tag → Body.field body 6 10 = 0 →
      q.tag < 64 → s.sidLive q.sid = true → tilOf (cidOfSid q.sid) = til →
      (act = 0 → exec (.copyFaultReply til body) s = .next ((s.setCopy { q with state := .running }).entangle q.id)) ∧
      (act = 1 → exec (.copyFaultReply til body) s = .next (s.endCopy q.spoiled (.failed 0))) ∧
      (1 < act → exec (.copyFaultReply til body) s = .next (s.modTil til (fun t => { t with stalerep := t.stalerep + 1 }))))

/-! ### The system class -/

/-- R219, R390, R391: TLBF with an entry that may be installed puts it into the core's TLB for the miss, and the missing
context goes on; with a cause, or with an entry that may not be installed, it declares a fault, whose message the partition's
service core gets. Its form for no miss only installs; a context without a miss answers 1, and a malformed control word 4. TLBI
removes the partition's entries of one page, or all of them, from every TLB, and holds its context for some cycles, of which the
manual gives no number (log 5), and until its earlier accesses are performed. -/
def Obligations.Translations : Prop :=
  ∀ (d a b : BitVec 5) (s r t u v : State) (e w : Word), privileged s.cur = true →
    (Ready (.tlbf d a b) s r → Reads a r e t → Reads b t w u → w.toNat < 2 ^ 52 → w.toNat / 2 ^ 9 % 2 ^ 7 = 0 →
      let c := u.myCore * 16 + w.toNat % 16
      let act := w.toNat / 64 % 8
      let psz := w.toNat / 16 % 4
      let va := w.toNat / 2 ^ 16 * 65536
      ∀ k lane at_ quiet, (u.ctx c).wait = .miss k lane at_ quiet →
      (act = 0 → unusable e psz (u.partOf u.myTil) = false →
        let z := (u.installEntry u.cur (k = .fetch)
          { va := va / pageSize psz * pageSize psz, size := pageSize psz, entry := e }).modCtx c (fun x => { x with wait := .none })
        Writes d z 0 v → exec (.tlbf d a b) s = .next v.past) ∧
      (act = 0 → unusable e psz (u.partOf u.myTil) = true → Writes d (u.declareFault c 5) (failCode 2) v →
        exec (.tlbf d a b) s = .next v.past) ∧
      (1 ≤ act → act ≤ 5 → Writes d (u.declareFault c act) 0 v → exec (.tlbf d a b) s = .next v.past) ∧
      (1 ≤ act → act ≤ 5 → c < 65536 → lane < 64 → quiet = false → (u.ctx c).tx.active = false →
        let dest := u.service (tilOf c)
        let code := match k with
          | .load => 0
          | .store => 1
          | .fetch => 2
          | .atomic => 3
          | .stm => 4
        ((u.declareFault c act).ctx c).wait = .fault k lane at_ ∧
        (u.boxRoom dest 1 = true → Posted u (u.declareFault c act) dest 1 16
          [(0, 4, (u.sid c).toNat), (4, 1, code), (5, 1, act), (6, 2, lane), (8, 8, at_.toNat), (16, 8, (u.ctx c).pc.toNat),
           (24, 4, tilOf c)]))) ∧
    (Ready (.tlbf d a b) s r → Reads a r e t → Reads b t w u →
      let act := w.toNat / 64 % 8
      let pre := w.toNat / 2 ^ 9 % 2
      let psz := w.toNat / 16 % 4
      let va := w.toNat / 2 ^ 16 * 65536
      let bad := 2 ^ 52 ≤ w.toNat ∨ w.toNat / 2 ^ 10 % 2 ^ 6 ≠ 0 ∨ 5 < act ∨ pre = 1 ∧ act ≠ 0
      (bad → Writes d u (failCode 4) v → exec (.tlbf d a b) s = .next v.past) ∧
      (¬bad → pre = 0 → (∀ k lane at_ quiet, (u.ctx (u.myCore * 16 + w.toNat % 16)).wait ≠ .miss k lane at_ quiet) →
        Writes d u (failCode 1) v → exec (.tlbf d a b) s = .next v.past) ∧
      (¬bad → pre = 1 → unusable e psz (u.partOf u.myTil) = true → Writes d u (failCode 2) v →
        exec (.tlbf d a b) s = .next v.past) ∧
      (¬bad → pre = 1 → unusable e psz (u.partOf u.myTil) = false →
        Writes d (u.installEntry u.cur false { va := va / pageSize psz * pageSize psz, size := pageSize psz, entry := e }) 0 v →
        exec (.tlbf d a b) s = .next v.past)) ∧
    (Ready (.tlbiVa d a) s r → Reads a r e t →
      Finishes (.tlbiVa d a) d 0 s (t.dropEntries (fun q => q.hits (t.partOf t.myTil) e.toNat))) ∧
    (Ready (.tlbiPart d) s r →
      Finishes (.tlbiPart d) d 0 s (r.dropEntries (fun q => entPart q.entry == r.partOf r.myTil))) ∧
    (∀ (p : TlbEntry → Bool) (c til j : Nat),
      let kept := fun (before after : List TlbEntry) => ∀ q, q ∈ after ↔ q ∈ before ∧ p q = false
      kept (s.core c).dtlb ((s.dropEntries p).core c).dtlb ∧ kept (s.core c).itlb ((s.dropEntries p).core c).itlb ∧
      kept (s.til til).stlb ((s.dropEntries p).til til).stlb ∧ kept (s.die j).lltlb ((s.dropEntries p).die j).lltlb)

/-- R385: MBXR of a box that the context may read takes its oldest message, stores the body and writes the header to D; of an
empty box the form that does not wait writes zero, and the other waits; a context that may not read the box raises PRIV.
R386, R388: the messages that MBXS sends, from an unpoisoned buffer of the sender's own scratchpad. Replies go to a unit of a
tiller of the partition as 16 bytes, INTR and USER to a steward box with room as 32 bytes under types 7 and 8, and a destination
outside the partition answers 2. RESUME acts on the core itself. That bytes 4 to 7 of an INTR or USER body go as they stand is
the model's choice (log 55), and so is what makes a reply or a resume malformed (log 38). -/
def Obligations.Mailboxes : Prop :=
  (∀ (d a : BitVec 5) (y : BitVec 1) (x : BitVec 2) (s r t u v : State) (va : Word) (loc : Nat), x ≠ 3 →
     (s.mayRead s.cur x.toNat = false → rowCheck (.mbxr d a y x) s = .ok ((), s) → s.me.tx.active = false →
       exec (.mbxr d a y x) s = .next (s.takeTrap s.cur Cause.priv 0 0 (wordOf (.mbxr d a y x)))) ∧
     (Ready (.mbxr d a y x) s r → s.mayRead s.cur x.toNat = true → Reads a r va t → ownBuffer va t = .ok (loc, t) →
       let k := s.myCore
       ((t.core k).box x.toNat = [] →
         (y = 1 → Writes d t 0 v → exec (.mbxr d a y x) s = .next v.past) ∧
         (y = 0 → exec (.mbxr d a y x) s = .next (s.modCtx s.cur (fun c => { c with wait := .box x.toNat })))) ∧
       (∀ m rest, (t.core k).box x.toNat = m :: rest →
         storeScalar .store 32 va m.body.toNat (t.modCore k (fun c => c.setBox x.toNat rest)) = .ok ((), u) →
         Writes d u m.header v → (v.core k).held = [] → v.ctxs.any (fun p => p.2.wait == .post k x.toNat) = false →
         exec (.mbxr d a y x) s = .next v.past))) ∧
  (∀ (d a b : BitVec 5) (s r t u v : State) (va dst : Word) (loc : Nat), ctxNo s.cur = 0 →
     Reads a r va t → Reads b t dst u → ownBuffer va u = .ok (loc, u) → u.poisoned loc 16 = false →
     let m : Body := BitVec.ofNat 256 (u.rd loc 32)
     let first : Body := BitVec.ofNat 256 (u.rd loc 16)
     let whole := u.poisoned loc 32 = false
     let til := dst.toNat % 2 ^ 10
     let box := til * 4 + dst.toNat / 2 ^ 10 % 4
     ((u.til til).part = (u.til u.myTil).part →
       (Ready (.mbxsFrep d a b) s r → Writes d (u.later (.faultReply til first)) 0 v →
         exec (.mbxsFrep d a b) s = .next v.past) ∧
       (Ready (.mbxsCrep d a b) s r → Writes d (u.later (.copyFaultReply til first)) 0 v →
         exec (.mbxsCrep d a b) s = .next v.past) ∧
       (Ready (.mbxsErep d a b) s r → Writes d (u.later (.engineReply til first)) 0 v →
         exec (.mbxsErep d a b) s = .next v.past) ∧
       (whole → Ready (.mbxsIntr d a b) s r → u.boxRoom box 0 = true →
         Writes d (u.send box 0 { header := headerFrom u.cur 7, body := m }) 0 v → exec (.mbxsIntr d a b) s = .next v.past) ∧
       (whole → Ready (.mbxsUser d a b) s r → u.boxRoom box 0 = true →
         Writes d (u.send box 0 { header := headerFrom u.cur 8, body := m }) 0 v → exec (.mbxsUser d a b) s = .next v.past)) ∧
     ((u.til til).part ≠ (u.til u.myTil).part → Writes d u (failCode 2) v →
       (∀ i ∈ [Instr.mbxsFrep d a b, .mbxsCrep d a b, .mbxsErep d a b], Ready i s r → exec i s = .next v.past) ∧
       (whole → ∀ i ∈ [Instr.mbxsIntr d a b, .mbxsUser d a b], Ready i s r → exec i s = .next v.past)) ∧
     (Ready (.mbxsResume d a b) s r → Writes d (u.resume first).1 (u.resume first).2 v →
       exec (.mbxsResume d a b) s = .next v.past) ∧
     (let c := u.myCore * 16 + Body.field first 0 4 / 2 ^ 12 % 16
      let x := u.ctx c
      x.life = .stopped → genOfSid (BitVec.ofNat 32 (Body.field first 0 4)) = x.gen →
      (Body.field first 4 4 = 0 → u.resume first = (u.setCtx c { x with life := .running, wait := .none }, 0)) ∧
      (Body.field first 4 4 = 1 → u.resume first = (u.setCtx c { x.advance with life := .running, wait := .none }, 0)) ∧
      (Body.field first 4 4 = 2 → Body.field first 8 8 % 4 = 0 → Body.field first 8 8 < 2 ^ 52 → u.resume first =
        (u.setCtx c { x with life := .running, wait := .none, frame := .clear
                             pc := BitVec.ofNat 64 (Body.field first 8 8) }, 0))))

/-- R392, R394, R396: CSAVE.save with a 4 KiB aligned area that can be written stops the issue of the core's user contexts,
waits until the core has drained, saves it there and answers with the mask of the contexts saved; the area is translated once,
before anything is stopped. A save records of each user context that holds a strand of its own its registers, bindings, state
and pc, the TXB's where an attempt was open, and the tags of the core; the contexts are SAVED then. CSAVE.rest of an area that
holds such a save, with every context of CMASK FREE or SAVED, restores them and answers with CMASK, with another context there
4. A restore gives each context of CMASK what the save records for it, under the next generation, and the core its tags; a strand
of a TILE stage owns the tile unit again. An area of another kind answers 2, and one that cannot be translated 3. Both hold their
context until the result is there, a number of cycles that the manual does not give (log 11). The header of a save has the fields
of R394. Which bytes a save writes behind it and which content of an area counts as a save are the model's choice (log 20), and so
is how the area's addresses are translated (log 26). -/
def Obligations.SaveAndRestore : Prop :=
  (∀ (d a : BitVec 5) (s r t v : State) (va : Word), ctxNo s.cur = 0 → Reads a r va t → va.toNat % 4096 = 0 →
    (Ready (.csaveSave d a) s r →
      let k := r.myCore
      let found := match (r.core k).saving with
        | some (p :: ps) => some (p :: ps)
        | _ => r.area va .store
      (found = none → Writes d t (failCode 3) v → exec (.csaveSave d a) s = .next v.past) ∧
      (∀ area, found = some area →
        let begun := fun (x : State) => if (x.core k).saving = some area then x else x.beginHalt k area
        ((begun r).drained k = false → exec (.csaveSave d a) s = .next ((begun r).modMe (fun x => { x with wait := .drain }))) ∧
        ((begun r).drained k = true →
          Finishes (.csaveSave d a) d (BitVec.ofNat 64 (((begun t).occupied k).foldl (fun n c => n + 2 ^ (c % 16)) 0)) s
            ((begun t).saveCore k area)))) ∧
    (Ready (.csaveRest d a) s r →
      (t.area va .load = none → Writes d t (failCode 3) v → exec (.csaveRest d a) s = .next v.past) ∧
      (∀ area, t.area va .load = some area → (∀ l ∈ area, t.poisoned l 4096 = false) →
        (t.savedIn area = none → Writes d t (failCode 2) v → exec (.csaveRest d a) s = .next v.past) ∧
        (∀ w mask, t.savedIn area = some (w, mask) →
          let cs := ((List.range 16).filter (fun j => mask.testBit j)).map (t.myCore * 16 + ·)
          ((∀ c ∈ cs, (t.ctx c).life = .free ∨ (t.ctx c).life = .saved) →
            Finishes (.csaveRest d a) d (BitVec.ofNat 64 mask) s (t.restoreCore t.myCore w mask)) ∧
          ((∃ c ∈ cs, (t.ctx c).life ≠ .free ∧ (t.ctx c).life ≠ .saved) → Writes d t (failCode 4) v →
            exec (.csaveRest d a) s = .next v.past))))) ∧
  (∀ (s : State) (k : Nat) (area : List Nat), k < 4096 →
    let z := s.saveCore k area
    ∃ w : Saved, z.saves = s.saves ++ [w] ∧ w.core = k ∧ w.part = s.partOf (k / 4) ∧ w.tags = (s.core k).tags ∧
      w.tagb = (s.core k).tagb ∧ w.tage = (s.core k).tage ∧ (z.core k).saving = none ∧
      (∀ a rest, area = a :: rest → area.Nodup → (∀ x ∈ area, x % 4096 = 0 ∧ x < 2 ^ 50) → s.memOk → s.partOf (k / 4) < 256 →
        ((s.parkAll k).imprint area (s.partOf (k / 4))).1.Ordinary a 24 →
        z.rd a 4 = 0x53564731 ∧ z.rd (a + 4) 4 = Config.stepping ∧ z.rd (a + 8) 2 = k / 4 ∧ z.rd (a + 10) 1 = k % 4 ∧
        z.rd (a + 11) 1 = s.partOf (k / 4) ∧ z.rd (a + 12) 2 = (s.occupied k).foldl (fun n c => n + 2 ^ (c % 16)) 0 ∧
        z.rd (a + 14) 2 = 0 ∧
        z.rd (a + 16) 8 = (Config.sha3 ((area.flatMap (fun x => z.bytes x 4096)).drop 64)).toNat % 2 ^ 64) ∧
      ∀ c, coreOf c = k → 1 ≤ ctxNo c → ctxNo c ≤ 14 → (s.ctx c).life ≠ .free → (s.ctx c).home = none →
        (z.ctx c).life = .saved ∧ ∃ x, tget w.ctxs c = some x ∧ x.s = (s.ctx c).s ∧ x.v = (s.ctx c).v ∧ x.m = (s.ctx c).m ∧
          x.bind = (s.ctx c).bind ∧ x.handler = (s.ctx c).handler ∧ x.fmt = (s.ctx c).fmt ∧ x.fstat = (s.ctx c).fstat ∧
          x.pc = (if (s.ctx c).tx.active then (s.ctx c).tx.txbpc else (s.ctx c).pc) ∧ x.tx.active = false ∧ x.wait = .none ∧
          ((s.ctx c).life ≠ .saved → x.life = (s.ctx c).life)) ∧
  (∀ (s : State) (k mask : Nat) (w : Saved), k < 4096 →
    let z := s.restoreCore k w mask
    (z.core k).tags = w.tags ∧ (z.core k).tagb = w.tagb ∧ (z.core k).tage = w.tage ∧
    (∀ j x, j < 16 → mask = 2 ^ j → tget w.ctxs (k * 16 + j) = some x → x.tile = true → x.life ≠ .exited →
      (s.til (k / 4)).owner = none → (z.til (k / 4)).owner = some (k * 16 + j)) ∧
    ∀ j c x, j < 16 → c = k * 16 + j → mask.testBit j = true → tget w.ctxs c = some x → x.tx.active = false →
      (z.ctx c).s = x.s ∧ (z.ctx c).v = x.v ∧ (z.ctx c).m = x.m ∧ (z.ctx c).bind = x.bind ∧ (z.ctx c).handler = x.handler ∧
      (z.ctx c).fmt = x.fmt ∧ (z.ctx c).fstat = x.fstat ∧ (z.ctx c).pc = x.pc ∧ (z.ctx c).life = x.life ∧
      (z.ctx c).gen = (s.ctx c).gen + 1)

/-- A tiller with this size of its L1: the L1 is empty, what the scratchpad gains is unspecified, and no other byte has changed
(R203). -/
def Sys2Proof.Machine.SplitAt (til n : Nat) (s u : State) : Prop :=
  let size := (s.til til).spadSize
  let new := 2 ^ 20 - 65536 * n
  (u.til til).l1sz = n ∧ (u.til til).l1 = [] ∧ (u.til til).newL1 = none ∧
  (∃ e, ∀ o, size ≤ o → o < new → u.byteAt (locSpad til o) = Config.freeByte e (locSpad til o)) ∧
  ∀ l, l < locSpad til size ∨ locSpad til new ≤ l → u.byteAt l = s.byteAt l

/-- A tiller with this swizzle: the segments that it changes are unspecified, and no other byte has changed (R205). -/
def Sys2Proof.Machine.SwizzledTo (til : Nat) (w : BitVec 16) (s u : State) : Prop :=
  let end_ := fun j => min (65536 * (j + 1)) (s.til til).spadSize
  let changes := fun j => w.getLsbD j ≠ (s.til til).swz.getLsbD j
  (u.til til).swz = w ∧ (u.til til).newSwz = none ∧
  (∀ j, j < 16 → changes j →
    ∃ e, ∀ o, 65536 * j ≤ o → o < end_ j → u.byteAt (locSpad til o) = Config.freeByte e (locSpad til o)) ∧
  ∀ l, (∀ j, j < 16 → changes j → l < locSpad til (65536 * j) ∨ locSpad til (end_ j) ≤ l) → u.byteAt l = s.byteAt l

/-- R377 to R379: MFS writes the special register that it names to D, and a number that names none raises ILLEGAL. Of MTS, FMT
takes four bits of its source, SCLA and SCLB their fields of R316, m1 to m7 all of it, and a register that is only read takes
nothing. FSTAT loses the flags whose bits are written as ones (R277). R203, R205, R376, R379, R402: the registers that only
context 0 writes. LSPLIT takes a size of at most 8 that leaves every reservation its bytes, empties the L1, leaves bytes that
the scratchpad gains unspecified, and takes no other size (that its own value empties the L1 too is log 37, and a range of
unspecified bytes stands as log 6 says); SWZ, SVCMAP (contexts 1 to 14) and WDOG take their low 16 bits, and
a change of SWZ leaves unspecified the bytes of the segments that it changes, and no others. LSPLIT and SWZ change in their own
step where no access of the tiller is in flight, else once none is, and what counts as one, and that the registers show what was
written meanwhile, is the model's choice (log 5). R405: PCNT writes a counter of the executing context, of its tiller or die, or
zero for a number that names none, to D; PCNT.ctx, by context 0, reads those of a context of its core. -/
def Obligations.SpecialRegisters : Prop :=
  (∀ (d : BitVec 5) (k : BitVec 16) (s r t v : State) (w : Word),
     (Ready (.mfs d k) s r → (r.special k.toNat = some w → Writes d r w v → exec (.mfs d k) s = .next v.past) ∧
       (r.special k.toNat = none → s.me.tx.active = false →
         exec (.mfs d k) s = .next (s.takeTrap s.cur Cause.illegal 0 0 (wordOf (.mfs d k))))) ∧
     (Ready (.mts d k) s r → Reads d r w t →
       let scl := w &&& BitVec.ofNat 64 (3 * 2 ^ 62 + 2 ^ 20 - 1)
       (k = 0x10 → exec (.mts d k) s = .next (t.after (fun x => { x with fmt := w &&& 0xF }))) ∧
       (k = 0x11 → exec (.mts d k) s = .next (t.after (fun x => { x with scla := scl }))) ∧
       (k = 0x12 → exec (.mts d k) s = .next (t.after (fun x => { x with sclb := scl }))) ∧
       (0x20 ≤ k.toNat → k.toNat ≤ 0x26 → exec (.mts d k) s = .next (t.after (fun x => x.setM (k.toNat - 0x1F) w))) ∧
       (k.toNat ≤ 3 ∨ 0x14 ≤ k.toNat ∧ k.toNat ≤ 0x1A ∨ 0x30 ≤ k.toNat ∧ k.toNat ≤ 0x37 →
         exec (.mts d k) s = .next t.past)) ∧
     (Ready (.fstatClear d) s r → Reads d r w t → exec (.fstatClear d) s =
       .next (t.after (fun x => { x with fstat := x.fstat &&& ~~~(w.extractLsb' 0 6) }))) ∧
     (let bit := fun (b : Bool) => if b then 1 else 0
      let x := s.me
      let t := s.til (s.cur / 64)
      let core := s.core (s.cur / 16)
      (∀ p ∈ [(0, (s.sid s.cur).setWidth 64), (1, BitVec.ofNat 64 (s.cur / 64)),
         (2, BitVec.ofNat 64 (s.cur % 64 + 64 * bit x.mig + 128 * bit x.tile + 256 * s.partOf (s.cur / 64))),
         (3, core.cycle), (0x10, x.fmt), (0x11, x.scla), (0x12, x.sclb), (0x13, x.fstat.setWidth 64),
         (0x14, BitVec.ofNat 64 (bit x.tx.active + 2 * bit (x.tx.active && x.tx.sole) + 4 * x.tx.alts.length +
           2 ^ 8 * x.tx.cause + 2 ^ 16 * x.tx.nconf + 2 ^ 24 * x.tx.wcnt + 2 ^ 32 * x.tx.rcnt + 2 ^ 48 * x.tx.acode.toNat)),
         (0x15, x.tokv), (0x16, x.tokpc), (0x17, BitVec.ofNat 64 (bit x.af + 2 * bit x.ef + 4 * bit x.hmode)),
         (0x18, core.tags), (0x19, core.tagb), (0x1A, core.tage), (0x80, BitVec.ofNat 64 (t.newL1.getD t.l1sz)),
         (0x81, (t.newSwz.getD t.swz).setWidth 64), (0x82, core.svcmap.setWidth 64), (0x83, core.wdog.setWidth 64)],
         s.special p.1 = some p.2) ∧
      (∀ j, (j < 7 → s.special (0x20 + j) = some (x.getM (j + 1))) ∧ (j < 8 → s.special (0x30 + j) = t.geom[j]?) ∧
        (j < 16 → s.special (0x40 + j) = t.tring[j]?) ∧
        (¬(j ≤ 3 ∨ 0x10 ≤ j ∧ j ≤ 0x1A ∨ 0x20 ≤ j ∧ j ≤ 0x26 ∨ 0x30 ≤ j ∧ j ≤ 0x37 ∨ 0x40 ≤ j ∧ j ≤ 0x4F ∨
          0x80 ≤ j ∧ j ≤ 0x83) → s.special j = none)))) ∧
  (∀ (d : BitVec 5) (s r t : State) (w : Word), ctxNo s.cur = 0 → Reads d r w t →
     let til := t.myTil
     let size := (t.til til).spadSize
     let quiet := t.inFlight til = false ∧ (t.til til).newL1 = none ∧ (t.til til).newSwz = none
     (Ready (.lsplitWrite d) s r → let n := w.toNat % 16
       let new := 2 ^ 20 - 65536 * n
       let grows := n ≤ 8 ∧ (new < size → ∀ g ∈ (t.til til).spad, g.off + g.len ≤ new)
       (¬grows → exec (.lsplitWrite d) s = .next t.past) ∧
       (grows → quiet → ∃ u, exec (.lsplitWrite d) s = .next u ∧ SplitAt til n t u) ∧
       (grows → t.inFlight til = true →
         exec (.lsplitWrite d) s = .next (t.modTil til (fun x => { x with newL1 := some n })).past)) ∧
     (Ready (.swzWrite d) s r →
       let new := w.extractLsb' 0 16
       (quiet → ∃ u, exec (.swzWrite d) s = .next u ∧ SwizzledTo til new t u) ∧
       (t.inFlight til = true →
         exec (.swzWrite d) s = .next (t.modTil til (fun x => { x with newSwz := some new })).past)) ∧
     (∀ n new, s.inFlight til = false →
       ((s.til til).newL1 = some n → (s.til til).newSwz = none → SplitAt til n s (s.resize til)) ∧
       ((s.til til).newL1 = none → (s.til til).newSwz = some new → SwizzledTo til new s (s.resize til))) ∧
     (Ready (.svcmapWrite d) s r → exec (.svcmapWrite d) s =
       .next (t.modCore t.myCore (fun k => { k with svcmap := w.extractLsb' 0 16 &&& 0x7FFE })).past) ∧
     (Ready (.wdogWrite d) s r → exec (.wdogWrite d) s =
       .next (t.modCore t.myCore (fun k => { k with wdog := w.extractLsb' 0 16 })).past)) ∧
  (∀ (d a b : BitVec 5) (i : BitVec 1) (s r t u v : State) (c n : Word),
     (Ready (.pcnt d b i) s r → ReadsB i b r n t → Writes d t (t.counterValue t.cur n.toNat) v →
       exec (.pcnt d b i) s = .next v.past) ∧
     (Ready (.pcntCtx d a b i) s r → ctxNo s.cur = 0 → Reads a r c t → ReadsB i b t n u →
       Writes d u (u.counterValue (u.myCore * 16 + c.toNat % 16) n.toNat) v → exec (.pcntCtx d a b i) s = .next v.past) ∧
     (∀ e j, let x := s.ctx e
       let t := s.til (e / 64)
       let die := s.die (dieOfTil (e / 64))
       (j < 16 → s.counterValue e j = ((x.cnt[j]?).getD 0).setWidth 64) ∧
       (∀ p ∈ [(32, (x.cnt[16]?).getD 0), (33, (x.cnt[17]?).getD 0), (64, t.stalerep), (65, t.spcecc), (66, t.spuecc),
         (67, t.migref), (68, t.wtovf), (69, t.pccomp), (70, t.leasearb), (80, die.budget.setWidth 48), (81, die.withheld),
         (82, die.droopev), (83, die.droopcyc), (84, die.throt.setWidth 48), (85, die.throtcyc), (86, die.l2cecc), (87, die.hbmcecc),
         (88, die.hbmuecc)], s.counterValue e p.1 = p.2.setWidth 64) ∧
       (16 ≤ j ∧ j < 32 ∨ 34 ≤ j ∧ j < 64 ∨ 71 ≤ j ∧ j < 80 ∨ 89 ≤ j → s.counterValue e j = 0)))

/-! ### Launches -/

/-- R94, R115 to R118: LAUNCH appends the record's address to a queue of its partition that is enabled for user entries and
has room, at the slot of TAIL, which moves on; a queue that is not enabled for them, or is malformed, answers 2, a full one 1,
and one of another partition 3. The descriptor stands at `queueDesc`, which is log 8, and that any other PART byte gives 3 is
log 55. DONE adds to COMPLETED of a well-formed level above a strand's and gives the sum; CANCEL sets the cancel flag of a level
that has not ended and notifies the four distributors, and answers 2 for one that has, be its cancel flag set or not, which is the
model's choice where two rows of R118 hold (log 23). R119 to R121: LCNT gives COMPLETED, EXPECTED or the status word of a level,
LWAIT the status word once the level has ended or has reached its threshold, and waits otherwise; PLACE by the steward
acknowledges a placement of its partition, and answers 1 for an identifier that none of its partition has, be it another's, which
is the model's choice too (log 23). -/
def Obligations.Launches : Prop :=
  (∀ (d a b : BitVec 5) (i : BitVec 1) (s r t u v w z : State) (va n : Word) (l : Lane), Reads a r va t →
     (Ready (.launch d a b) s r → Reads b t n u → va.toNat < 2 ^ 52 → va.toNat % 64 = 0 →
       let me := u.partOf u.myTil
       let desc := queueDesc n.toNat
       let mine := n.toNat < 131072 ∧ u.rd (desc + 10) 1 = me ∧ u.queueOwner n.toNat = some me
       (131072 ≤ n.toNat ∨ u.rd (desc + 10) 1 ≠ me → Writes d u (failCode 3) z → exec (.launch d a b) s = .next z.past) ∧
       (mine → u.qMode desc % 4 ≠ 3 ∨ u.descBad desc = true → Writes d u (failCode 2) z → exec (.launch d a b) s = .next z.past) ∧
       (mine → u.qMode desc % 4 = 3 → u.descBad desc = false → 2 ^ u.qLog desc ≤ u.qLen desc → Writes d u (failCode 1) z →
         exec (.launch d a b) s = .next z.past) ∧
       (mine → u.qMode desc % 4 = 3 → u.descBad desc = false → u.qLen desc < 2 ^ u.qLog desc →
         let slot := u.qSlot desc (u.qTail desc)
         slot < 2 ^ 52 → translateLanes .store 8 [(0, BitVec.ofNat 64 slot, .global slot)] u = .ok ([l], v) →
         strandStore false l (bytesOfNat 8 va.toNat) v = .ok ((), w) →
         Writes d (w.qPut desc me 16 8 ((w.qTail desc + 1) % 2 ^ 64)) 0 z → exec (.launch d a b) s = .next z.past)) ∧
     (Ready (.done d a b i) s r → ReadsB i b t n u → objectLane .atomic va u = .ok (l, v) → v.poisoned l.loc 64 = false →
       (v.lvBad l.loc = true → Writes d v (failCode 2) z → exec (.done d a b i) s = .next z.past) ∧
       (v.lvBad l.loc = false → v.lvLevel l.loc = 1 → Writes d v (failCode 3) z → exec (.done d a b i) s = .next z.past) ∧
       (v.lvBad l.loc = false → v.lvLevel l.loc ≠ 1 →
         let added := if n = 0 then v else v.lvAdd (v.partOf v.myTil) v.myTil l.loc n.toNat
         Writes d (added.acquire added.myTil 4) (BitVec.ofNat 64 (v.lvCompleted l.loc + n.toNat)) z →
         exec (.done d a b i) s = .next z.past)) ∧
     (Ready (.cancel d a) s r → objectLane .atomic va t = .ok (l, v) → v.poisoned l.loc 64 = false →
       (v.lvBad l.loc = true → Writes d v (failCode 2) z → exec (.cancel d a) s = .next z.past) ∧
       (v.lvBad l.loc = false → v.lvTerminal l.loc = false → v.lvCancelled l.loc = false →
         Writes d ((v.lvOr (v.partOf v.myTil) l.loc 1).noticeCancel (v.partOf v.myTil) l.loc) 0 z →
         exec (.cancel d a) s = .next z.past) ∧
       (v.lvBad l.loc = false → v.lvTerminal l.loc = false → v.lvCancelled l.loc = true → Writes d v 1 z →
         exec (.cancel d a) s = .next z.past) ∧
       (v.lvBad l.loc = false → v.lvTerminal l.loc = true → Writes d v 2 z → exec (.cancel d a) s = .next z.past))) ∧
  (∀ (d a b : BitVec 5) (i : BitVec 1) (s r t u v z : State) (va n : Word) (l : Lane) (o : List Byte), Reads a r va t →
     (readObject va t = .ok ((l, some o), v) →
       (Ready (.lcntCmp d a) s r → Writes d v (BitVec.ofNat 64 (numAt o 8 8)) z → exec (.lcntCmp d a) s = .next z.past) ∧
       (Ready (.lcntExp d a) s r → Writes d v (BitVec.ofNat 64 (numAt o 0 8)) z → exec (.lcntExp d a) s = .next z.past) ∧
       (Ready (.lcntSt d a) s r → Writes d v (lvStatus o) z → exec (.lcntSt d a) s = .next z.past)) ∧
     (readObject va t = .ok ((l, none), v) → Writes d v (failCode 2) z →
       (Ready (.lcntCmp d a) s r → exec (.lcntCmp d a) s = .next z.past) ∧
       (Ready (.lcntExp d a) s r → exec (.lcntExp d a) s = .next z.past) ∧
       (Ready (.lcntSt d a) s r → exec (.lcntSt d a) s = .next z.past)) ∧
     (Ready (.lwait d a b i) s r → ReadsB i b t n u → readObject va u = .ok ((l, some o), v) →
       (terminal (numAt o 25 1) = true ∨ (n ≠ 0 ∧ n.toNat ≤ numAt o 8 8) → Writes d v (lvStatus o) z →
         exec (.lwait d a b i) s = .next z.past) ∧
       (terminal (numAt o 25 1) = false → n = 0 ∨ numAt o 8 8 < n.toNat → s.me.tx.active = false →
         exec (.lwait d a b i) s = .next (s.sleepOn s.cur 5 [.line (l.loc / 64)] []))) ∧
     (Ready (.place d a b) s r → ctxNo s.cur = 0 → Reads b t n u →
       (u.placed (u.partOf u.myTil) (va.toNat % 2 ^ 32) = none → Writes d u (failCode 1) z →
         exec (.place d a b) s = .next z.past) ∧
       (∀ x y, u.placed (u.partOf u.myTil) (va.toNat % 2 ^ 32) = some (x, y) →
         Writes d (u.acknowledge x y (n.getLsbD 63)) 0 z → exec (.place d a b) s = .next z.past)))

/-- The messages for a core's steward box in their order: those in it, then those that its senders hold (R382). -/
def Sys2Proof.Machine.State.mail (s : State) (k : Nat) : List Msg :=
  (s.core k).box 0 ++ ((s.core k).held.filter (fun h => h.1 == 0)).map (·.2)

/-- The messages that the replicas of a launch on one core are sent, in replica order. -/
def Sys2Proof.Machine.Launch.letters (l : Launch) (k : Nat) (f : Replica → Nat → Option Msg) : List Msg :=
  l.reps.filterMap (fun r => r.cid.bind (fun c => if coreOf c = k then f r c else none))

/-- A launch ranks before another: by priority, then by age (R105, R107). -/
def Sys2Proof.Machine.State.Before (s : State) (a b : Launch) : Prop :=
  b.record.prio < a.record.prio ∨ (b.record.prio = a.record.prio ∧ s.age b < s.age a)

/-- What a cancel makes of one launch, by how far it has got (R113): nothing where its object cannot be reached or is terminal;
its reservation complete, CANCEL set and kill requests sent; else it is removed, and its object completes. -/
def Sys2Proof.Machine.CancelOne (l : Launch) (s t : State) : Prop :=
  (s.launches.find? (fun m => m.id == l.id) = none → t = s) ∧
  ∀ m, s.launches.find? (fun m => m.id == l.id) = some m →
    (s.objAt m.part m.til m.record.obj = none → t = s) ∧
    ∀ o, s.objAt m.part m.til m.record.obj = some o →
      (m.at_ = .complete → s.lvTerminal o = true → t = s) ∧
      (m.at_ = .complete → s.lvTerminal o = false → t = (s.lvOr m.part o 1).killReplicas m) ∧
      (m.at_ ≠ .complete → t = (s.dropLaunch m).cancelObj m.part m.til o)

/-- As `CancelOne` for each launch of a list in turn. -/
def Sys2Proof.Machine.CancelAll : List Launch → State → State → Prop
  | [], s, t => t = s
  | l :: r, s, t => ∃ u, CancelOne l s u ∧ CancelAll r u t

/-- R94, R95, R105, R107 to R110, R112 to R114: the steps of a distributor. It takes the entry at a queue's HEAD, which moves on,
and enters its launch or counts an error; a launch whose dependences are met enters its bank with its cycle of entry. An attempt
skips launches whose slot is taken and dispatches the oldest launch that has aged; with none, it looks at the heads of two banks
that free values choose with replacement, leaves out those that are not eligible, which it counts as withheld, and dispatches the
one of higher priority, or the older; with none left it dispatches nothing. The head of a bank is a launch that nothing in the
bank ranks before, or among those whose reservations gave way (R112) one that none of them ranks before. A local launch occupies
its die's slot with its MINREP replicas in stage order and then the further ones. A reservation takes its next share when it fits,
that of a spanning launch where the die has the energy for it or the launch has aged, and with the last it is complete: each
replica's core is sent a placement message with its identifier, the context, the TILE flag and the near address of the spawn
block, whose fields come from the record. A launch that is seen to be cancelled as it takes a share, be it the last, is released;
a placement message that a full box holds up counts as sent; a kill request names the generation that a context not yet spawned
will have; several launches that R112 has released stand in the order of priority and age: all of that is the model's choice (log
23). A cancel notice meets each launch of the die whose chain holds the object: one that holds no complete reservation leaves with
all that it was granted, and its object ends CANCELLED; the replicas of another are sent kill requests. That the descriptor stands
at `queueDesc` is log 8; which of two launches that are equal in priority and age goes first is log 55 and nothing here rests on
it. -/
def Obligations.DistributorSteps : Prop :=
  ∀ (s t : State) (q p e pa die : Nat) (ent : Word) (l : Launch),
    (let d := queueDesc q
     let moved := s.qPut d p 24 8 ((s.qHead d + 1) % 2 ^ 64)
     s.queueOwner q = some p → s.qMode d % 2 = 1 → s.rd (d + 10) 1 = p → s.descBad d = false → 0 < s.qLen d →
     s.qLen d ≤ 2 ^ s.qLog d → s.pooled (q / 2 ^ 15) < 4096 →
     s.devXlate p (distTil (q / 2 ^ 15)) (s.qSlot d (s.qHead d)) .load = .ok (pa, ent) → s.poisoned pa 8 = false →
     s.rd pa 8 = e →
     (moved.entryRecord p (distTil (q / 2 ^ 15)) e = none →
       exec (.queueEntryTake q) s = .next ((moved.qErr d p).qPut d p 40 8 e)) ∧
     (∀ bs o, moved.entryRecord p (distTil (q / 2 ^ 15)) e = some (bs, o) →
       exec (.queueEntryTake q) s = .next (moved.enterPool p q e o bs))) ∧
    (s.launches.find? (fun m => m.id == l.id) = some l →
      (l.at_ = .pool → s.depsMet l = true → s.chainCancelled l.part l.til l.record = false →
        exec (.launchReady l.id) s =
          .next ((s.modLaunch l.id (fun l => { l with at_ := .bank, since := s.dieCycle (l.queue / 2 ^ 15) })).giveWay l)) ∧
      (∀ rest, l.at_ = .slot → l.shares = die :: rest →
        (l.spanning = true → s.eligible l die = false → s.age l < 65536 → exec (.shareReserve l.id) s = .next s) ∧
        (l.spanning = false ∨ s.eligible l die = true ∨ 65536 ≤ s.age l →
          (s.takeShare l die = none → exec (.shareReserve l.id) s = .next s) ∧
          (s.takeShare l die = some t →
            (t.chainCancelled l.part l.til l.record = true → exec (.shareReserve l.id) s = .next (t.cancelLaunch l)) ∧
            (t.chainCancelled l.part l.til l.record = false → exec (.shareReserve l.id) s =
              .next (if rest.isEmpty then t.completeLaunch l.id else t.laterOnce (.shareReserve l.id))))))) ∧
    (let u := s.retryShares
     let ls := u.launches.filter (fun l => l.at_ == .bank && l.queue / 2 ^ 15 == die && !u.slotTaken l)
     let banks := (ls.map (fun l => bankOf l.queue)).eraseDups
     let drawn := ([u.nonce, u.nonce + 1].filterMap (fun n => banks[Config.freeNat n % banks.length]?)).eraseDups
     let heads := drawn.filterMap (fun b => u.head (ls.filter (fun l => bankOf l.queue == b)))
     let good := heads.filter (fun l => decide (l.record.energy ≤ (u.die die).budget.toNat))
     let v := if good.length < heads.length then u.tick.tick.modDie die (fun d => { d with withheld := d.withheld + 1 })
       else u.tick.tick
     (∀ l ∈ ls, 65536 ≤ u.age l → (∀ m ∈ ls, m ≠ l → u.age m < u.age l) → exec (.dispatchAttempt die) s = .next (u.dispatch l)) ∧
     ((∀ m ∈ ls, u.age m < 65536) →
       (good = [] → exec (.dispatchAttempt die) s = .next v) ∧
       (∀ l ∈ good, (∀ m ∈ good, m ≠ l → u.Before l m) → exec (.dispatchAttempt die) s = .next (v.dispatch l)))) ∧
    (∀ ls : List Launch, (ls ≠ [] → ∃ h, s.head ls = some h) ∧ ∀ h, s.head ls = some h →
      h ∈ ls ∧ ((∃ m ∈ ls, m.front = true) → h.front = true) ∧
      ∀ m ∈ ls, (h.front = true → m.front = true) → ¬ s.Before m h) ∧
    (s.launches.find? (fun m => m.id == l.id) = some l → s.chainCancelled l.part l.til l.record = false →
      (∀ g ∈ l.record.stages, g.minrep ≤ g.maxrep ∧ g.maxrep ≤ 16) →
      ∃ m, (s.dispatch l).launches.find? (fun m => m.id == l.id) = some m ∧ m.at_ = .slot ∧ m.front = false ∧
        m.record = l.record ∧ .shareReserve l.id ∈ (s.dispatch l).agenda ∧ (∀ r ∈ m.reps, r.cid = none ∧ r.sent = false) ∧
        (l.isLocal = true → m.spanning = false ∧ m.shares = [l.queue / 2 ^ 15] ∧ (∀ r ∈ m.reps, r.die = l.queue / 2 ^ 15) ∧
          m.reps.map (fun r => (r.stage, r.idx, r.needed)) =
            l.record.stages.zipIdx.flatMap (fun g => (List.range g.1.minrep).map (fun j => (g.2, j, true))) ++
            l.record.stages.zipIdx.flatMap (fun g => (List.range (g.1.maxrep - g.1.minrep)).map (fun j =>
              (g.2, g.1.minrep + j, false)))) ∧
        (l.isLocal = false → m.spanning = true ∧ m.shares.Pairwise (· < ·) ∧
          (∀ d, d ∈ m.shares ↔ d < 4 ∧ ∃ r ∈ m.reps, r.die = d))) ∧
    (s.launches.find? (fun m => m.id == l.id) = some l →
      (∃ m, (s.completeLaunch l.id).launches.find? (fun m => m.id == l.id) = some m ∧ m.at_ = .complete ∧
        m.reps = l.reps.map (fun r => { r with sent := true })) ∧
      ∀ k, (s.completeLaunch l.id).mail k = s.mail k ++ l.letters k (fun r c => some
        { header := header 3 32 0x3FF 0 0
          body := bodyOf [(0, 4, l.pid r), (4, 1, ctxNo c), (5, 1, bitsIf (l.record.tiled r.stage) 0),
            (8, 8, (nearAddr (tilOf c) r.block).toNat)] })) ∧
    (∀ r g, l.record.stages[r.stage]? = some g → let b := l.spawnBlock r
      b.length = 256 ∧ numAt b 0 8 = g.entry.toNat ∧ numAt b 8 8 = l.lrec % 2 ^ 64 ∧
      (l.record.arg ≠ 0 → numAt b 16 8 = l.record.arg.toNat) ∧ (l.record.arg = 0 → g.spad = 0 → numAt b 16 8 = 0) ∧
      numAt b 32 8 = g.fmt.toNat ∧ numAt b 40 8 = g.scla.toNat ∧ numAt b 48 8 = g.sclb.toNat) ∧
    (∃ u, exec (.cancelNotice die p e) s = .next u ∧
      CancelAll (s.launches.filter (fun l => l.queue / 2 ^ 15 == die && l.part == p &&
        l.record.chain.any (fun y => s.objAt l.part l.til y.1 == some e))) s u) ∧
    ((∀ m ∈ (s.dropLaunch l).launches, m.id ≠ l.id) ∧
      ∀ n, ∀ g ∈ ((s.dropLaunch l).til n).spad, g.launch ≠ l.id) ∧
    (s.memOk → s.lvTerminal e = false → s.lvParent e = 0 → (s.cancelObj p q e).lvState e = 4) ∧
    (l.doomed = false → ∀ k, (s.killReplicas l).mail k = s.mail k ++ l.letters k (fun r c =>
      let x := s.ctxIn l.part c
      let gen := if x.life = .free then x.gen + 1 else x.gen
      if r.gone then none else some
        { header := header 4 32 0x3FF 0 0
          body := bodyOf [(0, 4, l.part * 2 ^ 28 + c * 2 ^ 12 + gen.toNat), (8, 8, l.record.obj)] }))

/-! ### Steps of the device -/

/-- R17, R78, R166, R176, R193, R196, R221, R222, R255 to R259, R382, R402, R411, R437: what befalls a strand from outside. A
STARTING one that waits for nothing runs; one asleep wakes with its keys withdrawn, and a wake for a context that is FREE or
EXITED, or of another generation, is dropped and counted. A change notice sends a wake to every context registered for its key,
restarts every attempt of the tiller that holds the key without the token, marks the one that holds both, and leaves the others as
they are; that NCONF stays 4 at a further conflict is the model's choice (log 55). A fault reply makes a strand go on, or trap
with ADDR at the address; the watchdog makes a user's strand trap with WATCHDOG, and sends an event for another, which waits on
(log 57). Messages that were held enter their box as far as it has room, in the order in which they were sent, and with none held
any more those who wait to post into it go on. A migrant lands in its home context, which runs at the pc it brings, queues up
where there is room, is refused with the next ticket where there is none or others wait before it, and is sent again, with its
ticket and registers, when its ticket is called. It lands in the time that R256 gives on an idle package, and what idle means is
the model's choice (log 11). A kill request ends it where it is (log 36 for its REAP status). -/
def Obligations.StrandSteps : Prop :=
  ∀ (s : State) (c til k b : Nat) (key : Key),
    ((s.ctx c).life = .starting → (s.ctx c).wait = .none →
      exec (.strandStart c) s = .next (s.modCtx c (fun x => { x with life := .running }))) ∧
    (∀ g : BitVec 12, (s.ctx c).life = .free ∨ (s.ctx c).life = .exited ∨ (s.ctx ((s.ctx c).home.getD c)).gen ≠ g →
      exec (.strandWake (c, g)) s = .next (s.modTil (tilOf c) (fun t => { t with stalerep := t.stalerep + 1 }))) ∧
    ((s.ctx c).life = .running → (∃ keys, (s.ctx c).wait = .retry keys ∨ ∃ cause, (s.ctx c).wait = .sleep cause keys) →
      ∃ t, exec (.strandWake (c, (s.ctx ((s.ctx c).home.getD c)).gen)) s = .next t ∧ t.ctx c = { s.ctx c with wait := .none, slept := 0 } ∧
        ∀ w ∈ (t.til (tilOf c)).wake, c ∉ w.ctxs) ∧
    (s.tablesOk → ∃ t, exec (.changeNotice til key) s = .next t ∧ t.mem = s.mem ∧
      (∀ w ∈ (s.til til).wake, w.key = regKey key → ∀ x ∈ w.ctxs, .strandWake (x, s.genOf x) ∈ t.agenda) ∧
      (∀ w ∈ (s.til til).buckets, w.index = bucketOf key → ∀ x ∈ w.ctxs, .strandWake (x, s.genOf x) ∈ t.agenda) ∧
      (let holds := tilOf c = til ∧ (s.ctx c).tx.active = true ∧ key ∈ (s.ctx c).tx.reads
       (holds → (s.ctx c).tx.sole = false → (t.ctx c).tx.active = false ∧ (t.ctx c).pc = (s.ctx c).tx.txbpc ∧
         (t.ctx c).tx.cause = 1 ∧ (t.ctx c).tx.nconf = Nat.min 4 ((s.ctx c).tx.nconf + 1) ∧ (t.ctx c).tx.reads = []) ∧
       (holds → (s.ctx c).tx.sole = true → (t.ctx c).tx.active = true ∧ (t.ctx c).tx.marked = true ∧
         (t.ctx c).pc = (s.ctx c).pc ∧ (t.ctx c).tx.reads = (s.ctx c).tx.reads) ∧
       (¬ holds → (t.ctx c).tx.active = (s.ctx c).tx.active ∧ (t.ctx c).pc = (s.ctx c).pc ∧
         (t.ctx c).tx.reads = (s.ctx c).tx.reads ∧ (t.ctx c).life = (s.ctx c).life))) ∧
    (∀ (kind : Acc) (lane act : Nat) (va : Word) (body : Body), (s.ctx c).wait = .fault kind lane va → (s.ctx c).life = .running →
      cidOfSid (BitVec.ofNat 32 (Body.field body 0 4)) = c → s.sidLive (BitVec.ofNat 32 (Body.field body 0 4)) = true →
      Body.field body 4 1 = act → Body.field body 5 11 = 0 →
      (act = 0 → exec (.faultReply (tilOf c) body) s = .next (s.modCtx c (fun x => { x with wait := .none }))) ∧
      (act = 1 → exec (.faultReply (tilOf c) body) s = .next (let t := s.modCtx c (fun x => { x with wait := .none })
        t.takeTrap c Cause.addr lane va (if kind = .fetch then 0 else t.wordAt c))) ∧
      (1 < act → exec (.faultReply (tilOf c) body) s = .next (s.modTil (tilOf c) (fun t => { t with stalerep := t.stalerep + 1 })))) ∧
    (s.overdue c = true → (s.ctx c).home = none → privileged c = false →
      ∃ t, exec (.watchdogExpire c) s = .next t ∧ (t.ctx c).life = .stopped ∧ (t.ctx c).s = (s.ctx c).s ∧
        (t.ctx c).pc = (s.ctx c).pc ∧ (s.boxRoom (coreOf c) 0 = true →
          Posted s t (coreOf c) 0 1 [(0, 4, (s.sid c).toNat), (4, 1, 13), (8, 8, (s.ctx c).pc.toNat)])) ∧
    (s.overdue c = true → privileged c = true → exec (.watchdogExpire c) s =
      .next ((s.modCtx c (fun x => { x with slept := 0 })).event 5 ((s.til (tilOf c)).part.getD 0xFF))) ∧
    (b < 3 →
      let mine := (s.core k).held.filter (fun h => h.1 == b)
      let n := boxCap b - ((s.core k).box b).length
      ∃ t, exec (.mailboxDelivery k b) s = .next t ∧ (t.core k).box b = (s.core k).box b ++ (mine.take n).map (·.2) ∧
        (t.core k).held.filter (fun h => h.1 == b) = mine.drop n ∧
        (t.core k).held.filter (fun h => h.1 != b) = (s.core k).held.filter (fun h => h.1 != b) ∧
        ((s.ctx c).wait = .post k b → (t.ctx c).wait = if mine.length < n then .none else .post k b)) ∧
    (∀ before m rest, let l := (s.til til).landing
      let now := (s.core (til * 4)).cycle.toNat
      let free := l.queue.length + l.reserved.length < 16 ∧ l.tserve = l.tnext
      let put := fun (l : Landing) => s.modTil til (fun t => { t with landing := { l with arriving := before ++ rest } })
      let then_ := fun (u : State) => (u.admitQueued til ((u.til til).landing.queue.length)).serve til
      l.arriving = before ++ m :: rest → m ∉ before → (∀ x ∈ before, now < x.due.toNat) → m.due.toNat ≤ now →
      m.doomed = false → (s.ctx m.home).life ≠ .killing →
      (tilOf m.home = til →
        ((s.ctx m.home).life ≠ .saved → exec (.migrantLand til) s = .next (then_ ((put l).enter m m.home))) ∧
        ((s.ctx m.home).life = .saved → exec (.migrantLand til) s = .next (then_ (put { l with queue := l.queue ++ [m] })))) ∧
      (tilOf m.home ≠ til → (s.core (coreOf m.home)).saving = none →
        (m.ticket ≠ 0 → m.ticket ∈ l.reserved → exec (.migrantLand til) s = .next (then_ (put { l with
          reserved := l.reserved.filter (fun n => n ≠ m.ticket), queue := l.queue ++ [m] }))) ∧
        (m.ticket = 0 → free → exec (.migrantLand til) s = .next (then_ (put { l with queue := l.queue ++ [m] }))) ∧
        (m.ticket = 0 → ¬free → exec (.migrantLand til) s = .next (then_ ((put l).refuse til m))))) ∧
    (∀ m : Migrant, let n := (s.til til).landing.tnext
      let t := s.refuse til m
      (t.ctx m.src).wait = .ticket ∧ (t.ctx m.src).ticket = n ∧ (t.ctx m.src).refused = some til ∧
      (t.til til).landing.tnext = (if n = BitVec.allOnes 32 then 1 else n + 1) ∧
      (t.til til).migref = (s.til til).migref + 1) ∧
    (∀ (m : Migrant), let t := s.enter m m.home
      m.src = m.home → (t.ctx m.home).life = .running ∧ (t.ctx m.home).pc = m.pc ∧ (t.ctx m.home).away = none ∧
        ∀ j, j < 15 → (t.ctx m.home).getS (j + 1) = (m.s[j]?).getD 0) ∧
    (∀ x, s.tablesOk → tget s.ctxs c = some x → x.wait = .ticket → x.refused = some til →
      x.ticket ∈ (s.til til).landing.reserved →
      (∀ e y, tget s.ctxs e = some y → y.wait = .ticket → y.refused = some til → y.ticket ∈ (s.til til).landing.reserved →
        e = c) →
      let t := s.depart c til false
      exec (.migrantRecall til) s = .next t ∧ (t.ctx c).life = .migrated ∧ (t.ctx (s.homeOf c)).away = some til ∧
      ∃ m, (t.til til).landing.arriving = (s.til til).landing.arriving ++ [m] ∧ m.home = s.homeOf c ∧ m.src = c ∧
        m.ticket = x.ticket ∧ m.pc = x.pc ∧ m.target = til ∧ m.s = (List.range 15).map (fun j => x.getS (j + 1)) ∧
        let cross := dieOfTil (tilOf c) ^^^ dieOfTil til
        let far := fun (a b : Nat) => (a - b) + (b - a)
        let h := far (tilOf c / 16 % 16) (til / 16 % 16) + far (tilOf c % 16) (til % 16)
        (s.quiet = true → m.due = (s.core (tilOf c * 4)).cycle +
          BitVec.ofNat 64 ((if cross = 0 then 16 else if cross = 3 then 206 else 166) + 4 * h))) ∧
    ((s.ctx c).life = .killing → ∀ x, s.ctxs.find? (fun p => p.2.home == some c && p.2.life == .running) = some (k, x) →
      exec (.migrantKill c) s = .next (((s.cancelTicket k).leaveHost k).migrantDead c 16))

/-- Another module asks nothing of a ring next. -/
def Sys2Proof.Machine.State.Unasked (s : State) (ring : Nat) : Prop :=
  ∀ q rest, s.port.inbox = q :: rest → match q with
    | .peerElement _ ref _ _ => refRing ref ≠ ring
    | .peerCredit _ ref _ => refRing ref ≠ ring
    | .peerReturn _ ref _ => refRing ref ≠ ring
    | .peerReserve _ ref _ _ => refRing ref ≠ ring
    | _ => True

/-- Elements of a ring's extension move into its window one by one, until none may or so many have. -/
def Sys2Proof.Machine.MovesIn (ring : Nat) : Nat → State → State → Prop
  | 0, s, t => t = s
  | n + 1, s, t => (s.moveOne ring = none ∧ t = s) ∨ ∃ u, s.moveOne ring = some u ∧ MovesIn ring n u t

/-- An element of the extension goes into a window slot, which holds it, its sequence number and its group then (R126, R127). -/
def Sys2Proof.Machine.MovesTo (s t : State) (ring slot grp : Nat) (e : ExtElem) : Prop :=
  (t.ringX ring).ext = (s.ringX ring).ext.filter (fun f => f.seq ≠ e.seq) ∧
  (t.ringX ring).pubd = (s.ringX ring).pubd ++ [e.seq] ∧
  let tag := s.rBase ring + s.rWidth ring * s.rDepth ring + 8 * slot
  (t.rd (s.rBase ring + s.rWidth ring * slot) (s.rWidth ring) = e.x.data.toNat % 2 ^ (8 * s.rWidth ring)) ∧
  t.rd tag 4 = e.seq ∧ t.rd (tag + 4) 1 = (if e.x.awn then 3 else 1) ∧ t.rd (tag + 6) 2 = grp % 2 ^ 16

/-- The element that comes first from the extension of an XORD ring: the first in delivery order of those with a place, else the
lowest number where the window has no more than its share of the others (R144). -/
def Sys2Proof.Machine.ComesFirst (y : Ring) (depth : Nat) (e : ExtElem) : Prop :=
  (∃ a b, y.order = a ++ e.seq :: b ∧ ∀ f ∈ y.ext, f.seq ∉ a) ∨
  ((∀ f ∈ y.ext, f.seq ∉ y.order) ∧ y.looseInWindow + 1 ≤ (depth + 1) / 2 ∧ ∀ f ∈ y.ext, f ≠ e → 0 < sdiff f.seq e.seq)

/-- R129, R130, R135, R142, R146, R147, R150, R151, R351 to R353, R387: the units at channel ends. An element in flight
reaches its ring, whose grant it uses up; elements move from extension to window; a waiting producer gets a credit; a fetch of
a reference engine returns the value at its address; a stream delivers and stores its next element; the merge unit takes its
step from two heads; MRGC gives, and clears, its counters. R317, R335: the tile unit stages, block by block and A first, what
is not staged yet of the operands of the multiply that a strand with the lease and the accumulator has next; the pattern
compiler takes the entry that was requested first, while it compiles none, and counts it; a compilation that is due ends with
its result. R130, R144: an element moves from the extension where its number falls into the window, or on an XORD ring into a free
slot in delivery order. R351, R352: what the merge unit does with two heads. R332, R334, R335: what a compilation comes to. The
model's choices in this: how far a stream reads ahead (log 17), to whom and how much a grant gives, and that an element moves as it
was sent (log 16), what another module is sent and gives, and which end is cut off from it (log 54), when a byte of a block is read
(log 22), how long a compilation lasts (log 40), and which index the next of an input is held against (log 55). -/
def Obligations.UnitSteps : Prop :=
  (∀ (s : State) (c e til ring : Nat),
     (∀ x g deal dealt seq due rest, s.Unasked ring →
       s.flights = { ring := ring, cid := c, cargo := .elem x g deal dealt seq, due := due } :: rest →
       let t := { s with flights := rest }
       (isXring ring = false → s.diverted ring = true → s.spillCap (s.partOf (ringTil ring)) <
         s.spillUsed (s.partOf (ringTil ring)) + (if s.rVector ring then 72 else 16) → exec (.elementArrival ring) s = .next s) ∧
       (isXring ring = false → s.diverted ring = false → seq = none → exec (.elementArrival ring) s =
         .next { (({ t.rPut ring 44 (t.rGrant ring - 1) with due := due } : State).ringEnqueue ring c x g deal dealt) with
           due := s.due }) ∧
       (isXring ring = true → s.portDown (xringModule ring) = true → exec (.elementArrival ring) s = .next s) ∧
       (isXring ring = true → s.portDown (xringModule ring) = false →
         exec (.elementArrival ring) s =
           .next (t.modPort (fun p => { p with peerOut := p.peerOut ++ [.elem ring seq x] })))) ∧
     (∀ m ref x rest, s.port.inbox = .peerElement m ref none x :: rest → refRing ref = ring → s.portDown m = false →
       (∀ f ∈ s.flights, f.ring ≠ ring) → s.diverted ring = false → isXring ring = false →
       let t := (s.modPort (fun p => { p with inbox := rest })).later (.elementArrival ring)
       exec (.elementArrival ring) s =
         .next { (t.rPut ring 44 (t.rGrant ring - 1)).ringEnqueue ring (peerCid m) x none none false with due := s.due }) ∧
     (∀ x : Cargo, isXring ring = true →
       let cut := ∃ p ∈ s.port.failures.drop ((s.ctx c).boundAt.toList.getD e 0), ∃ q ∈ s.port.peers,
         q.1 = xringModule ring ∧ q.2.1 = p
       (cut → s.sendFar c e ring x = s) ∧ (¬cut → s.sendFar c e ring x = s.launchCargo ring c x)) ∧
     (∀ t, MovesIn ring (s.ringX ring).ext.length s t →
       ((t.ringX ring).ext.length ≠ (s.ringX ring).ext.length → exec (.extensionMove ring) s = .next (t.changeChan ring)) ∧
       ((t.ringX ring).ext.length = (s.ringX ring).ext.length → exec (.extensionMove ring) s = .next s)) ∧
     (s.rXord ring = false → let falls := fun (f : ExtElem) => sdiff f.seq (s.rLow ring) < s.rDepth ring
       ((∀ f ∈ (s.ringX ring).ext, ¬falls f) → s.moveOne ring = none) ∧
       (∀ a f b, (s.ringX ring).ext = a ++ f :: b → (∀ g ∈ a, ¬falls g) → falls f → 0 < s.rDepth ring → s.memOk →
         f.seq < 2 ^ 32 → ∃ t, s.moveOne ring = some t ∧ MovesTo s t ring (f.seq % s.rDepth ring) 0 f ∧
           (t.ringX ring).slots = (s.ringX ring).slots)) ∧
     (s.rXord ring = true → let y := s.ringX ring
       let taken := fun k => ∃ p ∈ y.slots, p.1 = k
       ((∀ k, k < s.rDepth ring → taken k) → s.moveOne ring = none) ∧
       ((∀ f ∈ y.ext, f.seq ∉ y.order) → (s.rDepth ring + 1) / 2 ≤ y.looseInWindow → s.moveOne ring = none) ∧
       (∀ k f, k < s.rDepth ring → ¬taken k → (∀ j, j < k → taken j) → f ∈ y.ext → (y.ext.map (·.seq)).Nodup →
         ComesFirst y (s.rDepth ring) f → s.memOk → f.seq < 2 ^ 32 →
         ∃ t, s.moveOne ring = some t ∧ MovesTo s t ring k (f.grp.getD 0) f ∧
           (t.ringX ring).slots = y.slots ++ [(k, f.seq)])) ∧
     ((s.ringX ring).waiters = [(c, e)] → (s.ringX ring).dry = [(c, e)] → isXring ring = false → 0 < s.rFree ring →
       s.rXord ring = false → s.tokenOn c ring = false → c < 2 ^ 16 → s.Unasked ring → (s.ringX ring).geo ≠ none →
       let t := (s.setCredit c e ring (s.credit c e ring + 1)).rPut ring 44 (s.rGrant ring + 1)
       let u := t.changeChan (t.endLoc c e)
       (u.ctx c).asleep = false → u.rXord ring = false → u.diverted ring = false →
       (u.ringX ring).waiters = [(c, e)] → (u.ringX ring).dry = [(c, e)] →
       u.credit c e ring ≠ 0 → exec (.creditGrant ring) s = .next (u.setRing { u.ringX ring with waiters := [], dry := [] })) ∧
     (∀ r va rest pa ent, (s.til (tilOf c)).refs.find? (fun r => r.cid == c && r.idx == e) = some r →
       r.fetches = .pending va :: rest → s.devXlate (s.partOf (tilOf c)) (tilOf c) va.toNat .load = .ok (pa, ent) →
       let n := if r.rsize = 0 then 4 else if r.rsize = 1 then 8 else 64
       s.poisoned pa n = false → exec (.engineFetchComplete c e) s = .next ((s.refDeliver { r with
         fetches := .done { awn := false, data := BitVec.ofNat 512 (s.rd pa n) } :: rest }).startQueued (tilOf c) r.eng 1)) ∧
     (∀ r va rest body, s.sidLive (BitVec.ofNat 32 (Body.field body 0 4)) = true →
       cidOfSid (BitVec.ofNat 32 (Body.field body 0 4)) = c → Body.field body 5 1 ≤ 1 → Body.field body 6 2 < 2 ^ 14 →
       Body.field body 8 8 = 0 →
       (s.til til).refs.find? (fun r => r.cid == c && r.desc == Body.field body 6 2 * 64 && r.eng == Body.field body 5 1) = some r →
       r.fetches = .faulted va :: rest →
       (Body.field body 4 1 = 0 → exec (.engineReply til body) s =
         .next ((s.refDeliver { r with fetches := .pending va :: rest }).later (.engineFetchComplete r.cid r.idx))) ∧
       (Body.field body 4 1 = 1 →
         exec (.engineReply til body) s =
           .next ((s.refDeliver { r with fetches := .done fetchFail :: rest }).startQueued til r.eng 1))) ∧
     (∀ b loc ent, s.streamOf c e = some b → b.stalled = false →
       let n := if 8 ≤ e then 64 else 8
       (b.write = false → b.ended = false → b.buf.length < 8 → s.spot (tilOf c) (b.addr b.pos) n .load = .at_ loc ent →
         s.poisoned loc n = false → exec (.streamReadElement c e) s =
           .next (s.streamDeliver b { awn := false, data := BitVec.ofNat 512 (s.rd loc n) })) ∧
       (∀ x rest, b.write = true → e < 16 → b.buf = x :: rest → s.spot (tilOf c) (b.addr b.pos) n .store = .at_ loc ent →
         exec (.streamStoreElement c e) s =
           .next ((s.devStore loc (s.partOf (tilOf c)) (bytesOfNat n x.data.toNat)).streamStored b))) ∧
     (∀ m x xs y ys, (s.til til).merge = some m → m.bufa = x :: xs → m.bufb = y :: ys → m.ina ≠ none → m.inb ≠ none →
       m.out ≠ none → m.bufo.length < 32 →
       let p := m.decide x y
       let d := locSpad til m.desc
       let last := fun (took : Bool) (q : Elem) (old : Option Nat) =>
         if took = false then old else if q.awn then none else if p.err then old else some q.index
       ∃ t m', exec (.mergeEmit til) s = .next t ∧ (t.til til).merge = some m' ∧ m'.bufo = m.bufo ++ p.emit.toList ∧
         m'.bufa = (if p.takeA then xs else m.bufa) ∧ m'.bufb = (if p.takeB then ys else m.bufb) ∧
         m'.lasta = last p.takeA x m.lasta ∧ m'.lastb = last p.takeB y m.lastb ∧
         (s.memOk → t.rd (d + 4) 4 = (s.rd (d + 4) 4 + if p.emit.isSome then 1 else 0) % 2 ^ 32 ∧
           t.rd (d + 8) 4 = (s.rd (d + 8) 4 + if p.err then 1 else 0) % 2 ^ 32)) ∧
     (∀ (d a : BitVec 5) (r v : State), let w := r.me.getBind a.toNat
       let loc := bindLoc r.cur w
       let counts := BitVec.ofNat 64 (r.rd (loc + 8) 4 * 2 ^ 32 + r.rd (loc + 4) 4)
       w ≠ 0 → bindKind w = 3 →
       (Ready (.mrgcStat d a) s r → Writes d r counts v → exec (.mrgcStat d a) s = .next v.past) ∧
       (Ready (.mrgcClr d a) s r → Writes d (r.devWr (loc + 4) 8 0) counts v → exec (.mrgcClr d a) s = .next v.past))) ∧
  (∀ (m : Merge) (a b : Elem),
     let i := fun (x : Elem) => x.data.toNat / 2 ^ 32 % 2 ^ 32
     let v := fun (x : Elem) => x.data.toNat % 2 ^ 32
     let pair := fun (n w : Nat) => ({ awn := false, data := BitVec.ofNat 512 (n * 2 ^ 32 + w) } : Elem)
     let mode := m.mmode.toNat % 4
     let low := fun (x : Elem) (last : Option Nat) => x.awn = false ∧ ∃ n, last = some n ∧ i x ≤ n
     let passed := fun (x : Elem) (flag : Nat) => if mode = 0 then some x else if mode = 1 then none else some (pair (i x) flag)
     (low a m.lasta → m.decide a b = { takeA := true, takeB := false, emit := none, err := true }) ∧
     (¬low a m.lasta → low b m.lastb → m.decide a b = { takeA := false, takeB := true, emit := none, err := true }) ∧
     (¬low a m.lasta → ¬low b m.lastb → mode ≤ 2 →
       (a.awn = true → b.awn = true → a.level = b.level → ∃ x : Elem, x.awn = true ∧ x.level = a.level ∧ x.code = a.code ∧
         m.decide a b = { takeA := true, takeB := true, emit := some x, err := false }) ∧
       (a.awn = true → b.awn = true → a.level ≠ b.level → m.decide a b =
         { takeA := decide (a.level < b.level), takeB := decide (b.level < a.level), emit := none, err := true }) ∧
       (a.awn = false → b.awn = true ∨ i a < i b → m.decide a b =
         { takeA := true, takeB := false, emit := passed a 1, err := false }) ∧
       (b.awn = false → a.awn = true ∨ i b < i a → m.decide a b =
         { takeA := false, takeB := true, emit := passed b 2, err := false }) ∧
       (a.awn = false → b.awn = false → i a = i b → ∃ e, m.decide a b = { takeA := true, takeB := true, emit := e, err := false } ∧
         (mode = 2 → e = some (pair (i a) 3)) ∧
         (mode < 2 → ∃ w, (m.mmode.getLsbD 3 = true → w < 2 ^ 32 ∧ intOf 0 w = min (2 ^ 31 - 1) (max (-2 ^ 31)
             (if mode = 0 then intOf 0 (v a) + intOf 0 (v b) else intOf 0 (v a) * intOf 0 (v b)))) ∧
           (m.mmode.getLsbD 3 = false → w = (if mode = 0 then laneAdd 2 0 (v a) (v b) else laneMul 2 0 (v a) (v b)).1) ∧
           let zero := m.mmode.getLsbD 2 = true ∧ (w = 0 ∨ m.mmode.getLsbD 3 = false ∧ w = 2 ^ 31)
           (zero → e = none) ∧ (¬zero → e = some (pair (i a) w)))))) ∧
  (∀ (s : State) (til base index co : Nat),
     let entry := locSpad til (base + 64 + 16 * index)
     let coord : Word := BitVec.ofNat 64 (s.rd (locSpad til base) 8)
     let nnz := s.rd (entry + 4) 2
     let off := s.rd (entry + 8) 4
     let lo := co + 2 * off
     let z := fun j => s.rd (locSpad til (lo + 2 * j)) 2
     let got := (s.compile til base index).1
     ((∀ o, s.place til coord ≠ some (.near til o)) → got = .bad) ∧
     (s.place til coord = some (.near til co) →
       s.poisoned (locSpad til base) 64 = false → s.poisoned entry 16 = false →
       (0 < nnz → s.poisoned (locSpad til lo) (2 * nnz) = false) →
       let wrong := s.rd (entry + 6) 2 ≠ 0 ∨ co % 2 ≠ 0 ∨ 0 < nnz ∧ (s.til til).spadSize < lo + 2 * nnz ∨ 1024 < nnz ∨
         (∃ j, j < nnz ∧ 1024 ≤ z j) ∨ ∃ j, j + 1 < nnz ∧ z (j + 1) ≤ z j
       (wrong → got = .bad) ∧
       (¬wrong → got = (if nnz ≤ 256 then .sparse else .dense) ∧ (s.compile til base index).2.1.length = nnz ∧
         ∀ j q, (s.compile til base index).2.1[j]? = some q → q.1 < 32 ∧ q.2.1 < 32 ∧ q.2.2 = off + j ∧
           ∀ n, n < 5 → (z j).testBit (2 * n) = q.2.1.testBit n ∧ (z j).testBit (2 * n + 1) = q.1.testBit n))) ∧
  (∀ (s : State) (c til : Nat) (p : Pattern),
     (∀ w ra rb acc cnt f y x fm j rest, let t := s.til (tilOf c)
       let held := fun (o : Option Staged) (n : BitVec 4) => ((s.slotBuffer (tilOf c) n.toNat o).held)
       let left := fun (o : Option Staged) (n : BitVec 4) (need : List Nat) => need.filter (fun k => !(held o n).contains k)
       let needA := needOf fm fm.a (s.ctx c).scla
       let needB := needOf fm fm.b (s.ctx c).sclb
       s.active c = true → t.leased c = true → (t.heldBy c).contains acc.toNat = true → s.nextWord c = .word w →
       decode w = .ok (.tmma ra rb acc cnt f y x) ∨ decode w = .ok (.tmmt ra rb acc cnt f y x) →
       (s.ctx c).formatOf f = some fm → t.headSeq ra.toNat ≠ t.tailSeq ra.toNat → t.headSeq rb.toNat ≠ t.tailSeq rb.toNat →
       ringEn (t.ring ra.toNat) = true → ringEn (t.ring rb.toNat) = true →
       slotShort fm fm.a (s.ctx c).scla (t.ring ra.toNat) = false → slotShort fm fm.b (s.ctx c).sclb (t.ring rb.toNat) = false →
       (left t.stageA ra needA = j :: rest → exec (.tileStaging c) s = .next (s.setTil (tilOf c) { t with
         stageA := some (s.stageSlot (tilOf c) ra.toNat t.stageA [j]) })) ∧
       (left t.stageA ra needA = [] → left t.stageB rb needB = j :: rest →
         exec (.tileStaging c) s = .next (s.setTil (tilOf c) { t with
           stageB := some (s.stageSlot (tilOf c) rb.toNat t.stageB [j]) })) ∧
       (left t.stageA ra needA = [] → left t.stageB rb needB = [] → exec (.tileStaging c) s = .next s)) ∧
     ((s.til til).pats.any (fun p => p.state == .compiling) = false → (s.til til).nextQueued = some p →
       ∃ t, exec (.patternCompileStart til) s = .next t ∧ (t.til til).pccomp = (s.til til).pccomp + 1 ∧
         ∀ q ∈ (t.til til).pats, q.ent = p.ent → q.state = .compiling ∧ q.result = (s.compile til p.base p.index).1) ∧
     ((s.til til).pats.find? (fun p => p.state == .compiling && p.due.toNat ≤ (s.core (til * 4)).cycle.toNat) = some p →
       ∃ t, exec (.patternCompileEnd til) s = .next t ∧ ∀ q ∈ (t.til til).pats, q.ent = p.ent → q.state = p.result))

/-- R56, R69, R70, R72, R74, R378, R404: time. A context is ready only if it may run, has not issued in the three cycles before,
and waits for none of the registers that its word reads or writes, unless it was ready before and keeps its word; one of the
two-operand integer instructions with no more to wait for is ready. The ready context that comes first from the rotation pointer
on issues, and none in a cycle that the throttle withholds. The result of such an instruction is there 4 cycles after its issue, 8
for a multiplication and 36 for a division; an instruction that does not complete leaves nothing to wait for. The first cycle of a
core has the CYCLE it finds, which is the model's choice (log 32); CYCLE advances from cycle to cycle, and the pointer unless the
cycle before was withheld. Each of the sixteen contexts that is not SAVED has one counter advanced by one, ISSUED where it is the
one chosen, and no context of another core has any. Memory does not change in a cycle in which no held result arrives and no EXIT
ends its wait. That a word waits for s0 as for another register is the model's choice too (log 55). -/
def Obligations.ClockCycle : Prop :=
  ∀ (s : State) (k : Nat), k < 4096 →
    ((∀ c cause keys, (s.ctx c).wait = .sleep cause keys → cause < 16) → s.issue = none →
      ∃ t, exec (.coreClockCycle k) s = .next t ∧
        (t.core k).cycle = (if (s.core k).ran = none then (s.core k).cycle else (s.core k).cycle + 1) ∧
        (t.core k).rot = (if (s.core k).ran = some true then (s.core k).rot + 1 else (s.core k).rot) ∧
        (t.core k).ran = some (decide ((s.die (k / 1024)).throt.toNat ≤ (t.core k).cycle.toNat % 16)) ∧
        (∀ c, coreOf c = k → (s.ctx c).life ≠ .saved → ∃ n, n < 18 ∧ (n = 16 ↔ t.issue = some c) ∧ (t.ctx c).cnt =
          (s.ctx c).cnt.setIfInBounds n (((s.ctx c).cnt[n]?).getD 0 + 1)) ∧
        (∀ c, t.issue = some c → coreOf c = k ∧ (t.ctx c).lastIssue = some (t.core k).cycle) ∧
        (∀ c, coreOf c ≠ k → (t.ctx c).cnt = (s.ctx c).cnt) ∧
        ((∀ y ∈ s.rings, y.soon = []) → (∀ til, (s.til til).intake = []) → (∀ c code, (s.ctx c).wait ≠ .ending code) →
          t.mem = s.mem)) ∧
    (let ctx := fun j => k * 16 + ((s.core k).rot.toNat + j) % 16
     let open_ := (s.die (k / 1024)).throt.toNat ≤ (s.core k).cycle.toNat % 16
     (¬open_ → s.pick k = none) ∧
     (∀ j, open_ → j < 16 → (∀ i, i < j → s.isReady (ctx i) = false) → s.isReady (ctx j) = true → s.pick k = some (ctx j))) ∧
    (∀ (c : Nat) (w : IWord), let now := (s.core (coreOf c)).cycle.toNat
     let spaced := ∀ n, (s.ctx c).lastIssue = some n → n.toNat + 4 ≤ now
     let kept := ∃ v, (s.ctx c).word = some ((s.ctx c).pc, v)
     (s.nextWord c = .word w → s.isReady c = true → s.active c = true ∧ spaced ∧ (kept ∨
       ∀ d ∈ (s.ctx c).ready, d.reg ∈ (s.ctx c).wordReads w ++ (s.ctx c).wordWrites w → d.at_.toNat ≤ now)) ∧
     (∀ p ∈ scalarTwo, ∀ (d a b : BitVec 5) (i : BitVec 1), decode w = .ok (p.1 d a b i) →
       ∀ n ∈ (s.ctx c).wordReads w ++ (s.ctx c).wordWrites w,
         ∃ f ∈ [Fld.s d.toNat, .s a.toNat, .s b.toNat], (s.ctx c).endOf f = none ∧ n = Fld.reg f) ∧
     (∀ p ∈ scalarTwo, ∀ (d a b : BitVec 5) (i : BitVec 1), s.nextWord c = .word w → decode w = .ok (p.1 d a b i) →
       (s.ctx c).framed = false → s.active c = true → spaced → kept ∨ (∀ d ∈ (s.ctx c).ready, d.at_.toNat ≤ now) →
       s.isReady c = true)) ∧
    (∀ (t : State) (c : Nat), ∀ p ∈ scalarTwo, ∀ (d a b : BitVec 5) (i : BitVec 1), let j := p.1 d a b i
     let n : Word := match j with
       | .mul _ _ _ _ => 8
       | .mulh _ _ _ _ => 8
       | .mulhn _ _ _ _ => 8
       | .div _ _ _ _ => 36
       | .divn _ _ _ _ => 36
       | .rem _ _ _ _ => 36
       | .remn _ _ _ _ => 36
       | _ => 4
     let at_ := (s.core (coreOf c)).cycle + n
     (s.completed t c = true → (s.ctx c).endOf (.s d.toNat) = none →
       { reg := d.toNat, at_ := at_, plain := at_ } ∈ ((s.settle t c j none).ctx c).ready) ∧
     (s.completed t c = true → (s.ctx c).endOf (.s d.toNat) ≠ none →
       ∀ e ∈ ((s.settle t c j none).ctx c).ready, e.reg ≠ d.toNat ∨ e ∈ (t.ctx c).ready) ∧
     (∀ r, s.completed t c = false → s.settle t c j r = { t with due := 0 }))

/-- An event record goes to the queue pair that EVENTS has named, under OP 0x80, or is held, where a full queue loses its oldest
(R411). -/
def Sys2Proof.Machine.Recorded (code part : Nat) (s t : State) : Prop :=
  let r : EventRecord := { code := code, part := part, cycle := (s.core 0).cycle, lost := 0 }
  (∀ qp, s.port.eventsQp = some qp → qp ∉ s.port.broken →
    t.port.sent = s.port.sent ++ [.event qp 0x80 r] ∧ t.port.events = s.port.events) ∧
  (s.port.eventsQp = none → t.port.sent = s.port.sent ∧
    (s.port.events.length < 256 → t.port.events = s.port.events ++ [r]) ∧
    (256 ≤ s.port.events.length → t.port.events = s.port.events.drop 1 ++ [{ r with lost := s.port.lost + 1 }]))

/-- R20, R24, R399, R400, R404, R411 to R416, R421: what happens to a die, a link or the whole module. The power controller sets a
die's budget and throttle, at a time and to a level that it chooses (log 12); droop lengthens 64 cycles and is counted; a
thermal throttle raises THROT and sends event 4, a thermal shutdown takes the module down and drops the command port. A
displaced TLB entry is gone, whichever it is (log 10). A port to a peer module goes down, with event 2, and its copies fail; that it
serves new work once its link is up again is the model's choice (log 54). Writes of a copy that come over it reach global addresses,
scratchpads of the partition and slots of a ring; the last is acknowledged, and one that cannot go on is refused with a code: in
which form a peer sends them, and that they wait for a partition that is swapped out, is the model's choice (logs 28, 54). A flit is
replayed, with an outcome that is free, at most 64 times (log 46), and then the edge is down, with event 3. An uncorrectable error
poisons its unit and is counted, and is charged to no partition where none owns the line (log 44). The partition that is charged has
its queues disabled, its jobs and launches cancelled, its strands killed under cause 12 and its copies failed, with event 1. Power
good resets the module. -/
def Obligations.DieSteps : Prop :=
  ∀ (s : State) (die port edge loc : Nat), die < 4 →
    (∀ level throt, exec (.budgetPublish die level throt) s =
      .next (s.modDie die (fun d => { d with budget := level, throt := throt }))) ∧
    (exec (.droopResponse die) s = .next (s.modDie die (fun d => { d with droop := some 0, droopev := d.droopev + 1 }))) ∧
    (∀ n, (s.die die).droop = some n →
      exec (.droopEnd die) s = .next (s.modDie die (fun d => { d with droop := if n < 64 then some n else none }))) ∧
    (∀ throt, ∃ t, exec (.thermalThrottle die throt) s = .next t ∧
      (t.die die).throt.toNat = max (s.die die).throt.toNat throt.toNat ∧ 4 ∈ t.port.faults ∧ Recorded 4 0xFF s t) ∧
    (exec .thermalShutdown s = .next { s with port := { s.port with down := true, openPort := false } }) ∧
    (∀ n, exec (.tlbEntryDisplaced 1 die n) s =
      .next (s.modCore die (fun k => { k with dtlb := k.dtlb.eraseIdx n }))) ∧
    (∃ t, exec (.peerLinkDown port) s = .next t ∧ port ∈ t.port.portsDown ∧ port ∉ t.port.linksUp ∧ t.mem = s.mem ∧
      t.port.failures = s.port.failures ++ [port] ∧ (∀ q ∈ t.port.peerCopies, q ∈ s.port.peerCopies ∧ q.port ≠ port) ∧
      2 ∈ t.port.faults ∧ Recorded 2 0xFF s t ∧
      ∀ q m, s.copies = [q] → q.state = .running → q.xmod = some m → (∃ p ∈ s.port.peers, p.1 = m ∧ p.2.1 = port) →
        ∃ p, t.copyOf q.id = some p ∧ p.state = .failed 5) ∧
    (port ∈ s.port.portsDown → ∃ t, exec (.peerLinkUp port) s = .next t ∧ port ∈ t.port.linksUp ∧ t.port.isDown port = false ∧
      t.port.portsDown = s.port.portsDown) ∧
    (edge ∉ s.port.edgesDown → exec (.flitReplay edge) s =
      .next (let n := (tget s.port.replays edge).getD 0 + 1
        let t := { s with nonce := s.nonce + 1 }
        if Config.freeBool s.nonce then (t.modPort (fun p => { p with replays := tset p.replays edge n })).laterOnce
          (if n < 64 then .flitReplay edge else .ucieEdgeDown edge)
        else t.modPort (fun p => { p with replays := tdel p.replays edge }))) ∧
    (edge < 4 → s.port.edgesDown = [] → exec (.ucieEdgeDown edge) s = .next ((s.modPort (fun p => { p with
      edgesDown := [edge], replays := tdel p.replays edge })).event 3 0xFF)) ∧
    (loc < 2 ^ 40 → (∃ t, exec (.uncorrectableError loc) s = .next t ∧ (tget s.owners (loc / 64) = none →
      eccUnit loc ∈ t.poison ∧ (t.die (loc / 2 ^ 38 % 4)).hbmuecc = (s.die (loc / 2 ^ 38 % 4)).hbmuecc + 1 ∧ t.parts = s.parts))) ∧
    (∀ q, loc < 2 ^ 40 ∧ tget s.owners (loc / 64) = some q ∨ loc = 2 ^ 52 + q ∧ q < 2 ^ 52 →
      let u := (s.damage loc).1.disableQueues q
      let jobs := (u.jobsOf q).filter (fun o => !u.lvTerminal o)
      let v := jobs.foldl (fun s o => s.lvOr q o 1) u
      ∃ t w, exec (.uncorrectableError loc) s = .next t ∧ CancelAll (v.launches.filter (fun l => l.part == q)) v w ∧
        (let killed := w.killAll q 12
         let all := (killed.stowedOf q).foldl (fun s n => s.killShadow n 12) killed
         t = (((jobs.foldl (fun s o => if s.lvTerminal o then s else s.lvPut q o 25 1 4) all).failCopies q).event 1 q).levelsMoved) ∧
        Recorded 1 q s t ∧
        ∀ c x, s.tablesOk → c < 65536 → tget s.ctxs c = some x → privileged c = false → x.home = none →
          (s.til (tilOf c)).part = some q → (x.life = .running ∨ x.life = .starting ∨ x.life = .stopped) →
          (t.ctx c).life = .free ∧ ∃ m ∈ t.mail (coreOf c), m.header.extractLsb' 0 8 = 2 ∧
            Body.field m.body 0 4 = (s.sid c).toNat % 2 ^ 32 ∧ Body.field m.body 4 1 = 1 ∧ Body.field m.body 5 1 = 12) ∧
    (∀ q x b j, s.memOk → tget s.parts q = some x → b ∈ x.blocks → j < 1024 →
      let d := queueDesc (b * 1024 + j)
      (s.disableQueues q).qMode d = if s.qMode d % 2 = 1 then s.qMode d - 1 else s.qMode d) ∧
    (∀ (part va : Nat) (w : PeerWrite), s.port.isDown port = false → (∃ p ∈ s.port.peers, p.2.1 = port) → s.copies = [] →
      s.port.peerCopies = [] →
      let send := fun (m : PeerMsg) (t : State) => exec (.xmodCopyWrite port part va w) s = .next (t.toPeer m)
      let n := w.data.length
      let lands := fun (a : Nat) => let t := s.devStore a part w.data
        (w.total ≤ n → send (.acked port w.copy) t) ∧
        (n < w.total → exec (.xmodCopyWrite port part va w) s = .next (t.modPort (fun x => { x with peerCopies :=
          [{ port := port, id := w.copy, part := part, pos := n, landed := [(a, n)], claim := none }] })))
      (tget s.parts part = none → send (.refused port w.copy 5) s) ∧
      ∀ x, tget s.parts part = some x →
        (∀ pa ent, w.dring = false → va < 2 ^ 52 → w.data ≠ [] → va % 65536 + n ≤ 65536 →
          s.devXlate part 0 va .store = .ok (pa, ent) → entRepl ent = false → lands pa) ∧
        (∀ cause, w.dring = false → va < 2 ^ 52 → w.data ≠ [] → s.devXlate part 0 va .store = .error cause →
          send (.refused port w.copy 5) s) ∧
        (w.dring = true ∨ 2 ^ 52 ≤ va → s.tilsOf part = [] → exec (.xmodCopyWrite port part va w) s = .next s) ∧
        (∀ til off t ts, s.tilsOf part = t :: ts → til < 1024 → off < 2 ^ 20 → w.dring = false →
          va = 0xF0 * 2 ^ 56 + til * 2 ^ 32 + off → let here := (s.til til).part = (s.til t).part ∧ off + n ≤ (s.til til).spadSize
          (here → lands (locSpad til off)) ∧ (¬here → send (.refused port w.copy 1) s)) ∧
        (∀ til r t ts, s.tilsOf part = t :: ts → til < 1024 → r < 16 → w.dring = true → (s.til til).part = (s.til t).part →
          va = 0xF0 * 2 ^ 56 + til * 2 ^ 32 + r →
          let reg := (s.til til).ring r
          let first := (s.til til).clmSeq r
          let fits := ringEn reg = true ∧ w.total % ringSlot reg = 0 ∧ w.total / ringSlot reg ≤ ringSlots reg
          (¬fits → send (.refused port w.copy 3) s) ∧
          (fits → s.slotsFree (til, r) w.total = false → exec (.xmodCopyWrite port part va w) s = .next s) ∧
          (fits → s.slotsFree (til, r) w.total = true → w.total = n → n = ringSlot reg →
            send (.acked port w.copy) ((((s.claimIn (til, r) n).1.devStore (locSpad til (slotOff reg first)) part w.data)).landSlot
              til r first)))) ∧
    (∃ t, exec .powerGood s = .next t ∧ t.ctxs = [] ∧ t.cores = [] ∧ t.tils = [] ∧ t.parts = [] ∧ t.launches = [] ∧
      t.port.openPort = true ∧ t.port.down = false)

/-- The management commands, each as a request on a queue pair, the instruction that serves it, and its OP (R410). -/
def Sys2Proof.Machine.commands (qp : Nat) (h : SendHeader) : Request → Option (Instr × Nat)
  | .partCreate q g _ _ => if q = qp ∧ g = h then some (.partCreate, 1) else none
  | .partDestroy q g _ => if q = qp ∧ g = h then some (.partDestroy, 2) else none
  | .partSwap q g _ => if q = qp ∧ g = h then some (.partSwap, 3) else none
  | .hold q g _ => if q = qp ∧ g = h then some (.hold, 4) else none
  | .unhold q g _ => if q = qp ∧ g = h then some (.unhold, 5) else none
  | .qtable q g _ => if q = qp ∧ g = h then some (.qtable, 6) else none
  | .attest q g _ => if q = qp ∧ g = h then some (.attest, 7) else none
  | .fwload q g _ => if q = qp ∧ g = h then some (.fwload, 8) else none
  | .events q g => if q = qp ∧ g = h then some (.events, 9) else none
  | .peermap q g _ _ => if q = qp ∧ g = h then some (.peermap, 10) else none
  | .clkset q g _ _ => if q = qp ∧ g = h then some (.clkset, 11) else none
  | _ => none

/-- R384, R398, R401, R407 to R412, R417, R418, R420: requests are served in order of arrival. A request on an open connection
of one of the 64 queue pairs leaves the inbox with its effect and its answer, OP with bit 15 set and the TAG; on any other it
leaves without. A command's status is 0 when it is performed, 1 when it is malformed, 2 when it is refused, and 3 while a swap
or an image load keeps it from being performed. A swap is answered when it ends, and so is an image load, which stages the
image. What comes to another address on the board bus does nothing; an orderly shutdown ends every partition, once no swap is
pending. The model's choices in this: status 3 of PARTDESTROY and PARTSWAP while a swap is pending (log 24), what waits behind a
swap or a load, that a shutdown waits, and that a second FWLOAD during a load answers 3, which the spec says of ATTEST only (log
46), how long an image load takes and what a report holds (log 45), the addresses that QTABLE gives (log 8), and that the body of an
INTR goes as it stands (log 55). -/
def Obligations.PortRequests : Prop :=
  (∀ (s : State) (qp : Nat) (h : SendHeader) (rest : List Request), s.port.openPort = true → qp < 64 → qp ∉ s.port.broken →
    let t := { s with port := { s.port with inbox := rest } }
    let head := fun (q : Request) => s.port.inbox = q :: rest
    let answer := fun (u : State) (st : Nat) (info : List Nat) =>
      u.modPort (fun p => { p with sent := p.sent ++ [.status qp (h.tag % 2 ^ 16) (h.op % 2 ^ 15 + 2 ^ 15) st info] })
    let ok := fun (u : State) => u.answerCmd qp h 0 []
    (∀ (u : State) st info, qp ∉ u.port.broken → u.answerCmd qp h st info = answer u st info) ∧
    (∀ q i op, head q → commands qp h q = some (i, op) → s.port.blocked q = false → s.port.loading = none →
      h.op ≠ op ∨ h.len ≠ h.body ∨ h.ok = false →
      exec i s = .next (answer t 1 [])) ∧
    (∀ key va data p pa ent, head (.write qp key va data) → s.keyPart key = some p → data ≠ [] → va % 65536 + data.length ≤ 65536 →
      t.devXlate p 0 va .store = .ok (pa, ent) → entRepl ent = false →
      exec .rdmaWrite s = .next ((t.devStore pa p data).reply (.ack qp))) ∧
    (∀ key va len p pa ent, head (.read qp key va len) → s.keyPart key = some p → 0 < len → va % 65536 + len ≤ 65536 →
      t.devXlate p 0 va .load = .ok (pa, ent) → t.poisoned pa len = false →
      exec .rdmaRead s = .next (t.reply (.data qp (t.bytes pa len)))) ∧
    (∀ key va data len, s.keyPart key = none →
      (head (.write qp key va data) → exec .rdmaWrite s = .next (t.reply (.nakAccess qp))) ∧
      (head (.read qp key va len) → exec .rdmaRead s = .next (t.reply (.nakAccess qp)))) ∧
    (head (.unsupported qp) → ∃ u, exec .invalidRequest s = .next u ∧ u.port.sent = s.port.sent ++ [.nakInvalid qp] ∧
      qp ∈ u.port.broken) ∧
    (∀ p x, head (.partCreate qp h p x) → h.good 1 = true →
      (t.createRefused p x = true → exec .partCreate s = .next (t.answerCmd qp h 2 [])) ∧
      (t.createRefused p x = false → ∃ u, exec .partCreate s = .next u ∧ tget u.parts p = some x ∧
        (∀ n ∈ x.tils, (u.til n).part = some p) ∧
        (∀ c, tilOf c ∈ x.tils → privileged c = false → (u.ctx c).gen = 0) ∧
        u.port.sent = s.port.sent ++ [.status qp h.answerTag h.answerOp 0 []])) ∧
    (∀ p, head (.partDestroy qp h p) → h.good 2 = true →
      (s.port.swap ≠ none → exec .partDestroy s = .next (t.answerCmd qp h 3 [])) ∧
      (s.port.swap = none → tget s.parts p = none → exec .partDestroy s = .next (t.answerCmd qp h 2 [])) ∧
      (s.port.swap = none → tget s.parts p ≠ none → exec .partDestroy s = .next (ok (t.endPart p)))) ∧
    (∀ tils, head (.partSwap qp h tils) → h.good 3 = true →
      s.port.blocked (.partSwap qp h tils) = false →
      (s.port.swap ≠ none → exec .partSwap s = .next (t.answerCmd qp h 3 [])) ∧
      (s.port.swap = none → t.swapOk tils = false → exec .partSwap s = .next (t.answerCmd qp h 2 [])) ∧
      (s.port.swap = none → t.swapOk tils = true →
        ∃ u, exec .partSwap s = .next u ∧ u.port.swap = some (qp, h, tils) ∧ u.port.sent = s.port.sent)) ∧
    (∀ q, commands qp h q ≠ none →
      (s.port.blocked q = true ↔ (∃ w, s.port.swap = some w ∧ w.1 = qp) ∨ ∃ w, s.port.loading = some w ∧ w.1 = qp)) ∧
    (∀ n, n < 1024 →
      (head (.hold qp h n) → h.good 4 = true → exec .hold s = .next (ok (t.modTil n (fun y => { y with hold := true })))) ∧
      (head (.unhold qp h n) → h.good 5 = true →
        exec .unhold s = .next (ok (t.modTil n (fun y => { y with hold := false }))))) ∧
    (∀ p, head (.qtable qp h p) → h.good 6 = true →
      (tget s.parts p = none → exec .qtable s = .next (t.answerCmd qp h 2 [])) ∧
      (∀ x, tget s.parts p = some x → exec .qtable s = .next (t.answerCmd qp h 0
        ((List.range 4).map (fun d => queueDesc (d * 2 ^ 15)) ++ x.blocks.map (blockVa p))))) ∧
    (∀ nonce, nonce.length = 64 → head (.attest qp h nonce) → h.good 7 = true →
      (s.port.loading ≠ none → exec .attest s = .next (t.answerCmd qp h 3 [])) ∧
      (s.port.loading = none → exec .attest s = .next (t.reply (.report qp h.answerTag h.answerOp 0 (t.attestation nonce)
        (Config.mldsaSign (t.attestation nonce)))))) ∧
    (∀ bs, head (.fwload qp h bs) → h.good 8 = true →
      (s.port.loading = none → ∃ u due, exec .fwload s = .next u ∧ u.port.loading = some (qp, h, bs, due) ∧
        u.port.staged = s.port.staged ∧ u.port.sent = s.port.sent) ∧
      (∀ w, s.port.loading = some w → (s.core 0).cycle.toNat < w.2.2.2.toNat →
        exec .fwload s = .next (t.answerCmd qp h 3 []))) ∧
    (head (.events qp h) → h.good 9 = true → ∃ u, exec .events s = .next u ∧ u.port.eventsQp = some qp ∧ u.port.events = [] ∧
      u.port.sent = s.port.sent ++ s.port.events.map (Answer.event qp 0x80) ++ [.status qp h.answerTag h.answerOp 0 []]) ∧
    (∀ own peers, head (.peermap qp h own peers) → h.good 10 = true → own < 8192 →
      (∀ p ∈ peers, p.1 < 8192 ∧ 1 ≤ p.2.1 ∧ p.2.1 ≤ 8 ∧ p.2.2 < 2 ^ 48) →
      exec .peermap s = .next (ok (t.modPort (fun p => { p with own := some own, peers := peers })))) ∧
    (∀ die n, die < 4 → n < 16 → head (.clkset qp h die n) → h.good 11 = true →
      exec .clkset s = .next (ok (t.modDie die (fun d => { d with clk := BitVec.ofNat 4 n }))))) ∧
  (∀ (s : State) (qp : Nat) (h : SendHeader) (rest : List Request) (q : Request) (i : Instr) (op : Nat),
    64 ≤ qp ∨ qp ∈ s.port.broken → s.port.inbox = q :: rest → s.port.blocked q = false → s.port.loading = none →
    commands qp h q = some (i, op) ∨ (∃ key va data, q = .write qp key va data ∧ i = .rdmaWrite) ∨
      (∃ key va len, q = .read qp key va len ∧ i = .rdmaRead) ∨ (q = .unsupported qp ∧ i = .invalidRequest) →
    exec i s = .next { s with port := { s.port with inbox := rest } }) ∧
  (∀ (s : State) (qp : Nat) (h : SendHeader) (bs : List Byte) (due : Word), s.port.loading = some (qp, h, bs, due) →
    due.toNat ≤ (s.core 0).cycle.toNat →
    exec .fwload s = .next ((s.modPort (fun p => { p with staged := some bs, loading := none })).answerCmd qp h 0 [])) ∧
  (∀ (s : State) (rest : List Request),
    let t := { s with port := { s.port with inbox := rest } }
    let head := fun (q : Request) => s.port.inbox = q :: rest
    let onBus := fun (a : BitVec 7) => a = 0x4C ∨ s.port.i3c = some a
    (∀ core body, core < 4096 → head (.intr core body) → exec .commandPortIntr s =
      .next (t.send core 0 { header := headerDevice 7, body := body })) ∧
    (∀ at_ a, head (.i3cAddress at_ a) →
      (onBus at_ → exec .i3cDynamicAddress s = .next { t with port := { t.port with i3c := some a } }) ∧
      (¬onBus at_ → exec .i3cDynamicAddress s = .next t)) ∧
    (∀ at_ what, head (.i3cRead at_ what) →
      (onBus at_ → ∃ u, exec .i3cRead s = .next u ∧ u.port.sent = s.port.sent ++ [.i3c what (s.boardValue what)]) ∧
      (¬onBus at_ → exec .i3cRead s = .next t)) ∧
    (∀ at_, head (.shutdown at_) →
      (onBus at_ → s.port.swap = none → exec .orderlyShutdown s = .next (s.parts.foldl (fun u p => u.endPart p.1) t)) ∧
      (onBus at_ → s.port.swap ≠ none → exec .orderlyShutdown s = .next s) ∧
      (¬onBus at_ → exec .orderlyShutdown s = .next t)))
end

