-- ==== Sys2Proof/Laws/State.lean ====
section
/-! SUPPORT. What each update of the state leaves: one lemma for each field and update, and the tables read back. -/

namespace Sys2Proof.Machine

/-! ### setCtx -/

@[simp] theorem State.setCtx_mem (s : State) (c : Nat) (x : Ctx) : (s.setCtx c x).mem = s.mem := rfl
@[simp] theorem State.setCtx_unspec (s : State) (c : Nat) (x : Ctx) : (s.setCtx c x).unspec = s.unspec := rfl
@[simp] theorem State.setCtx_poison (s : State) (c : Nat) (x : Ctx) : (s.setCtx c x).poison = s.poison := rfl
@[simp] theorem State.setCtx_owners (s : State) (c : Nat) (x : Ctx) : (s.setCtx c x).owners = s.owners := rfl
@[simp] theorem State.setCtx_cores (s : State) (c : Nat) (x : Ctx) : (s.setCtx c x).cores = s.cores := rfl
@[simp] theorem State.setCtx_tils (s : State) (c : Nat) (x : Ctx) : (s.setCtx c x).tils = s.tils := rfl
@[simp] theorem State.setCtx_dies (s : State) (c : Nat) (x : Ctx) : (s.setCtx c x).dies = s.dies := rfl
@[simp] theorem State.setCtx_dirs (s : State) (c : Nat) (x : Ctx) : (s.setCtx c x).dirs = s.dirs := rfl
@[simp] theorem State.setCtx_rings (s : State) (c : Nat) (x : Ctx) : (s.setCtx c x).rings = s.rings := rfl
@[simp] theorem State.setCtx_flights (s : State) (c : Nat) (x : Ctx) : (s.setCtx c x).flights = s.flights := rfl
@[simp] theorem State.setCtx_spills (s : State) (c : Nat) (x : Ctx) : (s.setCtx c x).spills = s.spills := rfl
@[simp] theorem State.setCtx_parts (s : State) (c : Nat) (x : Ctx) : (s.setCtx c x).parts = s.parts := rfl
@[simp] theorem State.setCtx_copies (s : State) (c : Nat) (x : Ctx) : (s.setCtx c x).copies = s.copies := rfl
@[simp] theorem State.setCtx_launches (s : State) (c : Nat) (x : Ctx) : (s.setCtx c x).launches = s.launches := rfl
@[simp] theorem State.setCtx_nextLaunch (s : State) (c : Nat) (x : Ctx) : (s.setCtx c x).nextLaunch = s.nextLaunch := rfl
@[simp] theorem State.setCtx_port (s : State) (c : Nat) (x : Ctx) : (s.setCtx c x).port = s.port := rfl
@[simp] theorem State.setCtx_saves (s : State) (c : Nat) (x : Ctx) : (s.setCtx c x).saves = s.saves := rfl
@[simp] theorem State.setCtx_cur (s : State) (c : Nat) (x : Ctx) : (s.setCtx c x).cur = s.cur := rfl
@[simp] theorem State.setCtx_issue (s : State) (c : Nat) (x : Ctx) : (s.setCtx c x).issue = s.issue := rfl
@[simp] theorem State.setCtx_agenda (s : State) (c : Nat) (x : Ctx) : (s.setCtx c x).agenda = s.agenda := rfl
@[simp] theorem State.setCtx_clock (s : State) (c : Nat) (x : Ctx) : (s.setCtx c x).clock = s.clock := rfl
@[simp] theorem State.setCtx_nonce (s : State) (c : Nat) (x : Ctx) : (s.setCtx c x).nonce = s.nonce := rfl
@[simp] theorem State.setCtx_due (s : State) (c : Nat) (x : Ctx) : (s.setCtx c x).due = s.due := rfl

/-! ### modCtx -/

@[simp] theorem State.modCtx_mem (s : State) (c : Nat) (f : Ctx → Ctx) : (s.modCtx c f).mem = s.mem := rfl
@[simp] theorem State.modCtx_unspec (s : State) (c : Nat) (f : Ctx → Ctx) : (s.modCtx c f).unspec = s.unspec := rfl
@[simp] theorem State.modCtx_poison (s : State) (c : Nat) (f : Ctx → Ctx) : (s.modCtx c f).poison = s.poison := rfl
@[simp] theorem State.modCtx_owners (s : State) (c : Nat) (f : Ctx → Ctx) : (s.modCtx c f).owners = s.owners := rfl
@[simp] theorem State.modCtx_cores (s : State) (c : Nat) (f : Ctx → Ctx) : (s.modCtx c f).cores = s.cores := rfl
@[simp] theorem State.modCtx_tils (s : State) (c : Nat) (f : Ctx → Ctx) : (s.modCtx c f).tils = s.tils := rfl
@[simp] theorem State.modCtx_dies (s : State) (c : Nat) (f : Ctx → Ctx) : (s.modCtx c f).dies = s.dies := rfl
@[simp] theorem State.modCtx_dirs (s : State) (c : Nat) (f : Ctx → Ctx) : (s.modCtx c f).dirs = s.dirs := rfl
@[simp] theorem State.modCtx_rings (s : State) (c : Nat) (f : Ctx → Ctx) : (s.modCtx c f).rings = s.rings := rfl
@[simp] theorem State.modCtx_flights (s : State) (c : Nat) (f : Ctx → Ctx) : (s.modCtx c f).flights = s.flights := rfl
@[simp] theorem State.modCtx_spills (s : State) (c : Nat) (f : Ctx → Ctx) : (s.modCtx c f).spills = s.spills := rfl
@[simp] theorem State.modCtx_parts (s : State) (c : Nat) (f : Ctx → Ctx) : (s.modCtx c f).parts = s.parts := rfl
@[simp] theorem State.modCtx_copies (s : State) (c : Nat) (f : Ctx → Ctx) : (s.modCtx c f).copies = s.copies := rfl
@[simp] theorem State.modCtx_launches (s : State) (c : Nat) (f : Ctx → Ctx) : (s.modCtx c f).launches = s.launches := rfl
@[simp] theorem State.modCtx_nextLaunch (s : State) (c : Nat) (f : Ctx → Ctx) : (s.modCtx c f).nextLaunch = s.nextLaunch := rfl
@[simp] theorem State.modCtx_port (s : State) (c : Nat) (f : Ctx → Ctx) : (s.modCtx c f).port = s.port := rfl
@[simp] theorem State.modCtx_saves (s : State) (c : Nat) (f : Ctx → Ctx) : (s.modCtx c f).saves = s.saves := rfl
@[simp] theorem State.modCtx_cur (s : State) (c : Nat) (f : Ctx → Ctx) : (s.modCtx c f).cur = s.cur := rfl
@[simp] theorem State.modCtx_issue (s : State) (c : Nat) (f : Ctx → Ctx) : (s.modCtx c f).issue = s.issue := rfl
@[simp] theorem State.modCtx_agenda (s : State) (c : Nat) (f : Ctx → Ctx) : (s.modCtx c f).agenda = s.agenda := rfl
@[simp] theorem State.modCtx_clock (s : State) (c : Nat) (f : Ctx → Ctx) : (s.modCtx c f).clock = s.clock := rfl
@[simp] theorem State.modCtx_nonce (s : State) (c : Nat) (f : Ctx → Ctx) : (s.modCtx c f).nonce = s.nonce := rfl
@[simp] theorem State.modCtx_due (s : State) (c : Nat) (f : Ctx → Ctx) : (s.modCtx c f).due = s.due := rfl

/-! ### setCore -/

@[simp] theorem State.setCore_mem (s : State) (k : Nat) (x : Core) : (s.setCore k x).mem = s.mem := rfl
@[simp] theorem State.setCore_unspec (s : State) (k : Nat) (x : Core) : (s.setCore k x).unspec = s.unspec := rfl
@[simp] theorem State.setCore_poison (s : State) (k : Nat) (x : Core) : (s.setCore k x).poison = s.poison := rfl
@[simp] theorem State.setCore_owners (s : State) (k : Nat) (x : Core) : (s.setCore k x).owners = s.owners := rfl
@[simp] theorem State.setCore_ctxs (s : State) (k : Nat) (x : Core) : (s.setCore k x).ctxs = s.ctxs := rfl
@[simp] theorem State.setCore_tils (s : State) (k : Nat) (x : Core) : (s.setCore k x).tils = s.tils := rfl
@[simp] theorem State.setCore_dies (s : State) (k : Nat) (x : Core) : (s.setCore k x).dies = s.dies := rfl
@[simp] theorem State.setCore_dirs (s : State) (k : Nat) (x : Core) : (s.setCore k x).dirs = s.dirs := rfl
@[simp] theorem State.setCore_rings (s : State) (k : Nat) (x : Core) : (s.setCore k x).rings = s.rings := rfl
@[simp] theorem State.setCore_flights (s : State) (k : Nat) (x : Core) : (s.setCore k x).flights = s.flights := rfl
@[simp] theorem State.setCore_spills (s : State) (k : Nat) (x : Core) : (s.setCore k x).spills = s.spills := rfl
@[simp] theorem State.setCore_parts (s : State) (k : Nat) (x : Core) : (s.setCore k x).parts = s.parts := rfl
@[simp] theorem State.setCore_copies (s : State) (k : Nat) (x : Core) : (s.setCore k x).copies = s.copies := rfl
@[simp] theorem State.setCore_launches (s : State) (k : Nat) (x : Core) : (s.setCore k x).launches = s.launches := rfl
@[simp] theorem State.setCore_nextLaunch (s : State) (k : Nat) (x : Core) : (s.setCore k x).nextLaunch = s.nextLaunch := rfl
@[simp] theorem State.setCore_port (s : State) (k : Nat) (x : Core) : (s.setCore k x).port = s.port := rfl
@[simp] theorem State.setCore_saves (s : State) (k : Nat) (x : Core) : (s.setCore k x).saves = s.saves := rfl
@[simp] theorem State.setCore_cur (s : State) (k : Nat) (x : Core) : (s.setCore k x).cur = s.cur := rfl
@[simp] theorem State.setCore_issue (s : State) (k : Nat) (x : Core) : (s.setCore k x).issue = s.issue := rfl
@[simp] theorem State.setCore_agenda (s : State) (k : Nat) (x : Core) : (s.setCore k x).agenda = s.agenda := rfl
@[simp] theorem State.setCore_clock (s : State) (k : Nat) (x : Core) : (s.setCore k x).clock = s.clock := rfl
@[simp] theorem State.setCore_nonce (s : State) (k : Nat) (x : Core) : (s.setCore k x).nonce = s.nonce := rfl
@[simp] theorem State.setCore_due (s : State) (k : Nat) (x : Core) : (s.setCore k x).due = s.due := rfl

/-! ### modCore -/

@[simp] theorem State.modCore_mem (s : State) (k : Nat) (f : Core → Core) : (s.modCore k f).mem = s.mem := rfl
@[simp] theorem State.modCore_unspec (s : State) (k : Nat) (f : Core → Core) : (s.modCore k f).unspec = s.unspec := rfl
@[simp] theorem State.modCore_poison (s : State) (k : Nat) (f : Core → Core) : (s.modCore k f).poison = s.poison := rfl
@[simp] theorem State.modCore_owners (s : State) (k : Nat) (f : Core → Core) : (s.modCore k f).owners = s.owners := rfl
@[simp] theorem State.modCore_ctxs (s : State) (k : Nat) (f : Core → Core) : (s.modCore k f).ctxs = s.ctxs := rfl
@[simp] theorem State.modCore_tils (s : State) (k : Nat) (f : Core → Core) : (s.modCore k f).tils = s.tils := rfl
@[simp] theorem State.modCore_dies (s : State) (k : Nat) (f : Core → Core) : (s.modCore k f).dies = s.dies := rfl
@[simp] theorem State.modCore_dirs (s : State) (k : Nat) (f : Core → Core) : (s.modCore k f).dirs = s.dirs := rfl
@[simp] theorem State.modCore_rings (s : State) (k : Nat) (f : Core → Core) : (s.modCore k f).rings = s.rings := rfl
@[simp] theorem State.modCore_flights (s : State) (k : Nat) (f : Core → Core) : (s.modCore k f).flights = s.flights := rfl
@[simp] theorem State.modCore_spills (s : State) (k : Nat) (f : Core → Core) : (s.modCore k f).spills = s.spills := rfl
@[simp] theorem State.modCore_parts (s : State) (k : Nat) (f : Core → Core) : (s.modCore k f).parts = s.parts := rfl
@[simp] theorem State.modCore_copies (s : State) (k : Nat) (f : Core → Core) : (s.modCore k f).copies = s.copies := rfl
@[simp] theorem State.modCore_launches (s : State) (k : Nat) (f : Core → Core) : (s.modCore k f).launches = s.launches := rfl
@[simp] theorem State.modCore_nextLaunch (s : State) (k : Nat) (f : Core → Core) : (s.modCore k f).nextLaunch = s.nextLaunch := rfl
@[simp] theorem State.modCore_port (s : State) (k : Nat) (f : Core → Core) : (s.modCore k f).port = s.port := rfl
@[simp] theorem State.modCore_saves (s : State) (k : Nat) (f : Core → Core) : (s.modCore k f).saves = s.saves := rfl
@[simp] theorem State.modCore_cur (s : State) (k : Nat) (f : Core → Core) : (s.modCore k f).cur = s.cur := rfl
@[simp] theorem State.modCore_issue (s : State) (k : Nat) (f : Core → Core) : (s.modCore k f).issue = s.issue := rfl
@[simp] theorem State.modCore_agenda (s : State) (k : Nat) (f : Core → Core) : (s.modCore k f).agenda = s.agenda := rfl
@[simp] theorem State.modCore_clock (s : State) (k : Nat) (f : Core → Core) : (s.modCore k f).clock = s.clock := rfl
@[simp] theorem State.modCore_nonce (s : State) (k : Nat) (f : Core → Core) : (s.modCore k f).nonce = s.nonce := rfl
@[simp] theorem State.modCore_due (s : State) (k : Nat) (f : Core → Core) : (s.modCore k f).due = s.due := rfl

/-! ### setTil -/

@[simp] theorem State.setTil_mem (s : State) (t : Nat) (x : Tiller) : (s.setTil t x).mem = s.mem := rfl
@[simp] theorem State.setTil_unspec (s : State) (t : Nat) (x : Tiller) : (s.setTil t x).unspec = s.unspec := rfl
@[simp] theorem State.setTil_poison (s : State) (t : Nat) (x : Tiller) : (s.setTil t x).poison = s.poison := rfl
@[simp] theorem State.setTil_owners (s : State) (t : Nat) (x : Tiller) : (s.setTil t x).owners = s.owners := rfl
@[simp] theorem State.setTil_ctxs (s : State) (t : Nat) (x : Tiller) : (s.setTil t x).ctxs = s.ctxs := rfl
@[simp] theorem State.setTil_cores (s : State) (t : Nat) (x : Tiller) : (s.setTil t x).cores = s.cores := rfl
@[simp] theorem State.setTil_dies (s : State) (t : Nat) (x : Tiller) : (s.setTil t x).dies = s.dies := rfl
@[simp] theorem State.setTil_dirs (s : State) (t : Nat) (x : Tiller) : (s.setTil t x).dirs = s.dirs := rfl
@[simp] theorem State.setTil_rings (s : State) (t : Nat) (x : Tiller) : (s.setTil t x).rings = s.rings := rfl
@[simp] theorem State.setTil_flights (s : State) (t : Nat) (x : Tiller) : (s.setTil t x).flights = s.flights := rfl
@[simp] theorem State.setTil_spills (s : State) (t : Nat) (x : Tiller) : (s.setTil t x).spills = s.spills := rfl
@[simp] theorem State.setTil_parts (s : State) (t : Nat) (x : Tiller) : (s.setTil t x).parts = s.parts := rfl
@[simp] theorem State.setTil_copies (s : State) (t : Nat) (x : Tiller) : (s.setTil t x).copies = s.copies := rfl
@[simp] theorem State.setTil_launches (s : State) (t : Nat) (x : Tiller) : (s.setTil t x).launches = s.launches := rfl
@[simp] theorem State.setTil_nextLaunch (s : State) (t : Nat) (x : Tiller) : (s.setTil t x).nextLaunch = s.nextLaunch := rfl
@[simp] theorem State.setTil_port (s : State) (t : Nat) (x : Tiller) : (s.setTil t x).port = s.port := rfl
@[simp] theorem State.setTil_saves (s : State) (t : Nat) (x : Tiller) : (s.setTil t x).saves = s.saves := rfl
@[simp] theorem State.setTil_cur (s : State) (t : Nat) (x : Tiller) : (s.setTil t x).cur = s.cur := rfl
@[simp] theorem State.setTil_issue (s : State) (t : Nat) (x : Tiller) : (s.setTil t x).issue = s.issue := rfl
@[simp] theorem State.setTil_agenda (s : State) (t : Nat) (x : Tiller) : (s.setTil t x).agenda = s.agenda := rfl
@[simp] theorem State.setTil_clock (s : State) (t : Nat) (x : Tiller) : (s.setTil t x).clock = s.clock := rfl
@[simp] theorem State.setTil_nonce (s : State) (t : Nat) (x : Tiller) : (s.setTil t x).nonce = s.nonce := rfl
@[simp] theorem State.setTil_due (s : State) (t : Nat) (x : Tiller) : (s.setTil t x).due = s.due := rfl

/-! ### modTil -/

@[simp] theorem State.modTil_mem (s : State) (t : Nat) (f : Tiller → Tiller) : (s.modTil t f).mem = s.mem := rfl
@[simp] theorem State.modTil_unspec (s : State) (t : Nat) (f : Tiller → Tiller) : (s.modTil t f).unspec = s.unspec := rfl
@[simp] theorem State.modTil_poison (s : State) (t : Nat) (f : Tiller → Tiller) : (s.modTil t f).poison = s.poison := rfl
@[simp] theorem State.modTil_owners (s : State) (t : Nat) (f : Tiller → Tiller) : (s.modTil t f).owners = s.owners := rfl
@[simp] theorem State.modTil_ctxs (s : State) (t : Nat) (f : Tiller → Tiller) : (s.modTil t f).ctxs = s.ctxs := rfl
@[simp] theorem State.modTil_cores (s : State) (t : Nat) (f : Tiller → Tiller) : (s.modTil t f).cores = s.cores := rfl
@[simp] theorem State.modTil_dies (s : State) (t : Nat) (f : Tiller → Tiller) : (s.modTil t f).dies = s.dies := rfl
@[simp] theorem State.modTil_dirs (s : State) (t : Nat) (f : Tiller → Tiller) : (s.modTil t f).dirs = s.dirs := rfl
@[simp] theorem State.modTil_rings (s : State) (t : Nat) (f : Tiller → Tiller) : (s.modTil t f).rings = s.rings := rfl
@[simp] theorem State.modTil_flights (s : State) (t : Nat) (f : Tiller → Tiller) : (s.modTil t f).flights = s.flights := rfl
@[simp] theorem State.modTil_spills (s : State) (t : Nat) (f : Tiller → Tiller) : (s.modTil t f).spills = s.spills := rfl
@[simp] theorem State.modTil_parts (s : State) (t : Nat) (f : Tiller → Tiller) : (s.modTil t f).parts = s.parts := rfl
@[simp] theorem State.modTil_copies (s : State) (t : Nat) (f : Tiller → Tiller) : (s.modTil t f).copies = s.copies := rfl
@[simp] theorem State.modTil_launches (s : State) (t : Nat) (f : Tiller → Tiller) : (s.modTil t f).launches = s.launches := rfl
@[simp] theorem State.modTil_nextLaunch (s : State) (t : Nat) (f : Tiller → Tiller) : (s.modTil t f).nextLaunch = s.nextLaunch := rfl
@[simp] theorem State.modTil_port (s : State) (t : Nat) (f : Tiller → Tiller) : (s.modTil t f).port = s.port := rfl
@[simp] theorem State.modTil_saves (s : State) (t : Nat) (f : Tiller → Tiller) : (s.modTil t f).saves = s.saves := rfl
@[simp] theorem State.modTil_cur (s : State) (t : Nat) (f : Tiller → Tiller) : (s.modTil t f).cur = s.cur := rfl
@[simp] theorem State.modTil_issue (s : State) (t : Nat) (f : Tiller → Tiller) : (s.modTil t f).issue = s.issue := rfl
@[simp] theorem State.modTil_agenda (s : State) (t : Nat) (f : Tiller → Tiller) : (s.modTil t f).agenda = s.agenda := rfl
@[simp] theorem State.modTil_clock (s : State) (t : Nat) (f : Tiller → Tiller) : (s.modTil t f).clock = s.clock := rfl
@[simp] theorem State.modTil_nonce (s : State) (t : Nat) (f : Tiller → Tiller) : (s.modTil t f).nonce = s.nonce := rfl
@[simp] theorem State.modTil_due (s : State) (t : Nat) (f : Tiller → Tiller) : (s.modTil t f).due = s.due := rfl

/-! ### setDie -/

@[simp] theorem State.setDie_mem (s : State) (d : Nat) (x : Die) : (s.setDie d x).mem = s.mem := rfl
@[simp] theorem State.setDie_unspec (s : State) (d : Nat) (x : Die) : (s.setDie d x).unspec = s.unspec := rfl
@[simp] theorem State.setDie_poison (s : State) (d : Nat) (x : Die) : (s.setDie d x).poison = s.poison := rfl
@[simp] theorem State.setDie_owners (s : State) (d : Nat) (x : Die) : (s.setDie d x).owners = s.owners := rfl
@[simp] theorem State.setDie_ctxs (s : State) (d : Nat) (x : Die) : (s.setDie d x).ctxs = s.ctxs := rfl
@[simp] theorem State.setDie_cores (s : State) (d : Nat) (x : Die) : (s.setDie d x).cores = s.cores := rfl
@[simp] theorem State.setDie_tils (s : State) (d : Nat) (x : Die) : (s.setDie d x).tils = s.tils := rfl
@[simp] theorem State.setDie_dirs (s : State) (d : Nat) (x : Die) : (s.setDie d x).dirs = s.dirs := rfl
@[simp] theorem State.setDie_rings (s : State) (d : Nat) (x : Die) : (s.setDie d x).rings = s.rings := rfl
@[simp] theorem State.setDie_flights (s : State) (d : Nat) (x : Die) : (s.setDie d x).flights = s.flights := rfl
@[simp] theorem State.setDie_spills (s : State) (d : Nat) (x : Die) : (s.setDie d x).spills = s.spills := rfl
@[simp] theorem State.setDie_parts (s : State) (d : Nat) (x : Die) : (s.setDie d x).parts = s.parts := rfl
@[simp] theorem State.setDie_copies (s : State) (d : Nat) (x : Die) : (s.setDie d x).copies = s.copies := rfl
@[simp] theorem State.setDie_launches (s : State) (d : Nat) (x : Die) : (s.setDie d x).launches = s.launches := rfl
@[simp] theorem State.setDie_nextLaunch (s : State) (d : Nat) (x : Die) : (s.setDie d x).nextLaunch = s.nextLaunch := rfl
@[simp] theorem State.setDie_port (s : State) (d : Nat) (x : Die) : (s.setDie d x).port = s.port := rfl
@[simp] theorem State.setDie_saves (s : State) (d : Nat) (x : Die) : (s.setDie d x).saves = s.saves := rfl
@[simp] theorem State.setDie_cur (s : State) (d : Nat) (x : Die) : (s.setDie d x).cur = s.cur := rfl
@[simp] theorem State.setDie_issue (s : State) (d : Nat) (x : Die) : (s.setDie d x).issue = s.issue := rfl
@[simp] theorem State.setDie_agenda (s : State) (d : Nat) (x : Die) : (s.setDie d x).agenda = s.agenda := rfl
@[simp] theorem State.setDie_clock (s : State) (d : Nat) (x : Die) : (s.setDie d x).clock = s.clock := rfl
@[simp] theorem State.setDie_nonce (s : State) (d : Nat) (x : Die) : (s.setDie d x).nonce = s.nonce := rfl
@[simp] theorem State.setDie_due (s : State) (d : Nat) (x : Die) : (s.setDie d x).due = s.due := rfl

/-! ### modDie -/

@[simp] theorem State.modDie_mem (s : State) (d : Nat) (f : Die → Die) : (s.modDie d f).mem = s.mem := rfl
@[simp] theorem State.modDie_unspec (s : State) (d : Nat) (f : Die → Die) : (s.modDie d f).unspec = s.unspec := rfl
@[simp] theorem State.modDie_poison (s : State) (d : Nat) (f : Die → Die) : (s.modDie d f).poison = s.poison := rfl
@[simp] theorem State.modDie_owners (s : State) (d : Nat) (f : Die → Die) : (s.modDie d f).owners = s.owners := rfl
@[simp] theorem State.modDie_ctxs (s : State) (d : Nat) (f : Die → Die) : (s.modDie d f).ctxs = s.ctxs := rfl
@[simp] theorem State.modDie_cores (s : State) (d : Nat) (f : Die → Die) : (s.modDie d f).cores = s.cores := rfl
@[simp] theorem State.modDie_tils (s : State) (d : Nat) (f : Die → Die) : (s.modDie d f).tils = s.tils := rfl
@[simp] theorem State.modDie_dirs (s : State) (d : Nat) (f : Die → Die) : (s.modDie d f).dirs = s.dirs := rfl
@[simp] theorem State.modDie_rings (s : State) (d : Nat) (f : Die → Die) : (s.modDie d f).rings = s.rings := rfl
@[simp] theorem State.modDie_flights (s : State) (d : Nat) (f : Die → Die) : (s.modDie d f).flights = s.flights := rfl
@[simp] theorem State.modDie_spills (s : State) (d : Nat) (f : Die → Die) : (s.modDie d f).spills = s.spills := rfl
@[simp] theorem State.modDie_parts (s : State) (d : Nat) (f : Die → Die) : (s.modDie d f).parts = s.parts := rfl
@[simp] theorem State.modDie_copies (s : State) (d : Nat) (f : Die → Die) : (s.modDie d f).copies = s.copies := rfl
@[simp] theorem State.modDie_launches (s : State) (d : Nat) (f : Die → Die) : (s.modDie d f).launches = s.launches := rfl
@[simp] theorem State.modDie_nextLaunch (s : State) (d : Nat) (f : Die → Die) : (s.modDie d f).nextLaunch = s.nextLaunch := rfl
@[simp] theorem State.modDie_port (s : State) (d : Nat) (f : Die → Die) : (s.modDie d f).port = s.port := rfl
@[simp] theorem State.modDie_saves (s : State) (d : Nat) (f : Die → Die) : (s.modDie d f).saves = s.saves := rfl
@[simp] theorem State.modDie_cur (s : State) (d : Nat) (f : Die → Die) : (s.modDie d f).cur = s.cur := rfl
@[simp] theorem State.modDie_issue (s : State) (d : Nat) (f : Die → Die) : (s.modDie d f).issue = s.issue := rfl
@[simp] theorem State.modDie_agenda (s : State) (d : Nat) (f : Die → Die) : (s.modDie d f).agenda = s.agenda := rfl
@[simp] theorem State.modDie_clock (s : State) (d : Nat) (f : Die → Die) : (s.modDie d f).clock = s.clock := rfl
@[simp] theorem State.modDie_nonce (s : State) (d : Nat) (f : Die → Die) : (s.modDie d f).nonce = s.nonce := rfl
@[simp] theorem State.modDie_due (s : State) (d : Nat) (f : Die → Die) : (s.modDie d f).due = s.due := rfl

/-! ### modMe -/

@[simp] theorem State.modMe_mem (s : State) (f : Ctx → Ctx) : (s.modMe f).mem = s.mem := rfl
@[simp] theorem State.modMe_unspec (s : State) (f : Ctx → Ctx) : (s.modMe f).unspec = s.unspec := rfl
@[simp] theorem State.modMe_poison (s : State) (f : Ctx → Ctx) : (s.modMe f).poison = s.poison := rfl
@[simp] theorem State.modMe_owners (s : State) (f : Ctx → Ctx) : (s.modMe f).owners = s.owners := rfl
@[simp] theorem State.modMe_cores (s : State) (f : Ctx → Ctx) : (s.modMe f).cores = s.cores := rfl
@[simp] theorem State.modMe_tils (s : State) (f : Ctx → Ctx) : (s.modMe f).tils = s.tils := rfl
@[simp] theorem State.modMe_dies (s : State) (f : Ctx → Ctx) : (s.modMe f).dies = s.dies := rfl
@[simp] theorem State.modMe_dirs (s : State) (f : Ctx → Ctx) : (s.modMe f).dirs = s.dirs := rfl
@[simp] theorem State.modMe_rings (s : State) (f : Ctx → Ctx) : (s.modMe f).rings = s.rings := rfl
@[simp] theorem State.modMe_flights (s : State) (f : Ctx → Ctx) : (s.modMe f).flights = s.flights := rfl
@[simp] theorem State.modMe_spills (s : State) (f : Ctx → Ctx) : (s.modMe f).spills = s.spills := rfl
@[simp] theorem State.modMe_parts (s : State) (f : Ctx → Ctx) : (s.modMe f).parts = s.parts := rfl
@[simp] theorem State.modMe_copies (s : State) (f : Ctx → Ctx) : (s.modMe f).copies = s.copies := rfl
@[simp] theorem State.modMe_launches (s : State) (f : Ctx → Ctx) : (s.modMe f).launches = s.launches := rfl
@[simp] theorem State.modMe_nextLaunch (s : State) (f : Ctx → Ctx) : (s.modMe f).nextLaunch = s.nextLaunch := rfl
@[simp] theorem State.modMe_port (s : State) (f : Ctx → Ctx) : (s.modMe f).port = s.port := rfl
@[simp] theorem State.modMe_saves (s : State) (f : Ctx → Ctx) : (s.modMe f).saves = s.saves := rfl
@[simp] theorem State.modMe_cur (s : State) (f : Ctx → Ctx) : (s.modMe f).cur = s.cur := rfl
@[simp] theorem State.modMe_issue (s : State) (f : Ctx → Ctx) : (s.modMe f).issue = s.issue := rfl
@[simp] theorem State.modMe_agenda (s : State) (f : Ctx → Ctx) : (s.modMe f).agenda = s.agenda := rfl
@[simp] theorem State.modMe_clock (s : State) (f : Ctx → Ctx) : (s.modMe f).clock = s.clock := rfl
@[simp] theorem State.modMe_nonce (s : State) (f : Ctx → Ctx) : (s.modMe f).nonce = s.nonce := rfl
@[simp] theorem State.modMe_due (s : State) (f : Ctx → Ctx) : (s.modMe f).due = s.due := rfl

/-! ### setMe -/

@[simp] theorem State.setMe_mem (s : State) (x : Ctx) : (s.setMe x).mem = s.mem := rfl
@[simp] theorem State.setMe_unspec (s : State) (x : Ctx) : (s.setMe x).unspec = s.unspec := rfl
@[simp] theorem State.setMe_poison (s : State) (x : Ctx) : (s.setMe x).poison = s.poison := rfl
@[simp] theorem State.setMe_owners (s : State) (x : Ctx) : (s.setMe x).owners = s.owners := rfl
@[simp] theorem State.setMe_cores (s : State) (x : Ctx) : (s.setMe x).cores = s.cores := rfl
@[simp] theorem State.setMe_tils (s : State) (x : Ctx) : (s.setMe x).tils = s.tils := rfl
@[simp] theorem State.setMe_dies (s : State) (x : Ctx) : (s.setMe x).dies = s.dies := rfl
@[simp] theorem State.setMe_dirs (s : State) (x : Ctx) : (s.setMe x).dirs = s.dirs := rfl
@[simp] theorem State.setMe_rings (s : State) (x : Ctx) : (s.setMe x).rings = s.rings := rfl
@[simp] theorem State.setMe_flights (s : State) (x : Ctx) : (s.setMe x).flights = s.flights := rfl
@[simp] theorem State.setMe_spills (s : State) (x : Ctx) : (s.setMe x).spills = s.spills := rfl
@[simp] theorem State.setMe_parts (s : State) (x : Ctx) : (s.setMe x).parts = s.parts := rfl
@[simp] theorem State.setMe_copies (s : State) (x : Ctx) : (s.setMe x).copies = s.copies := rfl
@[simp] theorem State.setMe_launches (s : State) (x : Ctx) : (s.setMe x).launches = s.launches := rfl
@[simp] theorem State.setMe_nextLaunch (s : State) (x : Ctx) : (s.setMe x).nextLaunch = s.nextLaunch := rfl
@[simp] theorem State.setMe_port (s : State) (x : Ctx) : (s.setMe x).port = s.port := rfl
@[simp] theorem State.setMe_saves (s : State) (x : Ctx) : (s.setMe x).saves = s.saves := rfl
@[simp] theorem State.setMe_cur (s : State) (x : Ctx) : (s.setMe x).cur = s.cur := rfl
@[simp] theorem State.setMe_issue (s : State) (x : Ctx) : (s.setMe x).issue = s.issue := rfl
@[simp] theorem State.setMe_agenda (s : State) (x : Ctx) : (s.setMe x).agenda = s.agenda := rfl
@[simp] theorem State.setMe_clock (s : State) (x : Ctx) : (s.setMe x).clock = s.clock := rfl
@[simp] theorem State.setMe_nonce (s : State) (x : Ctx) : (s.setMe x).nonce = s.nonce := rfl
@[simp] theorem State.setMe_due (s : State) (x : Ctx) : (s.setMe x).due = s.due := rfl

/-! ### later -/

@[simp] theorem State.later_mem (s : State) (i : Instr) : (s.later i).mem = s.mem := rfl
@[simp] theorem State.later_unspec (s : State) (i : Instr) : (s.later i).unspec = s.unspec := rfl
@[simp] theorem State.later_poison (s : State) (i : Instr) : (s.later i).poison = s.poison := rfl
@[simp] theorem State.later_owners (s : State) (i : Instr) : (s.later i).owners = s.owners := rfl
@[simp] theorem State.later_ctxs (s : State) (i : Instr) : (s.later i).ctxs = s.ctxs := rfl
@[simp] theorem State.later_cores (s : State) (i : Instr) : (s.later i).cores = s.cores := rfl
@[simp] theorem State.later_tils (s : State) (i : Instr) : (s.later i).tils = s.tils := rfl
@[simp] theorem State.later_dies (s : State) (i : Instr) : (s.later i).dies = s.dies := rfl
@[simp] theorem State.later_dirs (s : State) (i : Instr) : (s.later i).dirs = s.dirs := rfl
@[simp] theorem State.later_rings (s : State) (i : Instr) : (s.later i).rings = s.rings := rfl
@[simp] theorem State.later_flights (s : State) (i : Instr) : (s.later i).flights = s.flights := rfl
@[simp] theorem State.later_spills (s : State) (i : Instr) : (s.later i).spills = s.spills := rfl
@[simp] theorem State.later_parts (s : State) (i : Instr) : (s.later i).parts = s.parts := rfl
@[simp] theorem State.later_copies (s : State) (i : Instr) : (s.later i).copies = s.copies := rfl
@[simp] theorem State.later_launches (s : State) (i : Instr) : (s.later i).launches = s.launches := rfl
@[simp] theorem State.later_nextLaunch (s : State) (i : Instr) : (s.later i).nextLaunch = s.nextLaunch := rfl
@[simp] theorem State.later_port (s : State) (i : Instr) : (s.later i).port = s.port := rfl
@[simp] theorem State.later_saves (s : State) (i : Instr) : (s.later i).saves = s.saves := rfl
@[simp] theorem State.later_cur (s : State) (i : Instr) : (s.later i).cur = s.cur := rfl
@[simp] theorem State.later_issue (s : State) (i : Instr) : (s.later i).issue = s.issue := rfl
@[simp] theorem State.later_clock (s : State) (i : Instr) : (s.later i).clock = s.clock := rfl
@[simp] theorem State.later_nonce (s : State) (i : Instr) : (s.later i).nonce = s.nonce := rfl
@[simp] theorem State.later_due (s : State) (i : Instr) : (s.later i).due = s.due := rfl

/-! ### tick -/

@[simp] theorem State.tick_mem (s : State) : (s.tick).mem = s.mem := rfl
@[simp] theorem State.tick_unspec (s : State) : (s.tick).unspec = s.unspec := rfl
@[simp] theorem State.tick_poison (s : State) : (s.tick).poison = s.poison := rfl
@[simp] theorem State.tick_owners (s : State) : (s.tick).owners = s.owners := rfl
@[simp] theorem State.tick_ctxs (s : State) : (s.tick).ctxs = s.ctxs := rfl
@[simp] theorem State.tick_cores (s : State) : (s.tick).cores = s.cores := rfl
@[simp] theorem State.tick_tils (s : State) : (s.tick).tils = s.tils := rfl
@[simp] theorem State.tick_dies (s : State) : (s.tick).dies = s.dies := rfl
@[simp] theorem State.tick_dirs (s : State) : (s.tick).dirs = s.dirs := rfl
@[simp] theorem State.tick_rings (s : State) : (s.tick).rings = s.rings := rfl
@[simp] theorem State.tick_flights (s : State) : (s.tick).flights = s.flights := rfl
@[simp] theorem State.tick_spills (s : State) : (s.tick).spills = s.spills := rfl
@[simp] theorem State.tick_parts (s : State) : (s.tick).parts = s.parts := rfl
@[simp] theorem State.tick_copies (s : State) : (s.tick).copies = s.copies := rfl
@[simp] theorem State.tick_launches (s : State) : (s.tick).launches = s.launches := rfl
@[simp] theorem State.tick_nextLaunch (s : State) : (s.tick).nextLaunch = s.nextLaunch := rfl
@[simp] theorem State.tick_port (s : State) : (s.tick).port = s.port := rfl
@[simp] theorem State.tick_saves (s : State) : (s.tick).saves = s.saves := rfl
@[simp] theorem State.tick_cur (s : State) : (s.tick).cur = s.cur := rfl
@[simp] theorem State.tick_issue (s : State) : (s.tick).issue = s.issue := rfl
@[simp] theorem State.tick_agenda (s : State) : (s.tick).agenda = s.agenda := rfl
@[simp] theorem State.tick_clock (s : State) : (s.tick).clock = s.clock := rfl
@[simp] theorem State.tick_due (s : State) : (s.tick).due = s.due := rfl

/-! ### setByte -/

@[simp] theorem State.setByte_poison (s : State) (a : Nat) (b : Byte) : (s.setByte a b).poison = s.poison := rfl
@[simp] theorem State.setByte_owners (s : State) (a : Nat) (b : Byte) : (s.setByte a b).owners = s.owners := rfl
@[simp] theorem State.setByte_ctxs (s : State) (a : Nat) (b : Byte) : (s.setByte a b).ctxs = s.ctxs := rfl
@[simp] theorem State.setByte_cores (s : State) (a : Nat) (b : Byte) : (s.setByte a b).cores = s.cores := rfl
@[simp] theorem State.setByte_tils (s : State) (a : Nat) (b : Byte) : (s.setByte a b).tils = s.tils := rfl
@[simp] theorem State.setByte_dies (s : State) (a : Nat) (b : Byte) : (s.setByte a b).dies = s.dies := rfl
@[simp] theorem State.setByte_dirs (s : State) (a : Nat) (b : Byte) : (s.setByte a b).dirs = s.dirs := rfl
@[simp] theorem State.setByte_rings (s : State) (a : Nat) (b : Byte) : (s.setByte a b).rings = s.rings := rfl
@[simp] theorem State.setByte_flights (s : State) (a : Nat) (b : Byte) : (s.setByte a b).flights = s.flights := rfl
@[simp] theorem State.setByte_spills (s : State) (a : Nat) (b : Byte) : (s.setByte a b).spills = s.spills := rfl
@[simp] theorem State.setByte_parts (s : State) (a : Nat) (b : Byte) : (s.setByte a b).parts = s.parts := rfl
@[simp] theorem State.setByte_copies (s : State) (a : Nat) (b : Byte) : (s.setByte a b).copies = s.copies := rfl
@[simp] theorem State.setByte_launches (s : State) (a : Nat) (b : Byte) : (s.setByte a b).launches = s.launches := rfl
@[simp] theorem State.setByte_nextLaunch (s : State) (a : Nat) (b : Byte) : (s.setByte a b).nextLaunch = s.nextLaunch := rfl
@[simp] theorem State.setByte_port (s : State) (a : Nat) (b : Byte) : (s.setByte a b).port = s.port := rfl
@[simp] theorem State.setByte_saves (s : State) (a : Nat) (b : Byte) : (s.setByte a b).saves = s.saves := rfl
@[simp] theorem State.setByte_cur (s : State) (a : Nat) (b : Byte) : (s.setByte a b).cur = s.cur := rfl
@[simp] theorem State.setByte_issue (s : State) (a : Nat) (b : Byte) : (s.setByte a b).issue = s.issue := rfl
@[simp] theorem State.setByte_agenda (s : State) (a : Nat) (b : Byte) : (s.setByte a b).agenda = s.agenda := rfl
@[simp] theorem State.setByte_clock (s : State) (a : Nat) (b : Byte) : (s.setByte a b).clock = s.clock := rfl
@[simp] theorem State.setByte_nonce (s : State) (a : Nat) (b : Byte) : (s.setByte a b).nonce = s.nonce := rfl
@[simp] theorem State.setByte_due (s : State) (a : Nat) (b : Byte) : (s.setByte a b).due = s.due := rfl

/-! ### cleanse -/

@[simp] theorem State.cleanse_mem (s : State) (a n : Nat) : (s.cleanse a n).mem = s.mem := rfl
@[simp] theorem State.cleanse_unspec (s : State) (a n : Nat) : (s.cleanse a n).unspec = s.unspec := rfl
@[simp] theorem State.cleanse_owners (s : State) (a n : Nat) : (s.cleanse a n).owners = s.owners := rfl
@[simp] theorem State.cleanse_ctxs (s : State) (a n : Nat) : (s.cleanse a n).ctxs = s.ctxs := rfl
@[simp] theorem State.cleanse_cores (s : State) (a n : Nat) : (s.cleanse a n).cores = s.cores := rfl
@[simp] theorem State.cleanse_tils (s : State) (a n : Nat) : (s.cleanse a n).tils = s.tils := rfl
@[simp] theorem State.cleanse_dies (s : State) (a n : Nat) : (s.cleanse a n).dies = s.dies := rfl
@[simp] theorem State.cleanse_dirs (s : State) (a n : Nat) : (s.cleanse a n).dirs = s.dirs := rfl
@[simp] theorem State.cleanse_rings (s : State) (a n : Nat) : (s.cleanse a n).rings = s.rings := rfl
@[simp] theorem State.cleanse_flights (s : State) (a n : Nat) : (s.cleanse a n).flights = s.flights := rfl
@[simp] theorem State.cleanse_spills (s : State) (a n : Nat) : (s.cleanse a n).spills = s.spills := rfl
@[simp] theorem State.cleanse_parts (s : State) (a n : Nat) : (s.cleanse a n).parts = s.parts := rfl
@[simp] theorem State.cleanse_copies (s : State) (a n : Nat) : (s.cleanse a n).copies = s.copies := rfl
@[simp] theorem State.cleanse_launches (s : State) (a n : Nat) : (s.cleanse a n).launches = s.launches := rfl
@[simp] theorem State.cleanse_nextLaunch (s : State) (a n : Nat) : (s.cleanse a n).nextLaunch = s.nextLaunch := rfl
@[simp] theorem State.cleanse_port (s : State) (a n : Nat) : (s.cleanse a n).port = s.port := rfl
@[simp] theorem State.cleanse_saves (s : State) (a n : Nat) : (s.cleanse a n).saves = s.saves := rfl
@[simp] theorem State.cleanse_cur (s : State) (a n : Nat) : (s.cleanse a n).cur = s.cur := rfl
@[simp] theorem State.cleanse_issue (s : State) (a n : Nat) : (s.cleanse a n).issue = s.issue := rfl
@[simp] theorem State.cleanse_agenda (s : State) (a n : Nat) : (s.cleanse a n).agenda = s.agenda := rfl
@[simp] theorem State.cleanse_clock (s : State) (a n : Nat) : (s.cleanse a n).clock = s.clock := rfl
@[simp] theorem State.cleanse_nonce (s : State) (a n : Nat) : (s.cleanse a n).nonce = s.nonce := rfl
@[simp] theorem State.cleanse_due (s : State) (a n : Nat) : (s.cleanse a n).due = s.due := rfl

/-! ### modPort -/

@[simp] theorem State.modPort_mem (s : State) (f : Port → Port) : (s.modPort f).mem = s.mem := rfl
@[simp] theorem State.modPort_unspec (s : State) (f : Port → Port) : (s.modPort f).unspec = s.unspec := rfl
@[simp] theorem State.modPort_poison (s : State) (f : Port → Port) : (s.modPort f).poison = s.poison := rfl
@[simp] theorem State.modPort_owners (s : State) (f : Port → Port) : (s.modPort f).owners = s.owners := rfl
@[simp] theorem State.modPort_ctxs (s : State) (f : Port → Port) : (s.modPort f).ctxs = s.ctxs := rfl
@[simp] theorem State.modPort_cores (s : State) (f : Port → Port) : (s.modPort f).cores = s.cores := rfl
@[simp] theorem State.modPort_tils (s : State) (f : Port → Port) : (s.modPort f).tils = s.tils := rfl
@[simp] theorem State.modPort_dies (s : State) (f : Port → Port) : (s.modPort f).dies = s.dies := rfl
@[simp] theorem State.modPort_dirs (s : State) (f : Port → Port) : (s.modPort f).dirs = s.dirs := rfl
@[simp] theorem State.modPort_rings (s : State) (f : Port → Port) : (s.modPort f).rings = s.rings := rfl
@[simp] theorem State.modPort_flights (s : State) (f : Port → Port) : (s.modPort f).flights = s.flights := rfl
@[simp] theorem State.modPort_spills (s : State) (f : Port → Port) : (s.modPort f).spills = s.spills := rfl
@[simp] theorem State.modPort_parts (s : State) (f : Port → Port) : (s.modPort f).parts = s.parts := rfl
@[simp] theorem State.modPort_copies (s : State) (f : Port → Port) : (s.modPort f).copies = s.copies := rfl
@[simp] theorem State.modPort_launches (s : State) (f : Port → Port) : (s.modPort f).launches = s.launches := rfl
@[simp] theorem State.modPort_nextLaunch (s : State) (f : Port → Port) : (s.modPort f).nextLaunch = s.nextLaunch := rfl
@[simp] theorem State.modPort_saves (s : State) (f : Port → Port) : (s.modPort f).saves = s.saves := rfl
@[simp] theorem State.modPort_cur (s : State) (f : Port → Port) : (s.modPort f).cur = s.cur := rfl
@[simp] theorem State.modPort_issue (s : State) (f : Port → Port) : (s.modPort f).issue = s.issue := rfl
@[simp] theorem State.modPort_agenda (s : State) (f : Port → Port) : (s.modPort f).agenda = s.agenda := rfl
@[simp] theorem State.modPort_clock (s : State) (f : Port → Port) : (s.modPort f).clock = s.clock := rfl
@[simp] theorem State.modPort_nonce (s : State) (f : Port → Port) : (s.modPort f).nonce = s.nonce := rfl
@[simp] theorem State.modPort_due (s : State) (f : Port → Port) : (s.modPort f).due = s.due := rfl

/-! ### setRing -/

@[simp] theorem State.setRing_mem (s : State) (x : Ring) : (s.setRing x).mem = s.mem := rfl
@[simp] theorem State.setRing_unspec (s : State) (x : Ring) : (s.setRing x).unspec = s.unspec := rfl
@[simp] theorem State.setRing_poison (s : State) (x : Ring) : (s.setRing x).poison = s.poison := rfl
@[simp] theorem State.setRing_owners (s : State) (x : Ring) : (s.setRing x).owners = s.owners := rfl
@[simp] theorem State.setRing_ctxs (s : State) (x : Ring) : (s.setRing x).ctxs = s.ctxs := rfl
@[simp] theorem State.setRing_cores (s : State) (x : Ring) : (s.setRing x).cores = s.cores := rfl
@[simp] theorem State.setRing_tils (s : State) (x : Ring) : (s.setRing x).tils = s.tils := rfl
@[simp] theorem State.setRing_dies (s : State) (x : Ring) : (s.setRing x).dies = s.dies := rfl
@[simp] theorem State.setRing_dirs (s : State) (x : Ring) : (s.setRing x).dirs = s.dirs := rfl
@[simp] theorem State.setRing_flights (s : State) (x : Ring) : (s.setRing x).flights = s.flights := rfl
@[simp] theorem State.setRing_spills (s : State) (x : Ring) : (s.setRing x).spills = s.spills := rfl
@[simp] theorem State.setRing_parts (s : State) (x : Ring) : (s.setRing x).parts = s.parts := rfl
@[simp] theorem State.setRing_copies (s : State) (x : Ring) : (s.setRing x).copies = s.copies := rfl
@[simp] theorem State.setRing_launches (s : State) (x : Ring) : (s.setRing x).launches = s.launches := rfl
@[simp] theorem State.setRing_nextLaunch (s : State) (x : Ring) : (s.setRing x).nextLaunch = s.nextLaunch := rfl
@[simp] theorem State.setRing_port (s : State) (x : Ring) : (s.setRing x).port = s.port := rfl
@[simp] theorem State.setRing_saves (s : State) (x : Ring) : (s.setRing x).saves = s.saves := rfl
@[simp] theorem State.setRing_cur (s : State) (x : Ring) : (s.setRing x).cur = s.cur := rfl
@[simp] theorem State.setRing_issue (s : State) (x : Ring) : (s.setRing x).issue = s.issue := rfl
@[simp] theorem State.setRing_agenda (s : State) (x : Ring) : (s.setRing x).agenda = s.agenda := rfl
@[simp] theorem State.setRing_clock (s : State) (x : Ring) : (s.setRing x).clock = s.clock := rfl
@[simp] theorem State.setRing_nonce (s : State) (x : Ring) : (s.setRing x).nonce = s.nonce := rfl
@[simp] theorem State.setRing_due (s : State) (x : Ring) : (s.setRing x).due = s.due := rfl

@[simp] theorem State.modPort_port (s : State) (f : Port → Port) : (s.modPort f).port = f s.port := rfl
@[simp] theorem State.tick_nonce (s : State) : s.tick.nonce = s.nonce + 1 := rfl
@[simp] theorem State.later_agenda (s : State) (i : Instr) : (s.later i).agenda = s.agenda ++ [i] := rfl
@[simp] theorem State.setByte_mem (s : State) (a : Nat) (b : Byte) : (s.setByte a b).mem = memSet s.mem a b := rfl

/-! ### Tables -/

theorem tget_tset_same {α : Type} (l : List (Nat × α)) (n : Nat) (x : α) : tget (tset l n x) n = some x := by
  induction l with
  | nil => simp [tset, tget]
  | cons p r ih =>
    obtain ⟨k, y⟩ := p
    simp only [tset]
    split
    · simp [tget]
    · split
      · simp [tget]
      · rename_i h1 h2
        simp [tget, h2, ih]

theorem tget_tset_ne {α : Type} (l : List (Nat × α)) (n k : Nat) (x : α) (h : k ≠ n) : tget (tset l n x) k = tget l k := by
  induction l with
  | nil => simp [tset, tget, h]
  | cons p r ih =>
    obtain ⟨j, y⟩ := p
    simp only [tset]
    split
    · simp [tget, h]
    · split
      · rename_i h1 h2; subst h2; simp [tget, h]
      · simp only [tget, ih]

@[simp] theorem State.ctx_setCtx (s : State) (c : Nat) (x : Ctx) : (s.setCtx c x).ctx c = x := by
  simp [State.ctx, State.setCtx, tget_tset_same]
@[simp] theorem State.ctx_setCtx_ne (s : State) (c e : Nat) (x : Ctx) (h : e ≠ c) : (s.setCtx c x).ctx e = s.ctx e := by
  simp [State.ctx, State.setCtx, tget_tset_ne _ _ _ _ h]
@[simp] theorem State.ctx_modCtx (s : State) (c : Nat) (f : Ctx → Ctx) : (s.modCtx c f).ctx c = f (s.ctx c) := by
  simp [State.modCtx]
@[simp] theorem State.ctx_modCtx_ne (s : State) (c e : Nat) (f : Ctx → Ctx) (h : e ≠ c) : (s.modCtx c f).ctx e = s.ctx e := by
  simp [State.modCtx, h]
@[simp] theorem State.core_setCore (s : State) (c : Nat) (x : Core) : (s.setCore c x).core c = x := by
  simp [State.core, State.setCore, tget_tset_same]
@[simp] theorem State.core_setCore_ne (s : State) (c e : Nat) (x : Core) (h : e ≠ c) : (s.setCore c x).core e = s.core e := by
  simp [State.core, State.setCore, tget_tset_ne _ _ _ _ h]
@[simp] theorem State.core_modCore (s : State) (c : Nat) (f : Core → Core) : (s.modCore c f).core c = f (s.core c) := by
  simp [State.modCore]
@[simp] theorem State.core_modCore_ne (s : State) (c e : Nat) (f : Core → Core) (h : e ≠ c) : (s.modCore c f).core e = s.core e := by
  simp [State.modCore, h]
@[simp] theorem State.til_setTil (s : State) (c : Nat) (x : Tiller) : (s.setTil c x).til c = x := by
  simp [State.til, State.setTil, tget_tset_same]
@[simp] theorem State.til_setTil_ne (s : State) (c e : Nat) (x : Tiller) (h : e ≠ c) : (s.setTil c x).til e = s.til e := by
  simp [State.til, State.setTil, tget_tset_ne _ _ _ _ h]
@[simp] theorem State.til_modTil (s : State) (c : Nat) (f : Tiller → Tiller) : (s.modTil c f).til c = f (s.til c) := by
  simp [State.modTil]
@[simp] theorem State.til_modTil_ne (s : State) (c e : Nat) (f : Tiller → Tiller) (h : e ≠ c) : (s.modTil c f).til e = s.til e := by
  simp [State.modTil, h]
@[simp] theorem State.die_setDie (s : State) (c : Nat) (x : Die) : (s.setDie c x).die c = x := by
  simp [State.die, State.setDie, tget_tset_same]
@[simp] theorem State.die_setDie_ne (s : State) (c e : Nat) (x : Die) (h : e ≠ c) : (s.setDie c x).die e = s.die e := by
  simp [State.die, State.setDie, tget_tset_ne _ _ _ _ h]
@[simp] theorem State.die_modDie (s : State) (c : Nat) (f : Die → Die) : (s.modDie c f).die c = f (s.die c) := by
  simp [State.modDie]
@[simp] theorem State.die_modDie_ne (s : State) (c e : Nat) (f : Die → Die) (h : e ≠ c) : (s.modDie c f).die e = s.die e := by
  simp [State.modDie, h]
@[simp] theorem State.ctx_setCore (s : State) (k : Nat) (x : Core) (j : Nat) : (s.setCore k x).ctx j = s.ctx j := rfl
@[simp] theorem State.ctx_modCore (s : State) (k : Nat) (f : Core → Core) (j : Nat) : (s.modCore k f).ctx j = s.ctx j := rfl
@[simp] theorem State.ctx_setTil (s : State) (t : Nat) (x : Tiller) (j : Nat) : (s.setTil t x).ctx j = s.ctx j := rfl
@[simp] theorem State.ctx_modTil (s : State) (t : Nat) (f : Tiller → Tiller) (j : Nat) : (s.modTil t f).ctx j = s.ctx j := rfl
@[simp] theorem State.ctx_setDie (s : State) (d : Nat) (x : Die) (j : Nat) : (s.setDie d x).ctx j = s.ctx j := rfl
@[simp] theorem State.ctx_modDie (s : State) (d : Nat) (f : Die → Die) (j : Nat) : (s.modDie d f).ctx j = s.ctx j := rfl
@[simp] theorem State.ctx_later (s : State) (i : Instr) (j : Nat) : (s.later i).ctx j = s.ctx j := rfl
@[simp] theorem State.ctx_tick (s : State)  (j : Nat) : (s.tick).ctx j = s.ctx j := rfl
@[simp] theorem State.ctx_setByte (s : State) (a : Nat) (b : Byte) (j : Nat) : (s.setByte a b).ctx j = s.ctx j := rfl
@[simp] theorem State.ctx_cleanse (s : State) (a n : Nat) (j : Nat) : (s.cleanse a n).ctx j = s.ctx j := rfl
@[simp] theorem State.core_setCtx (s : State) (c : Nat) (x : Ctx) (j : Nat) : (s.setCtx c x).core j = s.core j := rfl
@[simp] theorem State.core_modCtx (s : State) (c : Nat) (f : Ctx → Ctx) (j : Nat) : (s.modCtx c f).core j = s.core j := rfl
@[simp] theorem State.core_setTil (s : State) (t : Nat) (x : Tiller) (j : Nat) : (s.setTil t x).core j = s.core j := rfl
@[simp] theorem State.core_modTil (s : State) (t : Nat) (f : Tiller → Tiller) (j : Nat) : (s.modTil t f).core j = s.core j := rfl
@[simp] theorem State.core_setDie (s : State) (d : Nat) (x : Die) (j : Nat) : (s.setDie d x).core j = s.core j := rfl
@[simp] theorem State.core_modDie (s : State) (d : Nat) (f : Die → Die) (j : Nat) : (s.modDie d f).core j = s.core j := rfl
@[simp] theorem State.core_modMe (s : State) (f : Ctx → Ctx) (j : Nat) : (s.modMe f).core j = s.core j := rfl
@[simp] theorem State.core_setMe (s : State) (x : Ctx) (j : Nat) : (s.setMe x).core j = s.core j := rfl
@[simp] theorem State.core_later (s : State) (i : Instr) (j : Nat) : (s.later i).core j = s.core j := rfl
@[simp] theorem State.core_tick (s : State)  (j : Nat) : (s.tick).core j = s.core j := rfl
@[simp] theorem State.core_setByte (s : State) (a : Nat) (b : Byte) (j : Nat) : (s.setByte a b).core j = s.core j := rfl
@[simp] theorem State.core_cleanse (s : State) (a n : Nat) (j : Nat) : (s.cleanse a n).core j = s.core j := rfl
@[simp] theorem State.til_setCtx (s : State) (c : Nat) (x : Ctx) (j : Nat) : (s.setCtx c x).til j = s.til j := rfl
@[simp] theorem State.til_modCtx (s : State) (c : Nat) (f : Ctx → Ctx) (j : Nat) : (s.modCtx c f).til j = s.til j := rfl
@[simp] theorem State.til_setCore (s : State) (k : Nat) (x : Core) (j : Nat) : (s.setCore k x).til j = s.til j := rfl
@[simp] theorem State.til_modCore (s : State) (k : Nat) (f : Core → Core) (j : Nat) : (s.modCore k f).til j = s.til j := rfl
@[simp] theorem State.til_setDie (s : State) (d : Nat) (x : Die) (j : Nat) : (s.setDie d x).til j = s.til j := rfl
@[simp] theorem State.til_modDie (s : State) (d : Nat) (f : Die → Die) (j : Nat) : (s.modDie d f).til j = s.til j := rfl
@[simp] theorem State.til_modMe (s : State) (f : Ctx → Ctx) (j : Nat) : (s.modMe f).til j = s.til j := rfl
@[simp] theorem State.til_setMe (s : State) (x : Ctx) (j : Nat) : (s.setMe x).til j = s.til j := rfl
@[simp] theorem State.til_later (s : State) (i : Instr) (j : Nat) : (s.later i).til j = s.til j := rfl
@[simp] theorem State.til_tick (s : State)  (j : Nat) : (s.tick).til j = s.til j := rfl
@[simp] theorem State.til_setByte (s : State) (a : Nat) (b : Byte) (j : Nat) : (s.setByte a b).til j = s.til j := rfl
@[simp] theorem State.til_cleanse (s : State) (a n : Nat) (j : Nat) : (s.cleanse a n).til j = s.til j := rfl
@[simp] theorem State.die_setCtx (s : State) (c : Nat) (x : Ctx) (j : Nat) : (s.setCtx c x).die j = s.die j := rfl
@[simp] theorem State.die_modCtx (s : State) (c : Nat) (f : Ctx → Ctx) (j : Nat) : (s.modCtx c f).die j = s.die j := rfl
@[simp] theorem State.die_setCore (s : State) (k : Nat) (x : Core) (j : Nat) : (s.setCore k x).die j = s.die j := rfl
@[simp] theorem State.die_modCore (s : State) (k : Nat) (f : Core → Core) (j : Nat) : (s.modCore k f).die j = s.die j := rfl
@[simp] theorem State.die_setTil (s : State) (t : Nat) (x : Tiller) (j : Nat) : (s.setTil t x).die j = s.die j := rfl
@[simp] theorem State.die_modTil (s : State) (t : Nat) (f : Tiller → Tiller) (j : Nat) : (s.modTil t f).die j = s.die j := rfl
@[simp] theorem State.die_modMe (s : State) (f : Ctx → Ctx) (j : Nat) : (s.modMe f).die j = s.die j := rfl
@[simp] theorem State.die_setMe (s : State) (x : Ctx) (j : Nat) : (s.setMe x).die j = s.die j := rfl
@[simp] theorem State.die_later (s : State) (i : Instr) (j : Nat) : (s.later i).die j = s.die j := rfl
@[simp] theorem State.die_tick (s : State)  (j : Nat) : (s.tick).die j = s.die j := rfl
@[simp] theorem State.die_setByte (s : State) (a : Nat) (b : Byte) (j : Nat) : (s.setByte a b).die j = s.die j := rfl
@[simp] theorem State.die_cleanse (s : State) (a n : Nat) (j : Nat) : (s.cleanse a n).die j = s.die j := rfl
@[simp] theorem State.ctx_modPort (s : State) (f : Port → Port) (j : Nat) : (s.modPort f).ctx j = s.ctx j := rfl
@[simp] theorem State.ctx_setRing (s : State) (x : Ring) (j : Nat) : (s.setRing x).ctx j = s.ctx j := rfl
@[simp] theorem State.core_modPort (s : State) (f : Port → Port) (j : Nat) : (s.modPort f).core j = s.core j := rfl
@[simp] theorem State.core_setRing (s : State) (x : Ring) (j : Nat) : (s.setRing x).core j = s.core j := rfl
@[simp] theorem State.til_modPort (s : State) (f : Port → Port) (j : Nat) : (s.modPort f).til j = s.til j := rfl
@[simp] theorem State.til_setRing (s : State) (x : Ring) (j : Nat) : (s.setRing x).til j = s.til j := rfl
@[simp] theorem State.die_modPort (s : State) (f : Port → Port) (j : Nat) : (s.modPort f).die j = s.die j := rfl
@[simp] theorem State.die_setRing (s : State) (x : Ring) (j : Nat) : (s.setRing x).die j = s.die j := rfl
@[simp] theorem State.me_modMe (s : State) (f : Ctx → Ctx) : (s.modMe f).me = f s.me := by
  simp [State.me, State.modMe]
@[simp] theorem State.me_setMe (s : State) (x : Ctx) : (s.setMe x).me = x := by
  simp [State.me, State.setMe]

end Sys2Proof.Machine
end

