-- ==== Sys2Proof/Laws/Memory.lean ====
section
/-! SUPPORT. Memory: a byte read after a write, and the canonical form that every memory operation keeps. -/

namespace Sys2Proof.Machine

/-- Memory in canonical form has a canonical rest, whose addresses lie above its first. -/
theorem memWf_cons {a : Nat} {b : Byte} {r : List Host.Cell} :
    memWf ((a, b) :: r) = true ↔ b ≠ 0 ∧ memWf r = true ∧ ∀ c ∈ r, a < c.1 := by
  induction r generalizing a b with
  | nil => simp [memWf]
  | cons p r ih =>
    obtain ⟨k, c⟩ := p
    simp only [memWf, Bool.and_eq_true, decide_eq_true_eq, List.mem_cons, forall_eq_or_imp]
    constructor
    · rintro ⟨⟨hb, hk⟩, hr⟩
      exact ⟨hb, hr, hk, fun d hd => Nat.lt_trans hk ((ih.mp hr).2.2 d hd)⟩
    · rintro ⟨hb, hr, hk, -⟩
      exact ⟨⟨hb, hk⟩, hr⟩

/-- An address below every listed one reads zero. -/
theorem memGet_below {l : List Host.Cell} {a : Nat} (h : ∀ c ∈ l, a < c.1) : memGet l a = 0 := by
  cases l with
  | nil => rfl
  | cons p r => simp [memGet, h p (by simp)]

/-- Addresses of a written memory: old ones, and the one written. -/
theorem mem_memSet {l : List Host.Cell} {a : Nat} {b : Byte} {c : Host.Cell} (h : c ∈ memSet l a b) :
    c ∈ l ∨ c.1 = a := by
  induction l with
  | nil =>
    simp only [memSet] at h
    split at h
    · simp at h
    · simp only [List.mem_singleton] at h; exact .inr (by rw [h])
  | cons p r ih =>
    obtain ⟨k, d⟩ := p
    simp only [memSet] at h
    split at h
    · split at h
      · exact .inl h
      · rcases List.mem_cons.mp h with rfl | h
        · exact .inr rfl
        · exact .inl h
    · split at h
      · split at h
        · exact .inl (List.mem_cons_of_mem _ h)
        · rcases List.mem_cons.mp h with rfl | h
          · exact .inr rfl
          · exact .inl (List.mem_cons_of_mem _ h)
      · rcases List.mem_cons.mp h with rfl | h
        · exact .inl (by simp)
        · rcases ih h with h | h
          · exact .inl (List.mem_cons_of_mem _ h)
          · exact .inr h

/-- A write keeps the canonical form. -/
theorem memSet_wf {l : List Host.Cell} (a : Nat) (b : Byte) (h : memWf l = true) : memWf (memSet l a b) = true := by
  induction l with
  | nil => simp only [memSet]; split <;> simp_all [memWf]
  | cons p r ih =>
    obtain ⟨k, c⟩ := p
    obtain ⟨hc, hr, hk⟩ := memWf_cons.mp h
    simp only [memSet]
    split
    · rename_i hlt
      split
      · exact h
      · rename_i hb
        refine memWf_cons.mpr ⟨hb, h, ?_⟩
        intro d hd
        rcases List.mem_cons.mp hd with rfl | hd
        · exact hlt
        · exact Nat.lt_trans hlt (hk d hd)
    · split
      · rename_i heq
        split
        · exact hr
        · rename_i hb
          exact memWf_cons.mpr ⟨hb, hr, fun d hd => heq ▸ hk d hd⟩
      · rename_i h1 h2
        refine memWf_cons.mpr ⟨hc, ih hr, fun d hd => ?_⟩
        rcases mem_memSet hd with hd | hd
        · exact hk d hd
        · omega

/-- A read of the byte written gives it. -/
theorem memGet_memSet_same {l : List Host.Cell} (a : Nat) (b : Byte) (h : memWf l = true) :
    memGet (memSet l a b) a = b := by
  induction l with
  | nil => simp only [memSet]; split <;> simp_all [memGet]
  | cons p r ih =>
    obtain ⟨k, c⟩ := p
    obtain ⟨-, hr, hk⟩ := memWf_cons.mp h
    simp only [memSet]
    split
    · rename_i hlt
      split
      · rename_i hb; simp [memGet, hlt, hb]
      · simp [memGet]
    · split
      · rename_i heq
        split
        · rename_i hb; rw [memGet_below (fun d hd => heq ▸ hk d hd), hb]
        · simp [memGet]
      · rename_i h1 h2
        simp [memGet, h1, h2, ih hr]

/-- A read of another byte gives what it gave before. -/
theorem memGet_memSet_ne {l : List Host.Cell} (a e : Nat) (b : Byte) (he : e ≠ a) (h : memWf l = true) :
    memGet (memSet l a b) e = memGet l e := by
  induction l with
  | nil =>
    simp only [memSet]
    split
    · rfl
    · simp [memGet, he]
  | cons p r ih =>
    obtain ⟨k, c⟩ := p
    obtain ⟨-, hr, hk⟩ := memWf_cons.mp h
    simp only [memSet]
    split
    · rename_i hlt
      split
      · rfl
      · simp only [memGet, he, if_false]
        split
        · rename_i h1
          simp [show e < k by omega]
        · rfl
    · split
      · rename_i heq
        subst heq
        split
        · simp only [memGet, he, if_false]
          split
          · rename_i h1
            exact memGet_below (fun d hd => Nat.lt_trans h1 (hk d hd))
          · rfl
        · simp only [memGet, he, if_false]
      · simp only [memGet, ih hr]

/-- A filtered memory keeps the canonical form. -/
theorem filter_wf {l : List Host.Cell} (p : Host.Cell → Bool) (h : memWf l = true) : memWf (l.filter p) = true := by
  induction l with
  | nil => rfl
  | cons q r ih =>
    obtain ⟨a, b⟩ := q
    obtain ⟨hb, hr, hk⟩ := memWf_cons.mp h
    simp only [List.filter_cons]
    split
    · exact memWf_cons.mpr ⟨hb, ih hr, fun c hc => hk c (List.mem_filter.mp hc).1⟩
    · exact ih hr

/-! ### The operations on memory -/

theorem State.setByte_memOk {s : State} (a : Nat) (b : Byte) (h : s.memOk) : (s.setByte a b).memOk := memSet_wf a b h

theorem State.putBytes_memOk {s : State} (bs : List Byte) (a : Nat) (h : s.memOk) : (s.putBytes a bs).memOk := by
  induction bs generalizing s a with
  | nil => exact h
  | cons b r ih => exact ih (a + 1) (State.setByte_memOk a b h)

theorem State.wr_memOk {s : State} (a n x : Nat) (h : s.memOk) : (s.wr a n x).memOk := State.putBytes_memOk _ a h

theorem State.scramble_memOk {s : State} (lo hi : Nat) (h : s.memOk) : (s.scramble lo hi).memOk := by
  unfold State.scramble; split <;> exact h

theorem memOk_of_mem {s t : State} (e : t.mem = s.mem) (h : s.memOk) : t.memOk := by
  unfold State.memOk at *; rw [e]; exact h

/-- A fold of steps that each keep the canonical form keeps it. -/
theorem foldl_memOk {α : Type} (f : State → α → State) (hf : ∀ s x, s.memOk → (f s x).memOk) (l : List α) {s : State}
    (h : s.memOk) : (l.foldl f s).memOk := by
  induction l generalizing s with
  | nil => exact h
  | cons x r ih => exact ih (hf s x h)

/-! ### Reads after writes -/

/-- The stamp of the range that covers a location. -/
def stampAt (l : List Span) (e : Nat) : Option Nat := (l.find? (fun r => r.lo ≤ e && e < r.hi)).map (·.stamp)

theorem stampAt_cons (r : Span) (l : List Span) (e : Nat) :
    stampAt (r :: l) e = if r.lo ≤ e ∧ e < r.hi then some r.stamp else stampAt l e := by
  by_cases h : r.lo ≤ e ∧ e < r.hi <;> simp only [stampAt, List.find?_cons, h, if_false]
  · simp
  · have : (decide (r.lo ≤ e) && decide (e < r.hi)) = false := by simpa using h
    rw [this]

theorem stampAt_cut (l : List Span) (a e : Nat) :
    stampAt (l.flatMap (Span.cut a)) e = if e = a then none else stampAt l e := by
  induction l with
  | nil => simp [stampAt]
  | cons r l ih =>
    rw [List.flatMap_cons, Span.cut, stampAt_cons]
    by_cases h : r.lo ≤ a ∧ a < r.hi
    · rw [if_pos h]
      by_cases h1 : r.lo < a <;> by_cases h2 : a + 1 < r.hi <;>
        simp only [h1, h2, if_true, if_false, List.nil_append, List.append_nil, List.cons_append,
          stampAt_cons, ih] <;> repeat' split
      all_goals first | rfl | omega
    · rw [if_neg h, List.singleton_append, stampAt_cons, ih]
      repeat' split
      all_goals first | rfl | omega

theorem byteAt_eq (s : State) (a : Nat) : s.byteAt a = match stampAt s.unspec a with
    | some n => Config.freeByte n a
    | none => memGet s.mem a := by
  unfold State.byteAt stampAt
  cases s.unspec.find? (fun r => decide (r.lo ≤ a) && decide (a < r.hi)) <;> rfl

theorem State.byteAt_setByte {s : State} (a e : Nat) (b : Byte) (h : s.memOk) :
    (s.setByte a b).byteAt e = if e = a then b else s.byteAt e := by
  rw [byteAt_eq, byteAt_eq]
  simp only [State.setByte, stampAt_cut]
  by_cases he : e = a
  · subst he; simp [memGet_memSet_same _ _ h]
  · simp only [he, if_false, memGet_memSet_ne _ _ _ he h]

/-- A write of bytes is read back, and leaves every other byte alone. -/
theorem State.byteAt_putBytes {s : State} (bs : List Byte) (a e : Nat) (h : s.memOk) :
    (s.putBytes a bs).byteAt e = if a ≤ e ∧ e < a + bs.length then bs.getD (e - a) 0 else s.byteAt e := by
  induction bs generalizing s a with
  | nil => simp [State.putBytes]
  | cons b r ih =>
    simp only [State.putBytes]
    rw [ih _ (State.setByte_memOk a b h), State.byteAt_setByte _ _ _ h]
    by_cases h1 : a + 1 ≤ e ∧ e < a + 1 + r.length
    · rw [if_pos h1, if_pos (by simp; omega), show e - a = (e - (a + 1)) + 1 by omega]
      simp
    · rw [if_neg h1]
      by_cases h2 : e = a
      · subst h2; simp
      · rw [if_neg h2, if_neg (by simp; omega)]

theorem bytesOfNat_length (n x : Nat) : (bytesOfNat n x).length = n := by
  induction n generalizing x with
  | zero => rfl
  | succ n ih => simp [bytesOfNat, ih]

theorem State.byteAt_wr {s : State} (a n x e : Nat) (h : s.memOk) (he : e < a ∨ a + n ≤ e) : (s.wr a n x).byteAt e = s.byteAt e := by
  rw [State.wr, State.byteAt_putBytes _ _ _ h, if_neg (by rw [bytesOfNat_length]; omega)]

theorem State.rd_congr {s t : State} (a n : Nat) (h : ∀ e, a ≤ e → e < a + n → t.byteAt e = s.byteAt e) : t.rd a n = s.rd a n := by
  induction n generalizing a with
  | zero => rfl
  | succ n ih =>
    simp only [State.rd]
    rw [h a (Nat.le_refl _) (by omega), ih (a + 1) (fun e h1 h2 => h e (by omega) (by omega))]

theorem State.bytes_congr {s t : State} (a n : Nat) (h : ∀ e, a ≤ e → e < a + n → t.byteAt e = s.byteAt e) :
    t.bytes a n = s.bytes a n := by
  induction n generalizing a with
  | zero => rfl
  | succ n ih =>
    simp only [State.bytes]
    rw [h a (Nat.le_refl _) (by omega), ih (a + 1) (fun e h1 h2 => h e (by omega) (by omega))]

/-- A number written is read back, modulo its size. -/
theorem State.rd_wr {s : State} (a n x : Nat) (h : s.memOk) : (s.wr a n x).rd a n = x % 256 ^ n := by
  induction n generalizing s a x with
  | zero => simp [State.rd, Nat.mod_one]
  | succ n ih =>
    have e : s.wr a (n + 1) x = (s.setByte a (BitVec.ofNat 8 (x % 256))).wr (a + 1) n (x / 256) := rfl
    have hk := State.setByte_memOk a (BitVec.ofNat 8 (x % 256)) h
    have h0 : ((s.setByte a (BitVec.ofNat 8 (x % 256))).wr (a + 1) n (x / 256)).byteAt a = BitVec.ofNat 8 (x % 256) := by
      rw [State.byteAt_wr _ _ _ _ hk (Or.inl (by omega)), State.byteAt_setByte _ _ _ h, if_pos rfl]
    have hx : x % 256 ^ (n + 1) = x % 256 + 256 * (x / 256 % 256 ^ n) := by rw [Nat.pow_succ', Nat.mod_mul]
    rw [e, State.rd, h0, ih (a + 1) (x / 256) hk, BitVec.toNat_ofNat, hx]
    omega

/-- Reads of what a write does not meet. -/
theorem State.rd_wr_apart {s : State} (a n x b m : Nat) (h : s.memOk) (hd : b + m ≤ a ∨ a + n ≤ b) :
    (s.wr a n x).rd b m = s.rd b m :=
  State.rd_congr b m (fun e h1 h2 => State.byteAt_wr _ _ _ _ h (by omega))

end Sys2Proof.Machine
end

