-- ==== Sys2Proof/Laws/Operands.lean ====
section
/-! SUPPORT. What the shared frame of an instruction and its register operands come to when no field names a bound end: the
lemmas that a proof about an instruction cites instead of unfolding them. -/

namespace Sys2Proof.Machine

theorem filterMap_endOf_nil {x : Ctx} {l : List Fld} (h : ∀ f ∈ l, x.endOf f = none) : l.filterMap x.endOf = [] := by
  induction l with
  | nil => rfl
  | cons f r ih =>
    simp only [List.filterMap_cons, h f (by simp)]
    exact ih fun g hg => h g (by simp [hg])

/-- The row of a plain instruction lets the strand go on. -/
theorem rowCheck_plain {i : Instr} {s : State} (h : Plain i s) : rowCheck i s = .ok ((), s) := by
  obtain ⟨hm, ht, he⟩ := h
  have h1 : ¬ (s.me.mig ∧ (!i.migOk ∨ (i.reads ++ i.writes ++ i.readsAndWrites).any Fld.high)) := by
    rintro ⟨h, h'⟩
    obtain ⟨ha, hb⟩ := hm h
    rcases h' with h' | h'
    · simp [ha] at h'
    · obtain ⟨f, hf, hh⟩ := List.any_eq_true.mp h'
      simp [hb f hf] at hh
  have h2 : ¬ (s.me.tx.active ∧ i.content) := by
    rintro ⟨h, h'⟩
    simp [ht h] at h'
  have h3 : ¬ (i.readsAndWrites.any (fun f => (s.me.endOf f).isSome)) := by
    intro h
    obtain ⟨f, hf, hh⟩ := List.any_eq_true.mp h
    simp [he f (by simp [hf])] at hh
  simp only [rowCheck, ask, StateT.bind, bind, get, getThe, MonadStateOf.get, StateT.get, Except.bind, pure, Except.pure, StateT.pure]
  rw [if_neg h1, if_neg h2, if_neg h3]
  rfl

/-- With no end to be read and none to be written there is nothing to examine. -/
theorem examine_nil (s : State) : examine [] [] s = .ok ((), s) := by
  simp [examine, StateT.bind, bind, get, getThe, MonadStateOf.get, StateT.get, Except.bind, pure, Except.pure,
    scanReads, scanWrites]
  split <;> rfl

theorem examineFields_plain {i : Instr} {s : State} (h : Plain i s) : examineFields i s = .ok ((), s) := by
  obtain ⟨-, -, he⟩ := h
  have hr : i.reads.filterMap s.me.endOf = [] := filterMap_endOf_nil fun f hf => he f (by simp [hf])
  have hw : i.writes.filterMap s.me.endOf = [] := filterMap_endOf_nil fun f hf => he f (by simp [hf])
  simp only [examineFields, ask, StateT.bind, bind, get, getThe, MonadStateOf.get, StateT.get, Except.bind, pure, Except.pure,
    StateT.pure, hr, hw, List.map_nil]
  exact examine_nil s

/-- The outcome of a body that runs. -/
def State.outcome (s : State) (i : Instr) : Except Stop (Flow × State) → Host.Outcome State Fault Refusal
  | .ok (f, t) => .next (t.onDone f)
  | .error e => .next (s.onStop (wordOf i) e)

theorem performRaw_plain {i : Instr} {body : Op Flow} {s : State} (h : Plain i s) :
    performRaw i body s = s.outcome i (body s) := by
  simp only [performRaw, StateT.bind, bind, rowCheck_plain h, Except.bind]
  cases body s <;> rfl

/-- A plain instruction is its body, then control. -/
theorem perform_plain {i : Instr} {body : Op Flow} {s : State} (h : Plain i s) :
    perform i body s = s.outcome i (body s) := by
  rw [perform, performRaw_plain h]
  simp only [StateT.bind, bind, examineFields_plain h, Except.bind]

theorem Plain.field {i : Instr} {s : State} (h : Plain i s) {f : Fld} (hf : f ∈ i.reads ++ i.writes ++ i.readsAndWrites) :
    s.me.endOf f = none := h.2.2 f hf

theorem rdS_plain {n : BitVec 5} {s : State} (h : s.me.endOf (.s n.toNat) = none) :
    rdS n s = .ok (s.me.getS n.toNat, s) := by
  simp [rdS, ask, StateT.bind, bind, get, getThe, MonadStateOf.get, StateT.get, Except.bind, pure, Except.pure, StateT.pure, h]

theorem wrS_plain {n : BitVec 5} {w : Word} {s : State} (h : s.me.endOf (.s n.toNat) = none) :
    wrS n w s = .ok ((), s.modMe (fun x => x.setS n.toNat w)) := by
  simp [wrS, ask, upd, modify, modifyGet, MonadStateOf.modifyGet, StateT.modifyGet, StateT.bind, bind, get, getThe,
    MonadStateOf.get, StateT.get, Except.bind, pure, Except.pure, StateT.pure, h]

theorem rdB_plain {n : BitVec 5} {i : BitVec 1} {s : State} (h : i = 0 → s.me.endOf (.s n.toNat) = none) :
    rdB i n s = .ok (s.me.opB i n, s) := by
  unfold rdB Ctx.opB
  split
  · rfl
  · rename_i hi
    have h0 : ∀ j : BitVec 1, ¬ j = 1 → j = 0 := by decide
    exact rdS_plain (h (h0 i hi))

theorem rdV_plain {n : BitVec 5} {s : State} (h : s.me.endOf (.v n.toNat) = none) :
    rdV n s = .ok (s.me.getV n.toNat, s) := by
  simp [rdV, ask, StateT.bind, bind, get, getThe, MonadStateOf.get, StateT.get, Except.bind, pure, Except.pure, StateT.pure, h]

theorem wrV_plain {n : BitVec 5} {w : VReg} {s : State} (h : s.me.endOf (.v n.toNat) = none) :
    wrV n w s = .ok ((), s.modMe (fun x => x.setV n.toNat w)) := by
  simp [wrV, ask, upd, modify, modifyGet, MonadStateOf.modifyGet, StateT.modifyGet, StateT.bind, bind, get, getThe,
    MonadStateOf.get, StateT.get, Except.bind, pure, Except.pure, StateT.pure, h]

/-- Sequencing of bodies. -/
theorem op_bind {α β : Type} (m : Op α) (f : α → Op β) (s : State) :
    (m >>= f) s = (m s).bind (fun p => f p.1 p.2) := rfl

theorem op_pure {α : Type} (a : α) (s : State) : (pure a : Op α) s = .ok (a, s) := rfl

theorem op_upd (f : State → State) (s : State) : upd f s = .ok ((), f s) := rfl

theorem op_ask {α : Type} (f : State → α) (s : State) : ask f s = .ok (f s, s) := rfl

/-- Two updates of the acting context are one. -/
theorem State.modMe_modMe (s : State) (f g : Ctx → Ctx) : (s.modMe f).modMe g = s.modMe (g ∘ f) := by
  have h : ∀ (l : List (Nat × Ctx)) (n : Nat) (x y : Ctx), tset (tset l n x) n y = tset l n y := by
    intro l n x y
    induction l with
    | nil => simp [tset]
    | cons p r ih =>
      obtain ⟨k, z⟩ := p
      simp only [tset]
      split
      · simp [tset]
      · split
        · simp [tset]
        · rename_i h1 h2
          simp [tset, h1, h2, ih]
  simp [State.modMe, State.modCtx, State.setCtx, State.ctx, tget_tset_same, h]

/-- What a FENCE or CINV drops is lines of the tiller's caches, and nothing else changes. -/
theorem State.flush_frame (s : State) (til : Nat) (f : Flush) :
    (s.flush til f).mem = s.mem ∧ (s.flush til f).ctxs = s.ctxs ∧ (s.flush til f).cores = s.cores ∧ (s.flush til f).dies = s.dies := by
  cases f with
  | acquire scope =>
    show (s.acquire til scope).mem = _ ∧ (s.acquire til scope).ctxs = _ ∧ (s.acquire til scope).cores = _ ∧
      (s.acquire til scope).dies = _
    unfold State.acquire
    by_cases h : 3 ≤ scope
    · rw [if_pos h]; exact ⟨rfl, rfl, rfl, rfl⟩
    · rw [if_neg h]; exact ⟨rfl, rfl, rfl, rfl⟩
  | _ => exact ⟨rfl, rfl, rfl, rfl⟩

/-- A context that is held keeps everything but its wait; one that is not drops its lines. -/
theorem State.holdOrder_eq (s : State) (loads : Bool) (line : Option Nat) (at_ : Word) (flush : Flush) :
    s.holdOrder loads line at_ flush = s.modMe (fun x => { x with wait := .order loads line at_ flush }) ∨
    s.holdOrder loads line at_ flush = s.flush s.myTil flush := by
  unfold State.holdOrder
  dsimp only
  split <;> simp

end Sys2Proof.Machine
end

