-- ==== Sys2Proof/Machine/YusenTable.lean ====
section
/-! DEFINITION. The yusen forms of the instructions: for each, its mnemonic, the bits that the form fixes, the suffixes it
takes and its operands in the order of the fields (R47 to R49 and the encoding table of each class). -/

namespace Sys2Proof.Yusen

/-- One operand of a form, with the lowest bit of its field (R48). -/
inductive Slot where
  /-- A scalar register, or a q end as its alias. -/
  | s (lo : Nat)
  /-- A vector register, or a vq end as its alias. -/
  | v (lo : Nat)
  /-- A vector register, or a scalar s16 to s31 as a broadcast (R35). -/
  | vs (lo : Nat)
  /-- A mask register in a register field. -/
  | m (lo : Nat)
  /-- An end number of a q end. -/
  | q (lo : Nat)
  /-- An end number of a vq end. -/
  | vq (lo : Nat)
  /-- An end number of either kind (R36). -/
  | e (lo : Nat)
  /-- An accumulator. -/
  | acc (lo : Nat)
  /-- A tile ring. -/
  | ring (lo : Nat)
  /-- A number from `low` to `high`, encoded as itself plus `add`, modulo the field. -/
  | num (lo width : Nat) (low high add : Int)
  /-- A label, encoded as a signed word offset of `width` bits from bit 0 (R33). -/
  | target (width : Nat)
  /-- A bare type name in the B field (R280). -/
  | type
  /-- A special register, by name or number (R377). -/
  | special
  deriving DecidableEq, Repr

/-- A place in the order of suffixes (R49): whether the line must give one, and the bits that each sets. A suffix left out
sets none. -/
structure Suffix where
  required : Bool
  options : List (String × Nat)
  deriving DecidableEq, Repr

/-- One form of one instruction: the bits it fixes, its suffixes and operands in order, and whether a final mask may stand. -/
structure Form where
  name : String
  base : Nat
  suffixes : List Suffix := []
  operands : List Slot := []
  mask : Bool := false
  deriving DecidableEq, Repr

/-! ### Suffixes -/

/-- Names whose codes count up from zero, from bit `lo`. -/
def counted (lo : Nat) : Nat → List String → List (String × Nat)
  | _, [] => []
  | n, x :: xs => (x, n * 2 ^ lo) :: counted lo (n + 1) xs

/-- The element types of R37, code 0 first. -/
def typeNames : List String :=
  ["i32", "n32", "f32", "bf16", "f16", "i16", "n16", "i8", "n8", "g8", "w8", "i64", "n64"]

/-- One of the names must stand, their codes counting up from bit `lo`. -/
def must (lo : Nat) (names : List String) : Suffix := { required := true, options := counted lo 0 names }
/-- One of the names may stand. -/
def may (options : List (String × Nat)) : Suffix := { required := false, options := options }

/-- The element type of F[8:5] (R37). -/
def sType : Suffix := must 5 typeNames
/-- The rounding mode of F[4:3], RNE where none stands (R38, R49). -/
def sRound : Suffix := may (counted 3 0 ["rne", "rz", "rdn", "rup"])
/-- The cache hint of F[4:3] (R210). -/
def sHint : Suffix := may [("strm", 1 * 2 ^ 3), ("nl1", 2 * 2 ^ 3)]
/-- The width of F[2:0], the scope of F[8:6] and the order of F[5:3] (R31). -/
def sWidth : Suffix := must 0 ["i32", "n32", "i64", "n64", "f32", "bf16"]
def sScope : Suffix := must 6 ["ctx", "core", "til", "die", "pkg", "sys"]
def sOrder : Suffix := must 3 ["rlx", "acq", "rel", "acqrel", "sc"]
/-- The operand formats of R315, code 15 being .dyn. -/
def sTile : Suffix :=
  { required := true
    options := ("dyn", 15 * 2 ^ 4) ::
      counted 4 0 ["bf16", "f16", "g8", "w8", "g8w8", "w8g8", "i8", "i8s", "t2", "t5", "t2s", "t5s"] }
/-- The operations of RED, in D (R267), and of VRED and VSCAN, in B (R302). -/
def opNames : List String := ["add", "min", "max", "and", "or", "xor"]
/-- The immediate types of VBCST, VADDI and VMULI (R300). -/
def sImm : Suffix := must 16 ["i32", "n32", "bf16", "f16", "g8", "w8", "f32"]

/-! ### Shapes that several instructions share -/

/-- The bits of a primary opcode. -/
def opBits (op : Nat) : Nat := op * 2 ^ 24
/-- F[5], which makes the B field an immediate (R30). -/
def immBit : Nat := 2 ^ 5
/-- A number 0 to 31 in the B field. -/
def b31 : Slot := .num 9 5 0 31 0
/-- IMM14 of format J (R33). -/
def imm14 : Slot := .num 0 14 (-8192) 8191 0
/-- IMM of format I as a natural pattern. -/
def imm16 : Slot := .num 0 16 0 0xFFFF 0

/-- Mnemonics with consecutive opcodes, one form each. -/
def run (mk : Nat → String → List Form) : Nat → List String → List Form
  | _, [] => []
  | op, x :: xs => mk op x ++ run mk (op + 1) xs

/-- d, a, b in scalar registers. -/
def dab : List Slot := [.s 19, .s 14, .s 9]

/-- `d, a, b` and `d, a, imm`. -/
def formB (sfx : List Suffix) (op : Nat) (name : String) : List Form :=
  [{ name := name, base := opBits op, suffixes := sfx, operands := dab },
   { name := name, base := opBits op + immBit, suffixes := sfx, operands := [.s 19, .s 14, b31] }]

def form (op : Nat) (name : String) (sfx : List Suffix) (ops : List Slot) : Form :=
  { name := name, base := opBits op, suffixes := sfx, operands := ops }

/-- A vector form with a final mask. -/
def formM (op : Nat) (name : String) (sfx : List Suffix) (ops : List Slot) : Form :=
  { name := name, base := opBits op, suffixes := sfx, operands := ops, mask := true }

/-! ### The classes -/

/-- R57. -/
def integerForms : List Form :=
  run (formB []) 0x01 ["ADD", "SUB", "MUL", "MULH", "MULHN", "DIV", "DIVN", "REM", "REMN", "AND", "OR", "XOR", "ANDN",
    "SHL", "SHR", "SRA", "ROT"] ++
  run (fun op n => [form op n [] [.s 19, .s 14]]) 0x12 ["CLZ", "CTZ", "POPC"] ++
  run (formB []) 0x15 ["MIN", "MAX", "MINN", "MAXN", "SLT", "SLTN", "SEQ", "SEL"] ++
  formB [may (counted 6 0 ["x1", "x2", "x4", "x8", "x16", "x32", "x64", "x128"])] 0x1D "LEA" ++
  [form 0x1E "BFX" [must 6 ["n", "i"]] dab,
   { name := "BFX", base := opBits 0x1E + immBit, suffixes := [must 6 ["n", "i"]],
     operands := [.s 19, .s 14, b31, .num 0 5 1 32 (-1)] },
   form 0x1F "BFI" [] dab,
   { name := "BFI", base := opBits 0x1F + immBit, operands := [.s 19, .s 14, b31, .num 0 5 1 32 (-1)] },
   form 0x20 "ADDI" [] [.s 19, .s 14, imm14],
   form 0x21 "ANDI" [] [.s 19, .s 14, imm14],
   form 0x22 "LIH" [{ required := true, options := [("i16", 0)] }] [.s 19, .num 0 16 (-32768) 32767 0],
   form 0x22 "LIH" [{ required := true, options := [("n16", 1 * 2 ^ 16), ("hi", 6 * 2 ^ 16)] }] [.s 19, imm16]]

/-- R80 to R90, R42. -/
def controlForms : List Form :=
  run (fun op n => [form op n [] [.s 19, .s 14, .target 14]]) 0x30 ["BEQ", "BNE", "BLT", "BGE", "BLTN", "BGEN"] ++
  [form 0x36 "JAL" [] [.s 19, .target 19],
   form 0x37 "JALR" [] [.s 19, .s 14, imm14],
   form 0x38 "REPF" []
     [.num 20 4 1 16 0, .num 12 8 1 256 (-1), .num 8 4 (-8) 7 0, .num 4 4 (-8) 7 0, .num 0 4 (-8) 7 0]] ++
  formB [may [("mig", 1), ("tile", 2)]] 0x39 "SPAWN" ++
  [form 0x3A "REAP" [] [.s 19, .s 14],
   { name := "REAP", base := opBits 0x3A + immBit, operands := [.s 19, b31] },
   form 0x3B "EXIT" [] [.s 14],
   { name := "EXIT", base := opBits 0x3B + immBit, operands := [b31] }]

/-- R115. -/
def launchForms : List Form :=
  [form 0x40 "LAUNCH" [] dab] ++ formB [] 0x41 "DONE" ++
  [form 0x42 "CANCEL" [] [.s 19, .s 14],
   form 0x43 "LCNT" [must 0 ["cmp", "exp", "st"]] [.s 19, .s 14]] ++
  formB [] 0x44 "LWAIT" ++ [form 0x45 "PLACE" [] dab]

/-- R155, R156. The data operand of QTRY, QPEEK and RPUB is a vector for a vq end. -/
def channelForms : List Form :=
  [form 0x48 "QBIND" [{ required := true, options := [("peer", 1), ("ref", 2), ("mrg", 3), ("stream", 4)] }]
     [.s 19, .e 14, .s 9],
   form 0x49 "QUNB" [] [.s 19, .e 14]] ++
  run (fun op n => [form op n [] [.s 19, .q 14, .s 9], form op n [] [.v 19, .vq 14, .s 9]]) 0x4A ["QTRY", "QPEEK"] ++
  [{ name := "QAWN", base := opBits 0x4C + immBit, operands := [.e 19, .s 14, b31] },
   form 0x4D "QLEN" [] [.s 19, .e 14],
   form 0x4E "QEND" [] [.e 19, .s 14],
   form 0x4F "RRES" [] [.s 19, .e 14, .s 9],
   { name := "RRES", base := opBits 0x4F + immBit, operands := [.s 19, .e 14, b31] },
   form 0x50 "RPUB" [may [("awn", 1)]] [.q 19, .s 14, .s 9],
   form 0x50 "RPUB" [may [("awn", 1)]] [.vq 19, .v 14, .s 9],
   form 0x51 "RCUR" [{ required := true, options := [("get", 0)] }] [.s 19, .e 14],
   form 0x51 "RCUR" [{ required := true, options := [("skip", 1)] }] [.s 19, .e 14, .s 9],
   form 0x52 "TOKH" [] [.e 19, .target 19],
   form 0x53 "TRET" [] []]

/-- R181. -/
def txForms : List Form :=
  [form 0x58 "TXB" [] [.target 19], form 0x59 "TXO" [] [.target 19], form 0x5A "TXE" [] [], form 0x5B "TXR" [] [],
   { name := "TXA", base := opBits 0x5C + 2 ^ 16, operands := [imm16] },
   form 0x5D "WATCH" [] [.s 14, imm14]]

/-- R226. -/
def memoryForms : List Form :=
  [form 0x60 "LD" [] [.s 19, .s 14, imm14],
   form 0x61 "ST" [] [.s 19, .s 14, imm14],
   form 0x62 "LDX" [sType, sHint] dab,
   form 0x63 "STX" [sType] dab,
   form 0x64 "VLD" [] [.v 19, .s 14, imm14],
   form 0x65 "VST" [] [.v 19, .s 14, imm14],
   formM 0x66 "VLDS" [sType, sHint] [.v 19, .s 14, .s 9],
   formM 0x67 "VSTS" [sType] [.v 19, .s 14, .s 9],
   formM 0x68 "VGTH" [sType, sHint] [.v 19, .s 14, .vs 9],
   formM 0x69 "VSCT" [sType] [.v 19, .s 14, .vs 9],
   form 0x6A "PRF" [must 19 ["l2", "l1"]] [.s 14, imm14],
   form 0x6B "CFL" [] [.s 14, imm14],
   form 0x6C "CINV" [must 19 ["d", "i", "di"]] [.s 14, imm14],
   form 0x6D "STM" [] [.s 19, .s 14, imm14]]

/-- R262. -/
def orderingForms : List Form :=
  [form 0x78 "LDAQ" [sWidth, sScope, sOrder] [.s 19, .s 14],
   form 0x79 "STRL" [sWidth, sScope, sOrder] [.s 19, .s 14],
   form 0x7A "FENCE" [sScope, sOrder] []] ++
  run (fun op n => [form op n [sWidth, sScope, sOrder] dab]) 0x7B
    ["AMOADD", "AMOSWP", "AMOCAS", "AMOMIN", "AMOMAX", "AMOAND", "AMOOR", "AMOXOR"] ++
  [form 0x83 "RED" [sWidth, sScope, sOrder, must 19 opNames] [.s 14, .s 9]]

/-- R280. -/
def conversionForms : List Form :=
  [formM 0x88 "VCVT" [sType, sRound] [.v 19, .vs 14, .type],
   formM 0x89 "VPACK" [sType, sRound] [.v 19, .vs 14, .vs 9],
   formM 0x8A "VUNPK" [sType, sRound, must 13 ["lo", "hi"]] [.v 19, .vs 14, .type],
   formM 0x8B "VSCL" [sType, sRound] [.v 19, .vs 14, .vs 9],
   formM 0x8C "VCLS" [sType, must 9 ["exp", "cls"]] [.v 19, .vs 14],
   formM 0x8D "VTRI" [sType, must 9 ["d2", "d5", "e2", "e5"]] [.v 19, .vs 14]]

/-- D, A and B of a vector row. -/
def vdab : List Slot := [.v 19, .vs 14, .vs 9]

/-- R291. -/
def vectorForms : List Form :=
  run (fun op n => [formM op n [sType, sRound] vdab]) 0x90 ["VADD", "VSUB", "VMUL", "VFMA", "VFMS"] ++
  run (fun op n => [formM op n [sType] vdab]) 0x95 ["VMIN", "VMAX"] ++
  run (fun op n => [formM op n [sType] [.v 19, .vs 14]]) 0x97 ["VABS", "VNEG"] ++
  run (fun op n => [formM op n [sType, sRound] [.v 19, .vs 14]]) 0x99 ["VRCP", "VRSQ", "VEXP2", "VLOG2"] ++
  [formM 0x9D "VCMP" [sType] [.m 19, .vs 14, .vs 9]] ++
  run (fun op n => [formM op n [sType] vdab]) 0x9E ["VSEL", "VAND", "VOR", "VXOR", "VSHL", "VSHR", "VSRA", "VPERM"] ++
  run (fun op n => [form op n [sImm] [.v 19, imm16]]) 0xA6 ["VBCST", "VADDI", "VMULI"] ++
  [form 0xA9 "VMVS" [sType] [.s 19, .vs 14, .vs 9], form 0xAA "VMSV" [sType] vdab] ++
  run (fun op n => [formM op n [sType, sRound, must 9 opNames] [.v 19, .vs 14]]) 0xAB ["VRED", "VSCAN"] ++
  [formM 0xAD "VPOPC" [sType] [.s 19, .vs 14, .vs 9]] ++
  run (fun op n => [formM op n [sType] [.v 19, .vs 14]]) 0xAE ["VCMPR", "VXPND"] ++
  [formM 0xB0 "VDOT" [sType] vdab,
   form 0xB1 "MAND" [] [.m 19, .m 14, .m 9], form 0xB2 "MOR" [] [.m 19, .m 14, .m 9], form 0xB3 "MNOT" [] [.m 19, .m 14]]

/-- TMMA and TMMT, whose count is 31 where the line gives none (R321). -/
def tileMul (op : Nat) (name : String) : List Form :=
  let sfx := [sTile, may [("popa", 1)], may [("popb", 2)]]
  [{ name := name, base := opBits op, suffixes := sfx, operands := [.ring 20, .ring 16, .acc 13, .num 8 5 0 31 0] },
   { name := name, base := opBits op + 31 * 2 ^ 8, suffixes := sfx, operands := [.ring 20, .ring 16, .acc 13] }]

/-- R321. -/
def tileForms : List Form :=
  [form 0xC0 "TLSE" [] [], form 0xC1 "TLRL" [] [],
   form 0xC2 "TACQ" [] [.s 19, .s 14],
   { name := "TACQ", base := opBits 0xC2 + immBit, operands := [.s 19, b31] },
   form 0xC3 "TREL" [] [.s 19, .s 14],
   form 0xC4 "TZRO" [] [.acc 19]] ++
  tileMul 0xC5 "TMMA" ++ tileMul 0xC6 "TMMT" ++
  [form 0xC7 "TLDA" [may [("tr", 2 ^ 8)]] [.acc 19, .s 14, .s 9],
   form 0xC8 "TSTA" [must 0 (typeNames.take 11), may (counted 6 0 ["rne", "rz", "rdn", "rup"]), may [("iacc", 2 ^ 4)],
     may [("tr", 2 ^ 8)]] [.acc 19, .s 14, .s 9],
   form 0xC9 "TGEO" [] [.acc 19, .s 14, .s 9],
   form 0xCA "BSUM" [] [.q 19, .s 14, .s 9],
   form 0xCB "BACC" [] dab]

/-- R339. -/
def sparseForms : List Form :=
  [form 0xD0 "SPMMA" [must 6 ["bf16", "i8"], may [("popb", 1)]] [.acc 19, .s 14, .s 9],
   form 0xD1 "SPPRE" [] dab,
   form 0xD2 "SPINV" [{ required := true, options := [("one", 0)] }] dab,
   form 0xD2 "SPINV" [{ required := true, options := [("all", 1)] }] [.s 19],
   form 0xD3 "SPQRY" [] dab,
   form 0xD4 "MRGC" [must 0 ["stat", "clr"]] [.s 19, .q 14],
   form 0xD5 "MZKEY" [] dab,
   form 0xD5 "MZKEY" [{ required := true, options := [("inv", 1)] }] [.s 19, .s 14]]

/-- R368. WPHS without a suffix is WPHS.wait. -/
def copyForms : List Form :=
  formB [] 0xD8 "CPY" ++
  [form 0xD9 "CPYM" [] dab] ++
  run (fun op n => [form op n [] [.s 19, .s 14]]) 0xDA ["TFFR", "WANY", "WALL"] ++
  run (formB []) 0xDD ["AEXP", "ARRV"] ++
  formB [may [("wait", 0), ("test", 1)]] 0xDF "WPHS" ++
  run (fun op n => [form op n [] [.s 19, .s 14]]) 0xE0 ["BJOIN", "BLEAV"]

/-- The encodings of 15, R379, R385 and R386. -/
def systemForms : List Form :=
  run (fun op n => [{ name := n, base := opBits op + 2 ^ 16, operands := [.s 19, .special] }]) 0xE8 ["MFS", "MTS"] ++
  run (fun op n => [{ name := n, base := opBits op + 2 ^ 16, operands := [imm16] }]) 0xEA ["SYSC", "BRK"] ++
  [form 0xEC "TLBF" [] dab,
   form 0xED "TLBI" [{ required := true, options := [("va", 0)] }] [.s 19, .s 14],
   form 0xED "TLBI" [{ required := true, options := [("part", 1)] }] [.s 19],
   form 0xEE "MBXR" [must 0 ["stw", "flt", "mis"], may [("try", 4)]] [.s 19, .s 14],
   form 0xEF "MBXS" [must 0 ["frep", "crep", "erep", "resume", "intr", "user"]] dab,
   form 0xF0 "CSAVE" [must 0 ["save", "rest"]] [.s 19, .s 14],
   form 0xF1 "PCNT" [] [.s 19, .s 9],
   { name := "PCNT", base := opBits 0xF1 + immBit, operands := [.s 19, b31] }] ++
  formB [{ required := true, options := [("ctx", 1)] }] 0xF1 "PCNT"

/-- Every form of every instruction. -/
def forms : List Form :=
  integerForms ++ controlForms ++ launchForms ++ channelForms ++ txForms ++ memoryForms ++ orderingForms ++
  conversionForms ++ vectorForms ++ tileForms ++ sparseForms ++ copyForms ++ systemForms

/-- Names numbered from `n`, such as MSK1 to MSK7. -/
def numbered (stem : String) (first n : Nat) : Nat → List (String × Nat)
  | 0 => []
  | k + 1 => (stem ++ toString first, n) :: numbered stem (first + 1) (n + 1) k

/-- The special registers of R377. -/
def specials : List (String × Nat) :=
  [("SID", 0), ("TILID", 1), ("CTXID", 2), ("CYCLE", 3), ("FMT", 0x10), ("SCLA", 0x11), ("SCLB", 0x12), ("FSTAT", 0x13),
   ("TXST", 0x14), ("TOKV", 0x15), ("TOKPC", 0x16), ("FLAGS", 0x17), ("TAGS", 0x18), ("TAGB", 0x19), ("TAGE", 0x1A),
   ("LSPLIT", 0x80), ("SWZ", 0x81), ("SVCMAP", 0x82), ("WDOG", 0x83)] ++
  numbered "MSK" 1 0x20 7 ++ numbered "GEOM" 0 0x30 8 ++ numbered "TRING" 0 0x40 16

end Sys2Proof.Yusen
end

