-- ==== Sys2Proof/Machine/Yusen.lean ====
section
/-! DEFINITION. The yusen assembler (R47 to R51): source text to sections of bytes. The loader's choice of section
addresses is an argument, as the manual leaves it to the loader. No step of the machine uses this file. -/

namespace Sys2Proof.Yusen

/-- Why a line is an assembly error. -/
inductive Fail where
  /-- Text that R47 gives no form. -/
  | form
  /-- A symbol that is defined twice (R50). -/
  | twice
  /-- A symbol that nothing defines. -/
  | unknown
  /-- A number or value that R2 or R50 gives no form. -/
  | number
  /-- No instruction of this name. -/
  | mnemonic
  /-- Suffixes or operands that no form of the instruction takes (R48, R49). -/
  | noForm
  /-- A suffix that the instruction does not accept with the others (R49). -/
  | suffix
  /-- A target or value that does not fit its field (R48, R50, R51). -/
  | range
  /-- An instruction outside a code section, or not at a multiple of 4 (R50). -/
  | place
  /-- A directive of no name that R50 gives. -/
  | directive
  /-- A launch record that R51 calls an error. -/
  | record
  /-- A section to which the loader gave no address. -/
  | unplaced
  deriving DecidableEq, Repr

abbrev Text := List Char
abbrev Res := Except Fail

/-! ### Characters and text (R47) -/

def isBlank (c : Char) : Bool := c == ' ' || c == '\t' || c == '\r'
def isSymStart (c : Char) : Bool := c.isAlpha || c == '_'
def isSym (c : Char) : Bool := c.isAlphanum || c == '_'

def trim (t : Text) : Text := ((t.dropWhile isBlank).reverse.dropWhile isBlank).reverse

/-- The parts between occurrences of a character: at least one. -/
def splitAt (sep : Char) : Text → List Text
  | [] => [[]]
  | c :: r =>
    if c == sep then [] :: splitAt sep r
    else match splitAt sep r with
      | [] => [[c]]
      | p :: ps => (c :: p) :: ps

/-- The parts between commas, trimmed; none of an empty text. -/
def fields (t : Text) : List Text :=
  let t := trim t
  if t.isEmpty then [] else (splitAt ',' t).map trim

/-- A line without its comment. -/
def noComment : Text → Text
  | '/' :: '/' :: _ => []
  | c :: r => c :: noComment r
  | [] => []

def lower (t : Text) : String := String.ofList (t.map Char.toLower)
def upper (t : Text) : String := String.ofList (t.map Char.toUpper)

def isSymbol : Text → Bool
  | [] => false
  | c :: r => isSymStart c && r.all isSym

/-! ### Numbers (R2) -/

/-- The value of a hexadecimal digit, in capitals. -/
def digit (c : Char) : Nat :=
  if '0' ≤ c && c ≤ '9' then c.toNat - '0'.toNat
  else if 'A' ≤ c && c ≤ 'F' then c.toNat - 'A'.toNat + 10 else 99

/-- Digits of a base, all valid and at least one. -/
def natOf (base : Nat) (t : Text) : Option Nat :=
  if !t.isEmpty && t.all (fun c => digit c < base) then some (t.foldl (fun n c => n * base + digit c) 0) else none

/-- Hexadecimal digits; where an underscore stands, one stands every four digits from the right. -/
def hexOf (t : Text) : Option Nat :=
  match splitAt '_' t with
  | [p] => natOf 16 p
  | p :: ps =>
    if !p.isEmpty && p.length ≤ 4 && ps.all (fun g => g.length == 4) then natOf 16 (p ++ ps.flatten) else none
  | [] => none

/-- The units of memory sizes and rates, as a factor. -/
def units : List (String × Nat) :=
  [("KiB", 2 ^ 10), ("MiB", 2 ^ 20), ("GiB", 2 ^ 30), ("TiB", 2 ^ 40),
   ("kB/s", 10 ^ 3), ("MB/s", 10 ^ 6), ("GB/s", 10 ^ 9), ("TB/s", 10 ^ 12),
   ("kb/s", 10 ^ 3), ("Mb/s", 10 ^ 6), ("Gb/s", 10 ^ 9), ("Tb/s", 10 ^ 12)]

/-- A decimal number, with a fraction where its unit makes the value whole. -/
def decimalOf (t : Text) : Option Nat :=
  let whole := t.takeWhile Char.isDigit
  let rest := t.dropWhile Char.isDigit
  let frac := match rest with
    | '.' :: r => r.takeWhile Char.isDigit
    | _ => []
  let rest := match rest with
    | '.' :: r => if frac.isEmpty then rest else r.dropWhile Char.isDigit
    | _ => rest
  match natOf 10 whole with
  | none => none
  | some _ =>
    let factor := if (trim rest).isEmpty then some 1 else units.lookup (String.ofList (trim rest))
    match factor, natOf 10 (whole ++ frac) with
    | some f, some n => if n * f % 10 ^ frac.length = 0 then some (n * f / 10 ^ frac.length) else none
    | _, _ => none

/-- A number in a form of R2. -/
def numberOf : Text → Option Nat
  | '0' :: 'x' :: r => hexOf r
  | '0' :: 'b' :: r => natOf 2 (r.filter (· != '_'))
  | t => decimalOf t

/-! ### Expressions (R48) -/

/-- The symbols that an expression may use. -/
abbrev Env := List (String × Int)

/-- The terms that + and − join, each with whether it is taken away. -/
def terms (neg : Bool) : Text → List (Bool × Text)
  | [] => [(neg, [])]
  | '+' :: r => (neg, []) :: terms false r
  | '-' :: r => (neg, []) :: terms true r
  | c :: r =>
    match terms neg r with
    | [] => [(neg, [c])]
    | (b, p) :: ps => (b, c :: p) :: ps

def term (env : Env) (t : Text) : Res Int :=
  let t := trim t
  if isSymbol t then
    match env.lookup (String.ofList t) with
    | some x => .ok x
    | none => .error .unknown
  else match numberOf t with
    | some n => .ok n
    | none => .error .number

def sumTerms (env : Env) : List (Bool × Text) → Res Int
  | [] => .ok 0
  | (neg, t) :: ps => do
    let x ← term env t
    let y ← sumTerms env ps
    pure (if neg then y - x else y + x)

/-- The value of an expression; a sign may lead it. -/
def value (env : Env) (t : Text) : Res Int :=
  match terms false (trim t) with
  | (_, []) :: p :: ps => sumTerms env (p :: ps)
  | ps => sumTerms env ps

def within (low high x : Int) : Res Int := if low ≤ x ∧ x ≤ high then .ok x else .error .range

/-- A value of `n` bytes, signed or natural. -/
def fits (n : Nat) (x : Int) : Res Int := within (-(2 ^ (8 * n - 1) : Nat)) ((2 ^ (8 * n) : Nat) - 1) x

/-- `n` bytes, little-endian. -/
def le (n : Nat) (x : Int) : List Byte :=
  (List.range n).map (fun k => BitVec.ofNat 8 ((x % ((2 ^ (8 * n) : Nat) : Int)).toNat / 2 ^ (8 * k)))

/-! ### Operands (R48) -/

/-- The number of a name made of a stem and a number up to `max`, without leading zeros. -/
def named (stem : String) (max : Nat) (t : Text) : Option Nat :=
  let t := t.map Char.toLower
  if stem.toList.isPrefixOf t then
    let r := t.drop stem.length
    match natOf 10 r with
    | some n => if n ≤ max && (r.length == 1 || r.head? != some '0') then some n else none
    | none => none
  else none

/-- A scalar register; q0 to q7 are s24 to s31. -/
def scalarReg (t : Text) : Option Nat := (named "s" 31 t).or ((named "q" 7 t).map (· + 24))
/-- A vector register; vq0 to vq3 are v12 to v15. -/
def vectorReg (t : Text) : Option Nat := (named "v" 15 t).or ((named "vq" 3 t).map (· + 12))
/-- A vector register or a broadcast of s16 to s31 (R35). -/
def vectorOrBroadcast (t : Text) : Option Nat :=
  (vectorReg t).or ((scalarReg t).bind (fun n => if 16 ≤ n then some n else none))

/-- The number of a special register, by name or number. -/
def specialReg (env : Env) (t : Text) : Res Int :=
  match specials.lookup (upper t) with
  | some n => .ok n
  | none => do within 0 0xFFFF (← value env t)

/-- What assembling an instruction may use: the values that symbols stand for, the addresses of labels, and the word's own
address. -/
structure Site where
  equs : Env
  labels : Env
  pc : Int
  deriving DecidableEq, Repr

def orForm (o : Option Nat) : Res Int :=
  match o with
  | some n => .ok n
  | none => .error .noForm

/-- The bits of one operand. -/
def operand (site : Site) (t : Text) : Slot → Res Nat
  | .s lo => do pure ((← orForm (scalarReg t)).toNat * 2 ^ lo)
  | .v lo => do pure ((← orForm (vectorReg t)).toNat * 2 ^ lo)
  | .vs lo => do pure ((← orForm (vectorOrBroadcast t)).toNat * 2 ^ lo)
  | .m lo => do pure ((← orForm (named "m" 7 t)).toNat * 2 ^ lo)
  | .q lo => do pure ((← orForm (named "q" 7 t)).toNat * 2 ^ lo)
  | .vq lo => do pure ((← orForm ((named "vq" 3 t).map (· + 8))).toNat * 2 ^ lo)
  | .e lo => do pure ((← orForm ((named "q" 7 t).or ((named "vq" 3 t).map (· + 8)))).toNat * 2 ^ lo)
  | .acc lo => do pure ((← orForm (named "acc" 7 t)).toNat * 2 ^ lo)
  | .ring lo => do pure ((← orForm (named "ring" 15 t)).toNat * 2 ^ lo)
  | .num lo width low high add => do
    let x ← within low high (← value site.equs t)
    pure (((x + add) % ((2 ^ width : Nat) : Int)).toNat * 2 ^ lo)
  | .target width => do
    let some x := site.labels.lookup (String.ofList t) | .error .unknown
    let d := x - site.pc
    if d % 4 ≠ 0 then .error .range
    else
      let k ← within (-(2 ^ (width - 1) : Nat)) ((2 ^ (width - 1) : Nat) - 1) (d / 4)
      pure (k % ((2 ^ width : Nat) : Int)).toNat
  | .type => do pure ((← orForm (typeNames.idxOf? (lower t))).toNat * 2 ^ 9)
  | .special => do pure (← specialReg site.equs t).toNat

def operands (site : Site) : List Slot → List Text → Res Nat
  | [], [] => .ok 0
  | k :: ks, t :: ts => do
    let x ← operand site t k
    let y ← operands site ks ts
    pure (x ||| y)
  | _, _ => .error .noForm

/-- The bits of the suffixes, each in its place (R49). -/
def suffixBits : List Suffix → List String → Option Nat
  | [], [] => some 0
  | [], _ :: _ => none
  | k :: ks, [] => if k.required then none else suffixBits ks []
  | k :: ks, x :: xs =>
    match k.options.lookup x with
    | some v => (suffixBits ks xs).map (v ||| ·)
    | none => if k.required then none else suffixBits ks (x :: xs)

/-- The mask that a final operand m1 to m7 gives, and the operands before it; m0 where none stands. -/
def maskOf (f : Form) (ops : List Text) : Nat × List Text :=
  if f.mask && ops.length == f.operands.length + 1 then
    match (ops.getLast?).bind (named "m" 7) with
    | some (n + 1) => (n + 1, ops.dropLast)
    | _ => (0, ops)
  else (0, ops)

/-- An operand of a kind, legal in every instruction that takes the kind; `k` is the code of a type name. -/
def sample (k : Nat) : Slot → Nat
  | .s lo => 2 * 2 ^ lo
  | .v lo => 2 ^ lo
  | .vs lo => 2 ^ lo
  | .m lo => 2 ^ lo
  | .q lo => 2 ^ lo
  | .vq lo => 8 * 2 ^ lo
  | .e lo => 2 ^ lo
  | .acc lo => 2 ^ lo
  | .ring lo => 2 ^ lo
  | .num lo _ _ _ _ => 2 ^ lo
  | .target _ => 0
  | .type => k * 2 ^ 9
  | .special => 0

def isLegal (w : Nat) : Bool :=
  match decode (BitVec.ofNat 32 w) with
  | .ok _ => true
  | .error _ => false

/-- The instruction accepts the suffixes that give these bits: with some operands the word is an instruction (R49). -/
def accepts (f : Form) (bits : Nat) : Bool :=
  (List.range typeNames.length).any (fun k =>
    isLegal (f.operands.foldl (fun w o => w ||| sample k o) (f.base ||| bits)))

def assembleForm (site : Site) (sfx : List String) (ops : List Text) (f : Form) : Res Nat :=
  match suffixBits f.suffixes sfx with
  | none => .error .noForm
  | some b => do
    let m := maskOf f ops
    let x ← operands site f.operands m.2
    if accepts f b then pure (f.base ||| b ||| m.1 ||| x) else .error .suffix

/-- The first form that the line fits; else the first error that is not one of form. -/
def tryForms (site : Site) (sfx : List String) (ops : List Text) (why : Fail) : List Form → Res Nat
  | [] => .error why
  | f :: fs =>
    match assembleForm site sfx ops f with
    | .ok w => .ok w
    | .error e => tryForms site sfx ops (if why == .noForm then e else why) fs

/-- One instruction line as a word. An operand that its field holds and the instruction's chapter calls ILLEGAL is no
assembly error (R48). -/
def instrWord (site : Site) (name : String) (sfx : List String) (ops : List Text) : Res IWord := do
  let fs := forms.filter (fun f => f.name == name)
  if fs.isEmpty then .error .mnemonic
  else pure (BitVec.ofNat 32 (← tryForms site sfx ops .noForm fs))

/-! ### Floating values (R50) -/

/-- ±n × 10^k in a format, rounded to nearest with ties to even. An overflow to infinity is an error. -/
def roundDecimal (f : Machine.Fmt) (neg : Bool) (n : Nat) (k : Int) : Res Int :=
  let r :=
    if 0 ≤ k then f.round 0 neg (n * 10 ^ k.toNat) 0 false
    else
      let d := 10 ^ (-k).toNat
      let up := Nat.log2 d + 200
      f.round 0 neg (n * 2 ^ up / d) (-(up : Int)) (n * 2 ^ up % d ≠ 0)
  if r.2 &&& Machine.OVERFLOW ≠ 0 then .error .range else .ok r.1

def floatDecimal (f : Machine.Fmt) (t : Text) : Res Int := do
  let neg := t.head? == some '-'
  let t := if neg || t.head? == some '+' then t.drop 1 else t
  let whole := t.takeWhile Char.isDigit
  let rest := t.dropWhile Char.isDigit
  let (frac, rest, bad) := match rest with
    | '.' :: r => (r.takeWhile Char.isDigit, r.dropWhile Char.isDigit, (r.takeWhile Char.isDigit).isEmpty)
    | _ => ([], rest, false)
  let some n := natOf 10 (whole ++ frac) | .error .number
  let exp : Option Int := match rest with
    | [] => some 0
    | c :: r =>
      if c == 'e' || c == 'E' then
        match r with
        | '-' :: r => (natOf 10 r).map (fun k => -(k : Int))
        | '+' :: r => (natOf 10 r).map (fun k => (k : Int))
        | r => (natOf 10 r).map (fun k => (k : Int))
      else none
  let some e := exp | .error .number
  if whole.isEmpty || bad then .error .number else roundDecimal f neg n (e - frac.length)

/-- An element of a format of `n` bytes: a raw hexadecimal pattern, or a decimal value. -/
def floatValue (f : Machine.Fmt) (n : Nat) (t : Text) : Res Int :=
  match t with
  | '0' :: 'x' :: r =>
    match hexOf r with
    | some x => within 0 ((2 ^ (8 * n) : Nat) - 1) x
    | none => .error .number
  | t => floatDecimal f t

/-! ### Launch records (R51, R96 to R99) -/

/-- The lines of a launch record: its options, and those of each stage and wire. -/
structure Launch where
  opts : List Text
  stages : List (List Text)
  wires : List (List Text)
  deriving DecidableEq, Repr

/-- `key=value` or a bare flag. -/
def option (t : Text) : String × Option Text :=
  let k := t.takeWhile (· != '=')
  match t.dropWhile (· != '=') with
  | [] => (lower (trim k), none)
  | _ :: r => (lower (trim k), some (trim r))

/-- The value of an option in its range, or its default. -/
def optValue (env : Env) (opts : List (String × Option Text)) (key : String) (low high default : Int) : Res Int :=
  match opts.lookup key with
  | none => .ok default
  | some none => .error .form
  | some (some t) => do within low high (← value env t)

def flagOption (opts : List (String × Option Text)) (key : String) : Bool := opts.lookup key == some none

/-- Every option is one of the names, and stands once unless it is named as one that may repeat. -/
def onlyOptions (opts : List (String × Option Text)) (names flags many : List String) : Bool :=
  opts.all (fun o => if o.2.isNone then flags.contains o.1 else names.contains o.1) &&
  ((opts.map (·.1)).filter (fun k => !many.contains k)).Nodup

/-- The largest doubleword. -/
def dmax : Int := (2 ^ 64 : Nat) - 1

/-- A stage entry (R97). -/
def stageBytes (env : Env) (line : List Text) : Res (List Byte) := do
  let opts := (line.drop 1).map option
  if !onlyOptions opts ["entry", "minrep", "maxrep", "spad", "dies", "near", "fmt", "scla", "sclb"] ["tile"] [] then
    .error .record
  else if (opts.lookup "entry").isNone then .error .record
  else
    let entry ← optValue env opts "entry" 0 dmax 0
    let lowest ← optValue env opts "minrep" 1 16 1
    let highest ← optValue env opts "maxrep" lowest 16 1
    let spad ← optValue env opts "spad" 0 0xFFFFFFFF 0
    let dies ← optValue env opts "dies" 1 15 15
    let near ← optValue env opts "near" 0 dmax 0
    let fmt ← optValue env opts "fmt" 0 dmax 0
    let scla ← optValue env opts "scla" 0 dmax 0
    let sclb ← optValue env opts "sclb" 0 dmax 0
    if highest < lowest then .error .record
    else
      pure (le 8 entry ++ le 1 lowest ++ le 1 highest ++ le 1 (if flagOption opts "tile" then 1 else 0) ++ le 1 dies ++
        le 4 spad ++ le 8 near ++ le 8 fmt ++ le 8 scla ++ le 8 sclb ++ le 16 0)

/-- A stage's end as its stage number and end number. -/
def wireEnd (stages : List String) (t : Text) : Res (Nat × Nat) :=
  match splitAt '.' t with
  | [s, e] =>
    match stages.idxOf? (String.ofList (trim s)),
      (named "q" 7 (trim e)).or ((named "vq" 3 (trim e)).map (· + 8)) with
    | some k, some n => .ok (k, n)
    | _, _ => .error .record
  | _ => .error .record

/-- A wire entry (R98). -/
def wireBytes (env : Env) (stages : List String) (line : List Text) : Res (List Byte) := do
  let isEnd (t : Text) : Bool := t.contains '.' && !t.contains '='
  let ends ← (line.takeWhile isEnd).mapM (wireEnd stages)
  let opts := (line.dropWhile isEnd).map option
  let vector := ends.any (fun e => 8 ≤ e.2)
  let deal := flagOption opts "deal"
  let ordered := flagOption opts "ordered"
  if !onlyOptions opts ["depth"] ["deal", "ordered"] [] then .error .record
  else if (opts.lookup "depth").isNone || (ordered && !deal) then .error .record
  else if (vector && ends.any (fun e => e.2 < 8)) || !decide ends.Nodup then .error .record
  else match ends with
    | [] => .error .record
    | p :: cs => do
      if cs.isEmpty || 4 < cs.length then .error .record
      else
        let depth ← optValue env opts "depth" 1 65536 1
        let flags := (if deal then 1 else 0) + (if ordered then 2 else 0) + (if vector then 4 else 0)
        let slots := cs.flatMap (fun c => le 2 (c.1 + 16 * c.2))
        pure (le 1 p.1 ++ le 1 p.2 ++ le 1 cs.length ++ le 1 flags ++ le 4 depth ++ slots ++ le (8 - 2 * cs.length) 0)

/-- A dependence entry (R99), from `object:count`. -/
def depBytes (env : Env) (t : Option Text) : Res (List Byte) :=
  match t.map (splitAt ':') with
  | some [o, c] => do
    let o ← within 0 dmax (← value env o)
    let c ← within 0 dmax (← value env c)
    pure (le 8 o ++ le 8 c)
  | _ => .error .record

def padTo (n : Nat) (b : List Byte) : List Byte := b ++ List.replicate (n - b.length) 0

/-- The size of a launch record (R96). -/
def recordSize : Nat := 1728

/-- The record (R96): header, stages from 64, wires from 1,088, dependences from 1,600. -/
def recordBytes (env : Env) (r : Launch) : Res (List Byte) := do
  let opts := r.opts.map option
  let deps := opts.filter (fun o => o.1 == "dep")
  let names := r.stages.map (fun s => String.ofList (s.headD []))
  if !onlyOptions opts ["prio", "energy", "obj", "graph", "phase", "job", "dep"] [] ["dep"] then .error .record
  else if 16 < r.stages.length || 32 < r.wires.length || 8 < deps.length then .error .record
  else if !decide names.Nodup || !(r.stages.all (fun s => isSymbol (s.headD []))) then .error .record
  else
    let prio ← optValue env opts "prio" 0 15 0
    let energy ← optValue env opts "energy" 0 7 0
    let obj ← optValue env opts "obj" 0 dmax 0
    let graph ← optValue env opts "graph" 0 dmax 0
    let phase ← optValue env opts "phase" 0 dmax 0
    let job ← optValue env opts "job" 0 dmax 0
    let stages ← r.stages.mapM (stageBytes env)
    let wires ← r.wires.mapM (wireBytes env names)
    let ds ← deps.mapM (fun d => depBytes env d.2)
    let header := le 1 1 ++ le 1 stages.length ++ le 1 wires.length ++ le 1 ds.length ++ le 1 prio ++ le 1 energy ++
      le 2 0 ++ le 8 obj ++ le 8 graph ++ le 8 phase ++ le 8 job ++ le 8 0 ++ le 16 0
    pure (header ++ padTo 1024 stages.flatten ++ padTo 512 wires.flatten ++ padTo 128 ds.flatten)

/-! ### Lines -/

/-- What stands on a line beside its label. -/
inductive Stmt where
  | none
  | instr (name : String) (sfx : List String) (ops : List Text)
  | dir (name : String) (ops : List Text)
  deriving DecidableEq, Repr

/-- The label of a line, if it has one, and what follows it. -/
def takeLabel (t : Text) : Option String × Text :=
  let sym := t.takeWhile isSym
  match (t.dropWhile isSym).dropWhile isBlank with
  | ':' :: r => if isSymbol sym then (some (String.ofList sym), trim r) else (none, t)
  | _ => (none, t)

def statement (t : Text) : Stmt :=
  let word := t.takeWhile (fun c => !isBlank c)
  let ops := fields (t.dropWhile (fun c => !isBlank c))
  match word with
  | [] => .none
  | '.' :: name => .dir (lower name) ops
  | _ =>
    match splitAt '.' word with
    | name :: sfx => .instr (upper name) (sfx.map lower) ops
    | [] => .none

def parseLine (t : Text) : Option String × Stmt :=
  let l := takeLabel (trim (noComment t))
  (l.1, statement l.2)

/-! ### Sections -/

/-- A section under construction: its bytes, the last one first. -/
structure Section where
  name : String
  size : Nat
  rev : List Byte
  deriving DecidableEq, Repr

/-- The assembler between two lines. -/
structure Asm where
  sections : List Section
  cur : String
  equs : Env
  /-- Each label with its section and offset. -/
  labels : List (String × String × Nat)
  globals : List String
  launch : Option Launch
  deriving DecidableEq, Repr

def Asm.start : Asm :=
  { sections := [], cur := ".text", equs := [], labels := [], globals := [], launch := none }

/-- A code section: one whose name begins with `.text` (R50). -/
def isCode (name : String) : Bool := ".text".toList.isPrefixOf name.toList

def Asm.sizeOf (a : Asm) (name : String) : Nat :=
  match a.sections.find? (fun s => s.name == name) with
  | some s => s.size
  | none => 0

/-- Continue a section, creating it if new. -/
def Asm.open_ (a : Asm) (name : String) : Asm :=
  if a.sections.any (fun s => s.name == name) then a
  else { a with sections := a.sections ++ [{ name := name, size := 0, rev := [] }] }

def Asm.emit (a : Asm) (name : String) (b : List Byte) : Asm :=
  let a := a.open_ name
  { a with sections := a.sections.map (fun s =>
      if s.name == name then { s with size := s.size + b.length, rev := b.reverse ++ s.rev } else s) }

/-- Zero bytes up to a multiple of `n`. -/
def Asm.align (a : Asm) (name : String) (n : Nat) : Asm :=
  a.emit name (List.replicate ((n - a.sizeOf name % n) % n) 0)

def Asm.defined (a : Asm) (s : String) : Bool := (a.equs.lookup s).isSome || (a.labels.lookup s).isSome

def Asm.label (a : Asm) (s sec : String) : Res Asm :=
  if a.defined s then .error .twice else .ok { a with labels := a.labels ++ [(s, sec, a.sizeOf sec)] }

/-- What the second pass knows: every symbol of the first, and where the loader puts the sections. -/
structure Known where
  equs : Env
  labels : Env
  place : List (String × Nat)
  deriving DecidableEq, Repr

def Known.all (k : Known) : Env := k.equs ++ k.labels

/-- The values of a data directive, `n` bytes each; zeros in the first pass. -/
def Asm.data (a : Asm) (known : Option Known) (n : Nat) (ops : List Text) (val : Known → Text → Res Int) : Res Asm :=
  if ops.isEmpty then .error .form
  else match known with
    | none => .ok (a.emit a.cur (List.replicate (n * ops.length) 0))
    | some k => do
      let xs ← ops.mapM (val k)
      pure (a.emit a.cur (xs.flatMap (le n)))

def intData (n : Nat) (k : Known) (t : Text) : Res Int := do fits n (← value k.all t)

/-- A directive (R50). -/
def Asm.directive (a : Asm) (known : Option Known) (name : String) (ops : List Text) : Res Asm :=
  match name with
  | "text" => if ops.isEmpty then .ok { a.open_ ".text" with cur := ".text" } else .error .form
  | "data" => if ops.isEmpty then .ok { a.open_ ".data" with cur := ".data" } else .error .form
  | "section" =>
    match ops with
    | [t] => if t.isEmpty then .error .form else .ok { a.open_ (String.ofList t) with cur := String.ofList t }
    | _ => .error .form
  | "align" =>
    match ops with
    | [t] => do
      let n ← within 2 30 (← value a.equs t)
      pure (a.align a.cur (2 ^ n.toNat))
    | _ => .error .form
  | "byte" => a.data known 1 ops (intData 1)
  | "half" => a.data known 2 ops (intData 2)
  | "word" => a.data known 4 ops (intData 4)
  | "dword" => a.data known 8 ops (intData 8)
  | "f32" => a.data known 4 ops (fun _ => floatValue Machine.FP32 4)
  | "bf16" => a.data known 2 ops (fun _ => floatValue Machine.BF16 2)
  | "space" =>
    match ops with
    | [t] => do
      let n ← value a.equs t
      if n < 0 then .error .range else pure (a.emit a.cur (List.replicate n.toNat 0))
    | _ => .error .form
  | "equ" =>
    match ops with
    | [s, t] =>
      if !isSymbol s then .error .form
      else if a.defined (String.ofList s) then .error .twice
      else do
        let x ← value a.equs t
        pure { a with equs := a.equs ++ [(String.ofList s, x)] }
    | _ => .error .form
  | "global" =>
    match ops with
    | [s] => if isSymbol s then .ok { a with globals := a.globals ++ [String.ofList s] } else .error .form
    | _ => .error .form
  | "launch" =>
    match ops with
    | [] => .error .form
    | s :: opts =>
      if !isSymbol s then .error .form
      else do
        let a := (a.open_ ".lrec").align ".lrec" 64
        let a ← a.label (String.ofList s) ".lrec"
        pure { a with launch := some { opts := opts, stages := [], wires := [] } }
  | _ => .error .directive

/-- A line within a launch record (R51). -/
def Asm.inLaunch (a : Asm) (known : Option Known) (r : Launch) : Stmt → Res Asm
  | .none => .ok a
  | .dir "stage" ops => .ok { a with launch := some { r with stages := r.stages ++ [ops] } }
  | .dir "wire" ops => .ok { a with launch := some { r with wires := r.wires ++ [ops] } }
  | .dir "endlaunch" [] => do
    let b ← match known with
      | none => pure (List.replicate recordSize (0 : Byte))
      | some k => recordBytes k.all r
    pure { a.emit ".lrec" b with launch := none }
  | _ => .error .record

/-- An instruction line (R50): in a code section, at a multiple of 4. -/
def Asm.instr (a : Asm) (known : Option Known) (name : String) (sfx : List String) (ops : List Text) : Res Asm :=
  if !isCode a.cur || a.sizeOf a.cur % 4 ≠ 0 then .error .place
  else match known with
    | none => .ok (a.emit a.cur (List.replicate 4 0))
    | some k => do
      let some base := k.place.lookup a.cur | .error .unplaced
      let w ← instrWord { equs := k.equs, labels := k.labels, pc := base + a.sizeOf a.cur } name sfx ops
      pure (a.emit a.cur (wordBytes w))

def Asm.line (a : Asm) (known : Option Known) (l : Option String × Stmt) : Res Asm :=
  match a.launch with
  | some r => if l.1.isSome then .error .record else a.inLaunch known r l.2
  | none => do
    let a ← match l.1 with
      | some s => (a.open_ a.cur).label s a.cur
      | none => pure a
    match l.2 with
    | .none => pure a
    | .instr name sfx ops => a.instr known name sfx ops
    | .dir name ops => a.directive known name ops

/-- Every line in turn; an error carries the line's number, counted from 1. -/
def lines (known : Option Known) : Nat → List (Option String × Stmt) → Asm → Except (Nat × Fail) Asm
  | _, [], a => .ok a
  | n, l :: ls, a =>
    match a.line known l with
    | .ok a => lines known (n + 1) ls a
    | .error e => .error (n, e)

/-- What assembling gives: each section's name, load address and bytes, the exported symbols, and all symbols. -/
structure Object where
  sections : List (String × Nat × List Byte)
  globals : List (String × Int)
  symbols : Env
  deriving DecidableEq, Repr

/-- The address of each label, where the loader has placed its section. -/
def addresses (place : List (String × Nat)) : List (String × String × Nat) → Option Env
  | [] => some []
  | (s, sec, off) :: r =>
    match place.lookup sec, addresses place r with
    | some b, some e => some ((s, ((b + off : Nat) : Int)) :: e)
    | _, _ => none

/-- Assemble a source text, its sections at the addresses that the loader has chosen (R47 to R51). The first pass lays the
sections out, and the second encodes. -/
def assemble (place : List (String × Nat)) (src : Text) : Except (Nat × Fail) Object := do
  let ls := (splitAt '\n' src).map parseLine
  let first ← lines none 1 ls Asm.start
  if first.launch.isSome then .error (ls.length, .record)
  else
    let some labels := addresses place first.labels | .error (0, .unplaced)
    let known : Known := { equs := first.equs, labels := labels, place := place }
    let a ← lines (some known) 1 ls Asm.start
    let some globals := a.globals.mapM (fun s => (known.all.lookup s).map (fun x => (s, x))) | .error (0, .unknown)
    let some sections := (a.sections.filter (fun s => 0 < s.size)).mapM
        (fun s => (place.lookup s.name).map (fun b => (s.name, b, s.rev.reverse)))
      | .error (0, .unplaced)
    pure { sections := sections, globals := globals, symbols := known.all }

end Sys2Proof.Yusen
end

