-- ==== Sys2Proof/Tests/Slice0.lean ====
section
/-! SUPPORT. Tests: terms that the well-formedness check refuses, words written out from the encoding tables, small steps whose
results the manual gives, and a witness that the hypotheses of each statement can be met together. -/

namespace Sys2Proof.Tests

open Sys2Proof Sys2Proof.Machine

set_option Elab.async false

/-! ### States -/

/-- The state after reset with a context acting, changed. -/
def at_ (c : Nat) (f : Ctx → Ctx) : State := { State.reset with cur := c }.modMe f
/-- A user context. -/
def user : State := at_ 1 id
/-- A steward. -/
def steward : State := at_ 0 id
/-- An address in the acting strand's own scratchpad. -/
def own (off : Nat) : Word := BitVec.ofNat 64 (0xF0 * 2 ^ 56 + 2 ^ 42 + off)
/-- A user context whose s2 holds a value. -/
def with2 (w : Word) : State := at_ 1 (fun x => x.setS 2 w)
/-- A page at address 0 that may be read, written and executed. -/
def page0 : TlbEntry := { va := 0, size := 65536, entry := 0x1F }
/-- A state whose core 0 holds that page in both TLBs. -/
def mapped (s : State) : State := s.modCore 0 (fun k => { k with dtlb := [page0], itlb := [page0] })
/-- In an attempt. -/
def attempt (s : State) : State := s.modMe (fun x => { x with tx := { x.tx with active := true } })
/-- The bytes of a result. -/
def after (o : Host.Outcome State Fault Refusal) : State := match o with
  | .next t => t
  | _ => State.reset
/-- The control block of a ring at the head of core 0's queue SRAM: a window of four scalar slots at offset 256, and its one
cursor held. -/
def ringLoc : Nat := locQ 0 0
/-- Context 1 with q0 bound to that ring: to read at cursor 0, or to write. -/
def chan (wr : Bool) : State :=
  let s := at_ 1 (fun x => { x with bind := x.bind.setIfInBounds 0 (BitVec.ofNat 64 (bindWord wr 0 true 0 0)) })
  ((s.wr ringLoc 4 (2 ^ 20 + 256)).wr (ringLoc + 4) 4 4).wr (ringLoc + 48) 4 32
/-- With one element published. -/
def chan1 (wr : Bool) (x : Elem) : State :=
  (((chan wr).wr (ringLoc + 8) 8 (2 ^ 32 + 1)).fillSlot ringLoc 0 0 x 0).setRing { (chan wr).ringX ringLoc with pubd := [0] }
/-- The data element 7. -/
def seven : Elem := { awn := false, data := 7 }

/-- Whether an operation succeeds, what it gives and the state it leaves. -/
def succeeds {α : Type} (r : Except Stop (α × State)) : Bool := match r with
  | .ok _ => true
  | .error _ => false
def given {α : Type} (d : α) (r : Except Stop (α × State)) : α := match r with
  | .ok p => p.1
  | .error _ => d
def left {α : Type} (r : Except Stop (α × State)) : State := match r with
  | .ok p => p.2
  | .error _ => State.reset
theorem ok_of {α : Type} (d : α) {r : Except Stop (α × State)} (h : succeeds r = true) : r = .ok (given d r, left r) := by
  cases r with
  | ok p => rfl
  | error e => cases h
theorem ok_unit {r : Except Stop (Unit × State)} (h : succeeds r = true) : r = .ok ((), left r) := ok_of () h
/-- Whether an enqueue is made. -/
def made (p : Put) : Bool := match p with
  | .done _ => true
  | _ => false
theorem made_of {p : Put} (h : made p = true) : ∃ t, p = .done t := by
  cases p with
  | done t => exact ⟨t, rfl⟩
  | _ => cases h

/-! ### Witnesses: decoding, steps, reset -/

theorem wit_DecodeOfEncode : ∃ (i : Instr) (w : IWord), i.wellFormed = true ∧ encode i = [w] := ⟨.add 1 2 3 0, _, rfl, rfl⟩
theorem wit_EncodeOfDecode : ∃ (w : IWord) (i : Instr), decode w = .ok i := ⟨0x0B39D000, _, rfl⟩

/-- A word where the context of a state fetches. -/
def fetching (w : Nat) : State := State.reset.withFetchWord 32 w

/-- The context of a state as a step sees it that has chosen it. -/
def chosen (s : State) (c : Nat) : State := { s with issue := none, cur := c }

theorem wit_StepRunsDecoded : (fetching 0x0B39D000).port.down = false ∧ (fetching 0x0B39D000).agenda = [] ∧
    (fetching 0x0B39D000).nextRequest = none ∧ (fetching 0x0B39D000).issue = some 0 ∧
    (chosen (fetching 0x0B39D000) 0).nextRaw 0 = .word 0x0B39D000 ∧ (chosen (fetching 0x0B39D000) 0).me.framed = false ∧
    decode 0x0B39D000 = .ok (.or 7 7 8 0) := by decide +kernel

/-- The same in a frame's capture. -/
def capturing (w : Nat) : State :=
  (fetching w).modMe (fun x => { x with frame := { x.frame with on := true, base := 0, n := 1, count := 1 } })

theorem wit_StepRunsDecoded_frame : (capturing 0x0B39D000).nextRequest = none ∧ (capturing 0x0B39D000).issue = some 0 ∧
    (chosen (capturing 0x0B39D000) 0).nextRaw 0 = .word 0x0B39D000 ∧ (chosen (capturing 0x0B39D000) 0).me.framed = true ∧
    isArithmetic 0x0B39D000 = true ∧
    decode ((capturing 0x0B39D000).me.frame.stepWord 0x0B39D000 0) = .ok (.or 7 7 8 0) := by decide +kernel

theorem wit_StepRunsDecoded_illegal : (chosen (fetching 0x0B39D001) 0).nextRaw 0 = .word 0x0B39D001 ∧
    (chosen (fetching 0x0B39D001) 0).me.tx.active = false ∧ (chosen (fetching 0x0B39D001) 0).me.framed = false ∧
    (match decode 0x0B39D001 with
      | .ok _ => false
      | .error _ => true) = true := by decide +kernel

/-- TLRL is no word that a frame captures; and a pc of 2^52 lies in no global space. -/
theorem wit_StepRunsDecoded_illegal_frame : (chosen (capturing 0xC1000000) 0).nextRaw 0 = .word 0xC1000000 ∧
    (chosen (capturing 0xC1000000) 0).me.framed = true ∧ isArithmetic 0xC1000000 = false ∧
    (chosen ((fetching 0).modMe (fun x => { x with pc := BitVec.ofNat 64 (2 ^ 52) })) 0).nextRaw 0 = .trap Cause.addr := by
  decide +kernel

theorem wit_StepRunsDecoded_order : State.reset.port.down = false ∧ State.reset.agenda = [] ∧ State.reset.nextRequest = none ∧
    State.reset.issue = none ∧ { State.reset with agenda := [.strandStart 1] }.agenda = [Instr.strandStart 1] ∧
    { State.reset with port := { Port.reset with inbox := [.shutdown 0x4C] } }.port.inbox = [Request.shutdown 0x4C] ∧
    Port.reset.blocked (.shutdown 0x4C) = false := by decide

theorem wit_StepRunsDecoded_fetch : tlbFind ((mapped user).core 0).itlb 0 0 = some page0 ∧ entEx page0.entry = true ∧
    (mapped user).poisoned (page0.pa 0 0) 4 = false ∧ ((mapped user).til 0).icache = [] ∧
    ((fetching 0x0B39D000).til 0).icache.find? (fun l => l.line == 0) = some ((fetching 0x0B39D000).lineNow 0) ∧
    ((fetching 0x0B39D000).lineNow 0).data.extractLsb' 0 32 = BitVec.ofNat 32 ((fetching 0x0B39D000).rd 0 4) := by decide +kernel

/-- Before the fetched word is taken: the context may issue, its word is fetched now or was kept as it became ready; and a
context that something has stopped since it was chosen. -/
def ready0 (w : Nat) : State := (fetching w).modCtx 0 (fun x => { x with word := some (0, BitVec.ofNat 32 w) })
theorem wit_StepRunsDecoded_word : (fetching 0x0B39D000).active 0 = true ∧ (fetching 0x0B39D000).nextRaw 0 = .word 0x0B39D000 ∧
    ((fetching 0x0B39D000).ctx 0).word = none ∧ ((fetching 0x0B39D000).ctx 0).framed = false ∧
    ((ready0 0x0B39D000).ctx 0).word = some (((ready0 0x0B39D000).ctx 0).pc, 0x0B39D000) ∧
    (ready0 0x0B39D000).nextRaw 0 = .word 0x0B39D000 ∧ (capturing 0x0B39D000).active 0 = true ∧
    (capturing 0x0B39D000).nextRaw 0 = .word 0x0B39D000 ∧ (fetching 0x0B39D001).nextRaw 0 = .word 0x0B39D001 ∧
    (capturing 0xC1000000).nextRaw 0 = .word 0xC1000000 ∧ ctxNo 0 ≠ 15 := by decide +kernel
theorem wit_StepRunsDecoded_stopped : ((fetching 0x0B39D000).modCtx 0 (fun x => { x with wait := .ticket })).issue = some 0 ∧
    ((fetching 0x0B39D000).modCtx 0 (fun x => { x with wait := .ticket })).nextRequest = none ∧
    ((fetching 0x0B39D000).modCtx 0 (fun x => { x with wait := .ticket })).active 0 = false := by decide +kernel

theorem wit_StepKeepsMemory : State.reset.memOk ∧ ∃ t, step State.reset = .next t := ⟨rfl, _, rfl⟩
theorem wit_StepKeepsTables : State.reset.tablesOk := ⟨rfl, rfl, rfl, rfl⟩
theorem wit_StepsComplete : State.reset.port.down = false ∧
    { State.reset with port := { Port.reset with down := true } }.port.down = true := by decide

/-! ### Witnesses: operands and scalars -/

theorem wit_ScalarTwoOperands : ∀ p ∈ scalarTwo, ∃ (r t u v : State) (x y : Word), Ready (p.1 1 2 3 0) user r ∧ Reads 2 r x t ∧
    ReadsB 0 3 t y u ∧ Writes 1 u (p.2 x y) v := by
  intro p hp
  simp only [scalarTwo, List.mem_cons, List.not_mem_nil, or_false] at hp
  obtain h | h | h | h | h | h | h | h | h | h | h | h | h | h | h | h | h | h | h | h | h | h | h | h := hp <;>
    subst h <;> exact ⟨_, _, _, _, _, _, ⟨rfl, rfl⟩, rfl, rfl, rfl⟩

theorem wit_ScalarUnary_fields : ∃ (r t u v w : State) (c x y : Word), Ready (.sel 1 2 3 0) user r ∧ Reads 1 r c t ∧
    Reads 2 t x u ∧ ReadsB 0 3 u y v ∧ Writes 1 v x w ∧ Ready (.bfi 1 2 3 0 0) user r ∧ Ready (.lea 1 2 3 0 0) user t ∧
    Ready (.bfx 1 2 3 0 0 0) user t ∧ Ready (.bfx 1 2 3 1 0 0) user t :=
  ⟨_, _, _, _, _, _, _, _, ⟨rfl, rfl⟩, rfl, rfl, rfl, rfl, ⟨rfl, rfl⟩, ⟨rfl, rfl⟩, ⟨rfl, rfl⟩, ⟨rfl, rfl⟩⟩

theorem wit_ScalarUnary : ∃ (r t v v' : State) (x : Word), Ready (.clz 1 2) user r ∧ Ready (.ctz 1 2) user r ∧
    Ready (.popc 1 2) user r ∧ Ready (.addi 1 2 3) user r ∧ Ready (.andi 1 2 3) user r ∧ Ready (.lih 1 0 3) user r ∧
    Ready (.lih 1 1 3) user r ∧ Ready (.lih 1 6 3) user r ∧ Reads 2 r x t ∧ Writes 1 t x v ∧ Writes 1 r 3 v' :=
  ⟨_, _, _, _, _, ⟨rfl, rfl⟩, ⟨rfl, rfl⟩, ⟨rfl, rfl⟩, ⟨rfl, rfl⟩, ⟨rfl, rfl⟩, ⟨rfl, rfl⟩, ⟨rfl, rfl⟩, ⟨rfl, rfl⟩, rfl, rfl,
    rfl⟩

theorem wit_RegisterOperands : user.me.endOf (.s 0) = none ∧ user.me.endOf (.s 31) = none ∧ user.me.endOf (.v 15) = none := by
  decide

theorem wit_EndOperands : (chan1 false seven).me.endOf (.s 24) = some 0 ∧ (chan1 false seven).me.tx.active = false ∧
    (chan1 false seven).endHead 1 0 0 = .elem seven ∧ (chan true).me.endOf (.s 24) = some 0 ∧
    (∃ t, (chan true).endPut 1 0 { awn := false, data := (7 : Word).setWidth 512 } = .done t) ∧
    (attempt (chan1 false seven)).me.tx.active = true ∧
    (attempt (chan1 false seven)).endHead 1 0 ((attempt (chan1 false seven)).me.tx.point.ops.count (.deq 0)) = .elem seven ∧
    (∃ t, (attempt (chan true)).runOps 1 ((attempt (chan true)).me.tx.point.ops ++
      [.enq 0 { awn := false, data := (7 : Word).setWidth 512 } (attempt (chan true)).due]) = .done t) :=
  ⟨by decide, by decide, by decide +kernel, by decide, made_of (by decide +kernel), by decide, by decide +kernel,
    made_of (by decide +kernel)⟩

theorem wit_ScalarFrame : Plain (.add 1 2 3 0) user ∧ Plain (.lih 31 1 3) user ∧ ∃ t, exec (.add 1 2 3 0) user = .next t :=
  ⟨⟨by decide, by decide, by decide⟩, ⟨by decide, by decide, by decide⟩, _, rfl⟩

theorem wit_ControlTransfers : ∃ (r t u v : State) (x y : Word), Ready (.beq 2 3 1) user r ∧ Reads 2 r x t ∧ Reads 3 t y u ∧
    (u.me.pc + BitVec.ofInt 64 (4 * ((1 : BitVec 14).toInt : Int))).toNat < 2 ^ 52 ∧
    2 ^ 52 ≤ (u.me.pc + BitVec.ofInt 64 (4 * ((0x3FFF : BitVec 14).toInt : Int))).toNat ∧ Ready (.jal 1 1) user r ∧
    Ready (.jalr 1 2 4) user r ∧ Writes 1 r 4 v ∧ Writes 1 t 4 v :=
  ⟨_, _, _, _, _, _, ⟨rfl, rfl⟩, rfl, rfl, by decide, by decide, ⟨rfl, rfl⟩, ⟨rfl, rfl⟩, rfl, rfl⟩

/-- At address 0, a backward target wraps to the top of the address space; an odd address is misaligned before it is too high. -/
theorem wit_ControlTransfers_jalr :
    ((0 : Word) + BitVec.ofInt 64 ((1 : BitVec 14).toInt)).toNat % 4 ≠ 0 ∧
    ((0 : Word) + BitVec.ofInt 64 ((0x3FFC : BitVec 14).toInt)).toNat % 4 = 0 ∧
    2 ^ 52 ≤ ((0 : Word) + BitVec.ofInt 64 ((0x3FFC : BitVec 14).toInt)).toNat := by decide

theorem wit_RepeatFrame : ∃ r q : State, Ready (.repf 0 255 0 1 15) user r ∧ r.me.frame.on = false ∧
    Ready (.repf 0 255 0 1 15) (capturing 0) q ∧ q.me.frame.on = true :=
  ⟨_, _, ⟨rfl, rfl⟩, rfl, ⟨rfl, rfl⟩, rfl⟩

/-- The last cycle in which a captured word may not issue. -/
theorem wit_RepeatFrame_interval : ((capturing 0).ctx 0).frame.handler = ((capturing 0).ctx 0).hmode ∧
    (((capturing 0).modMe (fun x => { x with capture := 1 })).core 0).cycle.toNat <
      (((capturing 0).modMe (fun x => { x with capture := 1 })).ctx 0).capture.toNat := by decide

/-- The steward with the address of a spawn block of zeros in s2. -/
def spawner : State := at_ 0 (fun x => x.setS 2 (own 256))

theorem wit_SpawnStarts : ∃ w : State, Ready (.spawn 1 2 14 1 0 0) spawner spawner ∧ Reads 2 spawner (own 256) spawner ∧
    ReadsB 1 14 spawner 14 spawner ∧ spawner.place spawner.myTil (own 256) = some (.near spawner.myTil 256) ∧
    256 + 256 ≤ (spawner.til spawner.myTil).spadSize ∧ (spawner.ctx 14).life = .free ∧
    spawner.poisoned (locSpad 0 256) 256 = false ∧
    spawner.blockBad (locSpad 0 256) 14 (spawner.block (locSpad 0 256)) false = false ∧
    (spawner.block (locSpad 0 256)).bind = [] ∧
    Writes 1 (spawner.startStrand 14 (spawner.block (locSpad 0 256)) false false)
      (((spawner.startStrand 14 (spawner.block (locSpad 0 256)) false false).sid 14).setWidth 64) w :=
  ⟨_, ⟨rfl, rfl⟩, rfl, rfl, by decide, by decide, by decide, by decide +kernel, by decide +kernel,
    by decide +kernel, ok_unit (by decide +kernel)⟩

/-- The steward after a change of context 1. -/
def beside (f : Ctx → Ctx) : State := steward.modCtx 1 f

theorem wit_StrandEnds : ∃ (r v w y : State), Ready (.reap 1 1 0 1) (beside id) r ∧
    ctxNo (beside id).cur = 0 ∧ (r.ctx 1).life = .free ∧ (r.ctx 1).home = none ∧ Writes 1 r (BitVec.allOnes 64) v ∧
    Ready (.reap 1 1 0 1) (beside (fun x => { x with life := .exited })) w ∧ (w.ctx 1).life = .exited ∧
    Ready (.reap 1 1 0 1) (beside (fun x => { x with life := .migrated })) y ∧ (y.ctx 1).life = .migrated :=
  ⟨_, _, _, _, ⟨rfl, rfl⟩, rfl, rfl, rfl, rfl, ⟨rfl, rfl⟩, rfl, ⟨rfl, rfl⟩, rfl⟩

/-- The steward beside a stopped strand. -/
def besideStopped : State := beside (fun x => { x with life := .stopped })

theorem wit_StrandEnds_kill : ∃ v : State, Ready (.reap 1 1 0 1) besideStopped besideStopped ∧
    (besideStopped.ctx 1).life = .stopped ∧ Writes 1 (besideStopped.killStrand 1 16) (BitVec.ofNat 64 (2 ^ 63)) v :=
  ⟨_, ⟨rfl, rfl⟩, by decide, ok_unit (by decide +kernel)⟩

theorem wit_StrandEnds_exit : ∃ r : State, Ready (.exit 0 5 1) user r ∧ ctxNo user.cur ≠ 0 ∧ r.me.home = none ∧
    r.me.lobj = 0 := ⟨_, ⟨rfl, rfl⟩, by decide, rfl, rfl⟩

theorem wit_TrapEntry : privileged 14 = false ∧ (State.reset.ctx 14).home = none ∧ State.reset.boxRoom (coreOf 14) 0 = true ∧
    privileged 15 = true ∧ privileged 0 = true := by decide

theorem wit_SystemCalls : (attempt user).me.mig = false ∧ (attempt user).me.tx.active = true ∧ privileged user.cur = false ∧ privileged steward.cur = true ∧ user.me.mig = false ∧
    user.me.tx.active = false ∧ (∀ j ∈ stewardInstrs 1 2 3 1 0 0, rowCheck j user = .ok ((), user)) ∧
    ∀ j ∈ [Instr.tlbf 1 2 3, .tlbiVa 1 2, .tlbiPart 1], rowCheck j user = .ok ((), user) := by
  refine ⟨by decide, by decide, by decide, by decide, by decide, by decide, ?_, ?_⟩ <;>
    simp only [stewardInstrs, List.mem_cons, List.not_mem_nil, or_false, forall_eq_or_imp, forall_eq]
  · exact ⟨rfl, rfl, rfl, rfl, rfl, rfl, rfl, rfl, rfl, rfl, rfl, rfl, rfl⟩
  · exact ⟨rfl, rfl, rfl⟩

/-! ### Witnesses: memory -/

/-- A user context with an address of its own scratchpad in s2. -/
def base2 : State := with2 (own 8192)
/-- The lowest displacement of format D leads to the first byte of the scratchpad. -/
def first : Word := own 8192 + BitVec.ofInt 64 ((0x2000 : BitVec 14).toInt)

theorem wit_Loads : ∃ (n : Nat) (u v : State), Ready (.ld 1 2 0x2000) base2 base2 ∧ Reads 2 base2 (own 8192) base2 ∧
    loadScalar 8 first 0 base2 = .ok (n, u) ∧ Writes 1 u (BitVec.ofNat 64 n) v :=
  ⟨_, _, _, ⟨rfl, rfl⟩, rfl, ok_of 0 (by decide +kernel), ok_unit (by decide +kernel)⟩

theorem wit_Loads_vld : ∃ (n : Nat) (u v : State), Ready (.vld 1 2 0x2000) base2 base2 ∧ Reads 2 base2 (own 8192) base2 ∧
    loadScalar 64 first 0 base2 = .ok (n, u) ∧ WritesV 1 u (BitVec.ofNat 512 n) v :=
  ⟨_, _, _, ⟨rfl, rfl⟩, rfl, ok_of 0 (by decide +kernel), ok_unit (by decide +kernel)⟩

theorem wit_Loads_ldx : ∃ (n : Nat) (v w : State), Ready (.ldx 1 2 0 11 0) base2 base2 ∧ Reads 0 base2 0 base2 ∧
    loadScalar (widthOf 11 / 8) (own 8192 + 0 * BitVec.ofNat 64 (widthOf 11 / 8)) 0 base2 = .ok (n, v) ∧
    Writes 1 v (if isSigned 11 then BitVec.ofInt 64 (laneInt 11 n) else BitVec.ofNat 64 n) w ∧ n < 2 ^ widthOf 11 :=
  ⟨_, _, _, ⟨rfl, rfl⟩, rfl, ok_of 0 (by decide +kernel), ok_unit (by decide +kernel), by decide +kernel⟩

/-- Eight bytes of the acting strand's own scratchpad. -/
def ownLane (off : Nat) : Lane :=
  { i := 0, va := own off, loc := locSpad 0 off, n := 8, own := true, global := false, nc := false, repl := false }

theorem wit_Loads_ldaq : ∃ (v w z : State) (bs : List Byte), Ready (.ldaq 1 2 7 1 3) base2 base2 ∧
    Reads 2 base2 (own 8192) base2 ∧ resolve .load (widthSize 3) [(0, own 8192)] base2 = .ok ([ownLane 8192], base2) ∧
    loadLane 0 (decide ((7 : BitVec 3).toNat < 3)) (ownLane 8192) base2 = .ok (bs, v) ∧ acquirePart 1 7 v = .ok ((), w) ∧
    Writes 1 w (BitVec.ofNat 64 (natOfBytes bs)) z :=
  ⟨_, _, _, _, ⟨rfl, rfl⟩, rfl, by decide +kernel, ok_of [] (by decide +kernel), ok_unit (by decide +kernel),
    ok_unit (by decide +kernel)⟩

theorem wit_Loads_lanes : ∃ (ls : List Lane) (xs : List (Nat × Nat)) (v w z : State), Ready (.vlds 1 2 0 0 0 0) base2 base2 ∧
    Reads 2 base2 (own 8192) base2 ∧ Reads 0 base2 0 base2 ∧ Ready (.vgth 1 2 16 0 0 0) base2 base2 ∧
    ReadsAB 16 32 base2 0 base2 ∧
    resolve .load 4 (((List.range 16).filter (fun j => (base2.me.getM 0).getLsbD j)).map
      (fun j => (j, own 8192 + 0 * BitVec.ofNat 64 j))) base2 = .ok (ls, v) ∧
    loadLanes 0 ls v = .ok (xs, w) ∧
    WritesV 1 w (ofLanes 32 ((List.range 16).map (fun j => (tget xs j).getD 0))) z :=
  ⟨_, _, _, _, _, ⟨rfl, rfl⟩, rfl, rfl, ⟨rfl, rfl⟩, by unfold ReadsAB; decide +kernel, ok_of [] (by decide +kernel),
    ok_of [] (by decide +kernel), ok_unit (by decide +kernel)⟩

theorem wit_Stores : ∃ v w : State, Ready (.st 1 2 0x2000) base2 base2 ∧ Reads 1 base2 0 base2 ∧
    storeScalar .store 8 first 0 base2 = .ok ((), v) ∧ Ready (.vst 1 2 0x2000) base2 base2 ∧ ReadsV 1 base2 0 base2 ∧
    storeScalar .store 64 first 0 base2 = .ok ((), w) :=
  ⟨_, _, ⟨rfl, rfl⟩, rfl, ok_unit (by decide +kernel), ⟨rfl, rfl⟩, rfl, ok_unit (by decide +kernel)⟩

theorem wit_Stores_indexed : ∃ v w q : State, Ready (.stx 1 2 0 0) base2 base2 ∧ Reads 2 base2 (own 8192) base2 ∧
    Reads 0 base2 0 base2 ∧ storeScalar .store (widthOf 0 / 8) (own 8192 + 0 * BitVec.ofNat 64 (widthOf 0 / 8)) 0 base2 =
      .ok ((), v) ∧ Ready (.strl 1 2 7 4 3) base2 base2 ∧ storeScalar .store (widthSize 3) (own 8192) 0 base2 = .ok ((), w) ∧
    acquirePart 4 7 w = .ok ((), q) :=
  ⟨_, _, _, ⟨rfl, rfl⟩, rfl, rfl, ok_unit (by decide +kernel), ⟨rfl, rfl⟩, ok_unit (by decide +kernel),
    ok_unit (by decide +kernel)⟩

/-- A user context whose core's data TLB maps the page of address 0. -/
def global2 : State := mapped (with2 0)

theorem wit_Stores_multicast : ∃ v : State, Ready (.stm 1 2 8) global2 global2 ∧ Reads 2 global2 0 global2 ∧
    global2.me.tx.active = false ∧ global2.place global2.myTil 8 = some (.global 8) ∧
    storeScalar .stm 8 8 0 global2 = .ok ((), v) :=
  ⟨_, ⟨rfl, rfl⟩, rfl, rfl, by decide, ok_unit (by decide +kernel)⟩

theorem wit_Stores_lanes : ∃ (ls : List Lane) (w z : State), Ready (.vsts 1 2 0 0 0) base2 base2 ∧
    Ready (.vsct 1 2 16 0 0) base2 base2 ∧ Reads 0 base2 0 base2 ∧ ReadsAB 16 32 base2 0 base2 ∧ ReadsV 1 base2 0 base2 ∧
    resolveStore .store 4 (((List.range 16).filter (fun j => (base2.me.getM 0).getLsbD j)).map
      (fun j => (j, own 8192 + 0 * BitVec.ofNat 64 j))) base2 = .ok (ls, w) ∧ storeLanes 32 0 ls w = .ok ((), z) :=
  ⟨_, _, _, ⟨rfl, rfl⟩, ⟨rfl, rfl⟩, rfl, by unfold ReadsAB; decide +kernel, rfl, ok_of [] (by decide +kernel), ok_unit (by decide +kernel)⟩

theorem wit_AccessChecks : Ready (.ld 1 2 0) base2 base2 ∧ Reads 2 base2 (own 8192) base2 ∧ Ready (.ldx 1 2 3 0 0) base2 base2 ∧
    Reads 3 base2 0 base2 ∧ Ready (.ldaq 1 2 0 1 3) base2 base2 ∧ Ready (.st 1 2 0) base2 base2 ∧ Reads 1 base2 0 base2 ∧
    Ready (.amocas 1 2 3 0 0 3) base2 base2 ∧ Ready (.stm 1 2 0) base2 base2 ∧ base2.me.mig = false ∧
    Ready (.ld 1 2 0) (base2.modMe (fun x => { x with mig := true })) (base2.modMe (fun x => { x with mig := true })) :=
  ⟨⟨rfl, rfl⟩, rfl, ⟨rfl, rfl⟩, rfl, ⟨rfl, rfl⟩, ⟨rfl, rfl⟩, rfl, ⟨rfl, rfl⟩, ⟨rfl, rfl⟩, rfl, ⟨rfl, rfl⟩⟩

/-- The three checks of R220 at their limits: the first address above global space, a misaligned one, and the first eight
bytes past the scratchpad. -/
theorem wit_AccessChecks_space : base2.place base2.myTil (BitVec.ofNat 64 (2 ^ 52)) = none ∧
    base2.place base2.myTil (own 1) = some (.near 0 1) ∧ (own 1).toNat % 8 ≠ 0 := by decide +kernel

theorem wit_AccessChecks_bounds : base2.place base2.myTil (own 0xE0000) = some (.near 0 0xE0000) ∧
    (own 0xE0000).toNat % 8 = 0 ∧ (base2.til 0).spadSize < 0xE0000 + 8 ∧
    base2.place base2.myTil (BitVec.ofNat 64 (2 ^ 52 - 1)) = some (.global (2 ^ 52 - 1)) ∧
    base2.place base2.myTil (BitVec.ofNat 64 (0xF0 * 2 ^ 56 + 1023 * 2 ^ 32)) = some (.near 1023 0) ∧
    base2.place base2.myTil (BitVec.ofNat 64 (0xF0 * 2 ^ 56 + 2 ^ 43)) = none ∧
    base2.place base2.myTil (BitVec.ofNat 64 (0xF0 * 2 ^ 56 + 2 ^ 20)) = none ∧
    base2.place base2.myTil (BitVec.ofNat 64 (0xF0 * 2 ^ 56 + 2 ^ 42 + 2 ^ 41)) = none := by decide +kernel

theorem ordinary_of (s : State) (a n : Nat) (h1 : (linesOf a n).all (fun l => s.queueAt l == none) = true)
    (h2 : s.namedRings.filter (fun r => meets a n r 64) = [])
    (h3 : s.tils.all (fun p => p.2.refs.isEmpty && p.2.merge.isNone) = true)
    (h4 : s.objsInUse.filter (fun o => meets a n (o + 8) 8 || meets a n (o + 25) 2) = [])
    (h5 : s.countersInUse.filter (fun c => meets a n c 16) = []) (h6 : s.rings = []) : s.Ordinary a n := by
  have h (t : State) : t.tailWritten s a n = t := by
    unfold State.tailWritten
    generalize linesOf a n = ls at h1
    induction ls with
    | nil => rfl
    | cons l r ih =>
      simp only [List.all_cons, Bool.and_eq_true, beq_iff_eq] at h1
      rw [List.foldl_cons, h1.1]
      exact ih h1.2
  have h' (f : State → Nat → RefBind → State) (g : State → Nat → Merge → State) (t : State) :
      s.tils.foldl (fun (u : State) p =>
        let u := p.2.refs.foldl (fun u r => f u p.1 r) u
        match p.2.merge with
        | none => u
        | some m => g u p.1 m) t = t := by
    generalize s.tils = l at h3
    induction l with
    | nil => rfl
    | cons p r ih =>
      simp only [List.all_cons, Bool.and_eq_true, List.isEmpty_iff, Option.isNone_iff_eq_none] at h3
      rw [List.foldl_cons, h3.1.1, h3.1.2]
      exact ih (by simpa using h3.2)
  intro t
  unfold State.tamper
  simp only [h, State.rebuilt, h2, h4, h5, h6, List.foldl_nil]
  exact h' (fun u p r => if meets a n (locSpad p r.desc + 12) 12 then u.scramble (locSpad p r.desc + 12) (locSpad p r.desc + 24) else u)
    (fun u p m => if meets a n (locSpad p m.desc + 4) 8 then u.scramble (locSpad p m.desc + 4) (locSpad p m.desc + 12) else u) _

theorem wit_MemoryFrames : base2.memOk ∧ Plain (.st 1 2 0x2000) base2 ∧ Plain (.ld 1 2 0x2000) base2 ∧
    base2.place base2.myTil first = some (.near base2.myTil 0) ∧ first.toNat % 8 = 0 ∧
    0 + 8 ≤ (base2.til base2.myTil).spadSize ∧ (base2.til base2.myTil).token.holder = none ∧
    base2.Ordinary (locSpad base2.myTil 0) 8 ∧ base2.poisoned (locSpad base2.myTil 0) 8 = false :=
  ⟨rfl, ⟨by decide, by decide, by decide⟩, ⟨by decide, by decide, by decide⟩, by decide, by decide, by decide, by decide,
    ordinary_of _ _ _ (by decide +kernel) (by decide +kernel) rfl (by decide +kernel) (by decide +kernel) rfl, by decide⟩

/-- The lane of the store of one word at the first byte of the scratchpad. -/
def firstLane : Lane :=
  { i := 0, va := first, loc := locSpad 0 0, n := 8, own := true, global := false, nc := false, repl := false }

theorem wit_StoreFrames : base2.memOk ∧ Plain (.st 1 2 0x2000) base2 ∧ Plain (.vst 1 2 0x2000) base2 ∧ Plain (.stx 1 2 3 11) base2 ∧
    Plain (.strl 1 2 7 4 3) base2 ∧ base2.me.wait = .none ∧ base2.me.tx.active = false ∧
    resolveStore .store 8 [(0, first)] base2 = .ok ([firstLane], base2) ∧ soleHold (locSpad 0 0) 8 base2 = .ok ((), base2) ∧
    base2.Ordinary (locSpad 0 0) 8 :=
  ⟨rfl, ⟨by decide, by decide, by decide⟩, ⟨by decide, by decide, by decide⟩, ⟨by decide, by decide, by decide⟩,
    ⟨by decide, by decide, by decide⟩, rfl, rfl, by decide +kernel, by decide +kernel,
    ordinary_of _ _ _ (by decide +kernel) (by decide +kernel) rfl (by decide +kernel) (by decide +kernel) rfl⟩

/-- A store of one word of global memory; an atomic; a scatter of one lane. -/
def laneG (a n : Nat) : Lane :=
  { i := 0, va := BitVec.ofNat 64 a, loc := a, n := n, own := false, global := true, nc := false, repl := false }

theorem wit_StoreFrames_global : global2.memOk ∧ Plain (.stm 1 2 8) global2 ∧ Plain (.st 1 2 8) global2 ∧
    resolveStore .stm 8 [(0, 8)] global2 = .ok ([laneG 8 8], global2) ∧
    resolveStore .store 8 [(0, 8)] global2 = .ok ([laneG 8 8], global2) ∧ (laneG 8 8).global = true ∧
    soleHold 8 8 global2 = .ok ((), global2) ∧ global2.Ordinary 8 8 := by
  refine ⟨rfl, ⟨by decide, by decide, by decide⟩, ⟨by decide, by decide, by decide⟩, by decide +kernel, by decide +kernel, rfl,
    by decide +kernel, ?_⟩
  exact ordinary_of _ _ _ (by decide +kernel) (by decide +kernel) rfl (by decide +kernel) (by decide +kernel) rfl

theorem wit_StoreFrames_atomics : (∀ i ∈ atomicInstrs 1 2 3 0 2 3, Plain i base2) ∧
    atomicLane (widthSize 3) (own 8192) base2 = .ok ([ownLane 8192], base2) ∧
    base2.poisoned (ownLane 8192).loc (widthSize 3) = false ∧ soleHold (locSpad 0 8192) 8 base2 = .ok ((), base2) := by
  refine ⟨?_, by decide +kernel, by decide +kernel, by decide +kernel⟩
  simp only [atomicInstrs, List.mem_cons, List.not_mem_nil, or_false, forall_eq_or_imp, forall_eq]
  exact ⟨⟨by decide, by decide, by decide⟩, ⟨by decide, by decide, by decide⟩, ⟨by decide, by decide, by decide⟩,
    ⟨by decide, by decide, by decide⟩, ⟨by decide, by decide, by decide⟩, ⟨by decide, by decide, by decide⟩,
    ⟨by decide, by decide, by decide⟩, ⟨by decide, by decide, by decide⟩, ⟨by decide, by decide, by decide⟩⟩

/-- Lane 0 alone, by mask 1. -/
def oneLane : State := base2.modMe (fun x => x.setM 1 1)
theorem wit_StoreFrames_lanes : ∃ z : State, oneLane.memOk ∧ Plain (.vsts 1 2 3 0 1) oneLane ∧ Plain (.vsct 1 2 3 0 1) oneLane ∧
    resolveStore .store 4 [(0, own 8192)] oneLane = .ok ([{ ownLane 8192 with n := 4 }], oneLane) ∧
    storeLanes 32 0 [{ ownLane 8192 with n := 4 }] oneLane = .ok ((), z) ∧
    OrdinaryLanes 32 0 [{ ownLane 8192 with n := 4 }] oneLane :=
  ⟨_, rfl, ⟨by decide, by decide, by decide⟩, ⟨by decide, by decide, by decide⟩, by decide +kernel, ok_unit (by decide +kernel),
    ⟨ordinary_of _ _ _ (by decide +kernel) (by decide +kernel) rfl (by decide +kernel) (by decide +kernel) rfl,
      fun _ _ => trivial⟩⟩

theorem wit_GlobalAccess : global2.me.tx.active = false ∧ ctxNo global2.cur ≠ 15 ∧ (65528 : Word).toNat < 2 ^ 52 ∧
    tlbFind (global2.core global2.myCore).dtlb (global2.partOf global2.myTil) 65528 = some page0 ∧ entRd page0.entry = true ∧
    ({ global2 with cores := [] }.modTil 0 (fun t => { t with l1sz := 0 })).poisoned (page0.pa 65528 0) 8 = false := by decide

theorem wit_GlobalAccess_denied :
    entRd ({ page0 with entry := 0x13 } : TlbEntry).entry = false ∧ (with2 0).place 0 0 = some (.global 0) ∧
    ((with2 0).lookup 1 false 0).1 = none ∧ ctxNo (with2 0).cur ≠ 15 := by decide

theorem wit_CachesAndFences : ∃ u : State, Ready (.fence 3 1) user user ∧ Ready (.fence 2 0) user user ∧
    Reads 2 global2 0 global2 ∧ cachePage false 0 global2 = .ok (some (0, 0x1F), global2) ∧
    cachePage true 0 global2 = .ok (some (0, 0x1F), u) ∧ Ready (.prfL2 2 0) global2 global2 ∧ Ready (.prfL1 2 0) global2 global2 ∧
    entRd 0x1F = true ∧ entNc 0x1F = false ∧ 0 < (global2.til 0).l1sz ∧ global2.poisoned 0 64 = false ∧
    (global2.til 0).l1.any (fun l => l.line == 0) = false ∧ Ready (.cfl 2 0) global2 global2 ∧
    Ready (.cinvD 2 0) global2 global2 ∧ Ready (.cinvI 2 0) global2 global2 ∧ Ready (.cinvDi 2 0) global2 global2 :=
  ⟨global2, ⟨rfl, rfl⟩, ⟨rfl, rfl⟩, rfl, by decide +kernel, by decide +kernel, ⟨rfl, rfl⟩, ⟨rfl, rfl⟩, by decide, by decide, by decide,
    by decide, by decide, ⟨rfl, rfl⟩, ⟨rfl, rfl⟩, ⟨rfl, rfl⟩, ⟨rfl, rfl⟩⟩

/-- Whatever state: an order instruction waits in it, or goes on. -/
theorem order_held (loads : Bool) (line : Option Nat) (at_ : Word) (flush : Flush) (s : State) :
    ∃ t, OrderHeld loads line at_ flush s t := by
  refine (Classical.em _).elim (fun h => ⟨_, fun _ => rfl, fun n => absurd h n⟩) (fun h => ⟨_, fun p => absurd p h, fun _ => rfl⟩)
/-- It goes on where nothing is outstanding. -/
theorem order_free (loads : Bool) (line : Option Nat) (flush : Flush) (s : State)
    (h : (s.core s.myCore).reqs = [] ∧ (s.core s.myCore).waves = []) : OrderHeld loads line 0 flush s (s.flush s.myTil flush) := by
  refine ⟨fun p => ?_, fun _ => rfl⟩
  simp [h.1, h.2] at p

/-- A context with an outstanding store to line 1 of global memory. -/
def store1 : Req := { cid := 1, far := false, hit := false, load := false, line := 1, until_ := 8 }
def outstanding : State := user.modCore 0 (fun k => { k with cycle := 7, reqs := [store1] })
theorem wit_CachesAndFences_order : Ready (.fence 3 4) outstanding outstanding ∧
    OrderHeld false none 0 (.acquire 4) outstanding
      (outstanding.modMe (fun x => { x with wait := .order false none 0 (.acquire 4) })) ∧
    OrderHeld false (some 1) 0 (.line 1 true false) outstanding
      (outstanding.modMe (fun x => { x with wait := .order false (some 1) 0 (.line 1 true false) })) ∧
    OrderHeld true none 0 .none outstanding outstanding ∧
    OrderHeld false (some 1) 0 (.line 1 true false) user (user.flush user.myTil (.line 1 true false)) := by
  have n1 : (outstanding.core outstanding.myCore).reqs = [store1] ∧ (outstanding.core outstanding.myCore).waves = [] := by decide
  have n2 : store1.cid = outstanding.cur ∧ (outstanding.core outstanding.myCore).cycle.toNat < store1.until_.toNat := by decide
  have n3 : store1 ∈ (outstanding.core outstanding.myCore).reqs := by rw [n1.1]; exact List.mem_singleton.2 rfl
  refine ⟨⟨rfl, rfl⟩, ⟨fun _ => rfl, fun h => absurd (Or.inl ⟨_, n3, n2.1, n2.2, by decide, fun l h => by cases h⟩) h⟩,
    ⟨fun _ => rfl, fun h => absurd (Or.inl ⟨_, n3, n2.1, n2.2, by decide, fun l h => by cases h; decide⟩) h⟩,
    ⟨fun h => ?_, fun _ => rfl⟩, order_free _ _ _ _ (by decide)⟩
  simp [n1, store1] at h

/-- A context that waits until cycle 9, before it and in it. -/
def ordered (n : Word) : State := (user.modMe (fun x => { x with wait := .order false none 9 (.acquire 3) })).modCore 0
  (fun k => { k with cycle := n })
theorem wit_CachesAndFences_end : ((ordered 7).ctx 1).wait = .order false none 9 (.acquire 3) ∧
    ((ordered 7).core 0).cycle.toNat + 1 < 9 ∧ ((ordered 8).ctx 1).wait = .order false none 9 (.acquire 3) ∧
    9 ≤ ((ordered 8).core 0).cycle.toNat + 1 ∧ ((ordered 8).core 0).reqs = [] ∧ ((ordered 8).core 0).waves = [] := by decide

theorem wit_Atomics_float : ∀ p ∈ floatTable, ∃ (w x y z q : State) (bs : List Byte), let l := { ownLane 8192 with n := widthSize p.2.1 }
    Ready (p.1 1 2 3 7 3 p.2.1) base2 base2 ∧
    atomicLane (widthSize p.2.1) (own 8192) base2 = .ok ([l], base2) ∧ loadLane 0 false l base2 = .ok (bs, w) ∧
    strandStore false l (bytesOfNat (widthSize p.2.1) (p.2.2 (natOfBytes bs) (0 % 2 ^ (8 * widthSize p.2.1))).1) w = .ok ((), x) ∧
    leaveL1 l x = .ok ((), y) ∧ acquirePart 3 7 y = .ok ((), z) ∧ Writes 1 z (BitVec.ofNat 64 (natOfBytes bs)) q := by
  intro p hp
  simp only [floatTable, List.mem_cons, List.not_mem_nil, or_false] at hp
  obtain h | h | h | h := hp <;> subst h <;>
    exact ⟨_, _, _, _, _, _, ⟨rfl, rfl⟩, by decide +kernel, ok_of [] (by decide +kernel),
      ok_unit (by decide +kernel), ok_unit (by decide +kernel), ok_unit (by decide +kernel), ok_unit (by decide +kernel)⟩

theorem wit_Atomics : ∃ (w x y z q : State) (bs : List Byte), (∀ p ∈ amoTable, Ready (p.1 1 2 3 7 3 3) base2 base2) ∧
    Reads 3 base2 0 base2 ∧ atomicLane (widthSize 3) (own 8192) base2 = .ok ([ownLane 8192], base2) ∧
    loadLane 0 false (ownLane 8192) base2 = .ok (bs, w) ∧
    strandStore false (ownLane 8192) (bytesOfNat 8 0) w = .ok ((), x) ∧ leaveL1 (ownLane 8192) x = .ok ((), y) ∧
    acquirePart 3 7 y = .ok ((), z) ∧ Writes 1 z (extendW 3 (natOfBytes bs)) q := by
  refine ⟨_, _, _, _, _, _, ?_, rfl, by decide +kernel, ok_of [] (by decide +kernel), ok_unit (by decide +kernel),
    ok_unit (by decide +kernel), ok_unit (by decide +kernel), ok_unit (by decide +kernel)⟩
  simp only [amoTable, List.mem_cons, List.not_mem_nil, or_false, forall_eq_or_imp, forall_eq]
  exact ⟨⟨rfl, rfl⟩, ⟨rfl, rfl⟩, ⟨rfl, rfl⟩, ⟨rfl, rfl⟩, ⟨rfl, rfl⟩, ⟨rfl, rfl⟩, ⟨rfl, rfl⟩⟩

theorem wit_Atomics_red : ∃ w x : State, Ready (.amocas 1 2 3 7 3 3) base2 base2 ∧ Ready (.red 0 2 3 7 2 3) base2 base2 ∧
    base2.poisoned (ownLane 8192).loc (widthSize 3) = false ∧
    strandStore false (ownLane 8192) (bytesOfNat 8 (atomicOp 0 3 (base2.rd (ownLane 8192).loc 8) 0).1) base2 = .ok ((), w) ∧
    leaveL1 (ownLane 8192) w = .ok ((), x) :=
  ⟨_, _, ⟨rfl, rfl⟩, ⟨rfl, rfl⟩, by decide, ok_unit (by decide +kernel), ok_unit (by decide +kernel)⟩

/-! ### Witnesses: channels and attempts -/

/-- The entry of a read end at cursor 0 of the ring, or of a write end. -/
def entryW (wr : Bool) : Word := BitVec.ofNat 64 (bindWord wr 0 true 0 0)
/-- A user context whose s2 holds an entry, beside a ring that no end names. -/
def binder (w : Word) : State := (((with2 w).wr ringLoc 4 (2 ^ 20 + 256)).wr (ringLoc + 4) 4 65536).wr (ringLoc + 56) 4 5

theorem wit_EndBindings : ∃ u : State, Ready (.qbind 1 0 2 1) (binder (entryW false)) (binder (entryW false)) ∧
    Reads 2 (binder (entryW false)) (entryW false) (binder (entryW false)) ∧
    (binder (entryW false)).me.getBind 0 = 0 ∧ bindKind (entryW false) = 1 ∧
    (binder (entryW false)).bindWhy 1 0 (entryW false) ((binder (entryW false)).otherEnds 1 0) false = 0 ∧
    Writes 1 (binder (entryW false)) 0 u :=
  ⟨_, ⟨rfl, rfl⟩, rfl, rfl, by decide, by decide +kernel, rfl⟩

/-- An end that is bound, and one that is not; an entry of another kind. -/
theorem wit_EndBindings_codes : ∃ u v : State, Ready (.qbind 1 0 2 1) (chan false) (chan false) ∧
    (chan false).me.getBind 0 ≠ 0 ∧ Writes 1 (chan false) (failCode 1) u ∧ bindKind (entryW false) ≠ (4 : BitVec 5).toNat ∧
    Ready (.qunb 1 0) (chan false) (chan false) ∧ Ready (.qunb 1 11) (chan false) (chan false) ∧
    (chan false).me.getBind 11 = 0 ∧ Writes 1 (chan false) (failCode 2) v :=
  ⟨_, _, ⟨rfl, rfl⟩, by decide, rfl, by decide, ⟨rfl, rfl⟩, ⟨rfl, rfl⟩, by decide, rfl⟩

/-- The request end of a reference whose result end is q1. -/
def referring : State :=
  (at_ 1 (fun x => { x with bind := (x.bind.setIfInBounds 0 (BitVec.ofNat 64 (2 + 2 ^ 18))).setIfInBounds 1 (BitVec.ofNat 64 (2 + 16 + 2 ^ 18)) })).modTil 0
    (fun t => { t with refs := [{ cid := 1, idx := 0, res := some 1, desc := 64, eng := 1, base := 0, rsize := 1, fetches := [], pack := [], out := [] }] })
theorem wit_EndBindings_result : Ready (.qunb 2 0) referring referring ∧ Writes 2 referring 0 referring ∧ referring.me.getBind 0 ≠ 0 ∧
    bindKind (referring.me.getBind 0) = 2 ∧ bindPort (referring.me.getBind 0) = 0 ∧
    ((referring.til (tilOf referring.cur)).refs.find? (fun q => q.cid == referring.cur && q.idx == 0)).bind (·.res) = some 1 ∧
    referring.me.getBind 1 ≠ 0 :=
  ⟨⟨rfl, rfl⟩, rfl, by decide, by decide, by decide, by decide, by decide⟩

/-- An awn of level 6 at the head. -/
def held6 : Elem := awnElem 6 9

theorem wit_EndTransfers : (chan1 false seven).endHead 1 0 0 = .elem seven ∧ (chan1 false held6).endHead 1 0 0 = .elem held6 ∧
    (chan false).endHead 1 0 0 = .empty ∧ ((chan1 false seven).endTake 1 0).me.bind = (chan1 false seven).me.bind ∧
    ((chan1 false held6).endTake 1 0).cur = 1 ∧ (chan false).me.endOf (.s 1) = none ∧ readEnd ((chan false).me.getBind 0) = true := by
  decide +kernel

theorem wit_EndTransfers_row : rowCheck (.qtry 1 0 2) (chan1 false seven) = .ok ((), chan1 false seven) ∧
    rowCheck (.qpeek 1 0 2) (chan false) = .ok ((), chan false) := ⟨rfl, rfl⟩

theorem wit_EndTransfers_awn : ∃ u : State, rowCheck (.qawn 0 2 7) (chan true) = .ok ((), chan true) ∧
    rowCheck (.qend 0 2) (chan true) = .ok ((), chan true) ∧ examine [] [(0, awnElem 7 0)] (chan true) = .ok ((), chan true) ∧
    (chan true).endPut 1 0 (awnElem 7 0) = .done u ∧ readEnd ((chan true).me.getBind 0) = false := by
  obtain ⟨u, h⟩ := made_of (p := (chan true).endPut 1 0 (awnElem 7 0)) (by decide +kernel)
  exact ⟨u, rfl, rfl, by decide +kernel, h, by decide +kernel⟩

theorem wit_RingNumbers : ∃ u v w : State, Ready (.qlen 1 0) (chan1 false seven) (chan1 false seven) ∧
    Writes 1 ((chan1 false seven).polled 1 0) (BitVec.ofNat 64 ((chan1 false seven).endCount 1 0)) u ∧
    Ready (.rcurGet 1 0) (chan1 false seven) (chan1 false seven) ∧ bindKind ((chan1 false seven).me.getBind 0) = 1 ∧
    Writes 1 (chan1 false seven) (BitVec.ofNat 64 ((chan1 false seven).rCur ringLoc 0 % 2 ^ 32)) v ∧
    Ready (.rcurGet 1 0) (chan true) (chan true) ∧ bindWr ((chan true).me.getBind 0) = true ∧
    Writes 1 (chan true) (BitVec.ofNat 64 ((chan true).rRseq ringLoc % 2 ^ 32)) w :=
  ⟨_, _, _, ⟨rfl, rfl⟩, ok_unit (by decide +kernel), ⟨rfl, rfl⟩, by decide +kernel, ok_unit (by decide +kernel), ⟨rfl, rfl⟩,
    by decide +kernel, ok_unit (by decide +kernel)⟩

/-- A skip of one element from a ring of one. -/
theorem wit_RingNumbers_skip : ∃ u v : State, Ready (.rcurSkip 1 0 2) ((chan1 false seven).modMe (fun x => x.setS 2 64))
      ((chan1 false seven).modMe (fun x => x.setS 2 64)) ∧
    Reads 2 ((chan1 false seven).modMe (fun x => x.setS 2 64)) 64 ((chan1 false seven).modMe (fun x => x.setS 2 64)) ∧
    ((chan1 false seven).modMe (fun x => x.setS 2 64)).skippable ringLoc 0 4 0 = 1 ∧
    ((List.replicate 1 ()).forM (fun _ => (do let _ ← deq 0 : Op Unit)) : Op Unit)
      ((chan1 false seven).modMe (fun x => x.setS 2 64)) = .ok ((), u) ∧ Writes 1 u 1 v :=
  ⟨_, _, ⟨rfl, rfl⟩, rfl, by decide +kernel, ok_unit (by decide +kernel), ok_unit (by decide +kernel)⟩

/-- The writer after it has reserved number 0. -/
def reserved : State := (chan true).setRing { (chan true).ringX ringLoc with resv := [(1, 0, 0)] }

/-- The writer of the ring as the device has taken it up. -/
def built : State := (chan true).setRing { (chan true).ringX ringLoc with geo := some ((chan true).geometry ringLoc) }
theorem wit_RingNumbers_reserve : ∃ u v : State, Ready (.rres 1 0 4 1) built built ∧ built.reserveRing 1 0 = some ringLoc ∧
    isXring ringLoc = false ∧ ReadsB 1 4 built 4 built ∧ built.adopt ringLoc = built ∧ 4 ≤ built.rDepth ringLoc + built.rXsize ringLoc ∧
    built.tokenBlocks 1 0 = false ∧ (4 : Int) ≤ (built.useCredits 1 0 ringLoc 4).rFree ringLoc ∧
    (built.useCredits 1 0 ringLoc 4).xordAccepts ringLoc built.me.group 4 = true ∧
    Writes 1 (((built.useCredits 1 0 ringLoc 4).reserve 1 0 ringLoc (built.rRseq ringLoc) 4).rPut ringLoc 12 4)
      (BitVec.ofNat 64 (built.rRseq ringLoc)) u ∧
    Ready (.rres 1 0 0 1) built built ∧ Writes 1 built (failCode 1) v ∧
    Ready (.rres 1 0 4 1) (chan false) (chan false) ∧ (chan false).reserveRing 1 0 = none ∧ built.rXord ringLoc = false :=
  ⟨_, _, ⟨rfl, rfl⟩, by decide +kernel, by decide +kernel, rfl, by decide +kernel, by decide +kernel, by decide +kernel,
    by decide +kernel, by decide +kernel, ok_unit (by decide +kernel), ⟨rfl, rfl⟩, ok_unit (by decide +kernel), ⟨rfl, rfl⟩,
    by decide +kernel, by decide +kernel⟩

/-- A write end at a producer block whose one target is ring 5 of module 7, of which it has reserved number 0. -/
def peering : State :=
  let s := at_ 1 (fun x => { x with bind := x.bind.setIfInBounds 0 (BitVec.ofNat 64 (bindWord true 1 true 0 128)) })
  let s := ((s.wr (locQ 0 128) 3 5).wr (locQ 0 128 + 48) 4 64).wr (locQ 0 128 + 60) 4 7
  s.setRing { s.ringX (xring 7 5) with resv := [(1, 0, 0)] }
theorem wit_RingNumbers_peer : ∃ u : State, peering.reserveRing 1 0 = some (xring 7 5) ∧ isXring (xring 7 5) = true ∧
    peering.me.getBind 0 ≠ 0 ∧ Ready (.rres 1 0 65 1) peering peering ∧ 64 < (65 : Word).toNat ∧
    Writes 1 (peering.adopt (xring 7 5)) (failCode 1) u ∧ Ready (.rpub 0 2 3 1) peering peering ∧
    readEnd (peering.me.getBind 0) = false ∧ rdData 0 2 peering = .ok (0, peering) ∧ Reads 3 peering 0 peering ∧
    (peering.ringX (xring 7 5)).resv.contains (1, 0, 0) = true ∧ peering.spillRoom (xring 7 5) 1 = true :=
  ⟨_, by decide +kernel, by decide +kernel, by decide +kernel, ⟨rfl, rfl⟩, by decide, ok_unit (by decide +kernel), ⟨rfl, rfl⟩,
    by decide +kernel, by decide +kernel, rfl, by decide +kernel, by decide +kernel⟩

theorem wit_RingNumbers_publish : Ready (.rpub 0 2 3 1) reserved reserved ∧ readEnd (reserved.me.getBind 0) = false ∧
    reserved.reserveRing 1 0 = some ringLoc ∧ rdData 0 2 reserved = .ok (0, reserved) ∧ Reads 3 reserved 0 reserved ∧
    (reserved.ringX ringLoc).resv.contains (1, 0, 0) = true ∧ reserved.spillRoom ringLoc 1 = true ∧
    ((chan true).ringX ringLoc).resv.contains (1, 0, 0) = false :=
  ⟨⟨rfl, rfl⟩, by decide +kernel, by decide +kernel, by decide +kernel, rfl, by decide +kernel, by decide +kernel,
    by decide +kernel⟩

theorem wit_EndsThatStop : rowCheck (.addi 1 24 5) (chan false) = .ok ((), chan false) ∧
    (chan false).me.endOf (.s 24) = some 0 ∧ (chan false).me.endOf (.s 1) = none ∧ (chan false).endHead 1 0 0 = .empty ∧
    rowCheck (.addi 1 24 5) (chan1 false held6) = .ok ((), chan1 false held6) ∧
    (chan1 false held6).endHead 1 0 0 = .elem held6 ∧ held6.awn = true ∧ (chan1 false held6).me.hmode = false ∧
    (chan1 false held6).me.handler[0]? = some none :=
  ⟨rfl, by decide, by decide, by decide +kernel, rfl, by decide +kernel, by decide, by decide, by decide⟩

theorem wit_EndsThatStop_handler : Ready (.tokh 0 0x40000) (chan false) (chan false) ∧ Ready (.tokh 0 0) (chan false) (chan false) ∧
    (chan false).me.getBind 0 ≠ 0 ∧
    ((chan false).modMe (fun x => { x with pc := 2 ^ 20 })).me.pc + BitVec.ofInt 64 (4 * (0x40000 : BitVec 19).toInt) = 0 ∧
    Ready .tret (user.modMe (fun x => { x with hmode := true })) (user.modMe (fun x => { x with hmode := true })) ∧
    Ready .tret user user :=
  ⟨⟨rfl, rfl⟩, ⟨rfl, rfl⟩, by decide, by decide, ⟨rfl, rfl⟩, ⟨rfl, rfl⟩⟩

theorem wit_AttemptControl : Allowed (.txb 0x3FFFF) user ∧
    (user.me.pc + BitVec.ofInt 64 (4 * (0x3FFFF : BitVec 19).toInt)).toNat < 2 ^ 52 ∧ user.me.tx.rst = false ∧
    Allowed (.txo 1) (attempt user) ∧ (attempt user).me.tx.alts.length < 4 ∧ Allowed (.txa 0xFFFF) (attempt user) ∧
    Allowed .txe (attempt user) ∧ (attempt user).me.tx.point = .empty ∧ ((attempt user).til 0).members.length ≤ 256 ∧
    Allowed .txr (attempt user) ∧ (attempt user).me.tx.alts = [] :=
  ⟨rfl, by decide, by decide, rfl, by decide, rfl, rfl, by decide, by decide, rfl, by decide⟩

theorem wit_AttemptControl_watch : Ready (.watch 2 0x2000) (attempt base2) (attempt base2) ∧
    Reads 2 (attempt base2) (own 8192) (attempt base2) ∧ (attempt base2).place 0 first = some (.near 0 0) ∧
    0 < ((attempt base2).til 0).spadSize ∧ (attempt base2).me.tx.reads.contains (Key.line (locSpad 0 0 / 64)) = false ∧
    (attempt base2).me.tx.rcnt < 32 ∧
    ((attempt base2).modMe (fun x => { x with tx := { x.tx with alts := [(4, x.tx.point)] } })).me.tx.alts =
      [(4, (attempt base2).me.tx.point)] :=
  ⟨⟨rfl, rfl⟩, rfl, by decide, by decide, by decide, by decide, by decide⟩

/-! ### Witnesses: vectors and the tile unit -/

/-- Vector fields of registers: any type of lanes reads zeros. -/
theorem reads_v (w : Nat) (hw : w = 8 ∨ w = 16 ∨ w = 32 ∨ w = 64) : ReadsAB 2 w user 0 user ∧ ReadsAB 3 w user 0 user := by
  obtain rfl | rfl | rfl | rfl := hw <;> exact ⟨by unfold ReadsAB; decide +kernel, by unfold ReadsAB; decide +kernel⟩

theorem wit_VectorLanes : (∀ p ∈ laneTwo, Ready (p.1 1 2 3 0 3 7) user user) ∧ (∀ p ∈ laneOne, Ready (p.1 1 2 0 3 7) user user) ∧
    ReadsAB 2 32 user 0 user ∧ ReadsAB 3 32 user 0 user ∧ ∀ z : VReg, ∃ t, WritesV 1 user z t := by
  refine ⟨?_, ?_, (reads_v 32 (by decide)).1, (reads_v 32 (by decide)).2, fun z => ⟨_, rfl⟩⟩ <;>
    simp only [laneTwo, laneOne, List.mem_cons, List.not_mem_nil, or_false, forall_eq_or_imp, forall_eq]
  · exact ⟨⟨rfl, rfl⟩, ⟨rfl, rfl⟩, ⟨rfl, rfl⟩, ⟨rfl, rfl⟩, ⟨rfl, rfl⟩, ⟨rfl, rfl⟩, ⟨rfl, rfl⟩, ⟨rfl, rfl⟩, ⟨rfl, rfl⟩,
      ⟨rfl, rfl⟩, ⟨rfl, rfl⟩, ⟨rfl, rfl⟩⟩
  · exact ⟨⟨rfl, rfl⟩, ⟨rfl, rfl⟩, ⟨rfl, rfl⟩, ⟨rfl, rfl⟩, ⟨rfl, rfl⟩, ⟨rfl, rfl⟩, ⟨rfl, rfl⟩, ⟨rfl, rfl⟩⟩

theorem wit_VectorLanes_accumulate : Ready (.vfma 1 2 3 0 3 7) user user ∧ Ready (.vfms 1 2 3 0 3 7) user user ∧
    Ready (.vdot 1 2 3 6 7) user user ∧ ReadsAB 2 8 user 0 user ∧ ReadsAB 3 8 user 0 user ∧ ReadsV 1 user 0 user :=
  ⟨⟨rfl, rfl⟩, ⟨rfl, rfl⟩, ⟨rfl, rfl⟩, (reads_v 8 (by decide)).1, (reads_v 8 (by decide)).2, rfl⟩

theorem wit_VectorMoves : Ready (.vcmp 1 2 3 0 7) user user ∧ Ready (.vsel 1 2 3 0 7) user user ∧
    Ready (.vperm 1 2 3 0 7) user user ∧ Ready (.vmvs 1 2 3 0) user user ∧ Ready (.vmsv 1 2 3 0) user user ∧
    Ready (.vpopc 1 2 3 7 7) user user ∧ Ready (.vbcst 1 7 0xFFFF) user user ∧ Ready (.vaddi 1 7 0xFFFF) user user ∧
    Ready (.vmuli 1 7 0xFFFF) user user ∧ ReadsV 1 user 0 user :=
  ⟨⟨rfl, rfl⟩, ⟨rfl, rfl⟩, ⟨rfl, rfl⟩, ⟨rfl, rfl⟩, ⟨rfl, rfl⟩, ⟨rfl, rfl⟩, ⟨rfl, rfl⟩, ⟨rfl, rfl⟩, ⟨rfl, rfl⟩, rfl⟩

theorem wit_VectorFolds : Ready (.vred 1 2 7 0 3 7) user user ∧ Ready (.vscan 1 2 7 0 3 7) user user ∧
    Ready (.vcmpr 1 2 0 7) user user ∧ Ready (.vxpnd 1 2 0 7) user user ∧ Ready (.mand 7 1 2) user user ∧
    Ready (.mor 7 1 2) user user ∧ Ready (.mnot 7 1) user user :=
  ⟨⟨rfl, rfl⟩, ⟨rfl, rfl⟩, ⟨rfl, rfl⟩, ⟨rfl, rfl⟩, ⟨rfl, rfl⟩, ⟨rfl, rfl⟩, ⟨rfl, rfl⟩⟩

theorem wit_Conversions : Ready (.vcvt 1 2 0 1 3 7) user user ∧ Ready (.vpack 1 2 3 1 3 7) user user ∧
    Ready (.vunpk 1 2 1 1 0 3 7) user user ∧ Ready (.vtriD2 1 2 7) user user ∧ Ready (.vtriD5 1 2 7) user user ∧
    Ready (.vtriE2 1 2 7) user user ∧ Ready (.vtriE5 1 2 7) user user ∧ ReadsAB 2 (widthOf 0) user 0 user ∧
    ReadsAB 2 8 user 0 user :=
  ⟨⟨rfl, rfl⟩, ⟨rfl, rfl⟩, ⟨rfl, rfl⟩, ⟨rfl, rfl⟩, ⟨rfl, rfl⟩, ⟨rfl, rfl⟩, ⟨rfl, rfl⟩, (reads_v 32 (by decide)).1,
    (reads_v 8 (by decide)).1⟩

theorem wit_VectorFrame : ∃ u : State, Instr.vor 1 2 3 0 7 ∈ vectorInstrs 1 2 3 0 0 0 0 7 0 0 0 ∧ Plain (.vor 1 2 3 0 7) user ∧
    exec (.vor 1 2 3 0 7) user = .next u :=
  ⟨_, by simp [vectorInstrs, laneTwo], ⟨by decide, by decide, by decide⟩, rfl⟩

/-- A user context with the tile lease, all eight accumulators, and two rings of INT8 slots with one slot unretired. -/
def tiler (f : Ctx → Ctx) : State := (at_ 1 f).modTil 0 (fun t => { t with
  lease := { t.lease with holder := some 1 }
  holders := (List.range 8).map (fun a => (a, 1))
  tring := (t.tring.setIfInBounds 0 (BitVec.ofNat 64 (2 ^ 63 + 3 * 2 ^ 32 + 2 ^ 16 + 2 ^ 8))).setIfInBounds 15
    (BitVec.ofNat 64 (2 ^ 63 + 8 * 2 ^ 40 + 3 * 2 ^ 32 + 2 ^ 16 + 2 ^ 8)) })

theorem wit_TileLease : Allowed .tlse (tiler id) ∧ ((tiler id).til 0).leased 1 = true ∧ Allowed .tlse user ∧
    (user.til 0).leased 1 = false ∧ (user.til 0).owner = none ∧ (user.til 0).lease.holder = none ∧
    Allowed .tlse { tiler id with cur := 2 } ∧ (({ tiler id with cur := 2 } : State).til 0).leased 2 = false ∧
    Allowed .tlrl (tiler id) ∧ ((tiler id).til 0).lease.holder = some 1 ∧ ((tiler id).til 0).owner ≠ some 1 ∧ Allowed .tlrl user :=
  ⟨rfl, by decide, rfl, by decide, by decide, by decide, rfl, by decide, rfl, by decide, by decide, rfl⟩

/-- Another strand waits, and the holder has issued as many commands as a lease allows. -/
def contended : State := (tiler id).modTil 0 (fun t => { t with lease := { t.lease with waiting := [14], cmds := 65536 } })

theorem wit_TileLease_rearbitration : (contended.til 0).lease.holder = some 1 ∧
    (contended.til 0).leaseDue (contended.core 0).cycle = true ∧ nextLessee 1 (contended.til 0).lease.waiting = some 14 := by decide

theorem wit_Accumulators : Ready (.tacq 1 2 8 1) user user ∧ (8 : BitVec 5).toNat ≤ ((user.til 0).available 1).length ∧
    Ready (.tacq 1 2 9 1) user user ∧ ((user.til 0).available 1).length < (9 : BitVec 5).toNat ∧
    Ready (.tacq 1 2 0 0) (with2 255) (with2 255) ∧ Reads 2 (with2 255) 255 (with2 255) ∧
    (∀ n ∈ (List.range 8).filter (fun n => (255 : Word).getLsbD n), n ∈ ((with2 255).til 0).available 1) ∧
    Reads 2 (with2 256) 256 (with2 256) ∧ 2 ^ 8 ≤ (256 : Word).toNat ∧ Ready (.trel 1 2) (with2 255) (with2 255) ∧
    7 ∉ (user.til 0).heldBy 1 :=
  ⟨⟨rfl, rfl⟩, by decide, ⟨rfl, rfl⟩, by decide, ⟨rfl, rfl⟩, rfl, by decide, rfl, by decide, ⟨rfl, rfl⟩, by decide⟩

theorem wit_Accumulators_writes : ∃ v w : State, Writes 1 user (failCode 1) v ∧
    Writes 1 ((user.modTil 0 (fun t => (List.range 8).foldl (fun t n => t.grantAcc 1 n) t)))
      (accMask (((user.modTil 0 (fun t => (List.range 8).foldl (fun t n => t.grantAcc 1 n) t)).til 0).heldBy 1)) w :=
  ⟨_, _, rfl, rfl⟩

/-- The lessee with an address of its scratchpad in s2. -/
def tilerAt : State := tiler (fun x => x.setS 2 (own 64))

theorem wit_TileCommands : Allowed (.tzro 7) tilerAt ∧ tilerAt.mayCommand 7 ∧ Allowed (.tzro 7) user ∧
    (user.til 0).leased 1 = false ∧ (user.til 0).lease.lost.contains 1 = false ∧ 8 ∉ (tilerAt.til 0).heldBy 1 ∧
    Ready (.tlda 7 2 0 1) tilerAt tilerAt ∧ Ready (.tsta 7 2 0 1 3 1 0) tilerAt tilerAt ∧ Reads 2 tilerAt (own 64) tilerAt ∧
    Reads 0 tilerAt 0 tilerAt ∧ tilerAt.place 0 (own 64) = some (.near 0 64) ∧ (own 64).toNat % 64 = 0 ∧
    64 + 31 * 0 + 128 ≤ (tilerAt.til 0).spadSize ∧ Ready (.tgeo 7 0 0) tilerAt tilerAt ∧ Ready (.tringWrite 1 15) tilerAt tilerAt :=
  ⟨rfl, ⟨by decide, by decide⟩, rfl, by decide, by decide, by decide, ⟨rfl, rfl⟩, ⟨rfl, rfl⟩, rfl, rfl, by decide, by decide,
    by decide, ⟨rfl, rfl⟩, ⟨rfl, rfl⟩⟩

theorem wit_TileCommands_sound : (∀ r < 32, tilerAt.poisoned (locSpad 0 (64 + r * 0)) 128 = false) ∧
    ∀ n, (tilerAt.til n).token.holder = none := by
  constructor
  · decide
  · intro n
    by_cases h : n = 0
    · subst h; rfl
    · have : tget tilerAt.tils n = none := by
        show tget [(0, _)] n = none
        simp [tget]; omega
      simp [State.til, this, Tiller.reset]

/-- The INT8 format of R315. -/
def int8 : MulFmt := (mulFmt 6).getD { a := .tri2, b := .tri2, k := 0, scaled := false, int := true }

theorem wit_TileProducts : ∃ ga gb : Staged, Allowed (.tmma 0 15 7 31 6 1 1) tilerAt ∧ Allowed (.tmmt 0 15 7 31 6 1 1) tilerAt ∧
    tilerAt.mayCommand 7 ∧ tilerAt.me.formatOf 6 = some int8 ∧ int8.scaled = false ∧
    ringEn ((tilerAt.til 0).ring 0) = true ∧ ringEn ((tilerAt.til 0).ring 15) = true ∧
    slotShort int8 int8.a 0 ((tilerAt.til 0).ring 0) = false ∧ slotShort int8 int8.b 0 ((tilerAt.til 0).ring 15) = false ∧
    (tilerAt.til 0).headSeq 0 ≠ (tilerAt.til 0).tailSeq 0 ∧ (tilerAt.til 0).headSeq 15 ≠ (tilerAt.til 0).tailSeq 15 ∧
    ((tilerAt.stageMul 0 1 int8 0 15).til 0).stageA = some ga ∧ ((tilerAt.stageMul 0 1 int8 0 15).til 0).stageB = some gb ∧
    ga.bad = [] ∧ gb.bad = [] :=
  ⟨tilerAt.stageSlot 0 0 none (needOf int8 int8.a 0), tilerAt.stageSlot 0 15 none (needOf int8 int8.b 0), rfl, rfl,
    ⟨by decide, by decide⟩, by decide, by decide, by decide, by decide, by decide, by decide, by decide, by decide, by rfl, by rfl,
    by decide +kernel, by decide +kernel⟩

theorem wit_TileProducts_empty : (tilerAt.til 0).headSeq 1 = (tilerAt.til 0).tailSeq 1 ∧
    (((tilerAt.modTil 0 (fun t => { t with tring := t.tring.setIfInBounds 1 ((t.ring 0) &&& ~~~0xFFFFFF) })).til 0).headSeq 1 =
      ((tilerAt.modTil 0 (fun t => { t with tring := t.tring.setIfInBounds 1 ((t.ring 0) &&& ~~~0xFFFFFF) })).til 0).tailSeq 1) ∧
    ringEn ((tilerAt.modTil 0 (fun t => { t with tring := t.tring.setIfInBounds 1 ((t.ring 0) &&& ~~~0xFFFFFF) })).til 0 |>.ring 1)
      = true := by decide

/-- A tile unit with commands waiting. -/
theorem wit_TileCompletions : ((tilerAt.queued 7 .zero).til 0).cmds =
    [{ acc := 7, cid := 1, sid := tilerAt.sid 1, pc := tilerAt.me.pc, op := .zero }] ∧ 7 < 8 := ⟨rfl, by decide⟩

theorem wit_ScaledSums : ∃ v w : State, Allowed (.bsum 0 2 3) (chan true) ∧ (chan true).me.getBind 0 ≠ 0 ∧
    readEnd ((chan true).me.getBind 0) = false ∧ Reads 2 (chan true) 0 (chan true) ∧ Reads 3 (chan true) 0 (chan true) ∧
    examine ([Fld.s (2 : BitVec 5).toNat, .s (3 : BitVec 5).toNat].filterMap (chan true).me.endOf)
      [(0, dataElem), (0, dataElem)] (chan true) = .ok ((), chan true) ∧
    Enqueues 0 { awn := false, data := (0 : Word).setWidth 512 } (chan true) v ∧
    Enqueues 0 { awn := false, data := (BitVec.ofInt 64 ((0 : Word).extractLsb' 0 16).toInt).setWidth 512 } v w :=
  ⟨_, _, rfl, by decide, by decide, rfl, rfl, by decide +kernel, ok_unit (by decide +kernel), ok_unit (by decide +kernel)⟩

theorem wit_ScaledSums_pair : Ready (.bacc 30 2 3) user user ∧ user.me.endOf (.s 30) = none ∧ user.me.endOf (.s 31) = none :=
  ⟨⟨rfl, rfl⟩, by decide, by decide⟩

/-- A tile directory of one tile at the head of the scratchpad, coordinates at 1024, values at 2048, whose tile is compiled. -/
def directory : State :=
  (((tilerAt.wr (locSpad 0 64) 8 (own 1024).toNat).wr (locSpad 0 72) 8 (own 2048).toNat).wr (locSpad 0 80) 4 1)
def compiled : Pattern :=
  { ent := 63, base := 64, index := 0, version := 0, state := .sparse, prog := [], lines := [], held := 0, dying := false, stamp := 0
    due := 0, result := .sparse, reads := [] }
def cached : State := directory.modTil 0 (fun t => { t with pats := [compiled] })
/-- The directory entry, and the operand that names ring 15 and no copy tag. -/
def ref0 : TileRef := { base := 64, index := 0, version := 0, coord := own 1024, vals := own 2048, nnz := 0, off := 0 }
def operand : Word := BitVec.ofNat 64 (63 * 2 ^ 20 + 15 * 2 ^ 16)

theorem wit_SparseUnit_directory : directoryAt (own 64) 0 true 1 cached = .ok (ref0, cached) ∧
    directoryAt (own 64) 0 true 0 directory = .ok (ref0, directory) ∧ directoryAt (own 64) 0 false 0 cached = .ok (ref0, cached) := by
  decide +kernel

theorem wit_SparseUnit : ∃ w y : State, Ready (.sppre 1 2 3) directory directory ∧ Reads 2 directory (own 64) directory ∧
    tagReady (directory.core 0) 63 = true ∧ tagReady (directory.core 0) 0 = false ∧
    (∃ q e, directory.requestPattern 0 ref0 = some (q, e)) ∧ Ready (.spinvOne 1 2 3) cached cached ∧
    directory.pattern 0 ref0 = none ∧ cached.pattern 0 ref0 = some compiled ∧ Writes 1 (cached.freePattern 0 63) 1 w ∧
    Ready (.spinvAll 1) cached cached ∧ Writes 1 (cached.freePatterns 0) 1 y ∧ Ready (.spqry 1 2 3) cached cached :=
  ⟨_, _, ⟨rfl, rfl⟩, rfl, by decide, by decide, ⟨_, _, rfl⟩, ⟨rfl, rfl⟩, by decide, by decide, ok_unit (by decide +kernel),
    ⟨rfl, rfl⟩, ok_unit (by decide +kernel), ⟨rfl, rfl⟩⟩

theorem wit_SparseUnit_multiply : Ready (.spmma 7 2 3 1 1) cached cached ∧ cached.mayCommand 7 ∧
    operand.extractLsb' 20 6 = 63 ∧ (operand.extractLsb' 16 4).toNat = 15 ∧ 1024 ≤ ringSlot ((cached.til 0).ring 15) ∧
    compiled.compiled = true ∧ compiled.state ≠ .bad ∧ ringEn ((cached.til 0).ring 15) = true ∧
    (cached.til 0).headSeq 15 ≠ (cached.til 0).tailSeq 15 ∧ cached.ownNear 0 ref0.vals = some 2048 ∧ ref0.nnz = 0 ∧
    (cached.stageSlot 0 15 (cached.til 0).stageB (blocksOf 1024)).bad = [] ∧
    (cached.stageBlocks 0 (cached.valueBuffer 0 63 2048 0 (cached.til 0).stageV)
      (List.range ((cached.valueBuffer 0 63 2048 0 (cached.til 0).stageV).bytes.length / 512))).bad = [] ∧
    Ready (.mzkey 1 2 3) user user ∧ Ready (.mzkeyInv 1 2) user user :=
  ⟨⟨rfl, rfl⟩, ⟨by decide, by decide⟩, by decide, by decide, by decide, by decide, by decide, by decide, by decide, by decide +kernel,
    by decide, by decide +kernel, by decide +kernel, ⟨rfl, rfl⟩, ⟨rfl, rfl⟩⟩

/-! ### Witnesses: copies and counters -/

/-- A user context with the address of a descriptor in s2 and a tag in s3; its fields name runs of 65536 bytes. -/
def descriptor (tag : Nat) : State :=
  let s := at_ 1 (fun x => (x.setS 2 (own 64)).setS 3 (BitVec.ofNat 64 (2 ^ 16 + tag)))
  (((s.wr (locSpad 0 64) 8 (own 4096).toNat).wr (locSpad 0 72) 8 (own 69632).toNat).wr (locSpad 0 80) 4 65536).wr
    (locSpad 0 84) 8 (2 ^ 32 + 1)
/-- The core's tag 63 is busy. -/
def busy63 : State := (descriptor 63).modCore 0 (fun k => k.busyTag 63)

theorem wit_CopyRequests : ∃ v : State, Ready (.cpy 1 2 3 0) (descriptor 63) (descriptor 63) ∧
    Ready (.cpym 1 2 3) (descriptor 63) (descriptor 63) ∧ Reads 2 (descriptor 63) (own 64) (descriptor 63) ∧
    ReadsB 0 3 (descriptor 63) (BitVec.ofNat 64 (2 ^ 16 + 63)) (descriptor 63) ∧ ReadsB 1 31 (descriptor 63) 31 (descriptor 63) ∧
    ((descriptor 63).core 0).tagb.getLsbD 63 = false ∧ ((busy63).core 0).tagb.getLsbD 63 = true ∧
    Writes 1 busy63 (failCode 1) v :=
  ⟨_, ⟨rfl, rfl⟩, ⟨rfl, rfl⟩, rfl, rfl, rfl, by decide, by decide, rfl⟩

theorem wit_CopyRequests_place : descriptorAt (own 64) 128 (descriptor 63) = .ok (locSpad 0 64, descriptor 63) ∧
    descriptorAt (own 64) 64 (descriptor 63) = .ok (locSpad 0 64, descriptor 63) := by decide +kernel

theorem wit_CopyRequests_fields : (descriptor 63).poisoned (locSpad 0 64) 128 = false ∧
    ((descriptor 63).descriptor (locSpad 0 64) false 1).isSome = true ∧
    ((descriptor 63).descriptor (locSpad 0 64) true 1).isSome = true ∧
    base2.descriptor (locSpad 0 64) false 1 = none := by decide +kernel

theorem wit_CopyRequests_tags : ∃ v : State, Ready (.tffr 1 2) busy63 busy63 ∧ Ready (.wany 1 2) busy63 busy63 ∧
    Ready (.wall 1 2) busy63 busy63 ∧ Reads 2 busy63 (own 64) busy63 ∧ (busy63.core 0).tags &&& own 64 = 0 ∧
    (busy63.core 0).tagb &&& own 64 ≠ 0 ∧ Reads 0 busy63 0 busy63 ∧ (busy63.core 0).tagb &&& 0 = 0 ∧ Writes 1 busy63 0 v :=
  ⟨_, ⟨rfl, rfl⟩, ⟨rfl, rfl⟩, ⟨rfl, rfl⟩, rfl, by decide, by decide, rfl, by decide, rfl⟩

/-- A counter at offset 64: one arrival awaited, one member, phase 0; s2 has its address. -/
def counting : State := (with2 (own 64)).wr (locSpad 0 72) 4 (2 ^ 16 + 1)
def counter0 : Counter := { expb := 0, arr := 1, memb := 1, ph := false, brk := false, brkp := false }

theorem wit_ArrivalCounters : Ready (.aexp 1 2 3 0) counting counting ∧ Ready (.arrv 1 2 1 1) counting counting ∧
    Ready (.bjoin 1 2) counting counting ∧ Ready (.bleav 1 2) counting counting ∧ Ready (.wphsWait 1 2 0 1) counting counting ∧
    Ready (.wphsTest 1 2 1 1) counting counting ∧ Reads 2 counting (own 64) counting ∧ ReadsB 1 1 counting 1 counting ∧
    ReadsB 1 0 counting 0 counting :=
  ⟨⟨rfl, rfl⟩, ⟨rfl, rfl⟩, ⟨rfl, rfl⟩, ⟨rfl, rfl⟩, ⟨rfl, rfl⟩, ⟨rfl, rfl⟩, rfl, rfl, rfl⟩

theorem wit_ArrivalCounters_read : counterAt (own 64) false counting = .ok ((0, 64), counting) ∧
    counterAt (own 64) true counting = .ok ((0, 64), counting) ∧
    readCounter (own 64) (0, 64) counting = .ok (some counter0, counting) ∧ counting.membersSeen 0 = [] ∧
    counter0.memb ≠ 65535 := by decide +kernel

/-- What the counter instructions act on: the state after the acquire. -/
def seen : State := counting.acquire 0 4
theorem wit_ArrivalCounters_change : ∃ w x y z : State,
    changeCounter (0, 64) ({ counter0 with arr := counter0.arr - 1 } : Counter).check none seen = .ok ((), w) ∧
    Writes 1 w (BitVec.ofNat 64 ((if counter0.ph then 1 else 0) + (if ({ counter0 with arr := 0 } : Counter).check.ph = counter0.ph then 0
      else 2) + 0)) y ∧
    changeCounter (0, 64) ({ counter0 with memb := 2, arr := 2 } : Counter).check (some (some (false, false))) seen =
      .ok ((), x) ∧ seen.membersSeen 0 = [] ∧ Writes 1 seen (failCode 1) z :=
  ⟨_, _, _, _, ok_unit (by decide +kernel), ok_unit (by decide +kernel), ok_unit (by decide +kernel), by decide +kernel,
    ok_unit (by decide +kernel)⟩

/-- The expected bytes at the ends of their range, beyond which AEXP is refused. -/
theorem wit_ArrivalCounters_range : (0 : Int) + (BitVec.ofNat 64 (2 ^ 63 - 1)).toInt < 2 ^ 63 ∧
    -(2 ^ 63 : Int) ≤ 0 + (BitVec.ofNat 64 (2 ^ 63)).toInt ∧ (2 ^ 63 : Int) ≤ 1 + (BitVec.ofNat 64 (2 ^ 63 - 1)).toInt ∧
    ({ counter0 with ph := true } : Counter).ph ≠ (0 : Word).getLsbD 0 ∧ counter0.ph = (0 : Word).getLsbD 0 := by decide

/-- A copy of the core's context 1 under tag 63. -/
def copy0 (st : CopyState) : Copy :=
  { id := 0, cid := 1, sid := user.sid 1, pc := 0, tag := 63, src := own 4096, c0 := 65536, c1 := 1, c2 := 1, ss1 := 0, ss2 := 0
    ds1 := 0, ds2 := 0, dring := false, multi := false, xmod := none
    dests := [{ va := own 69632, ctra := none, claim := none, failed := false }], state := st, pos := 0, due := 0, loose := [], kept := [] }
def copying (st : CopyState) : State := { at_ 1 (fun x => { x with life := .running }) with copies := [copy0 st] }

theorem wit_CopySteps : (copying .queued).copyOf 0 = some (copy0 .queued) ∧
    (∀ d ∈ (copy0 .queued).dests, (copying .queued).refusal (copy0 .queued) d = 0) ∧
    (copying .landed).copyOf 0 = some (copy0 .landed) ∧
    (∀ d ∈ (copy0 .landed).dests, d.ctra = none ∧ d.failed = false) ∧ (copy0 .landed).tag < 64 := by decide +kernel

/-- The first 128 bytes of a run, in one piece at both ends. -/
theorem wit_CopySteps_transfer : ∃ a b m k, (copying .running).pieceAt 0 (runStart (own 4096) 1 0 0 0 + BitVec.ofNat 64 0) .load =
      .at_ [a] m ∧ (∀ d ∈ (copy0 .running).dests, (copying .running).destPiece (copy0 .running) d = .at_ [b] k) ∧
    min (min 128 (min m 65536)) k = 128 ∧ (copying .running).soundRun a 128 = 128 :=
  ⟨locSpad 0 4096, locSpad 0 69632, 913408, 847872, by decide +kernel, by decide +kernel, by decide, by decide +kernel⟩

/-- The body of a copy-fault reply for context 1's tag 63. -/
def copyReply (act : Nat) : Body := bodyOf [(0, 4, (user.sid 1).toNat), (4, 1, act), (5, 1, 63)]

theorem wit_CopySteps_reply : (copying (.faulted 0 2 0)).copies.find? (fun p => p.sid == (copy0 .queued).sid && p.tag == 63 &&
      (match p.state with
        | .faulted _ _ _ => true
        | _ => false)) = some (copy0 (.faulted 0 2 0)) ∧ Body.field (copyReply 1) 0 4 = (user.sid 1).toNat ∧
    Body.field (copyReply 1) 4 1 = 1 ∧ Body.field (copyReply 1) 5 1 = 63 ∧ Body.field (copyReply 1) 6 10 = 0 ∧
    (copying (.faulted 0 2 0)).sidLive (user.sid 1) = true ∧ tilOf (cidOfSid (user.sid 1)) = 0 := by decide +kernel

/-! ### Witnesses: the system class -/

/-- The steward of a core whose context 1 waits for a walk of the page of address 65536; s2 holds an entry, s3 what it is
for. -/
def walking (act : Nat) : State :=
  (at_ 0 (fun x => (x.setS 2 0x1F).setS 3 (BitVec.ofNat 64 (65536 + act * 64 + 1)))).modCtx 1 (fun x => { x with
    wait := .miss .load 0 65536 false })

theorem wit_Translations : ∃ v : State, privileged (walking 0).cur = true ∧ Ready (.tlbf 1 2 3) (walking 0) (walking 0) ∧
    Reads 2 (walking 0) 0x1F (walking 0) ∧ Reads 3 (walking 0) (BitVec.ofNat 64 65537) (walking 0) ∧
    ((walking 0).ctx 1).wait = .miss .load 0 65536 false ∧ unusable 0x1F 0 ((walking 0).partOf 0) = false ∧
    Writes 1 (((walking 0).installEntry 0 (decide (Acc.load = .fetch)) { va := 65536, size := 65536, entry := 0x1F }).modCtx 1
      (fun x => { x with wait := .none })) 0 v :=
  ⟨_, by decide, ⟨rfl, rfl⟩, rfl, rfl, by decide, by decide +kernel, ok_unit (by decide +kernel)⟩

theorem wit_Translations_fault : ∃ v : State, Ready (.tlbf 1 2 3) (walking 5) (walking 5) ∧
    (BitVec.ofNat 64 (65536 + 5 * 64 + 1)).toNat / 64 % 8 = 5 ∧ Writes 1 ((walking 5).declareFault 1 5) 0 v ∧
    ((walking 5).ctx 1).tx.active = false :=
  ⟨_, ⟨rfl, rfl⟩, by decide, ok_unit (by decide +kernel), by decide⟩

/-- The steward of a core that holds a translation. -/
def mapper : State := mapped steward
theorem wit_Translations_drop : Ready (.tlbiVa 1 2) mapper mapper ∧ Reads 2 mapper 0 mapper ∧ Ready (.tlbiPart 1) mapper mapper :=
  ⟨⟨rfl, rfl⟩, rfl, ⟨rfl, rfl⟩⟩
/-- Whatever number of cycles it takes, the result is written and the context waits or goes on. -/
def Finishable (z : State) (w : Word) : Prop := ∀ n, ∃ x y : State,
  Writes 1 { z.tick with due := (z.core z.myCore).cycle + BitVec.ofNat 64 n } w x ∧
    OrderHeld false none ((z.core z.myCore).cycle + BitVec.ofNat 64 n) .none x y
theorem finishes_somewhere (z : State) (w : Word) (h : z.me.endOf (.s 1) = none) : Finishable z w := by
  intro n
  obtain ⟨y, hy⟩ := order_held false none ((z.core z.myCore).cycle + BitVec.ofNat 64 n) .none (({ z.tick with
    due := (z.core z.myCore).cycle + BitVec.ofNat 64 n } : State).modMe (fun x => x.setS 1 w))
  exact ⟨_, y, wrS_plain (n := 1) (w := w) (by exact h), hy⟩
theorem wit_Translations_waits : Finishable (mapper.dropEntries (fun q => q.hits (mapper.partOf mapper.myTil) 0)) 0 ∧
    Finishable (mapper.dropEntries (fun q => entPart q.entry == mapper.partOf mapper.myTil)) 0 :=
  ⟨finishes_somewhere _ _ (by decide +kernel), finishes_somewhere _ _ (by decide +kernel)⟩

/-- The steward with the address of a message buffer in s2. -/
def clerk : State := at_ 0 (fun x => x.setS 2 (own 64))
/-- With a message in its steward box. -/
def message : Msg := { header := headerFrom 0 7, body := 5 }
def mailed : State := clerk.send 0 0 message

theorem wit_Mailboxes : ∃ u v w : State, rowCheck (.mbxr 1 2 1 0) user = .ok ((), user) ∧ user.mayRead user.cur 0 = false ∧
    Ready (.mbxr 1 2 1 0) clerk clerk ∧ clerk.mayRead 0 0 = true ∧ Reads 2 clerk (own 64) clerk ∧ (clerk.core 0).box 0 = [] ∧
    Writes 1 clerk 0 w ∧ Ready (.mbxr 1 2 0 0) mailed mailed ∧ (mailed.core 0).box 0 = [message] ∧
    storeScalar .store 32 (own 64) message.body.toNat (mailed.modCore 0 (fun c => c.setBox 0 [])) = .ok ((), u) ∧
    Writes 1 u message.header v :=
  ⟨_, _, _, rfl, by decide, ⟨rfl, rfl⟩, by decide, rfl, by decide, rfl, ⟨rfl, rfl⟩, by decide, ok_unit (by decide +kernel),
    ok_unit (by decide +kernel)⟩

theorem wit_Mailboxes_send : ∃ v w : State, ownBuffer (own 64) clerk = .ok (locSpad 0 64, clerk) ∧ clerk.poisoned (locSpad 0 64) 32 = false ∧
    Ready (.mbxsFrep 1 2 3) clerk clerk ∧ Ready (.mbxsCrep 1 2 3) clerk clerk ∧ Ready (.mbxsErep 1 2 3) clerk clerk ∧
    Ready (.mbxsIntr 1 2 3) clerk clerk ∧ Ready (.mbxsUser 1 2 3) clerk clerk ∧ Ready (.mbxsResume 1 2 3) clerk clerk ∧
    Reads 3 clerk 0 clerk ∧ clerk.boxRoom 0 0 = true ∧ (clerk.til 0).part = (clerk.til clerk.myTil).part ∧
    Writes 1 (clerk.later (.faultReply 0 0)) 0 v ∧ Writes 1 (clerk.send 0 0 { header := headerFrom 0 7, body := 0 }) 0 w :=
  ⟨_, _, by decide +kernel, by decide +kernel, ⟨rfl, rfl⟩, ⟨rfl, rfl⟩, ⟨rfl, rfl⟩, ⟨rfl, rfl⟩, ⟨rfl, rfl⟩, ⟨rfl, rfl⟩, rfl, by decide,
    rfl, ok_unit (by decide +kernel), ok_unit (by decide +kernel)⟩

/-- A tiller outside the steward's partition; a stopped strand that a RESUME body names. -/
theorem wit_Mailboxes_other : ((clerk.modTil 1023 (fun t => { t with part := some 1 })).til 1023).part ≠
      ((clerk.modTil 1023 (fun t => { t with part := some 1 })).til 0).part ∧ (besideStopped.ctx 1).life = .stopped ∧
    besideStopped.myCore * 16 + Body.field (bodyOf [(0, 4, (besideStopped.sid 1).toNat), (4, 4, 2), (8, 8, 2 ^ 52 - 4)]) 0 4 / 2 ^ 12 % 16 = 1 ∧
    genOfSid (besideStopped.sid 1) = (besideStopped.ctx 1).gen ∧
    Body.field (bodyOf [(0, 4, (besideStopped.sid 1).toNat), (4, 4, 2), (8, 8, 2 ^ 52 - 4)]) 4 4 = 2 ∧
    Body.field (bodyOf [(0, 4, (besideStopped.sid 1).toNat), (4, 4, 2), (8, 8, 2 ^ 52 - 4)]) 8 8 = 2 ^ 52 - 4 := by
  decide +kernel

/-! ### Witnesses: saves, special registers -/

/-- The steward of a core whose data TLB maps the first 2 MiB. -/
def saver : State := (at_ 0 id).modCore 0 (fun k => { k with dtlb := [{ va := 0, size := 2 ^ 21, entry := 0x1F }] })
def pieces : List Nat := (List.range 19).map (4096 * ·)

theorem wit_SaveAndRestore_area : Ready (.csaveSave 1 0) saver saver ∧ Ready (.csaveRest 1 0) saver saver ∧ Reads 0 saver 0 saver ∧
    saver.area 0 .store = some pieces ∧ saver.area 0 .load = some pieces ∧ (saver.core 0).saving = none ∧
    steward.area 0 .store = none ∧ (∀ l ∈ pieces, saver.poisoned l 4096 = false) ∧ saver.savedIn pieces = none :=
  ⟨⟨rfl, rfl⟩, ⟨rfl, rfl⟩, rfl, by decide +kernel, by decide +kernel, by decide, by decide +kernel, by decide +kernel,
    by rfl⟩

theorem wit_SaveAndRestore_drained : (saver.beginHalt 0 pieces).drained 0 = true ∧
    ((saver.beginHalt 0 pieces).core 0).saving = some pieces := by decide +kernel

theorem wit_SaveAndRestore_save : Finishable ((saver.beginHalt 0 pieces).saveCore 0 pieces)
    (BitVec.ofNat 64 (((saver.beginHalt 0 pieces).occupied 0).foldl (fun n c => n + 2 ^ (c % 16)) 0)) :=
  finishes_somewhere _ _ (by decide +kernel)

/-- A save of a core without strands, whose content is not listed. -/
def image0 : Saved :=
  { part := 0, core := 0, mask := 0, image := [], ctxs := [], queue := [], loose := [], tags := 0, tagb := 0, tage := 0
    refs := [], streams := [], credits := [], merge := none, rings := [] }
/-- What the header of such a save reads as. -/
def headerOf (s : State) (area : List Nat) (v : Saved) : Nat :=
  saveMagic + Config.stepping * 2 ^ 32 + s.myCore / 4 * 2 ^ 64 + s.myCore % 4 * 2 ^ 80 + s.partOf s.myTil * 2 ^ 88 + v.mask * 2 ^ 96 +
    s.areaCheck area * 2 ^ 128
def header0 : Nat := headerOf saver pieces image0
def restorer : State := { saver with saves := [image0] }.wr 0 24 header0

theorem bytes_add (s : State) (n : Nat) : ∀ a m, s.bytes a (n + m) = s.bytes a n ++ s.bytes (a + n) m := by
  induction n with
  | zero => intro a m; simp [State.bytes]
  | succ n ih => intro a m; rw [Nat.add_right_comm]; simp only [State.bytes, ih, List.cons_append]; congr 3; omega

theorem bytes_length (s : State) (n : Nat) : ∀ a, (s.bytes a n).length = n := by
  induction n with
  | zero => intro a; rfl
  | succ n ih => intro a; simp [State.bytes, ih]

/-- A header is no part of the body of an area. -/
theorem body_congr (s t : State) (as : List Nat) (k n : Nat) (hn : k = 64 + n) (ha : ∀ a ∈ as, 24 ≤ a)
    (h : ∀ e, 24 ≤ e → t.byteAt e = s.byteAt e) :
    ((0 :: as).flatMap (fun a => t.bytes a k)).drop 64 = ((0 :: as).flatMap (fun a => s.bytes a k)).drop 64 := by
  have hd (s : State) (r : List Byte) : (s.bytes 0 k ++ r).drop 64 = s.bytes 64 n ++ r := by
    rw [hn, bytes_add, List.append_assoc, List.drop_left' (bytes_length s 64 0), Nat.zero_add]
  rw [List.flatMap_cons, List.flatMap_cons, hd, hd, State.bytes_congr (s := s) (t := t) 64 n (fun e h1 _ => h e (by omega)),
    List.flatMap_congr (fun a hm => State.bytes_congr (s := s) (t := t) a k (fun e h1 _ => h e (Nat.le_trans (ha a hm) h1)))]

theorem header_lt (s : State) (area : List Nat) (v : Saved) (h1 : s.myCore = 0) (h2 : s.partOf s.myTil = 0) (h3 : v.mask < 2 ^ 16) :
    headerOf s area v < 256 ^ 24 := by
  have h : s.areaCheck area < 2 ^ 64 := by unfold State.areaCheck; exact Nat.mod_lt _ (by decide)
  unfold headerOf saveMagic Config.stepping
  rw [h1, h2]
  generalize s.areaCheck area = x at h
  omega

theorem written (s : State) (x : Nat) (hs : s.memOk) (hx : x < 256 ^ 24) : (s.wr 0 24 x).rd 0 24 = x :=
  (State.rd_wr 0 24 x hs).trans (Nat.mod_eq_of_lt hx)

theorem restorer_header : restorer.rd 0 24 = header0 :=
  written { saver with saves := [image0] } header0 (show memWf [] = true from rfl) (header_lt saver pieces image0 rfl rfl (by decide))

theorem header_congr (s t : State) (area : List Nat) (v : Saved) (h1 : t.myCore = s.myCore) (h2 : t.partOf t.myTil = s.partOf s.myTil)
    (h3 : t.areaCheck area = s.areaCheck area) : headerOf t area v = headerOf s area v := by
  unfold headerOf; rw [h1, h2, h3]

theorem savedIn_of (s : State) (area : List Nat) (v : Saved) (h1 : s.saves = [v]) (h2 : v.core = 0 ∧ s.myCore = 0)
    (h3 : v.part = 0 ∧ s.partOf s.myTil = 0) (h4 : s.holdsImage area v = true) (h5 : s.rd (area.headD 0) 24 = headerOf s area v)
    (h6 : v.mask < 2 ^ 16) : s.savedIn area = some (v, v.mask) := by
  have h : s.areaCheck area < 2 ^ 64 := by unfold State.areaCheck; exact Nat.mod_lt _ (by decide)
  have e : fld (headerOf s area v) 0 96 = saveMagic + Config.stepping * 2 ^ 32 ∧ fld (headerOf s area v) 128 64 = s.areaCheck area ∧
      fld (headerOf s area v) 96 16 = v.mask := by
    unfold fld headerOf saveMagic Config.stepping
    rw [h2.2, h3.2]
    generalize s.areaCheck area = x at h ⊢
    omega
  unfold State.savedIn
  simp only [h1, h5, e.1, e.2.1, e.2.2]
  simp [h2, h3, h4]

theorem restorer_check : restorer.areaCheck pieces = saver.areaCheck pieces := by
  have h := body_congr saver restorer ((List.range 18).map (fun i => 4096 * (i + 1))) 4096 4032 (by decide) (by decide) (fun e he =>
      State.byteAt_wr (s := { saver with saves := [image0] }) 0 24 header0 e (show memWf [] = true from rfl) (Or.inr (by omega)))
  exact congrArg (fun b => (Config.sha3 b).toNat % 2 ^ 64) h

theorem wit_SaveAndRestore_rest : restorer.savedIn pieces = some (image0, 0) ∧ restorer.area 0 .load = some pieces ∧
    (∀ c ∈ ((List.range 16).filter (fun j => (0 : Nat).testBit j)).map (restorer.myCore * 16 + ·),
      (restorer.ctx c).life = .free ∨ (restorer.ctx c).life = .saved) ∧
    (restorer.restoreCore 0 image0 0).me.endOf (.s 1) = none :=
  ⟨savedIn_of restorer pieces image0 (by decide +kernel) (by decide +kernel) (by decide +kernel) (by decide +kernel) (restorer_header.trans
      (header_congr saver restorer pieces image0 (by decide +kernel) (by decide +kernel) restorer_check).symm) (by decide),
    by decide +kernel, by decide, by decide +kernel⟩
theorem wit_SaveAndRestore_finish : Finishable (restorer.restoreCore 0 image0 0) 0 :=
  finishes_somewhere _ _ wit_SaveAndRestore_rest.2.2.2

/-- A core with a strand in an attempt, which a save records; a save of a context that the mask of a restore names. -/
def stranded : State := saver.modCtx 1 (fun x => { x with life := .running, tx := { x.tx with active := true, txbpc := 8 } })
theorem wit_SaveAndRestore_contents : coreOf 1 = 0 ∧ (stranded.ctx 1).life ≠ .free ∧ (stranded.ctx 1).home = none ∧ (2 : Nat).testBit 1 = true ∧
    tget ({ image0 with mask := 2, ctxs := [(1, Ctx.reset 1)] } : Saved).ctxs 1 = some (Ctx.reset 1) ∧ (Ctx.reset 1).tx.active = false ∧
    pieces = 0 :: pieces.tail := by decide +kernel

theorem wit_SpecialRegisters : ∃ v w : State, Ready (.mfs 1 3) user user ∧ user.special 3 = some 0 ∧ Writes 1 user 0 v ∧
    Ready (.mfs 1 0xFFFF) user user ∧ user.special 0xFFFF = none ∧ Ready (.mts 2 0x10) (with2 255) (with2 255) ∧
    Reads 2 (with2 255) 255 (with2 255) ∧ Ready (.mts 2 0x12) (with2 255) (with2 255) ∧ Ready (.mts 2 0x26) (with2 255) (with2 255) ∧
    Ready (.mts 2 0x17) (with2 255) (with2 255) ∧ Ready (.fstatClear 2) (with2 255) (with2 255) ∧ Ready (.pcnt 1 89 1) user user ∧
    ReadsB 1 31 user 31 user ∧ Writes 1 user (user.counterValue 1 31) w :=
  ⟨_, _, ⟨rfl, rfl⟩, by decide, rfl, ⟨rfl, rfl⟩, by decide, ⟨rfl, rfl⟩, rfl, ⟨rfl, rfl⟩, ⟨rfl, rfl⟩, ⟨rfl, rfl⟩, ⟨rfl, rfl⟩, ⟨rfl, rfl⟩, rfl,
    ok_unit (by decide +kernel)⟩

theorem wit_SpecialRegisters_steward : ∃ v : State, Ready (.lsplitWrite 2) clerk clerk ∧ Ready (.swzWrite 2) clerk clerk ∧
    Ready (.svcmapWrite 2) clerk clerk ∧ Ready (.wdogWrite 2) clerk clerk ∧ Reads 2 clerk (own 64) clerk ∧
    (8 : Word).toNat % 16 ≤ 8 ∧ 8 < (9 : Word).toNat % 16 ∧ (clerk.til 0).spad = [] ∧ Ready (.pcntCtx 1 2 31 1) clerk clerk ∧
    Writes 1 clerk (clerk.counterValue 0 31) v :=
  ⟨_, ⟨rfl, rfl⟩, ⟨rfl, rfl⟩, ⟨rfl, rfl⟩, ⟨rfl, rfl⟩, rfl, by decide, by decide, rfl, ⟨rfl, rfl⟩, ok_unit (by decide +kernel)⟩

/-! ### Witnesses: launches -/

/-- A partition of tiller 0 and of the first block of queues. -/
def part0 : Part := { tils := [0], services := [], key := 0, blocks := [0], xpool := 0, spill := 0 }
/-- A user context of it whose core maps address 0; queue 0 is enabled for it with 16 slots from address 0, and so many
entries. A level-4 object stands at address 128. -/
def launcher (entries : Nat) : State :=
  let s : State := { mapped (at_ 1 (fun x => (x.setS 2 128).setS 3 0)) with parts := [(0, part0)] }
  ((s.wr (queueDesc 0 + 8) 2 (4 + 3 * 256)).wr (queueDesc 0 + 16) 8 entries).wr (128 + 24) 1 4
/-- A lane of global memory that the page at address 0 maps. -/
def lane0 (a n : Nat) : Lane :=
  { i := 0, va := BitVec.ofNat 64 a, loc := a, n := n, own := false, global := true, nc := false, repl := false }

theorem wit_Launches_queue : (launcher 15).queueOwner 0 = some 0 ∧ (launcher 15).partOf 0 = 0 ∧
    (launcher 15).rd (queueDesc 0 + 10) 1 = 0 ∧ (launcher 15).qMode (queueDesc 0) % 4 = 3 ∧
    (launcher 15).descBad (queueDesc 0) = false ∧ (launcher 15).qLen (queueDesc 0) < 2 ^ (launcher 15).qLog (queueDesc 0) ∧
    2 ^ (launcher 16).qLog (queueDesc 0) ≤ (launcher 16).qLen (queueDesc 0) ∧ (launcher 15).qSlot (queueDesc 0) 15 = 120 := by
  decide +kernel

theorem wit_Launches : ∃ w z : State, Ready (.launch 1 2 3) (launcher 15) (launcher 15) ∧ Reads 2 (launcher 15) 128 (launcher 15) ∧
    Reads 3 (launcher 15) 0 (launcher 15) ∧
    translateLanes .store 8 [(0, 120, .global 120)] (launcher 15) = .ok ([lane0 120 8], launcher 15) ∧
    strandStore false (lane0 120 8) (bytesOfNat 8 128) (launcher 15) = .ok ((), w) ∧
    Writes 1 (w.qPut (queueDesc 0) 0 16 8 ((w.qTail (queueDesc 0) + 1) % 2 ^ 64)) 0 z :=
  ⟨_, _, ⟨rfl, rfl⟩, rfl, rfl, by decide +kernel, ok_unit (by decide +kernel), ok_unit (by decide +kernel)⟩

theorem wit_Launches_counts : ∃ y z : State, Ready (.done 1 2 31 1) (launcher 0) (launcher 0) ∧ Ready (.cancel 1 2) (launcher 0) (launcher 0) ∧
    objectLane .atomic 128 (launcher 0) = .ok (lane0 128 64, launcher 0) ∧ (launcher 0).poisoned 128 64 = false ∧
    (launcher 0).lvBad 128 = false ∧ (launcher 0).lvLevel 128 ≠ 1 ∧ (launcher 0).lvTerminal 128 = false ∧
    (launcher 0).lvCancelled 128 = false ∧
    Writes 1 (((launcher 0).lvAdd 0 0 128 31).acquire 0 4) 31 y ∧
    Writes 1 (((launcher 0).lvOr 0 128 1).noticeCancel 0 128) 0 z :=
  ⟨_, _, ⟨rfl, rfl⟩, ⟨rfl, rfl⟩, by decide +kernel, by decide +kernel, by decide +kernel, by decide +kernel, by decide +kernel,
    by decide +kernel, ok_unit (by decide +kernel), ok_unit (by decide +kernel)⟩

theorem wit_Launches_reads : ∃ (o : List Byte) (v : State), readObject 128 (launcher 0) = .ok ((lane0 128 64, some o), v) ∧
    Ready (.lcntCmp 1 2) (launcher 0) (launcher 0) ∧ Ready (.lcntExp 1 2) (launcher 0) (launcher 0) ∧
    Ready (.lcntSt 1 2) (launcher 0) (launcher 0) ∧ Ready (.lwait 1 2 0 1) (launcher 0) (launcher 0) ∧
    terminal (numAt o 25 1) = false ∧ numAt o 8 8 = 0 :=
  ⟨(launcher 0).bytes 128 64, left (readObject 128 (launcher 0)), by decide +kernel, ⟨rfl, rfl⟩, ⟨rfl, rfl⟩, ⟨rfl, rfl⟩,
    ⟨rfl, rfl⟩, by decide +kernel, by decide +kernel⟩

/-- An object that is malformed, one of level 1, one that has ended, and one that is cancelled. -/
theorem wit_Launches_others : (launcher 0).lvBad 192 = true ∧ (((launcher 0).wr 216 1 1).lvBad 192 = false ∧
    ((launcher 0).wr 216 1 1).lvLevel 192 = 1) ∧ terminal (((launcher 0).wr 153 1 3).lvState 128) = true ∧
    ((launcher 0).wr 154 1 1).lvCancelled 128 = true := by decide +kernel

/-- A placement message of a launch of partition 0, sent and not acknowledged. -/
def replica0 : Replica :=
  { stage := 0, idx := 0, needed := true, die := 0, cid := some 1, block := 0, run := 0, sent := true, acked := false, gone := false }
def record0 : Record :=
  { prio := 0, energy := 0, obj := 128, graph := 0, phase := 0, job := 0, arg := 0
    stages := [{ entry := 0, minrep := 1, maxrep := 1, tile := false, dies := [0], spad := 0, near := 0, fmt := 0, scla := 0, sclb := 0 }]
    wires := [], deps := [] }
def launch0 (p : Phase) : Launch :=
  { id := 0, part := 0, queue := 0, lrec := 0, record := record0, at_ := p, since := 0, spanning := false, shares := [0]
    reps := [replica0], chans := [], blocks := [], storage := true, doomed := false, front := false }
def placer : State := { steward with launches := [launch0 .complete] }

theorem wit_Launches_place : ∃ v z : State, Ready (.place 1 2 3) placer placer ∧ Reads 2 placer 0 placer ∧
    placer.placed 0 0 = some (launch0 .complete, replica0) ∧ placer.placed 0 1 = none ∧
    Writes 1 (placer.acknowledge (launch0 .complete) replica0 ((0 : Word).getLsbD 63)) 0 v ∧
    Writes 1 placer (failCode 1) z :=
  ⟨_, _, ⟨rfl, rfl⟩, rfl, by decide +kernel, by decide +kernel, ok_unit (by decide +kernel), rfl⟩

/-- A state for the distributor of die 0: its translations map address 0. -/
def dist (s : State) : State := s.modTil 0 (fun t => { t with stlb := [page0] })

theorem wit_DistributorSteps : (dist (launcher 1)).queueOwner 0 = some 0 ∧ (dist (launcher 1)).qLen (queueDesc 0) = 1 ∧
    (dist (launcher 1)).pooled 0 < 4096 ∧
    (dist (launcher 1)).devXlate 0 (distTil 0) ((dist (launcher 1)).qSlot (queueDesc 0) ((dist (launcher 1)).qHead (queueDesc 0))) .load =
      .ok (0, 0x1F) ∧ (dist (launcher 1)).poisoned 0 8 = false ∧ (dist (launcher 1)).rd 0 8 = 0 ∧
    ((dist (launcher 1)).qPut (queueDesc 0) 0 24 8 1).entryRecord 0 0 0 = none ∧
    (((dist (launcher 1)).wr 4104 8 128).entryRecord 0 0 4096).isSome = true := by decide +kernel

theorem wit_DistributorSteps_ready : ({ dist (launcher 0) with launches := [launch0 .pool] }).depsMet (launch0 .pool) = true ∧
    ({ dist (launcher 0) with launches := [launch0 .pool] }).chainCancelled 0 0 record0 = false ∧
    ({ dist (launcher 0) with launches := [launch0 .pool] } : State).launches.find? (fun m => m.id == 0) = some (launch0 .pool) ∧
    (∃ y ∈ record0.chain, ({ dist (launcher 0) with launches := [launch0 .pool] }).objAt 0 0 y.1 = some 128) := by decide +kernel

/-- A launch in its slot: its one replica fits. One in its bank that has aged. -/
def waiting0 : Launch := { launch0 .slot with reps := [{ replica0 with cid := none, sent := false }] }
def slotted : State := { (dist (launcher 0)).modTil 0 (fun t => { t with part := some 0 }) with launches := [waiting0] }
def aged : State := { dist (launcher 0) with
  launches := [launch0 .bank], cores := [(0, { ((launcher 0).core 0) with cycle := 65536 })] }
theorem wit_DistributorSteps_share : ∃ t, slotted.takeShare waiting0 0 = some t ∧
    t.chainCancelled 0 0 record0 = false := by
  cases h : slotted.takeShare waiting0 0 with
  | none => exact absurd h (by decide +kernel)
  | some t =>
    have e : (slotted.takeShare waiting0 0).all
        (fun t => !t.chainCancelled 0 0 record0) = true := by decide +kernel
    rw [h] at e
    exact ⟨t, rfl, by simpa using e⟩
theorem wit_DistributorSteps_aged : aged.retryShares.oldest (aged.retryShares.launches.filter (fun l => l.at_ == .bank &&
    l.queue / 2 ^ 15 == 0 && !aged.retryShares.slotTaken l)) = some (launch0 .bank) := by decide +kernel

/-! ### Witnesses: steps of the device -/

/-- Context 1 in a state of life and a wait. -/
def asleep (w : Wait) : State := at_ 1 (fun x => { x with life := .running, wait := w })

theorem wit_StrandSteps : ((at_ 1 (fun x => { x with life := .starting })).ctx 1).life = .starting ∧
    ((asleep (.sleep 2 [.tags 0])).ctx 1).wait = .sleep 2 [.tags 0] ∧ ((asleep (.retry [])).ctx 1).life = .running ∧
    ((asleep (.fault .load 0 8)).ctx 1).wait = .fault .load 0 8 ∧
    cidOfSid (BitVec.ofNat 32 (Body.field (copyReply 2) 0 4)) = 1 ∧
    (asleep (.fault .load 0 8)).sidLive (BitVec.ofNat 32 (Body.field (bodyOf [(0, 4, (user.sid 1).toNat), (4, 1, 1)]) 0 4)) = true ∧
    Body.field (bodyOf [(0, 4, (user.sid 1).toNat), (4, 1, 1)]) 4 1 = 1 ∧
    Body.field (bodyOf [(0, 4, (user.sid 1).toNat), (4, 1, 1)]) 5 11 = 0 := by decide +kernel

/-- A sleep at the watchdog's limit. -/
theorem wit_StrandSteps_watchdog : (((asleep (.sleep 2 [.tags 0])).modCtx 1 (fun x => { x with slept := 65536 })).modCore 0
      (fun k => { k with wdog := 1 })).overdue 1 = true ∧ (asleep (.sleep 2 [.tags 0])).boxRoom 0 0 = true ∧
    ((user.modCore 0 (fun k => { k with held := [(2, message)] })).core 0).held = [(2, message)] := by decide +kernel

/-- A migrant of context 1 whose ticket has not been called. -/
def migrant (home : Nat) : Migrant :=
  { home := home, sid := user.sid home, flags := 0, s := [], pc := 4, ticket := 0, frame := .clear, src := home, target := 0
    recalled := false, doomed := false, due := 0 }
def landing (m : Migrant) : State := user.modTil 0 (fun t => { t with landing := { t.landing with arriving := [m] } })

theorem wit_StrandSteps_land : ((landing (migrant 1)).til 0).landing.arriving = [migrant 1] ∧
    ((landing (migrant 1)).ctx 1).life ≠ .killing ∧ ((landing (migrant 1)).ctx 1).life ≠ .saved ∧ tilOf 1 = 0 ∧
    tilOf (migrant 65).home ≠ 0 ∧ ((landing (migrant 65)).core (coreOf 65)).saving = none ∧ (migrant 65).ticket = 0 ∧
    ((landing (migrant 65)).til 0).landing.used < 16 ∧
    ((landing (migrant 65)).til 0).landing.tserve = ((landing (migrant 65)).til 0).landing.tnext ∧
    16 ≤ ({ ((landing (migrant 65)).til 0).landing with reserved := List.replicate 16 7 } : Landing).used ∧
    (migrant 1).src = (migrant 1).home := by decide +kernel

/-- The holder of a called ticket, and a host of a context that is being killed. -/
def ticketed : Ctx := { Ctx.reset 1 with life := .running, wait := .ticket, refused := some 0, ticket := 5 }
def called : State :=
  { State.reset.modTil 0 (fun t => { t with landing := { t.landing with reserved := [5] } }) with ctxs := [(1, ticketed)] }
def hosting : State :=
  { State.reset with ctxs := [(1, { Ctx.reset 1 with life := .killing }), (65, { Ctx.reset 65 with life := .running, home := some 1 })] }
theorem wit_StrandSteps_called : called.ctxs = [(1, ticketed)] ∧ ticketed.ticket ∈ (called.til 0).landing.reserved ∧
    (hosting.ctx 1).life = .killing ∧
    hosting.ctxs.find? (fun p => p.2.home == some 1 && p.2.life == .running) =
      some (65, { Ctx.reset 65 with life := .running, home := some 1 }) := by decide +kernel

/-- An element in flight to the ring, one in its extension, and a producer end that waits. -/
def flying (r : Nat) : State :=
  { chan true with flights := [{ ring := r, cid := 1, cargo := .elem seven none none false none, due := 0 }] }
theorem wit_UnitSteps_channels : (flying ringLoc).diverted ringLoc = false ∧ (flying ringLoc).port.inbox = [] ∧
    (flying ringLoc).flights = { ring := ringLoc, cid := 1, cargo := .elem seven none none false none, due := 0 } :: [] ∧
    (((chan true).wr (ringLoc + 48) 4 0).setRing { (chan true).ringX ringLoc with ext := [{ seq := 0, idx := 0, x := seven, grp := none }] }).moveOne
      ringLoc ≠ none ∧ ((chan true).ringX ringLoc).ext = [] ∧
    (((chan true).setRing { (chan true).ringX ringLoc with waiters := [(1, 0)] }).ringX ringLoc).waiters = [(1, 0)] ∧
    0 < (chan true).rFree ringLoc ∧ (chan true).rXord ringLoc = false := by decide +kernel

/-- A reference engine with a fetch of address 8, whose page the tiller's TLB maps. -/
def ref1 (f : Fetch) : RefBind :=
  { cid := 1, idx := 0, res := some 1, desc := 64, eng := 1, base := 0, rsize := 1, fetches := [f], pack := [], out := [] }
def engine (f : Fetch) : State :=
  (asleep .none).modTil 0 (fun t => { t with stlb := [page0], refs := [ref1 f] })
/-- The body of an engine's fault reply. -/
def engineReply (act : Nat) : Body := bodyOf [(0, 4, (user.sid 1).toNat), (4, 1, act), (5, 1, 1), (6, 2, 1)]

theorem wit_UnitSteps_engine : ((engine (.pending 8)).til 0).refs.find? (fun r => r.cid == 1 && r.idx == 0) = some (ref1 (.pending 8)) ∧
    (engine (.pending 8)).devXlate 0 0 8 .load = .ok (8, 0x1F) ∧ (engine (.pending 8)).poisoned 8 8 = false ∧
    ((engine (.faulted 8)).til 0).refs.find? (fun r => r.cid == 1 && r.desc == Body.field (engineReply 1) 6 2 * 64 &&
      r.eng == Body.field (engineReply 1) 5 1) = some (ref1 (.faulted 8)) ∧
    (engine (.faulted 8)).sidLive (BitVec.ofNat 32 (Body.field (engineReply 1) 0 4)) = true ∧ Body.field (engineReply 1) 5 1 = 1 ∧
    Body.field (engineReply 1) 6 2 = 1 ∧ Body.field (engineReply 1) 8 8 = 0 ∧ Body.field (engineReply 1) 4 1 = 1 := by decide +kernel

/-- A stream of two elements at address 0, to load or to store. -/
def stream (w : Bool) (buf : List Elem) : StreamBind :=
  { cid := 1, e := 0, desc := 64, write := w, awn1 := false, awn2 := false, base := 0, c0 := 2, c1 := 1, c2 := 1, s0 := 8, s1 := 0, s2 := 0
    pos := 0, buf := buf, ended := false, stalled := false }
def streaming (w : Bool) (buf : List Elem) : State :=
  (asleep .none).modTil 0 (fun t => { t with stlb := [page0], streams := [stream w buf] })

theorem wit_UnitSteps_stream : (streaming false []).streamOf 1 0 = some (stream false []) ∧
    (streaming false []).spot 0 ((stream false []).addr 0) 8 .load = .at_ 0 0x1F ∧ (streaming false []).poisoned 0 8 = false ∧
    (streaming true [seven]).streamOf 1 0 = some (stream true [seven]) ∧
    (streaming true [seven]).spot 0 ((stream true [seven]).addr 0) 8 .store = .at_ 0 0x1F := by decide +kernel

/-- A merge unit with an element in each input buffer, its end q0 bound as input a. -/
def merge0 : Merge :=
  { desc := 64, cid := 1, ina := some 0, inb := some 1, out := some 2, mmode := 0, bufa := [seven], bufb := [seven], bufo := [], lasta := none
    lastb := none }
def merging : State :=
  (at_ 1 (fun x => { x with bind := x.bind.setIfInBounds 0 (BitVec.ofNat 64 (3 + 8 + 2 ^ 18)) })).modTil 0 (fun t => { t with merge := some merge0 })

theorem wit_UnitSteps_merge : ∃ v w : State, (merging.til 0).merge = some merge0 ∧ Ready (.mrgcStat 1 0) merging merging ∧
    Ready (.mrgcClr 1 0) merging merging ∧ merging.me.getBind 0 ≠ 0 ∧ bindKind (merging.me.getBind 0) = 3 ∧
    Writes 1 merging (BitVec.ofNat 64 (merging.rd (bindLoc 1 (merging.me.getBind 0) + 8) 4 * 2 ^ 32 +
      merging.rd (bindLoc 1 (merging.me.getBind 0) + 4) 4)) v ∧
    Writes 1 (merging.wr (bindLoc 1 (merging.me.getBind 0) + 4) 8 0) 0 w :=
  ⟨_, _, by decide +kernel, ⟨by decide +kernel, by decide +kernel⟩, ⟨by decide +kernel, by decide +kernel⟩, by decide +kernel,
    by decide +kernel, ok_unit (by decide +kernel), ok_unit (by decide +kernel)⟩

/-- The lessee before a TMMA on rings 0 and 15. -/
def stager : State :=
  let s := tiler (fun x => { x with life := .running, pc := 64 })
  let u := (mapped s).wr 64 4 (((encode (.tmma 0 15 7 31 6 1 1)).headD 0).toNat)
  u.modTil 0 (fun t => { t with icache := [u.lineNow 1] })

theorem wit_UnitSteps_staging : stager.active 1 = true ∧ (stager.til 0).leased 1 = true ∧
    stager.nextWord 1 = .word ((encode (.tmma 0 15 7 31 6 1 1)).headD 0) ∧
    decode ((encode (.tmma 0 15 7 31 6 1 1)).headD 0) = .ok (.tmma 0 15 7 31 6 1 1) ∧
    (stager.til 0).headSeq 0 ≠ (stager.til 0).tailSeq 0 ∧ (stager.til 0).headSeq 15 ≠ (stager.til 0).tailSeq 15 := by decide +kernel

/-- The pattern unit with a request, and with a compilation that is due. -/
theorem wit_UnitSteps_patterns : ((directory.modTil 0 (fun t => { t with pats := [{ compiled with state := .queued }] })).til 0).nextQueued =
      some { compiled with state := .queued } ∧
    ((directory.modTil 0 (fun t => { t with pats := [{ compiled with state := .compiling }] })).til 0).pats.find? (fun p =>
      p.state == .compiling && p.due.toNat ≤ (directory.core 0).cycle.toNat) = some { compiled with state := .compiling } := by
  decide +kernel

theorem wit_ClockCycle : ∀ c cause keys, (State.reset.ctx c).wait = .sleep cause keys → cause < 16 := by
  intro c cause keys h
  have : (State.reset.ctx c).wait = .none := rfl
  rw [this] at h
  cases h

/-- A peer port, an edge, a location and a partition. -/
def linked : State := { dist (launcher 0) with port := { Port.reset with peers := [(7, 3, 0)] } }
theorem wit_DieSteps : 3 ∉ linked.port.portsDown ∧ linked.copies = [] ∧
    3 ∈ ({ linked with port := { linked.port with portsDown := [3] } } : State).port.portsDown ∧ 3 ∉ linked.port.edgesDown ∧
    linked.port.edgesDown = [] ∧ tget linked.owners 0 = none ∧
    ((linked.modDie 3 (fun d => { d with droop := some 64 })).die 3).droop = some 64 ∧
    tget linked.parts 0 = some part0 ∧ (∃ p ∈ linked.port.peers, p.2.1 = 3) ∧ linked.devXlate 0 0 65535 .store = .ok (65535, 0x1F) ∧
    65535 % 65536 + [(1 : Byte)].length ≤ 65536 ∧ entRepl 0x1F = false := by decide +kernel

theorem wit_DieSteps_near : ∃ t ts, tget linked.parts 0 = some part0 ∧
    (linked.modTil 0 (fun t => { t with part := some 0 })).tilsOf 0 = t :: ts ∧ (linked.til 0).part = (linked.til t).part ∧
    64 + [(1 : Byte)].length ≤ (linked.til 0).spadSize ∧
    ({ linked with port := { linked.port with portsDown := [3] } } : State).port.portsDown = [3] :=
  ⟨0, [], by decide +kernel, by decide +kernel, by decide +kernel, by decide +kernel, rfl⟩

/-- Requests at the network port of a module with a partition. -/
def asked (r : Request) : State := { dist (launcher 0) with port := { Port.reset with inbox := [r] } }
theorem wit_PortRequests : (asked (.shutdown 0x4C)).port.openPort = true ∧ 1 ∉ (asked (.shutdown 0x4C)).port.broken ∧
    (asked (.write 1 0 65535 [7])).keyPart 0 = some 0 ∧ (asked (.shutdown 0x4C)).keyPart 0xFFFFFFFF = none ∧
    ({ asked (.shutdown 0x4C) with port := { Port.reset with inbox := [] } }).devXlate 0 0 65535 .store = .ok (65535, 0x1F) ∧
    ({ asked (.shutdown 0x4C) with port := { Port.reset with inbox := [] } }).createRefused 15 { part0 with tils := [1023], services := [4092], blocks := [1] } = false ∧
    ({ asked (.shutdown 0x4C) with port := { Port.reset with inbox := [] } }).createRefused 0 part0 = true ∧
    (asked (.shutdown 0x4C)).port.swap = none ∧ ({ asked (.shutdown 0x4C) with port := { Port.reset with inbox := [] } }).swapOk [1023] = false := by
  decide +kernel

theorem wit_PortRequests_swap : ({ asked (.shutdown 0x4C) with port := { Port.reset with inbox := [] } }.modTil 0
    (fun t => { t with part := some 0 })).swapOk [0] = true := by decide +kernel

/-! ### Witnesses: single clauses -/

/-- The L1 holds the last line of the page; a page that is not cached; a page without an L1; poison. -/
def lined : State := global2.modTil 0 (fun t => { t with l1 := [global2.lineNow 1, global2.lineNow 1023] })
def pageNc : TlbEntry := { page0 with entry := 0x9F }
def spoiled : State := { global2 with poison := [eccUnit 65528] }
theorem wit_GlobalAccess_lines :
    (lined.til 0).l1.find? (fun l => l.line == page0.pa 65528 0 / 64) = some (global2.lineNow 1023) ∧ (lined.til 0).l1sz ≠ 0 ∧
    lined.me.mig = false ∧ (global2.til 0).l1.find? (fun l => l.line == page0.pa 65528 0 / 64) = none ∧
    global2.poisoned 65528 8 = false ∧ entNc page0.entry = false ∧ global2.poisoned (page0.pa 65528 0 / 64 * 64) 64 = false ∧
    entNc pageNc.entry = true ∧ entRd pageNc.entry = true ∧
    tlbFind ((global2.modCore 0 (fun k => { k with dtlb := [pageNc] })).core 0).dtlb 0 65528 = some pageNc ∧
    spoiled.poisoned 65528 8 = true ∧ spoiled.poisoned 65472 8 = true ∧
    ((global2.modTil 0 (fun t => { t with l1sz := 0 })).til 0).l1sz = 0 := by decide +kernel

theorem wit_CachesAndFences_poison : cachePage true 65528 spoiled = .ok (some (65528, 0x1F), spoiled) ∧
    spoiled.poisoned (65528 / 64 * 64) 64 = true ∧ Ready (.cfl 2 0x3FF8) spoiled spoiled :=
  ⟨by decide +kernel, by decide +kernel, ⟨rfl, rfl⟩⟩

/-- Context 1 with the vector end vq0 bound to a ring of one vector slot: to read at cursor 0, or to write. -/
def chanV (wr : Bool) : State :=
  let s := at_ 1 (fun x => { x with bind := x.bind.setIfInBounds 8 (BitVec.ofNat 64 (bindWord wr 0 true 0 0)) })
  ((s.wr ringLoc 4 (2 ^ 20 + 256)).wr (ringLoc + 4) 4 1).wr (ringLoc + 48) 4 33
/-- With the element published that holds 1 in its last bit. -/
def top : Elem := { awn := false, data := BitVec.ofNat 512 (2 ^ 511 + 7) }
def chanV1 : State := (((chanV false).wr (ringLoc + 8) 8 (2 ^ 32 + 1)).fillSlot ringLoc 0 0 top 0).setRing
  { (chanV false).ringX ringLoc with pubd := [0] }
theorem wit_EndOperands_vector : chanV1.me.endOf (.v 12) = some 8 ∧ chanV1.endHead 1 8 0 = .elem top ∧ chanV1.me.tx.active = false ∧
    (chanV true).me.endOf (.v 12) = some 8 ∧ (∃ t, (chanV true).endPut 1 8 top = .done t) ∧
    (attempt chanV1).endHead 1 8 ((attempt chanV1).me.tx.point.ops.count (.deq 8)) = .elem top ∧
    (∃ t, (attempt (chanV true)).runOps 1 ((attempt (chanV true)).me.tx.point.ops ++
      [.enq 8 top (attempt (chanV true)).due]) = .done t) :=
  ⟨by decide +kernel, by decide +kernel, by decide, by decide +kernel, made_of (by decide +kernel), by decide +kernel,
    made_of (by decide +kernel)⟩

/-- An entry for the stream port, for a descriptor of zeros, which is malformed; and for one that is poisoned. -/
def streamW : Word := BitVec.ofNat 64 (4 + 2 ^ 18)
def binderP : State := { binder streamW with poison := [eccUnit (locSpad 0 64)] }
theorem wit_EndBindings_order : ∃ u : State, Ready (.qbind 1 0 2 4) (binder streamW) (binder streamW) ∧ bindKind streamW = 4 ∧
    (binder streamW).entryOk 1 0 streamW = true ∧ (binder streamW).bindPoison 1 streamW = false ∧
    (binder streamW).bindWhy 1 0 streamW ((binder streamW).otherEnds 1 0) false = 2 ∧ Writes 1 (binder streamW) (failCode 2) u ∧
    Ready (.qbind 1 0 2 4) binderP binderP ∧ Reads 2 binderP streamW binderP ∧ binderP.bindPoison 1 streamW = true ∧
    binderP.entryOk 1 0 streamW = true ∧ (binder streamW).entryOk 1 0 (streamW + 2 ^ 32) = false :=
  ⟨_, ⟨rfl, rfl⟩, by decide, by decide +kernel, by decide +kernel, by decide +kernel, ok_unit (by decide +kernel), ⟨rfl, rfl⟩, rfl,
    by decide +kernel, by decide +kernel, by decide +kernel⟩

/-- A context whose end q0 reads a stream that is at its end. -/
def spent : State :=
  let s := streaming false []
  (s.modMe (fun x => { x with bind := x.bind.setIfInBounds 0 streamW })).modTil 0 (fun t => { t with
    streams := [{ stream false [] with pos := 2, ended := true }] })
theorem wit_EndTransfers_over : spent.endHead 1 0 0 = .over ∧ readEnd (spent.me.getBind 0) = true ∧ spent.me.tx.active = false ∧
    spent.me.endOf (dataFld 0 1) = none ∧ spent.me.endOf (.s 2) = none ∧
    rowCheck (.qpeek 1 0 2) spent = .ok ((), spent) ∧ rowCheck (.qtry 1 0 2) spent = .ok ((), spent) :=
  ⟨by decide +kernel, by decide, by decide, by decide, by decide, rfl, rfl⟩
theorem wit_EndTransfers_vector : chanV1.me.endOf (dataFld 8 15) = none ∧ chanV1.me.endOf (dataFld 8 12) = some 8 := by decide

/-- The writer of a ring whose four slots are taken; the reader of an awn with a handler at 8. -/
def full : State := (chan true).wr (ringLoc + 8) 8 (4 * 2 ^ 32 + 4)
def handling : State := (chan1 false held6).modMe (fun x => { x with handler := x.handler.setIfInBounds 0 (some 8) })
def filled (p : Put) : Bool := match p with
  | .full => true
  | _ => false
theorem full_of {p : Put} (h : filled p = true) : match p with
    | .full => True
    | _ => False := by
  cases p <;> trivial
theorem wit_EndsThatStop_full : rowCheck (.addi 24 2 5) full = .ok ((), full) ∧ full.me.tx.active = false ∧
    (Instr.addi 24 2 5).reads.filterMap full.me.endOf = [] ∧ (Instr.addi 24 2 5).writes.filterMap full.me.endOf = [0] ∧
    readEnd (full.me.getBind 0) = false ∧ full.tokenBlocks 1 0 = false ∧
    (match full.endPut 1 0 dataElem with
      | .full => True
      | _ => False) :=
  ⟨rfl, by decide, by decide, by decide, by decide, by decide +kernel, full_of (p := full.endPut 1 0 dataElem) (by decide +kernel)⟩
theorem wit_EndsThatStop_awn : (Instr.addi 1 24 5).reads.filterMap handling.me.endOf = [] ++ 0 :: [] ∧
    (Instr.addi 1 24 5).writes.filterMap handling.me.endOf = [] ∧ handling.endHead 1 0 0 = .elem held6 ∧
    handling.me.hmode = false ∧ handling.me.handler[0]? = some (some 8) ∧ rowCheck (.addi 1 24 5) handling = .ok ((), handling) ∧
    readEnd (handling.me.getBind 0) = true ∧ handling.endHead 1 0 0 ≠ .over :=
  ⟨by decide, by decide, by decide +kernel, by decide, by decide, rfl, by decide, by decide +kernel⟩

/-- A holder of the tiller's token. -/
def holder : State := (attempt user).modTil 0 (fun t => { t with token := { t.token with holder := some 1 } })
theorem wit_AttemptControl_token : (holder.til (tilOf 1)).token.holder = some 1 := by decide

/-- A counter with a reserved byte set. -/
def uncounting : State := counting.wr (locSpad 0 77) 1 1
theorem wit_ArrivalCounters_malformed : ∃ z : State, readCounter (own 64) (0, 64) uncounting = .ok (none, uncounting) ∧
    counterAt (own 64) false uncounting = .ok ((0, 64), uncounting) ∧ Writes 1 (uncounting.acquire 0 4) (failCode 2) z ∧
    Ready (.aexp 1 2 3 0) uncounting uncounting ∧ Reads 2 uncounting (own 64) uncounting :=
  ⟨_, by decide +kernel, by decide +kernel, ok_unit (by decide +kernel), ⟨rfl, rfl⟩, rfl⟩
/-- A member of the counter in context 1. -/
def joined : State := seen.modTil 0 (fun t => { t with members := [{ cid := 1, off := 64, arrd := false, aph := false }] })
theorem wit_ArrivalCounters_member : (joined.membersSeen 0).find? (fun m => m.cid == 1 && m.off == 64) =
    some { cid := 1, off := 64, arrd := false, aph := false } := by decide +kernel

theorem wit_CopySteps_sent : (copying .sent).copyOf 0 = some (copy0 .sent) ∧ (copy0 .sent).state = .sent := by decide

theorem wit_Translations_unusable : ∃ v : State, unusable 0x1F 1 ((walking 0).partOf 0) = true ∧
    unusable 0x1F 0 ((walking 0).partOf 0) = false ∧ Writes 1 ((walking 0).declareFault 1 5) (failCode 2) v :=
  ⟨_, by decide +kernel, by decide +kernel, ok_unit (by decide +kernel)⟩

/-- A buffer whose second half is poisoned. -/
def clerkP : State := { clerk with poison := [eccUnit (locSpad 0 88)] }
theorem wit_Mailboxes_first : clerkP.poisoned (locSpad 0 64) 16 = false ∧ clerkP.poisoned (locSpad 0 64) 32 = true ∧
    ownBuffer (own 64) clerkP = .ok (locSpad 0 64, clerkP) := by decide +kernel
/-- A message held for the box, or posted to it, keeps MBXR from the clauses' plain case. -/
theorem wit_Mailboxes_room : (mailed.core 0).held = [] ∧ mailed.ctxs.any (fun p => p.2.wait == .post 0 0) = false := by decide +kernel

/-- A core that has not drained: a strand is about to start. A core that was saving before its area was lost. -/
def starting : State := saver.modCtx 1 (fun x => { x with life := .starting })
theorem wit_SaveAndRestore_undrained : Ready (.csaveSave 1 0) starting starting ∧ starting.area 0 .store = some pieces ∧
    (starting.core 0).saving = none ∧ (starting.beginHalt 0 pieces).drained 0 = false ∧
    ((steward.modCore 0 (fun k => { k with saving := some pieces })).core 0).saving = some pieces :=
  ⟨⟨rfl, rfl⟩, by decide +kernel, by decide +kernel, by decide +kernel, by decide +kernel⟩

/-- A save of one strand, whose context runs another. -/
def image1 : Saved := { image0 with mask := 2, ctxs := [(1, Ctx.reset 1)] }
def occupied : State := { saver with saves := [image1] }.modCtx 1 (fun x => { x with life := .running })
def occupier : State := occupied.wr 0 24 (headerOf saver pieces image1)

theorem occupier_header : occupier.rd 0 24 = headerOf saver pieces image1 :=
  written occupied (headerOf saver pieces image1) (show memWf [] = true from rfl)
    (header_lt saver pieces image1 rfl rfl (by decide))

theorem occupier_check : occupier.areaCheck pieces = saver.areaCheck pieces := by
  have h := body_congr saver occupier ((List.range 18).map (fun i => 4096 * (i + 1))) 4096 4032 (by decide) (by decide) (fun e he =>
      State.byteAt_wr (s := occupied) 0 24 (headerOf saver pieces image1) e (show memWf [] = true from rfl)
        (Or.inr (by omega)))
  exact congrArg (fun b => (Config.sha3 b).toNat % 2 ^ 64) h

theorem wit_SaveAndRestore_occupied : occupier.savedIn pieces = some (image1, 2) ∧ occupier.area 0 .load = some pieces ∧
    (∃ c ∈ ((List.range 16).filter (fun j => (2 : Nat).testBit j)).map (occupier.myCore * 16 + ·),
      (occupier.ctx c).life ≠ .free ∧ (occupier.ctx c).life ≠ .saved) ∧ Ready (.csaveRest 1 0) occupier occupier ∧
    (∀ l ∈ pieces, occupier.poisoned l 4096 = false) ∧ ∃ v, Writes 1 occupier (failCode 4) v :=
  ⟨savedIn_of occupier pieces image1 (by decide +kernel) (by decide +kernel) (by decide +kernel) (by decide +kernel) (occupier_header.trans
      (header_congr saver occupier pieces image1 (by decide +kernel) (by decide +kernel) occupier_check).symm) (by decide),
    by decide +kernel, ⟨1, by decide, by decide +kernel, by decide +kernel⟩, ⟨rfl, rfl⟩, by decide +kernel, _,
    ok_unit (by decide +kernel)⟩

/-- A reservation of the last bytes below 896 KiB; a change of the first and of the last segment's bit. -/
def reserving : State := clerk.modTil 0 (fun t => { t with spad := [{ launch := 0, use := .channel, off := 917503, len := 1 }] })
theorem wit_SpecialRegisters_sizes : (reserving.til 0).spadSize = 917504 ∧ 2 ^ 20 - 65536 * 3 < (reserving.til 0).spadSize ∧
    (∃ g ∈ (reserving.til 0).spad, 2 ^ 20 - 65536 * 3 < g.off + g.len) ∧ (clerk.til 0).spadSize < 2 ^ 20 - 65536 * 0 ∧
    (∀ g ∈ (reserving.til 0).spad, g.off + g.len ≤ 2 ^ 20 - 65536 * 2) ∧
    (0x8001 : Word).getLsbD 0 ≠ (clerk.til 0).swz.getLsbD 0 ∧ (0x8001 : Word).getLsbD 15 ≠ (clerk.til 0).swz.getLsbD 15 ∧
    (0x8001 : Word).getLsbD 14 = (clerk.til 0).swz.getLsbD 14 := by decide

theorem wit_Launches_ended : ∃ z : State, Ready (.cancel 1 2) ((launcher 0).wr 153 1 3) ((launcher 0).wr 153 1 3) ∧
    objectLane .atomic 128 ((launcher 0).wr 153 1 3) = .ok (lane0 128 64, (launcher 0).wr 153 1 3) ∧
    ((launcher 0).wr 153 1 3).lvBad 128 = false ∧ ((launcher 0).wr 153 1 3).lvTerminal 128 = true ∧
    Writes 1 ((launcher 0).wr 153 1 3) 2 z :=
  ⟨_, ⟨rfl, rfl⟩, by decide +kernel, by decide +kernel, by decide +kernel, ok_unit (by decide +kernel)⟩

/-- A queue that software has not enabled, and one of another partition. -/
def offQueue : State := (launcher 0).wr (queueDesc 0 + 8) 2 (4 + 256)
theorem wit_Launches_codes : ∃ w z : State, Ready (.launch 1 2 3) offQueue offQueue ∧ Reads 2 offQueue 128 offQueue ∧ Reads 3 offQueue 0 offQueue ∧
    offQueue.rd (queueDesc 0 + 10) 1 = offQueue.partOf offQueue.myTil ∧ offQueue.queueOwner 0 = some (offQueue.partOf offQueue.myTil) ∧
    offQueue.qMode (queueDesc 0) % 4 ≠ 3 ∧ Writes 1 offQueue (failCode 2) w ∧
    ((launcher 0).wr (queueDesc 0 + 10) 1 0xFF).rd (queueDesc 0 + 10) 1 ≠ (launcher 0).partOf (launcher 0).myTil ∧
    Writes 1 ((launcher 0).wr (queueDesc 0 + 10) 1 0xFF) (failCode 3) z :=
  ⟨_, _, ⟨rfl, rfl⟩, rfl, rfl, by decide +kernel, by decide +kernel, by decide +kernel, ok_unit (by decide +kernel), by decide +kernel,
    ok_unit (by decide +kernel)⟩

/-- Banked launches of one bank that have not aged, one of higher priority; both eligible, and neither. -/
def low : Launch := { launch0 .bank with record := { record0 with energy := 7 } }
def high : Launch := { launch0 .bank with id := 1, record := { record0 with prio := 1, energy := 7 } }
def banked (budget : Nat) : State :=
  { (dist (launcher 0)).modDie 0 (fun d => { d with budget := BitVec.ofNat 3 budget }) with launches := [low, high] }
theorem wit_DistributorSteps_attempt : (banked 7).retryShares.launches = [low, high] ∧
    (∀ m ∈ [low, high], m.at_ = .bank ∧ m.queue / 2 ^ 15 = 0 ∧ (banked 7).retryShares.slotTaken m = false ∧ (banked 7).retryShares.age m < 65536) ∧
    ([low, high].map (fun l => bankOf l.queue)).eraseDups = [0] ∧ (banked 7).retryShares.head [low, high] = some high ∧
    high.record.energy ≤ ((banked 7).retryShares.die 0).budget.toNat ∧
    ¬high.record.energy ≤ ((banked 6).retryShares.die 0).budget.toNat := by decide +kernel
theorem wit_DistributorSteps_before : (banked 7).retryShares.Before high low := Or.inl (by decide +kernel)
/-- The one bank is drawn, whatever the free values say. -/
theorem wit_DistributorSteps_draw (a b : Nat) : ([a, b].filterMap
    (fun n => ([0] : List Nat)[Config.freeNat n % ([0] : List Nat).length]?)).eraseDups = [0] := by
  have h (n : Nat) : ([0] : List Nat)[Config.freeNat n % ([0] : List Nat).length]? = some 0 := by simp [Nat.mod_one]
  simp only [List.filterMap_cons, List.filterMap_nil, h]
  decide

/-- The launch to dispatch, local to its die and spanning two dies. -/
def stage1 : Stage := { entry := 0, minrep := 1, maxrep := 1, tile := false, dies := [1], spad := 0, near := 0, fmt := 0, scla := 0, sclb := 0 }
def spanning0 : Launch := { launch0 .bank with record := { record0 with stages := [stage1] } }
theorem wit_DistributorSteps_dispatch :
    ({ dist (launcher 0) with launches := [launch0 .bank] } : State).launches.find? (fun m => m.id == (launch0 .bank).id) = some (launch0 .bank) ∧
    ({ dist (launcher 0) with launches := [launch0 .bank] }).chainCancelled 0 0 record0 = false ∧
    (∀ g ∈ record0.stages, g.minrep ≤ g.maxrep ∧ g.maxrep ≤ 16) ∧ (launch0 .bank).isLocal = true ∧ spanning0.isLocal = false ∧
    ({ dist (launcher 0) with launches := [spanning0] }).chainCancelled 0 0 spanning0.record = false ∧
    record0.stages[replica0.stage]? = some { stage1 with dies := [0] } := by decide +kernel

/-- A cancel of the object of a launch that has no reservation yet, and of one that is complete; the object ends. -/
def cancelling (p : Phase) : State := { dist (launcher 0) with launches := [{ launch0 p with id := 1 }, launch0 p] }
theorem wit_DistributorSteps_cancel : (cancelling .slot).objAt 0 0 record0.obj = some 128 ∧
    (record0.chain.any (fun y => (cancelling .slot).objAt 0 0 y.1 == some 128)) = true ∧
    (cancelling .complete).lvTerminal 128 = false ∧ ((cancelling .complete).wr 153 1 3).lvTerminal 128 = true ∧
    (cancelling .slot).memOk ∧ (cancelling .slot).lvParent 128 = 0 ∧ (launch0 .complete).doomed = false ∧ replica0.gone = false := by
  refine ⟨by decide +kernel, by decide +kernel, by decide +kernel, by decide +kernel, ?_, by decide +kernel, by decide, by decide⟩
  exact show memWf (cancelling .slot).mem = true by decide +kernel

/-- Two launches of a bank, of which one was released. -/
theorem wit_DistributorSteps_front : [launch0 .bank, { launch0 .bank with id := 1, front := true }].filter (·.front) =
    [{ launch0 .bank with id := 1, front := true }] := by decide
theorem wit_DistributorSteps_share_fields : waiting0.shares = 0 :: [] ∧ waiting0.spanning = false ∧ waiting0.at_ = .slot ∧
    slotted.launches.find? (fun m => m.id == waiting0.id) = some waiting0 := by decide

/-- A wake for a context that is FREE, and one of an older generation. -/
theorem wit_StrandSteps_stale : (State.reset.ctx 1).life = .free ∧ (5 : BitVec 12) ≠ ((asleep (.retry [])).ctx 1).gen ∧
    (((asleep (.retry [])).ctx 1).home.getD 1) = 1 := by decide

/-- A key that a notice names: a context registered for it, an attempt that holds it, and one that holds it with the token. -/
def noted (sole : Bool) : State := (user.modMe (fun x => { x with tx := { x.tx with active := true, sole := sole, reads := [.line 5], txbpc := 8 } })).modTil 0
  (fun t => { t with wake := [{ key := .line 5, ctxs := [2], tils := [], overflow := false }], buckets := [{ index := bucketOf (.line 5), ctxs := [3], tils := [] }] })
theorem wit_StrandSteps_notice (sole : Bool) : (noted sole).tablesOk ∧ ((noted sole).til 0).wake = [{ key := .line 5, ctxs := [2], tils := [], overflow := false }] ∧
    regKey (.line 5) = .line 5 ∧ regKey (.chan 5) = .line 5 ∧ ((noted sole).ctx 1).tx.active = true ∧ .line 5 ∈ ((noted sole).ctx 1).tx.reads ∧
    ((noted sole).ctx 1).tx.sole = sole ∧ ((noted sole).ctx 2).tx.active = false ∧ tilOf 1 = 0 := by
  cases sole <;> exact ⟨⟨rfl, rfl, rfl, rfl⟩, rfl, rfl, rfl, rfl, by decide, rfl, rfl, rfl⟩

/-- Messages held for a box with room for some, for another box, and a context that waits to post. -/
def holding : State := (user.modCore 0 (fun k => { k with held := [(2, message), (0, message), (2, message)]
                                                          mis := List.replicate (boxCap 2 - 1) message })).modMe (fun x => { x with wait := .post 0 2 })
theorem wit_StrandSteps_held : ((holding.core 0).held.filter (fun h => h.1 == 2)).length = 2 ∧ boxCap 2 - ((holding.core 0).box 2).length = 1 ∧
    (holding.core 0).held.filter (fun h => h.1 != 2) = [(0, message)] ∧ (holding.ctx 1).wait = .post 0 2 := by decide +kernel

/-- Among sixteen contexts, one holds the ticket that is called. -/
def ticketing : State :=
  { (State.reset.modTil 0 (fun t => { t with landing := { t.landing with reserved := [5] } })) with
    ctxs := [(0, Ctx.reset 0), (1, ticketed), (2, Ctx.reset 2), (15, Ctx.reset 15)] }
theorem wit_StrandSteps_recall : ticketing.tablesOk ∧ tget ticketing.ctxs 1 = some ticketed ∧ ticketed.wait = .ticket ∧ ticketed.refused = some 0 ∧
    ticketed.ticket ∈ (ticketing.til 0).landing.reserved ∧
    (∀ e y, tget ticketing.ctxs e = some y → y.wait = .ticket → y.refused = some 0 → y.ticket ∈ (ticketing.til 0).landing.reserved → e = 1) := by
  refine ⟨⟨rfl, rfl, rfl, rfl⟩, rfl, rfl, rfl, by decide, fun e y h w _ _ => ?_⟩
  simp only [ticketing, tget] at h
  split at h
  · cases h; cases w
  split at h
  · rename_i h1; exact h1
  split at h
  · cases h; cases w
  split at h <;> [(cases h; cases w); cases h]

/-- A producer end that waits for the ring's credit. -/
def thirsty : State := (chan true).setRing { (chan true).ringX ringLoc with
  geo := some ((chan true).geometry ringLoc), waiters := [(1, 0)], dry := [(1, 0)] }
def granted1 : State :=
  (((thirsty.setCredit 1 0 ringLoc (thirsty.credit 1 0 ringLoc + 1)).rPut ringLoc 44 (thirsty.rGrant ringLoc + 1))).changeChan
    (thirsty.endLoc 1 0)
theorem wit_UnitSteps_credit : (thirsty.ringX ringLoc).waiters = [(1, 0)] ∧ (thirsty.ringX ringLoc).dry = [(1, 0)] ∧
    isXring ringLoc = false ∧ 0 < thirsty.rFree ringLoc ∧ thirsty.rXord ringLoc = false ∧ thirsty.tokenOn 1 ringLoc = false ∧
    (thirsty.ringX ringLoc).geo ≠ none ∧ thirsty.port.inbox = [] ∧ granted1.diverted ringLoc = false ∧ 1 < 2 ^ 16 ∧
    (granted1.ctx 1).asleep = false ∧ granted1.rXord ringLoc = false ∧ (granted1.ringX ringLoc).waiters = [(1, 0)] ∧
    (granted1.ringX ringLoc).dry = [(1, 0)] ∧ granted1.credit 1 0 ringLoc ≠ 0 := by decide +kernel

/-- An element on its way to another module, whose port is up, and down. -/
theorem wit_UnitSteps_peer : isXring (xring 7 0) = true ∧ linked.portDown (xringModule (xring 7 0)) = false ∧
    ({ linked with port := { linked.port with portsDown := [3] } } : State).portDown (xringModule (xring 7 0)) = true := by decide +kernel

/-- What of the operands is staged already: none, and all of A. -/
theorem wit_UnitSteps_blocks : (needOf int8 int8.a 0).filter (fun k => !((stager.slotBuffer 0 0 (stager.til 0).stageA).held).contains k) ≠ [] ∧
    ((needOf int8 int8.a 0).filter (fun k => !((stager.slotBuffer 0 0 (some (stager.stageSlot 0 0 none (needOf int8 int8.a 0)))).held).contains k))
      = [] ∧ (stager.til 0).heldBy 1 ≠ [] ∧ (stager.ctx 1).formatOf 6 = some int8 := by decide +kernel

/-- A ring whose consumer is SAVED, and the spill queue of its partition, which has no room. -/
def parked : State := (flying ringLoc).modCtx 1 (fun x => { x with life := .saved, bind := x.bind.setIfInBounds 0 (BitVec.ofNat 64 (bindWord false 0 true 0 0)) })
theorem wit_UnitSteps_spill : parked.diverted ringLoc = true ∧
    parked.spillCap (parked.partOf (ringTil ringLoc)) < parked.spillUsed (parked.partOf (ringTil ringLoc)) + 16 ∧
    parked.rVector ringLoc = false := by decide +kernel

/-- Time: a context that is ready, the one that the pointer names, a withheld cycle, and results. -/
def readyNow : State := { fetching 0x0B39D000 with issue := none, cur := 0 }
theorem wit_ClockCycle_ready : readyNow.nextWord 0 = .word 0x0B39D000 ∧ readyNow.isReady 0 = true ∧
    decode 0x0B39D000 = .ok (.or 7 7 8 0) ∧ (readyNow.ctx 0).framed = false ∧ readyNow.active 0 = true ∧ (readyNow.ctx 0).ready = [] ∧
    (readyNow.ctx 0).lastIssue = none ∧ (0 * 16 + ((readyNow.core 0).rot.toNat + 0) % 16) = 0 ∧
    (readyNow.die 0).throt.toNat ≤ (readyNow.core 0).cycle.toNat % 16 ∧
    ¬((readyNow.modDie 0 (fun d => { d with throt := 15 })).die 0).throt.toNat ≤ (readyNow.core 0).cycle.toNat % 16 := by decide +kernel
theorem wit_ClockCycle_results : readyNow.completed (after (exec (.or 7 7 8 0) readyNow)) 0 = true ∧
    (asleep .none).completed (after (exec (.sysc 0) (asleep .none))) 1 = false ∧ (readyNow.ctx 0).endOf (.s 7) = none ∧
    ((chan true).ctx 1).endOf (.s (24 : BitVec 5).toNat) ≠ none := by decide +kernel

/-- Headers of commands: one of no OP that is served under another, one whose length is not its body's, the last OP's. -/
def header (op : Nat) : SendHeader := { op := op, tag := 0xFFFF, len := 64, body := 64, ok := true }
theorem wit_PortRequests_headers : (header 1).good 1 = true ∧ (header 11).good 11 = true ∧ (header 12).op ≠ 11 ∧
    ({ header 7 with len := 63 } : SendHeader).len ≠ ({ header 7 with len := 63 } : SendHeader).body ∧
    commands 63 (header 1) (.partCreate 63 (header 1) 0 part0) = some (.partCreate, 1) ∧
    commands 63 (header 11) (.clkset 63 (header 11) 3 15) = some (.clkset, 11) := ⟨rfl, rfl, by decide, by decide, rfl, rfl⟩
/-- A queue pair past the last, one in the error state, a swap that is pending, and an image load before and at its end. -/
theorem wit_PortRequests_states : 5 ∈ ({ Port.reset with broken := [5] } : Port).broken ∧
    ({ asked (.shutdown 0x4C) with port := { (asked (.shutdown 0x4C)).port with swap := some (1, header 3, [0]) } } : State).port.swap ≠ none ∧
    (0x4C = (0x4C : BitVec 7) ∨ Port.reset.i3c = some 0x4C) ∧ ¬((0x4D : BitVec 7) = 0x4C ∨ Port.reset.i3c = some 0x4D) ∧
    ({ asked (.shutdown 0x4C) with port := { Port.reset with loading := some (1, header 8, [], 1) } } : State).port.loading =
      some (1, header 8, [], 1) ∧ ((asked (.shutdown 0x4C)).core 0).cycle.toNat < (1 : Word).toNat ∧
    (0 : Word).toNat ≤ ((asked (.shutdown 0x4C)).core 0).cycle.toNat := by decide

/-- Commands behind a swap of their queue pair, and of another. -/
theorem wit_PortRequests_behind : ({ Port.reset with swap := some (1, header 3, [0]) } : Port).blocked (.hold 1 (header 4) 0) = true ∧
    ({ Port.reset with swap := some (1, header 3, [0]) } : Port).blocked (.hold 2 (header 4) 0) = false ∧
    ({ Port.reset with swap := some (1, header 3, [0]) } : Port).blocked (.partSwap 2 (header 3) [0]) = false ∧
    commands 1 (header 4) (.hold 1 (header 4) 0) ≠ none := by decide

/-- The ends of the ranges of types and lanes; a sum that clamps; the one lane that each kind of pattern needs. -/
theorem wit_IntegerLanes : isFloat 12 = false ∧ isFloat 0 = false ∧ 255 < 2 ^ widthOf 7 ∧ 2 ^ 64 - 1 < 2 ^ widthOf 11 ∧
    isFloat 7 = false ∧ isFloat 11 = false := by decide
theorem wit_FloatLanes : isFloat 10 = true ∧ isFloat 2 = true ∧ 0x7F < 2 ^ widthOf 9 ∧ finiteOf (fmtOf 9) 0x7E = true ∧
    nanOf (fmtOf 9) 0x7F = true ∧ finiteOf (fmtOf 2) 0x7F7FFFFF = true ∧ infOf (fmtOf 2) 0xFF800000 = true ∧
    nanOf (fmtOf 2) 0x7F800001 = true ∧ signalOf (fmtOf 2) 0x7F800001 = true ∧ signalOf (fmtOf 2) 0x7FC00000 = false ∧
    negOf (fmtOf 2) 0xFF800000 = true ∧ infOf (fmtOf 10) 0x7C = true ∧ finiteOf (fmtOf 10) 0 = true := by decide +kernel
/-- Zeros, which no real lane exceeds; infinities of both signs beside a finite and a NaN pattern of FP32. -/
theorem wit_FloatLanes_ends : realOf (fmtOf 2) 0 = 0 ∧ nanOf (fmtOf 2) 0x80000000 = false ∧ negOf (fmtOf 2) 0x80000000 = true ∧
    infOf (fmtOf 2) 0x7F800000 = true ∧ negOf (fmtOf 2) 0x7F800000 = false ∧ finiteOf (fmtOf 2) 0x3F800000 = true ∧
    realOf (fmtOf 2) 0x3F800000 ≠ 0 ∧ infinity (fmtOf 2) true = 0xFF800000 ∧ turned (fmtOf 2) 0x7F800000 = 0xFF800000 := by
  refine ⟨?_, by decide +kernel, by decide +kernel, by decide +kernel, by decide +kernel, by decide +kernel, ?_, by decide +kernel,
    by decide +kernel⟩ <;> norm_num [realOf, fmtOf, BF16, FP32, FP16]
theorem real_one : realOf (fmtOf 2) 0x3F800000 = 1 ∧ realOf BF16 0x3F80 = 1 := by
  constructor <;> norm_num [realOf, fmtOf, BF16, FP32, FP16]

/-- A unit of one command: a load, a geometry, INT8, ternary and BF16 products of ones, a sparse product, a store of one row. -/
def ones : List Byte := [0x80, 0x3F]
def commanded (op : TileOp) : State := (tilerAt.queued 7 op).modTil 0 (fun t => { t with geom := t.geom.setIfInBounds 7 0x0101 })
def cmd7 (op : TileOp) : TileCmd := { acc := 7, cid := 1, sid := tilerAt.sid 1, pc := tilerAt.me.pc, op := op }
theorem wit_TileCompletions_op : ∀ op ∈ [TileOp.load [] false, .geom 0x0101, .mul 6 64 true [] [] [] [] false, .mul 0 1 false ones ones [] [] false,
    .sparse true [(0, 0, 1)] [1] 63 false false, .store 64 64 0 0 true false], ((commanded op).til 0).cmds = [cmd7 op] := by
  decide +kernel
theorem wit_TileCompletions_edge : ((commanded (.geom 0x0101)).til 0).edge 7 = (1, 1) ∧ 7 < 8 := by decide +kernel
theorem wit_TileCompletions_real : mulFmt 0 = some { a := .typed 3, b := .typed 3, k := 32, int := false, scaled := false } ∧
    (3 : Nat) ≠ 7 ∧ finiteOf FP32 (((commanded (.mul 0 1 false ones ones [] [] false)).til 0).elem 7 0).toNat = true ∧
    natAt ones.toArray 0 2 = 0x3F80 ∧ finiteOf BF16 0x3F80 = true ∧ (0 : Int) ≠ -128 ∧
    [(0, 0, 0x3F80)].filter (fun p : Nat × Nat × Nat => p.1 == 0) ≠ [] ∧ (0x3F80 : Nat) < 2 ^ 16 := by decide +kernel
theorem wit_TileCompletions_sum : realOf FP32 0 + ([0].map (fun _ => realOf (fmtOf 3) 0x3F80 * realOf (fmtOf 3) 0x3F80)).sum * 2 ^ ((0 : Int) + 0) ≠ 0 := by
  norm_num [realOf, fmtOf, BF16, FP32, FP16]

theorem wit_TileCompletions_store : (commanded (.store 64 64 0 0 true false)).memOk ∧ (1 : Nat) * (widthOf 0 / 8) ≤ 64 ∧
    64 + 31 * 64 + 32 * (widthOf 0 / 8) ≤ 2 ^ 20 ∧
    OrdinaryRows 0 1 (((commanded (.store 64 64 0 0 true false)).til 0).storeRows 7 64 64 0 0 true false)
      ((commanded (.store 64 64 0 0 true false)).modTil 0 (fun x => { x with cmds := [] })) ∧
    (commanded (.store 64 64 0 0 true false)).sid 1 = tilerAt.sid 1 :=
  ⟨rfl, by decide, by decide, ⟨ordinary_of _ _ _ (by decide +kernel) (by decide +kernel) (by decide +kernel) (by decide +kernel)
    (by decide +kernel) (by decide +kernel), trivial⟩, by decide +kernel⟩

/-! ### Witnesses: waits, ends, engines and charges -/

/-- A multiply chosen before its operands are staged: the lessee's TMMA. One chosen that waits for nothing. -/
theorem wit_StepRunsDecoded_staging : ({ stager with issue := some 1 } : State).nextInstr 1 = some (.tmma 0 15 7 31 6 1 1) ∧
    stager.tileWaits 1 (.tmma 0 15 7 31 6 1 1) = true ∧ stager.active 1 = true ∧
    (fetching 0x0B39D000).nextInstr 0 = some (.or 7 7 8 0) ∧
    ({ fetching 0x0B39D000 with issue := none } : State).tileWaits 0 (.or 7 7 8 0) = false := by decide +kernel

/-- A wave of context 1 that waits. -/
def wave1 : Wave := { cid := 1, regs := [1], sent := [], spad := 8, at_ := 8, banks := [0], late := none }
/-- Nothing outstanding, and a store; contexts that EXIT has made wait. -/
theorem wit_StrandEnds_waits : ¬user.Outstanding 1 ∧ outstanding.Outstanding 1 ∧ Ready (.exit 0 5 1) outstanding outstanding ∧
    ((asleep (.ending 5)).ctx 1).wait = .ending 5 ∧ ((asleep (.ending 5)).core 0).reqs = [] ∧ ((asleep (.ending 5)).core 0).waves = [] ∧
    (((asleep (.ending 5)).modCore 0 (fun k => { k with waves := [wave1] })).core 0).waves.any
      (fun w => w.cid == 1) = true := by
  refine ⟨?_, Or.inl ⟨store1, ?_, by decide, by decide⟩, ⟨rfl, rfl⟩, by decide, by decide, by decide, by decide⟩
  · rintro (⟨q, h, -⟩ | ⟨w, h, -⟩)
    · rw [show (user.core (coreOf 1)).reqs = [] by decide] at h; cases h
    · rw [show (user.core (coreOf 1)).waves = [] by decide] at h; cases h
  · rw [show (outstanding.core (coreOf 1)).reqs = [store1] by decide]; exact List.mem_singleton.2 rfl

/-- A MIG strand at an address of tiller 1. -/
def moving (s : State) : State := s.modMe (fun x => { x.setS 2 (BitVec.ofNat 64 (0xF0 * 2 ^ 56 + 2 ^ 32)) with mig := true })
theorem wit_AccessChecks_mig : ∀ s ∈ [moving user, moving outstanding], Ready (.ld 1 2 0) s s ∧ s.me.mig = true ∧
    s.place s.myTil (BitVec.ofNat 64 (0xF0 * 2 ^ 56 + 2 ^ 32)) = some (.near 1 0) ∧ 1 ≠ s.myTil ∧ s.me.tx.active = false ∧
    Reads 2 s (BitVec.ofNat 64 (0xF0 * 2 ^ 56 + 2 ^ 32)) s := by
  simp only [List.mem_cons, List.not_mem_nil, or_false, forall_eq_or_imp, forall_eq]
  exact ⟨⟨⟨rfl, rfl⟩, by decide, by decide +kernel, by decide, by decide, rfl⟩, ⟨rfl, rfl⟩, by decide, by decide +kernel, by decide, by decide, rfl⟩
theorem wit_AccessChecks_outstanding : ¬(moving user).Outstanding 1 ∧ (moving outstanding).Outstanding 1 := by
  refine ⟨?_, Or.inl ⟨store1, ?_, by decide, by decide⟩⟩
  · rintro (⟨q, h, -⟩ | ⟨w, h, -⟩)
    · rw [show ((moving user).core (coreOf 1)).reqs = [] by decide] at h; cases h
    · rw [show ((moving user).core (coreOf 1)).waves = [] by decide] at h; cases h
  · rw [show ((moving outstanding).core (coreOf 1)).reqs = [store1] by decide]; exact List.mem_singleton.2 rfl

theorem wit_GlobalAccess_posts : (with2 0).boxRoom (coreOf 1) 2 = true ∧ (with2 0).boxRoom ((with2 0).service (tilOf 1)) 1 = true := by
  decide

theorem wit_CachesAndFences_attempt : Ready (.fence 3 1) (attempt user) (attempt user) ∧ (attempt user).me.tx.active = true :=
  ⟨⟨rfl, rfl⟩, rfl⟩

/-- A ring whose control block has a reserved bit set, which the device does not take up; an XORD ring half full, and the
producer of a group far on. -/
def badRing : State := (chan true).wr (ringLoc + 48) 4 (2 ^ 31 + 32)
def crowded : State := (reserved.wr (ringLoc + 48) 4 (32 + 4)).modMe (fun x => { x with group := some 64 })
theorem wit_RingNumbers_waits : ∃ n, badRing.reserveRing 1 0 = some ringLoc ∧ Ready (.rres 1 0 4 1) badRing badRing ∧
    ((badRing.adopt ringLoc).ringX ringLoc).geo = none ∧ 4 ≤ n ∧
    (badRing.adopt ringLoc).rDepth ringLoc + (badRing.adopt ringLoc).rXsize ringLoc = n ∧
    (crowded.ringX ringLoc).resv.contains (1, 0, 0) = true ∧ crowded.xordAccepts ringLoc crowded.me.group 0 = false :=
  ⟨4, by decide +kernel, ⟨rfl, rfl⟩, by decide +kernel, by decide, by decide +kernel, by decide +kernel, by decide +kernel⟩

/-- One end named as both sources: with one element, with two, and with an awn as the second or the first; and a source that is
empty beside a destination of another end. -/
def chan2 (x y : Elem) : State :=
  (((chan1 false x).wr (ringLoc + 8) 8 (2 * 2 ^ 32 + 2)).fillSlot ringLoc 1 1 y 0).setRing { (chan1 false x).ringX ringLoc with pubd := [0, 1] }
theorem wit_EndsThatStop_twice : rowCheck (.add 1 24 24 0) (chan1 false seven) = .ok ((), chan1 false seven) ∧
    (chan1 false seven).endHead 1 0 0 = .elem seven ∧ (chan1 false seven).endHead 1 0 1 = .empty ∧
    rowCheck (.add 1 24 24 0) (chan1 false held6) = .ok ((), chan1 false held6) ∧
    rowCheck (.add 1 24 24 0) (chan2 seven held6) = .ok ((), chan2 seven held6) ∧ (chan2 seven held6).endHead 1 0 0 = .elem seven ∧
    (chan2 seven held6).endHead 1 0 1 = .elem held6 :=
  ⟨by decide +kernel, by decide +kernel, by decide +kernel, by decide +kernel, by decide +kernel, by decide +kernel, by decide +kernel⟩
theorem wit_EndsThatStop_two : ∃ v : State, rowCheck (.add 1 24 24 0) (chan2 seven seven) = .ok ((), chan2 seven seven) ∧
    (chan2 seven seven).endHead 1 0 1 = .elem seven ∧ ((chan2 seven seven).endTake 1 0).cur = 1 ∧
    ((chan2 seven seven).endTake 1 0).me.bind = (chan2 seven seven).me.bind ∧ ((chan2 seven seven).endTake 1 0).me.tx.active = false ∧
    ((chan2 seven seven).endTake 1 0).endHead 1 0 0 = .elem seven ∧
    Writes 1 (((chan2 seven seven).endTake 1 0).endTake 1 0) (7 + 7) v :=
  ⟨_, by decide +kernel, by decide +kernel, by decide +kernel, by decide +kernel, by decide +kernel, by decide +kernel, ok_unit (by decide +kernel)⟩

/-- An empty source beside a full destination, which is not under a token. -/
def jammed : State := full.modMe (fun x => { x with bind := x.bind.setIfInBounds 1 (BitVec.ofNat 64 (bindWord false 0 true 0 64)) })
theorem wit_EndsThatStop_both : rowCheck (.addi 24 25 5) jammed = .ok ((), jammed) ∧ jammed.me.endOf (.s 25) = some 1 ∧
    jammed.endHead 1 1 0 = .empty ∧ jammed.tokenBlocks 1 0 = false ∧ filled (jammed.endPut 1 0 dataElem) = true :=
  ⟨rfl, by decide +kernel, by decide +kernel, by decide +kernel, by decide +kernel⟩

theorem wit_VectorFrame_masks : ∃ u v : State, Plain (.vcmp 1 2 3 0 7) user ∧ Plain (.mand 1 2 3) user ∧ Plain (.mnot 1 2) user ∧
    Plain (.vmvs 1 2 3 0) user ∧ Plain (.vpopc 1 2 3 7 7) user ∧ exec (.vcmp 1 2 3 0 7) user = .next u ∧
    exec (.vpopc 1 2 3 7 7) user = .next v :=
  ⟨_, _, ⟨by decide, by decide, by decide⟩, ⟨by decide, by decide, by decide⟩, ⟨by decide, by decide, by decide⟩,
    ⟨by decide, by decide, by decide⟩, ⟨by decide, by decide, by decide⟩, rfl, rfl⟩

/-- A lease that is due, with nobody waiting. -/
theorem wit_TileLease_alone : ((contended.modTil 0 (fun t => { t with lease := { t.lease with waiting := [] } })).til 0).leaseDue
      (contended.core 0).cycle = true ∧ nextLessee 1 [] = none ∧ nextLessee 1 [2, 17] = some 17 := by decide

theorem wit_TileCommands_lease : (∀ j ∈ [Instr.tringWrite 7 15, .tzro 7, .tlda 7 2 0 1, .tsta 7 2 0 1 3 1 0, .tgeo 7 0 0, .spmma 7 2 0 1 0,
      .tmma 0 15 7 31 7 1 1, .tmmt 0 15 7 31 7 1 1], Allowed j user) ∧ Allowed (.tmma 0 15 6 31 7 1 1) (tilerAt.modTil 0 (fun t => { t with holders := [] })) ∧
    (∃ fm, user.me.formatOf 7 = some fm ∧ fm.scaled = true) ∧ user.me.scla.extractLsb' 62 2 ≠ 3 ∧ user.me.sclb.extractLsb' 62 2 ≠ 3 ∧
    ((tilerAt.modTil 0 (fun t => { t with holders := [] })).til 0).leased 1 = true ∧
    6 ∉ ((tilerAt.modTil 0 (fun t => { t with holders := [] })).til 0).heldBy 1 := by
  refine ⟨?_, rfl, ⟨_, rfl, by decide⟩, by decide, by decide, by decide, by decide⟩
  simp only [List.mem_cons, List.not_mem_nil, or_false, forall_eq_or_imp, forall_eq]
  exact ⟨rfl, rfl, rfl, rfl, rfl, rfl, rfl, rfl⟩

/-- One command of each format with INT8 A and with floating operands, with a row that is zero; elements that are NaN; sums of
scaled products that are not zero. -/
theorem wit_TileCompletions_formats : (∀ q ∈ weightProducts, ((commanded (.mul q.1 1 false ones ones [-128, 3] [0] false)).til 0).cmds =
      [cmd7 (.mul q.1 1 false ones ones [-128, 3] [0] false)]) ∧
    (∀ q ∈ floatProducts, ((commanded (.mul q.1 1 false ones ones [0] [-128] false)).til 0).cmds =
      [cmd7 (.mul q.1 1 false ones ones [0] [-128] false)]) ∧
    nanOf FP32 0x7F800001 = true ∧ signalOf FP32 0x7F800001 = true ∧ finiteOf FP32 0 = true ∧ nanOf BF16 0x7F81 = true ∧
    (0 : ℚ) + ((1 : Int) : ℚ) * 2 ^ (3 : ℤ) ≠ 0 := by
  refine ⟨by decide +kernel, by decide +kernel, by decide +kernel, by decide +kernel, by decide +kernel, by decide +kernel, by norm_num⟩

/-- The steward with an entry and a control word. -/
def filler (w : Nat) : State := at_ 0 (fun x => (x.setS 2 0x1F).setS 3 (BitVec.ofNat 64 w))
/-- Malformed words: above the address, a reserved bit, an action past the last, and one for no miss with an action. -/
theorem wit_Translations_bad : ∀ w ∈ [2 ^ 52, 2 ^ 10, 6 * 64, 2 ^ 9 + 64], ∃ v, Ready (.tlbf 1 2 3) (filler w) (filler w) ∧
    Reads 3 (filler w) (BitVec.ofNat 64 w) (filler w) ∧ (2 ^ 52 ≤ w ∨ w / 2 ^ 10 % 2 ^ 6 ≠ 0 ∨ 5 < w / 64 % 8 ∨ w / 2 ^ 9 % 2 = 1 ∧ w / 64 % 8 ≠ 0) ∧
    Writes 1 (filler w) (failCode 4) v := by
  simp only [List.mem_cons, List.not_mem_nil, or_false, forall_eq_or_imp, forall_eq]
  exact ⟨⟨_, ⟨rfl, rfl⟩, rfl, by decide, rfl⟩, ⟨_, ⟨rfl, rfl⟩, rfl, by decide, rfl⟩, ⟨_, ⟨rfl, rfl⟩, rfl, by decide, rfl⟩,
    ⟨_, ⟨rfl, rfl⟩, rfl, by decide, rfl⟩⟩
/-- A context without a miss; and entries that may be installed for none, and may not. -/
theorem wit_Translations_none : ∃ u v w : State, (∀ k l a q, ((filler 1).ctx 1).wait ≠ .miss k l a q) ∧ Writes 1 (filler 1) (failCode 1) u ∧
    unusable 0x1F 1 ((filler (2 ^ 9 + 16)).partOf 0) = true ∧ Writes 1 (filler (2 ^ 9 + 16)) (failCode 2) v ∧
    unusable 0x1F 0 ((filler (2 ^ 9)).partOf 0) = false ∧
    Writes 1 ((filler (2 ^ 9)).installEntry 0 false { va := 0, size := 65536, entry := 0x1F }) 0 w := by
  refine ⟨_, _, _, fun k l a q h => ?_, rfl, by decide +kernel, rfl, by decide +kernel, ok_unit (by decide +kernel)⟩
  have : ((filler 1).ctx 1).wait = .none := by decide
  rw [this] at h; cases h
theorem wit_Translations_message : (walking 5).boxRoom ((walking 5).service (tilOf 1)) 1 = true ∧ ((walking 5).ctx 1).tx.active = false ∧
    ((walking 5).ctx 1).wait = .miss .load 0 65536 false := by decide

/-- What a save writes its header over, with an area of one page. -/
theorem wit_SaveAndRestore_header : [0].Nodup ∧ (∀ x ∈ [0], x % 4096 = 0 ∧ x < 2 ^ 50) ∧ saver.memOk ∧ saver.partOf 0 < 256 ∧
    ((saver.parkAll 0).imprint [0] (saver.partOf 0)).1.Ordinary 0 24 :=
  ⟨by decide, by decide, rfl, by decide, ordinary_of _ _ _ (by decide +kernel) (by decide +kernel) (by decide +kernel)
    (by decide +kernel) (by decide +kernel) (by decide +kernel)⟩
/-- A save of a strand of a TILE stage, for a tile unit that nobody owns. -/
def tileCtx : Ctx := { Ctx.reset 1 with tile := true, life := .stopped }
theorem wit_SaveAndRestore_tile : tget ({ image0 with mask := 2, ctxs := [(1, tileCtx)] } : Saved).ctxs (0 * 16 + 1) = some tileCtx ∧
    tileCtx.tile = true ∧ tileCtx.life ≠ .exited ∧ (saver.til 0).owner = none ∧ 2 = 2 ^ 1 :=
  ⟨rfl, rfl, by decide, by decide, rfl⟩

/-- Registers that are only read; a tiller with and without an access in flight, and with a change that waits. -/
theorem wit_SpecialRegisters_quiet : Ready (.mts 2 0x15) (with2 255) (with2 255) ∧ Ready (.mts 2 0x30) (with2 255) (with2 255) ∧
    clerk.inFlight 0 = false ∧ (clerk.til 0).newL1 = none ∧ (clerk.til 0).newSwz = none ∧
    (clerk.modCore 0 (fun k => { k with reqs := [store1] })).inFlight 0 = true ∧
    ((clerk.modTil 0 (fun t => { t with newL1 := some 2 })).til 0).newL1 = some 2 ∧
    (clerk.modTil 0 (fun t => { t with newL1 := some 2 })).inFlight 0 = false ∧
    ((clerk.modTil 0 (fun t => { t with newSwz := some 1 })).til 0).newL1 = none ∧
    (clerk.modTil 0 (fun t => { t with newSwz := some 1 })).inFlight 0 = false :=
  ⟨⟨rfl, rfl⟩, ⟨rfl, rfl⟩, by decide, by decide, by decide, by decide, by decide, by decide, by decide, by decide⟩

/-- A spanning launch before its first share, where the die has too little energy for it, and enough; and one whose object is
cancelled as it takes a share. -/
def spans : Launch := { waiting0 with spanning := true, shares := [0, 1], record := { record0 with energy := 7 } }
def spanned (budget : Nat) : State := { slotted.modDie 0 (fun d => { d with budget := BitVec.ofNat 3 budget }) with launches := [spans] }
theorem wit_DistributorSteps_spanning : spans.shares = 0 :: [1] ∧ (spanned 6).launches.find? (fun m => m.id == spans.id) = some spans ∧
    (spanned 6).eligible spans 0 = false ∧ (spanned 6).age spans < 65536 ∧ (spanned 7).eligible spans 0 = true ∧
    ((spanned 7).takeShare spans 0).isSome = true ∧ (({ dist (launcher 0) with launches := [waiting0] } : State).takeShare waiting0 0).isNone = true ∧
    ((slotted.wr 154 1 1).takeShare waiting0 0).all (fun t => t.chainCancelled 0 0 record0) = true := by decide +kernel

/-- The strand of context 0 at the watchdog's limit; a home that is SAVED; a ticket that was called; a second migrant behind one
that is still on its way; a queue whose tickets are not yet served. -/
def late0 : State := ((at_ 0 (fun x => { x with life := .running, wait := .sleep 2 [.tags 0], slept := 65536 })).modCore 0 (fun k => { k with wdog := 1 }))
theorem wit_StrandSteps_privileged : late0.overdue 0 = true ∧ privileged 0 = true ∧ (asleep (.sleep 2 [.tags 0])).boxRoom (coreOf 1) 0 = true ∧
    ((asleep (.sleep 2 [.tags 0])).ctx 1).home = none := by decide +kernel
def later1 : Migrant := { migrant 129 with due := 9 }
def ticketed5 : Migrant := { migrant 65 with ticket := 5 }
def landings (l : Landing) : State := user.modTil 0 (fun t => { t with landing := l })
theorem wit_StrandSteps_land_more : (((landing (migrant 1)).modCtx 1 (fun x => { x with life := .saved })).ctx 1).life = .saved ∧
    ((landings { user.til 0 |>.landing with arriving := [later1, migrant 65] }).til 0).landing.arriving = [later1] ++ migrant 65 :: [] ∧
    migrant 65 ∉ [later1] ∧ (∀ x ∈ [later1], ((landing (migrant 65)).core (0 * 4)).cycle.toNat < x.due.toNat) ∧
    (migrant 65).due.toNat ≤ ((landing (migrant 65)).core (0 * 4)).cycle.toNat ∧ (migrant 65).doomed = false ∧
    ticketed5.ticket ≠ 0 ∧ ticketed5.ticket ∈ ({ user.til 0 |>.landing with reserved := [5] } : Landing).reserved ∧
    ({ user.til 0 |>.landing with tnext := 2, tserve := 1 } : Landing).tserve ≠ ({ user.til 0 |>.landing with tnext := 2, tserve := 1 } : Landing).tnext ∧
    ticketing.quiet = true := by decide +kernel

theorem unasked_of (s : State) (ring : Nat) (h : s.port.inbox = []) : s.Unasked ring := fun q rest e => by rw [h] at e; cases e
theorem wit_UnitSteps_unasked : (flying ringLoc).Unasked ringLoc ∧ thirsty.Unasked ringLoc ∧ parked.Unasked ringLoc :=
  ⟨unasked_of _ _ (by decide +kernel), unasked_of _ _ (by decide +kernel), unasked_of _ _ (by decide +kernel)⟩

/-- An element of another module for the ring; an end that a failed port has cut off, and one bound since. -/
def visited : State := { chan true with port := { Port.reset with inbox := [.peerElement 7 (2 ^ 9 * 2 ^ 10) none seven] } }
def severed (n : Nat) : State := { linked with port := { linked.port with failures := [3] } }.modCtx 1
  (fun x => { x with boundAt := x.boundAt.setIfInBounds 0 n })
theorem wit_UnitSteps_visitor : visited.portDown 7 = false ∧ visited.flights = [] ∧
    visited.diverted (refRing (2 ^ 9 * 2 ^ 10)) = false ∧ isXring (refRing (2 ^ 9 * 2 ^ 10)) = false ∧
    (∃ p ∈ (severed 0).port.failures.drop (((severed 0).ctx 1).boundAt.toList.getD 0 0), ∃ q ∈ (severed 0).port.peers,
      q.1 = xringModule (xring 7 5) ∧ q.2.1 = p) ∧
    (severed 1).port.failures.drop (((severed 1).ctx 1).boundAt.toList.getD 0 0) = [] := by decide +kernel

theorem moves_somewhere (ring n : Nat) : ∀ s, ∃ t, MovesIn ring n s t := by
  induction n with
  | zero => intro s; exact ⟨s, rfl⟩
  | succ n ih =>
    intro s
    cases h : s.moveOne ring with
    | none => exact ⟨s, Or.inl ⟨h, rfl⟩⟩
    | some u => obtain ⟨t, ht⟩ := ih u; exact ⟨t, Or.inr ⟨u, h, ht⟩⟩
/-- Whatever state, elements move until a state is reached. -/
theorem wit_UnitSteps_moves (s : State) (ring : Nat) : ∃ t, MovesIn ring (s.ringX ring).ext.length s t := moves_somewhere ring _ s

/-- A ring of depth 4 with an element in its extension whose number falls into the window, and one whose does not. -/
def ext1 (n : Nat) : ExtElem := { seq := n, idx := 0, x := seven, grp := none }
def extended (xord : Bool) (f : Ring → Ring) : State :=
  let s := (chan true).wr (ringLoc + 48) 4 (if xord then 36 else 32)
  s.setRing (f { s.ringX ringLoc with ext := [ext1 4, ext1 3] })
theorem wit_UnitSteps_falls : (extended false id).rXord ringLoc = false ∧ ((extended false id).ringX ringLoc).ext = [ext1 4] ++ ext1 3 :: [] ∧
    (∀ g ∈ [ext1 4], ¬sdiff g.seq ((extended false id).rLow ringLoc) < (extended false id).rDepth ringLoc) ∧
    sdiff (ext1 3).seq ((extended false id).rLow ringLoc) < (extended false id).rDepth ringLoc ∧ 0 < (extended false id).rDepth ringLoc := by
  decide +kernel
theorem wit_UnitSteps_xord : (extended true id).rXord ringLoc = true ∧ (extended true id).rDepth ringLoc = 4 ∧
    ((extended true id).ringX ringLoc).slots = [] ∧ (∀ f ∈ ((extended true id).ringX ringLoc).ext, f.seq ∉ ((extended true id).ringX ringLoc).order) ∧
    ((extended true id).ringX ringLoc).looseInWindow + 1 ≤ (4 + 1) / 2 ∧ 0 < Machine.sdiff 4 3 ∧ (([ext1 4, ext1 3].map (·.seq)).Nodup) ∧
    (∀ k, k < 4 → ∃ p ∈ ((extended true (fun y => { y with slots := [(0, 0), (1, 1), (2, 2), (3, 5)] })).ringX ringLoc).slots, p.1 = k) ∧
    (4 + 1) / 2 ≤ ((extended true (fun y => { y with slots := [(0, 0), (1, 1)], loose := [(0, 9), (1, 9)] })).ringX ringLoc).looseInWindow ∧
    ((extended true (fun y => { y with order := [8, 4] })).ringX ringLoc).order = [8] ++ (ext1 4).seq :: [] ∧
    (∀ f ∈ ((extended true (fun y => { y with order := [8, 4] })).ringX ringLoc).ext, f.seq ∉ [8]) := by decide +kernel
theorem wit_UnitSteps_memory : (extended false id).memOk ∧ (extended true id).memOk :=
  ⟨show memWf (extended false id).mem = true by decide +kernel, show memWf (extended true id).mem = true by decide +kernel⟩

/-- Heads of the merge unit: pairs of index and value, and end markers; in each of its modes. -/
def pair (n w : Nat) : Elem := { awn := false, data := BitVec.ofNat 512 (n * 2 ^ 32 + w) }
theorem wit_UnitSteps_decide : merge0.mmode.toNat % 4 = 0 ∧ ({ merge0 with mmode := 2 } : Merge).mmode.toNat % 4 = 2 ∧
    (∃ n, ({ merge0 with lasta := some 5 } : Merge).lasta = some n ∧ (pair 5 0).data.toNat / 2 ^ 32 % 2 ^ 32 ≤ n) ∧ merge0.lasta = none ∧
    held6.awn = true ∧ (awnElem 5 0).level < held6.level ∧ (pair 5 1).data.toNat / 2 ^ 32 % 2 ^ 32 < (pair 6 1).data.toNat / 2 ^ 32 % 2 ^ 32 ∧
    ({ merge0 with mmode := 8 } : Merge).mmode.getLsbD 3 = true ∧ ({ merge0 with mmode := 4 } : Merge).mmode.getLsbD 2 = true ∧
    merge0.ina ≠ none ∧ merge0.inb ≠ none ∧ merge0.out ≠ none ∧ merge0.bufo.length < 32 ∧ merging.memOk :=
  ⟨by decide, by decide, ⟨5, rfl, by decide +kernel⟩, rfl, rfl, by decide +kernel, by decide +kernel, by decide, by decide, by decide, by decide,
    by decide, by decide, rfl⟩

/-- A tile of two rising coordinates, of two equal ones, and one whose coordinates lie in no scratchpad. -/
def tile2 (a b : Nat) : State := ((directory.wr (locSpad 0 128) 8 (2 * 2 ^ 32)).wr (locSpad 0 1024) 2 a).wr (locSpad 0 1026) 2 b
theorem wit_UnitSteps_compile : (tile2 5 1023).place 0 (BitVec.ofNat 64 ((tile2 5 1023).rd (locSpad 0 64) 8)) = some (.near 0 1024) ∧
    (tile2 5 1023).poisoned (locSpad 0 64) 64 = false ∧ (tile2 5 1023).rd (locSpad 0 128 + 4) 2 = 2 ∧
    (tile2 5 1023).rd (locSpad 0 128 + 8) 4 = 0 ∧ (tile2 5 1023).rd (locSpad 0 1024) 2 = 5 ∧ (tile2 5 1023).rd (locSpad 0 1026) 2 = 1023 ∧
    (tile2 5 5).rd (locSpad 0 1026) 2 ≤ (tile2 5 5).rd (locSpad 0 1024) 2 ∧ 1024 + 2 * 2 ≤ ((tile2 5 1023).til 0).spadSize ∧
    (tilerAt.place 0 (BitVec.ofNat 64 (tilerAt.rd (locSpad 0 64) 8))) = some (.global 0) := by decide +kernel

/-- A context that has kept its word; a state in which nothing is to come later. -/
theorem wit_ClockCycle_kept : (∃ v, ((ready0 0x0B39D000).ctx 0).word = some (((ready0 0x0B39D000).ctx 0).pc, v)) ∧
    (∀ y ∈ State.reset.rings, y.soon = []) ∧ (∀ til, (State.reset.til til).intake = []) ∧
    ∀ c code, (State.reset.ctx c).wait ≠ .ending code :=
  ⟨⟨0x0B39D000, by decide +kernel⟩, by decide, fun _ => rfl, fun c code h => by
    have : (State.reset.ctx c).wait = .none := rfl
    rw [this] at h; cases h⟩

/-- The partition of a line that has an owner, of a trap of context 0, and of none. -/
def owned : State := { linked with owners := [(64, 0)], launches := [launch0 .pool] }
theorem wit_DieSteps_charge : tget owned.owners (4096 / 64) = some 0 ∧ (4096 : Nat) < 2 ^ 40 ∧ (0xFF : Nat) < 2 ^ 52 ∧
    (owned.jobsOf 0).filter (fun o => !owned.lvTerminal o) ≠ [] := by decide +kernel
/-- A user's strand of that partition. -/
def victim : State := { owned with launches := [] }.modTil 0 (fun t => { t with part := some 0 })
theorem wit_DieSteps_victim : ∃ x, tget (victim.modCtx 1 (fun x => { x with life := .running })).ctxs 1 = some x ∧ privileged 1 = false ∧
    x.home = none ∧ x.life = .running ∧ ((victim.modCtx 1 (fun x => { x with life := .running })).til (tilOf 1)).part = some 0 :=
  ⟨_, rfl, by decide, by decide, by decide, by decide⟩
theorem wit_DieSteps_queues : tget owned.parts 0 = some part0 ∧ 0 ∈ part0.blocks ∧ owned.qMode (queueDesc 0) % 2 = 1 ∧
    (offQueue.wr (queueDesc 0 + 8) 2 4).qMode (queueDesc 0) % 2 = 0 := by decide +kernel

/-- The event queue: full, and with a queue pair to which the events go. -/
theorem wit_DieSteps_recorded : Port.reset.eventsQp = none ∧ Port.reset.events.length < 256 ∧
    ({ Port.reset with events := List.replicate 256 { code := 1, part := 0, cycle := 0, lost := 0 } } : Port).events.length = 256 ∧
    ({ Port.reset with eventsQp := some 3 } : Port).eventsQp = some 3 ∧ 3 ∉ ({ Port.reset with eventsQp := some 3 } : Port).broken := by
  decide +kernel
/-- A copy to the peer module as its port goes down. -/
def toPeer : State := { linked with copies := [{ copy0 .running with xmod := some 7 }] }
theorem wit_DieSteps_linkDown : toPeer.copies = [{ copy0 .running with xmod := some 7 }] ∧ ∃ p ∈ toPeer.port.peers, p.1 = 7 ∧ p.2.1 = 3 := by
  decide +kernel

/-- Writes of a peer's copy: to a ring of tiller 0 whose slots are free, and whose slots are taken. -/
def peerRing (n : Nat) : State := (linked.modTil 0 (fun t => { t with part := some 0 })).modTil 0 (fun t => { t with
  tring := t.tring.setIfInBounds 15 (BitVec.ofNat 64 (2 ^ 63 + 8 * 2 ^ 40 + 3 * 2 ^ 32 + n * 2 ^ 16 + n * 2 ^ 8)) })
theorem wit_DieSteps_ring : linked.port.isDown 3 = false ∧ linked.port.peerCopies = [] ∧ (∃ p ∈ linked.port.peers, p.2.1 = 3) ∧
    tget linked.parts 1 = none ∧ (linked.tilsOf 0 = []) ∧ ((peerRing 0).tilsOf 0 = 0 :: []) ∧
    ringEn (((peerRing 0).til 0).ring 15) = true ∧ ringSlot (((peerRing 0).til 0).ring 15) % ringSlot (((peerRing 0).til 0).ring 15) = 0 ∧
    (peerRing 0).slotsFree (0, 15) (ringSlot (((peerRing 0).til 0).ring 15)) = true ∧
    (peerRing 4).slotsFree (0, 15) (ringSlot (((peerRing 4).til 0).ring 15)) = false ∧
    (match (linked.modTil 0 (fun t => { t with stlb := [{ page0 with entry := 0x17 }] })).devXlate 0 0 0 .store with
      | .ok _ => false
      | .error _ => true) = true := by decide +kernel

/-! ### Ill-formed terms

One for each check of WellFormed.lean, just past its limit. -/

/-- Register files and numbers: v16, m8, accumulator 8, q8, end 12, binding kinds 0 and 5, the data field of a vq end, contexts 0
and 15 for SPAWN, a stopped B field, an odd BACC pair (R35, R36, R84, R155, R156, R321, R329). -/
theorem test_refused_registers : ([.vld 16 0 0, .mand 8 0 0, .mor 0 8 0, .mnot 0 8, .tzro 8, .bsum 8 0 0, .mrgcStat 0 8, .qunb 0 12,
    .qbind 0 0 0 0, .qbind 0 0 0 5, .qtry 16 8 0, .rpub 8 16 0 0, .qawn 0 0 7, .spawn 1 2 0 1 0 0, .spawn 1 2 15 1 0 0,
    .spawn 1 2 1 1 1 1, .reap 1 1 1 1, .exit 1 1 0, .bacc 3 1 2, .bacc 0 1 2, .tacq 1 0 9 1, .tacq 1 0 0 1, .tacq 1 0 1 0,
    .vcmp 8 0 0 0 0] : List Instr).all (fun i => !i.wellFormed) = true := by decide

/-- Element types, roundings and hints (R30, R37, R291, R280, R302, R321). -/
theorem test_refused_types : ([.ldx 1 2 3 13 0, .ldx 1 2 3 0 3, .vadd 1 2 3 9 0 0, .vadd 1 2 3 0 1 0, .vfma 1 2 3 0 0 0, .vclsExp 1 2 0 0,
    .vred 1 2 6 0 0 0, .vred 1 2 3 2 0 0, .vred 1 2 0 7 0 0, .vpack 1 2 3 2 0 0, .vunpk 1 2 0 2 2 0 0, .vcvt 1 2 13 0 0 0, .vshl 1 2 3 2 0,
    .vscl 1 2 3 6 0 0, .vdot 1 2 3 6 0, .vbcst 1 7 0, .vaddi 1 4 0, .tsta 0 1 2 0 0 0 11, .tsta 0 1 2 0 1 1 2] : List Instr).all
      (fun i => !i.wellFormed) = true := by decide

/-- Scopes, orders, widths, modifiers, formats, special registers and opcodes (R31, R40, R61, R64, R67, R264 to R267, R315, R373,
R377, R385). -/
theorem test_refused_modifiers : ([.fence 6 1, .fence 0 0, .fence 0 5, .ldaq 1 2 0 2 0, .strl 1 2 0 1 0, .ldaq 1 2 0 1 4,
    .amoadd 1 2 3 0 5 0, .amoadd 1 2 3 0 0 6, .amoswp 1 2 3 0 0 4, .red 6 2 3 0 0 0, .red 1 2 3 0 0 5, .red 0 2 3 0 1 0, .lih 1 2 0,
    .bfx 1 2 3 0 0 1, .bfi 1 2 3 0 1, .tmma 0 1 0 0 12 0 0, .wphsWait 1 2 2 1, .mfs 1 4, .mts 1 0x13, .mbxr 1 2 0 3,
    .unassignedOpcode 0x01000000] : List Instr).all (fun i => !i.wellFormed) = true := by decide

/-! ### Words

Each is a word that the manual writes beside its assembly text, in the section named. -/

theorem test_words_scalar : decode 0x0152B000 = .ok (.add 10 10 24 0) ∧ decode 0x029CC220 = .ok (.sub 19 19 1 1) ∧
    decode 0x036D1400 = .ok (.mul 13 20 10 0) ∧ decode 0x1394_4000 = .ok (.ctz 18 17) ∧ decode 0x14A5_0000 = .ok (.popc 20 20) ∧
    decode 0x20703FFF = .ok (.addi 14 0 0x3FFF) ∧ decode 0x2149C0FF = .ok (.andi 9 7 0xFF) ∧
    decode 0x225600A0 = .ok (.lih 10 6 0xA0) := by decide

theorem test_words_control : decode 0x30683FF4 = .ok (.beq 13 0 0x3FF4) ∧ decode 0x316B8005 = .ok (.bne 13 14 5) ∧
    decode 0x33744002 = .ok (.bge 14 17 2) ∧ decode 0x37024000 = .ok (.jalr 0 9 0) ∧ decode 0x38102121 = .ok (.repf 1 2 1 2 1) ∧
    decode 0x3B000020 = .ok (.exit 0 0 1) ∧ decode 0x3B034000 = .ok (.exit 13 0 0) := by decide

theorem test_words_launch : decode 0x40310A00 = .ok (.launch 6 4 5) ∧ decode 0x443A0020 = .ok (.lwait 7 8 0 1) := by decide

theorem test_words_channel : decode 0x48709A02 = .ok (.qbind 14 2 13 2) ∧ decode 0x4A505A00 = .ok (.qtry 10 1 13) ∧
    decode 0x4C000220 = .ok (.qawn 0 0 1) ∧ decode 0x4E080000 = .ok (.qend 1 0) ∧ decode 0x52000003 = .ok (.tokh 0 3) := by decide

theorem test_words_transaction : decode 0x58000013 = .ok (.txb 0x13) ∧ decode 0x59000005 = .ok (.txo 5) ∧ decode 0x5A000000 = .ok .txe ∧
    decode 0x5B000000 = .ok .txr := by decide

theorem test_words_memory : decode 0x609A8000 = .ok (.ld 19 10 0) ∧ decode 0x61928080 = .ok (.st 18 10 0x80) ∧
    decode 0x62A368E0 = .ok (.ldx 20 13 20 7 0) ∧ decode 0x638562C0 = .ok (.stx 16 21 17 6) ∧ decode 0x65664000 = .ok (.vst 12 25 0) ∧
    decode 0x6C098000 = .ok (.cinvI 6 0) := by decide

theorem test_words_ordering : decode 0x7893010A = .ok (.ldaq 18 12 4 1 2) ∧ decode 0x796B0112 = .ok (.strl 13 12 4 2 2) ∧
    decode 0x7A000090 = .ok (.fence 2 2) ∧ decode 0x7B831F02 = .ok (.amoadd 16 12 15 4 0 2) := by decide

theorem test_words_vector : decode 0x88524520 = .ok (.vcvt 10 9 2 9 0 0) ∧ decode 0x8B48E840 = .ok (.vscl 9 3 20 2 0 0) ∧
    decode 0x8C40C040 = .ok (.vclsExp 8 3 2 0) ∧ decode 0x9D0D0400 = .ok (.vcmp 1 20 2 0 0) ∧ decode 0xA60A3F80 = .ok (.vbcst 1 2 0x3F80) ∧
    decode 0xA9D06040 = .ok (.vmvs 26 1 16 2) ∧ decode 0xAB28C040 = .ok (.vred 5 3 0 2 0 0) ∧ decode 0xAC30C040 = .ok (.vscan 6 3 0 2 0 0) ∧
    decode 0xAF20C001 = .ok (.vxpnd 4 3 0 1) := by decide

theorem test_words_tile : decode 0xC2980220 = .ok (.tacq 19 0 1 1) ∧ decode 0xC5141F92 = .ok (.tmma 1 4 0 31 9 1 0) ∧
    decode 0xC804AE03 = .ok (.tsta 0 18 23 0 0 0 3) ∧ decode 0xC9003000 = .ok (.tgeo 0 0 24) ∧ decode 0xCA094C00 = .ok (.bsum 1 5 6) ∧
    decode 0xCB563000 = .ok (.bacc 10 24 24) := by decide

theorem test_words_sparse : decode 0xD000B200 = .ok (.spmma 0 2 25 0 0) ∧ decode 0xD3D8B200 = .ok (.spqry 27 2 25) ∧
    decode 0xD531D000 = .ok (.mzkey 6 7 8) := by decide

theorem test_words_copy : decode 0xD8298620 = .ok (.cpy 5 6 3 1) ∧ decode 0xDCDD8000 = .ok (.wall 27 22) ∧
    decode 0xDD5A1200 = .ok (.aexp 11 8 9 0) ∧ decode 0xDE3A0220 = .ok (.arrv 7 8 1 1) ∧ decode 0xDF520E00 = .ok (.wphsWait 10 8 7 0) := by
  decide

/-- MTS with TRING0 (R377); the opcodes of the rest of the class by the opcode map (R39). -/
theorem test_words_system : decode 0xE9710040 = .ok (.tringWrite 14 0) ∧ decode (0xE8#8 ++ 7#5 ++ 1#3 ++ 0x83#16) = .ok (.mfs 7 0x83) ∧
    decode (0xEA#8 ++ 0#5 ++ 1#3 ++ 0xFFFF#16) = .ok (.sysc 0xFFFF) := by decide

/-! ### Assembly (R47 to R51) -/

/-- The bytes of the first section of a source text, placed at 4096. -/
def bytesOf (t : String) : Option (List Byte) := match Yusen.assemble [(".text", 4096)] t.toList with
  | .ok o => (o.sections.head?).map (fun s => s.2.2)
  | .error _ => none
/-- The text after R46, and the branch of the text before R50. -/
theorem test_yusen_frame : bytesOf " REPF 1, 3, 1, 2, 1\n VADD.f32 v14, v2, s20" =
    some [0x21, 0x21, 0x10, 0x38, 0x40, 0xA8, 0x70, 0x90] := by decide +kernel
theorem test_yusen_branch : (bytesOf "top: ADD s1, s1, s2\n SUB s1, s1, s2\n OR s1, s1, s2\n BNE s5, s0, top // back").map
    (·.drop 12) = some [0xFD, 0x3F, 0x28, 0x31] := by decide +kernel

/-! ### One step -/

/-- A context with two scalars, after an instruction. -/
def run2 (i : Instr) (x y : Word) : Ctx := (after (exec i (at_ 1 (fun c => (c.setS 2 x).setS 3 y)))).me

/-- The table of R59. -/
theorem test_div : (run2 (.div 1 2 3 0) 7 0).getS 1 = BitVec.allOnes 64 ∧
    (run2 (.div 1 2 3 0) (BitVec.intMin 64) (BitVec.allOnes 64)).getS 1 = BitVec.intMin 64 ∧
    (run2 (.div 1 2 3 0) (-7) 2).getS 1 = -3 ∧ (run2 (.div 1 2 3 0) 7 (-2)).getS 1 = -3 := by decide
theorem test_rem : (run2 (.rem 1 2 3 0) 7 0).getS 1 = 7 ∧
    (run2 (.rem 1 2 3 0) (BitVec.intMin 64) (BitVec.allOnes 64)).getS 1 = 0 ∧ (run2 (.rem 1 2 3 0) (-7) 2).getS 1 = -1 ∧
    (run2 (.rem 1 2 3 0) 7 (-2)).getS 1 = 1 := by decide
theorem test_divn : (run2 (.divn 1 2 3 0) (-7) 2).getS 1 = 0x7FFFFFFFFFFFFFFC ∧ (run2 (.remn 1 2 3 0) (-7) 2).getS 1 = 1 ∧
    (run2 (.divn 1 2 3 0) 7 0).getS 1 = BitVec.allOnes 64 := by decide

/-- The text after R65: a signed field, and insertions that reach past bit 63 and by an immediate. -/
theorem test_bfx : (run2 (.bfx 4 2 6 1 1 6) 0xB6C0 0).getS 4 = -37 ∧ (run2 (.bfx 4 2 6 0 1 6) 0xB6C0 0).getS 4 = 0x5B := by decide
theorem test_bfi : (run2 (.bfi 2 0 3 0 0) (BitVec.allOnes 64) 0x83C).getS 2 = 0x0FFFFFFFFFFFFFFF ∧
    (run2 (.bfi 2 0 28 1 7) (BitVec.allOnes 64) 0).getS 2 = 0xFFFFFFF00FFFFFFF := by decide

/-- The text after R67: LIH.hi, and OR with the lower half. -/
theorem test_lih : (run2 (.lih 7 6 0x0123) 0 0).getS 7 = 0x01230000 ∧ (run2 (.lih 8 1 0xCDEF) 0 0).getS 8 = 0xCDEF ∧
    (run2 (.lih 11 0 0x8000) 0 0).getS 11 = -32768 := by decide

/-- R15: a write of s0 is discarded. R33, R80: a branch to itself; a branch below address 0 raises ADDR (cause 3). -/
theorem test_s0 : (run2 (.addi 0 2 5) 7 0).getS 0 = 0 := by decide
theorem test_beq : (run2 (.beq 2 3 0) 7 7).pc = 0 ∧ (run2 (.beq 2 3 0) 7 8).pc = 4 ∧
    ((after (exec (.beq 2 3 0x3FFF) user)).core 0).stw.map (fun r => Body.field r.body 4 1) = [3] := by decide +kernel

/-- R348: the coordinates 5 and 3 interleave to 39, and come back. -/
theorem test_mzkey : (run2 (.mzkey 1 2 3) 5 3).getS 1 = 39 ∧ (run2 (.mzkeyInv 1 2) 39 0).getS 1 = 5 * 2 ^ 32 + 3 := by decide +kernel

/-- R329: the table's first order of arrival, step by step: (0, −32768) takes (5, 0), (7, 1) and (−3, 0). -/
def bacc (s e x y : Word) : Word × Word :=
  let c := (after (exec (.bacc 10 2 3) (at_ 1 (fun c => (((c.setS 2 x).setS 3 y).setS 10 s).setS 11 e)))).me
  (c.getS 10, c.getS 11)
theorem test_bacc : bacc 0 (-32768) 5 0 = (5, 0) ∧ bacc 5 0 7 1 = (9, 1) ∧ bacc 9 1 (-3) 0 = (7, 1) := by decide +kernel
theorem test_bacc_tie : bacc 2 0 7 1 = (8, 1) := by decide +kernel

/-- The table of R279, with its flags (R277): INEXACT 8, SAT 16, OVERFLOW 2, UNDERFLOW 4, INVALID 1. -/
theorem test_convert_values : convert 2 9 0 0x43960000 = (0x79, 8) ∧ convert 2 9 0 0x43FA0000 = (0x7E, 24) ∧
    convert 2 10 0 0x4788B800 = (0x7C, 10) ∧ convert 2 10 1 0x4788B800 = (0x7B, 10) ∧ convert 2 3 0 0x4788B800 = (0x4789, 8) ∧
    convert 2 9 0 0x3A800000 = (0, 12) := by decide +kernel
theorem test_convert_nan : convert 2 3 0 0x7F800001 = (0x7FC0, 1) ∧ convert 2 9 0 0x7F800001 = (0x7F, 1) ∧
    convert 2 4 0 0xC0200000 = (0xC100, 0) := by decide +kernel
/-- The text after R279: −0.3 and −0.7 to a natural. -/
theorem test_convert_natural : convert 2 8 0 0xBE99999A = (0, 8) ∧ (convert 2 8 0 0xBF333333).1 = 0 ∧
    (convert 2 8 0 0xBF333333).2.getLsbD 4 = true := by decide +kernel

/-- A context whose v3 holds 1.0 in lane 0, −2^24 in lane 4 and 2^24 in lane 8, after an instruction. -/
def fold3 (i : Instr) : Ctx :=
  (after (exec i (at_ 1 (fun c => c.setV 3 (BitVec.ofNat 512 (0x3F800000 + 0xCB800000 * 2 ^ 128 + 0x4B800000 * 2 ^ 256)))))).me
/-- The tables after R303. -/
theorem test_vred : (fold3 (.vred 5 3 0 2 0 0)).getV 5 = 0 ∧ (fold3 (.vred 5 3 0 2 0 0)).fstat = 8 := by decide +kernel
theorem test_vscan : lane 32 ((fold3 (.vscan 6 3 0 2 0 0)).getV 6) 3 = 0x3F800000 ∧
    lane 32 ((fold3 (.vscan 6 3 0 2 0 0)).getV 6) 4 = 0xCB7FFFFF ∧ lane 32 ((fold3 (.vscan 6 3 0 2 0 0)).getV 6) 15 = 0x3F800000 ∧
    (fold3 (.vscan 6 3 0 2 0 0)).fstat = 0 := by decide +kernel

/-- The text after R305: comparison, compress and expand of 4, −2, 9, 0, −7, 3, 1, −5. -/
def lanes8 (l : List Int) : VReg := ofLanes 32 (l.map (fun x => (BitVec.ofInt 32 x).toNat))
def packing (i : Instr) : Ctx :=
  (after (exec i (at_ 1 (fun c => ((c.setV 2 (lanes8 [4, -2, 9, 0, -7, 3, 1, -5])).setV 3 (lanes8 [4, 9, 3, 1])).setM 1 0x65)))).me
theorem test_vcmp : (packing (.vcmp 2 20 2 0 0)).getM 2 = 0x65 := by decide +kernel
theorem test_vcmpr : (packing (.vcmpr 4 2 0 1)).getV 4 = lanes8 [4, 9, 3, 1] := by decide +kernel
theorem test_vxpnd : (packing (.vxpnd 4 3 0 1)).getV 4 = lanes8 [4, 0, 9, 0, 0, 3, 1] := by decide +kernel

/-- The text after R306: the total of a dot product saturates, and sets SAT. -/
theorem test_vdot : dot 7 (BitVec.ofNat 512 0x64646464) (BitVec.ofNat 512 0x7F7F7F7F) 2147450000 0 = (2147483647, 16) ∧
    dot 7 (BitVec.ofNat 512 0x80) (BitVec.ofNat 512 0x80) 0 0 = (16384, 0) := by decide +kernel

/-- R274, R275: byte 121 decodes as five zeros, and byte 243 and the code 0b10 as unassigned. -/
theorem test_ternary : (List.range 5).map (fun i => (tri5 121 i).1) = [0, 0, 0, 0, 0] ∧ (tri5 243 0).2 = true ∧ (tri2 2 0).2 = true ∧
    (tri2 3 0).1 = -1 ∧ (tri2 1 0).1 = 1 := by decide

/-- R141, R137: an awn at the head suppresses the reader, which traps with AWN (cause 6) and consumes nothing. -/
theorem test_awn : ((after (exec (.addi 1 24 5) (chan1 false held6))).ctx 1).life = .stopped ∧
    (after (exec (.addi 1 24 5) (chan1 false held6))).rCur ringLoc 0 = 0 := by decide +kernel
/-- R36: a read of a bound end takes its element. -/
theorem test_dequeue : ((after (exec (.addi 1 24 5) (chan1 false seven))).me).getS 1 = 12 ∧
    (after (exec (.addi 1 24 5) (chan1 false seven))).rCur ringLoc 0 = 1 := by decide +kernel

/-- A store and a load of the last eight bytes of the scratchpad (R220, R229), little-endian. -/
theorem test_st : (after (exec (.st 2 2 0x1FF8) (with2 (own 909312)))).byteAt (locSpad 0 917496) = 0 ∧
    (after (exec (.st 2 2 0x1FF8) (with2 (own 909312)))).byteAt (locSpad 0 917503) = 0xF0 := by decide +kernel
theorem test_ld : ((after (exec (.ld 1 2 0) ((with2 (own 64)).wr (locSpad 0 64) 8 0x1122334455667788))).me).getS 1 = 0x1122334455667788 := by
  decide +kernel

/-- R389: SYSC traps with cause 15 and its immediate as the auxiliary value. -/
theorem test_sysc : Body.field (((after (exec (.sysc 0xABCD) user)).core 0).stw.headD { header := 0, body := 0 }).body 4 1 = 15 ∧
    Body.field (((after (exec (.sysc 0xABCD) user)).core 0).stw.headD { header := 0, body := 0 }).body 20 4 = 0xABCD := by decide

/-- R78, R419: the first instruction after reset is run by context 0 of core 0. -/
theorem test_first_step : ((after (step (fetching 0x20703FFF))).ctx 0).getS 14 = BitVec.allOnes 64 ∧
    ((after (step (fetching 0x20703FFF))).ctx 0).pc = 4 := by decide +kernel

end Sys2Proof.Tests
end

section
/-! SUPPORT. The canonical form of a state: memory lists one content in one way (log 1), and the tables of contexts, cores,
tillers and dies list a number once. Here it is kept by the writes of which every operation is made, by the ways in which
operations are put together, and by an instruction's frame. -/

namespace Sys2Proof.Machine

/-- The two halves of the canonical form. Every operation keeps each by itself, and for the same reason. -/
inductive Form where
  | memory | tables

/-- One half of the canonical form of a state. -/
def State.Canon (p : Form) (s : State) : Prop :=
  match p with
  | .memory => s.memOk
  | .tables => s.tablesOk

/-! ### Sparse tables -/

/-- Whether a table is in order depends on its keys alone. -/
theorem tableOk_of_keys {α β : Type} {l : List (Nat × α)} {l' : List (Nat × β)} (e : l'.map Prod.fst = l.map Prod.fst) :
    tableOk l' = tableOk l := by
  induction l generalizing l' with
  | nil => simp only [List.map_eq_nil_iff.mp e, tableOk]
  | cons a r ih =>
    obtain ⟨⟨k, x⟩, r', rfl⟩ : ∃ b r', l' = b :: r' := by cases l' <;> simp_all
    obtain ⟨rfl, er⟩ := List.cons.inj e
    rcases r with _ | ⟨b, r⟩
    · simp only [List.map_eq_nil_iff.mp er, tableOk]
    · obtain ⟨⟨m, y⟩, r'', rfl⟩ : ∃ b r'', r' = b :: r'' := by cases r' <;> simp_all
      obtain ⟨rfl, -⟩ := List.cons.inj er
      simp only [tableOk, ih er]

theorem tableOk_cons {α : Type} {n : Nat} {x : α} {r : List (Nat × α)} :
    tableOk ((n, x) :: r) = true ↔ tableOk r = true ∧ ∀ q ∈ r.head?, n < q.1 := by
  cases r with
  | nil => simp [tableOk]
  | cons b r => obtain ⟨m, y⟩ := b; simp [tableOk, and_comm]

/-- The first number of a table after an entry is set is the entry's or the one that was first. -/
theorem head?_tset {α : Type} {l : List (Nat × α)} {n : Nat} {x : α} {q : Nat × α} (h : q ∈ (tset l n x).head?) :
    q.1 = n ∨ q ∈ l.head? := by
  cases l with
  | nil => obtain rfl : (n, x) = q := by simpa [tset] using h
           exact .inl rfl
  | cons b r =>
    obtain ⟨k, y⟩ := b
    simp only [tset] at h
    split at h
    · exact .inl (congrArg Prod.fst (Option.some.inj h)).symm
    · split at h
      · exact .inl (congrArg Prod.fst (Option.some.inj h)).symm
      · exact .inr h

theorem tableOk_tset {α : Type} {l : List (Nat × α)} (n : Nat) (x : α) (h : tableOk l = true) :
    tableOk (tset l n x) = true := by
  induction l with
  | nil => rfl
  | cons b r ih =>
    obtain ⟨k, y⟩ := b
    obtain ⟨hr, hk⟩ := tableOk_cons.mp h
    simp only [tset]
    split
    · rename_i hlt
      exact tableOk_cons.mpr ⟨h, by simpa using hlt⟩
    · split
      · rename_i heq
        exact tableOk_cons.mpr ⟨hr, heq ▸ hk⟩
      · refine tableOk_cons.mpr ⟨ih hr, fun q hq => ?_⟩
        rcases head?_tset hq with e | hq
        · omega
        · exact hk q hq

/-! ### Writes -/

variable {p : Form} {s : State}

namespace State.Canon

/-- An update of anything but memory that leaves the numbers of the four tables. -/
theorem of_keys {t : State} (h : s.Canon p) (hm : t.mem = s.mem := by rfl)
    (hc : t.ctxs.map Prod.fst = s.ctxs.map Prod.fst := by rfl) (hk : t.cores.map Prod.fst = s.cores.map Prod.fst := by rfl)
    (ht : t.tils.map Prod.fst = s.tils.map Prod.fst := by rfl) (hd : t.dies.map Prod.fst = s.dies.map Prod.fst := by rfl) :
    t.Canon p := by
  cases p with
  | memory => exact memOk_of_mem hm h
  | tables =>
    obtain ⟨h1, h2, h3, h4⟩ := h
    exact ⟨(tableOk_of_keys hc).trans h1, (tableOk_of_keys hk).trans h2, (tableOk_of_keys ht).trans h3,
      (tableOk_of_keys hd).trans h4⟩

theorem setCtx {c : Nat} {x : Ctx} (h : s.Canon p) : (s.setCtx c x).Canon p := by
  cases p with
  | memory => exact h
  | tables => exact ⟨tableOk_tset c x h.1, h.2⟩

theorem setCore {k : Nat} {x : Core} (h : s.Canon p) : (s.setCore k x).Canon p := by
  cases p with
  | memory => exact h
  | tables => exact ⟨h.1, tableOk_tset k x h.2.1, h.2.2⟩

theorem setTil {t : Nat} {x : Tiller} (h : s.Canon p) : (s.setTil t x).Canon p := by
  cases p with
  | memory => exact h
  | tables => exact ⟨h.1, h.2.1, tableOk_tset t x h.2.2.1, h.2.2.2⟩

theorem setDie {d : Nat} {x : Die} (h : s.Canon p) : (s.setDie d x).Canon p := by
  cases p with
  | memory => exact h
  | tables => exact ⟨h.1, h.2.1, h.2.2.1, tableOk_tset d x h.2.2.2⟩

theorem setByte {a : Nat} {b : Byte} (h : s.Canon p) : (s.setByte a b).Canon p := by
  cases p with
  | memory => exact State.setByte_memOk a b h
  | tables => exact h

theorem putBytes {a : Nat} {l : List Byte} (h : s.Canon p) : (s.putBytes a l).Canon p := by
  induction l generalizing s a with
  | nil => exact h
  | cons b r ih => exact ih h.setByte

theorem regrab {lo hi : Nat} {g : List Host.Cell × List Span} (h : s.Canon p) : (s.regrab lo hi g).Canon p := by
  cases p with
  | memory =>
    have key : ∀ (l m : List Host.Cell), memWf m = true → memWf (l.foldl (fun m c => memSet m c.1 c.2) m) = true := by
      intro l
      induction l with
      | nil => exact fun _ hm => hm
      | cons c r ih => exact fun m hm => ih _ (memSet_wf c.1 c.2 hm)
    exact key _ _ (filter_wf _ h)
  | tables => exact h

/-! ### Putting operations together -/

theorem ite {c : Prop} [Decidable c] {a b : State} (ha : a.Canon p) (hb : b.Canon p) : (if c then a else b).Canon p := by
  split
  · exact ha
  · exact hb

theorem foldl {α : Type} {f : State → α → State} {l : List α} (hf : ∀ s x, s.Canon p → (f s x).Canon p) (h : s.Canon p) :
    (l.foldl f s).Canon p := by
  induction l generalizing s with
  | nil => exact h
  | cons x r ih => exact ih (hf s x h)

end State.Canon

/-- What an enqueue gives is canonical. -/
def Put.Canon (p : Form) : Put → Prop
  | .done t => t.Canon p
  | _ => True

/-- An outcome's state is canonical. -/
def Settles (p : Form) : Host.Outcome State Fault Refusal → Prop
  | .next t => t.Canon p
  | _ => True

/-- A body keeps the canonical form, if it does not stop. -/
def Op.Keeps {α : Type} (p : Form) (m : Op α) : Prop := ∀ (s : State) (r : α × State), s.Canon p → m s = .ok r → r.2.Canon p

namespace Put.Canon

theorem done {t : State} (h : t.Canon p) : Put.Canon p (.done t) := h
theorem of_full : Put.Canon p .full := trivial
theorem of_over : Put.Canon p .over := trivial
theorem ite {c : Prop} [Decidable c] {a b : Put} (ha : Put.Canon p a) (hb : Put.Canon p b) :
    Put.Canon p (if c then a else b) := by
  split
  · exact ha
  · exact hb

end Put.Canon

namespace Op.Keeps
variable {α β : Type}

theorem pure {a : α} : Op.Keeps p (pure a) := fun _ _ h e => Except.ok.inj e ▸ h

theorem stop {e : Stop} : Op.Keeps p (stop e : Op α) := fun _ _ _ h => nomatch (show Except.error e = Except.ok _ from h)

/-- What would follow a stop does not happen. -/
theorem stop_bind {e : Stop} {f : α → Op β} : Op.Keeps p ((Machine.stop e : Op α) >>= f) := stop

theorem bind {m : Op α} {f : α → Op β} (hm : Op.Keeps p m) (hf : ∀ a, Op.Keeps p (f a)) : Op.Keeps p (m >>= f) := by
  intro s r h e
  rw [op_bind] at e
  cases e1 : m s with
  | error x => rw [e1] at e; cases e
  | ok q => rw [e1] at e; exact hf q.1 q.2 r (hm s q h e1) e

/-- What a body reads of the state it reads of a canonical one. -/
theorem ask_bind {g : State → α} {f : α → Op β} (hf : ∀ s, s.Canon p → Op.Keeps p (f (g s))) : Op.Keeps p (ask g >>= f) :=
  fun s r h e => hf s h s r h e

theorem get_bind {f : State → Op β} (hf : ∀ s, s.Canon p → Op.Keeps p (f s)) : Op.Keeps p (get >>= f) :=
  fun s r h e => hf s h s r h e

theorem ask {g : State → α} : Op.Keeps p (ask g) := fun _ _ h e => Except.ok.inj e ▸ h

theorem set {t : State} (h : t.Canon p) : Op.Keeps p (set t : Op PUnit) :=
  fun _ _ _ e => Except.ok.inj e ▸ h

theorem upd {f : State → State} (hf : ∀ s, s.Canon p → (f s).Canon p) : Op.Keeps p (upd f) :=
  fun s _ h e => Except.ok.inj e ▸ hf s h

theorem ite {c : Prop} [Decidable c] {a b : Op α} (ha : Op.Keeps p a) (hb : Op.Keeps p b) : Op.Keeps p (if c then a else b) := by
  split
  · exact ha
  · exact hb

theorem forM {l : List β} {f : β → Op PUnit} (hf : ∀ x, Op.Keeps p (f x)) : Op.Keeps p (l.forM f) := by
  induction l with
  | nil => exact .pure
  | cons x r ih => exact .bind (hf x) fun _ => ih

end Op.Keeps

namespace Settles

theorem next {t : State} (h : t.Canon p) : Settles p (.next t) := h

theorem ite {c : Prop} [Decidable c] {a b : Host.Outcome State Fault Refusal} (ha : Settles p a) (hb : Settles p b) :
    Settles p (if c then a else b) := by
  split
  · exact ha
  · exact hb

end Settles

/-- A map that keeps numbers keeps those of a table. -/
theorem keys_map {α : Type} {l : List (Nat × α)} {f : Nat × α → Nat × α} (hf : ∀ x, (f x).1 = x.1) :
    (l.map f).map Prod.fst = l.map Prod.fst := by
  rw [List.map_map]
  exact List.map_congr_left fun x _ => hf x

theorem Put.Canon.of_eq {r : Put} {t : State} (e : r = .done t) (h : Put.Canon p r) : t.Canon p := by
  subst e; exact h

/-- What is no part of the form may change. -/
theorem State.Canon.rest {unspec poison owners dirs rings flights spills parts copies launches nextLaunch port saves cur issue agenda
    clock nonce due} (h : s.Canon p) :
    (State.mk s.mem unspec poison owners s.ctxs s.cores s.tils s.dies dirs rings flights spills parts copies launches nextLaunch port
      saves cur issue agenda clock nonce due).Canon p := h

theorem State.Canon.foldr {α : Type} {f : α → State → State} {l : List α} (hf : ∀ x s, s.Canon p → (f x s).Canon p)
    (h : s.Canon p) : (l.foldr f s).Canon p := by
  induction l with
  | nil => exact h
  | cons x r ih => exact hf x _ ih

/-- A fold that carries a value beside the state. -/
theorem State.Canon.foldl_fst {α β : Type} {f : State × β → α → State × β} {l : List α} {q : State × β}
    (hf : ∀ q x, q.1.Canon p → (f q x).1.Canon p) (h : q.1.Canon p) : (l.foldl f q).1.Canon p := by
  induction l generalizing q with
  | nil => exact h
  | cons x r ih => exact ih (hf q x h)

theorem State.Canon.reset : State.reset.Canon p := by
  cases p with
  | memory => rfl
  | tables => exact ⟨rfl, rfl, rfl, rfl⟩

/-! ### Ops -/

theorem State.Canon.modCtx {c : Nat} {f : Ctx → Ctx} (h : s.Canon p) : (s.modCtx c f).Canon p := .setCtx h
theorem State.Canon.modCore {k : Nat} {f : Core → Core} (h : s.Canon p) : (s.modCore k f).Canon p := .setCore h
theorem State.Canon.modTil {t : Nat} {f : Tiller → Tiller} (h : s.Canon p) : (s.modTil t f).Canon p := .setTil h
theorem State.Canon.modDie {d : Nat} {f : Die → Die} (h : s.Canon p) : (s.modDie d f).Canon p := .setDie h
theorem State.Canon.modMe {f : Ctx → Ctx} (h : s.Canon p) : (s.modMe f).Canon p := .modCtx h
theorem State.Canon.later {i : Instr} (h : s.Canon p) : (s.later i).Canon p := h
theorem State.Canon.laterOnce {i : Instr} (h : s.Canon p) : (s.laterOnce i).Canon p := .ite h (.later h)
theorem State.Canon.wakeCtx {c : Nat} (h : s.Canon p) : (s.wakeCtx c).Canon p := .laterOnce h
theorem State.Canon.tick (h : s.Canon p) : s.tick.Canon p := h
theorem State.Canon.wr {a n x : Nat} (h : s.Canon p) : (s.wr a n x).Canon p := .putBytes h
theorem State.Canon.scramble {lo hi : Nat} (h : s.Canon p) : (s.scramble lo hi).Canon p := .ite h h
theorem State.Canon.cleanse {a n : Nat} (h : s.Canon p) : (s.cleanse a n).Canon p := h
theorem State.Canon.ring {k b : Nat} (h : s.Canon p) : (s.ring k b).Canon p := .foldl (fun _ _ h' => .ite (.modCtx h') h') h
theorem State.Canon.send {k b : Nat} {m : Msg} (h : s.Canon p) : (s.send k b m).Canon p := .ite (.ring (.modCore h)) (.modCore h)

theorem State.Canon.event {code part : Nat} (h : s.Canon p) : (s.event code part).Canon p := by
  unfold State.event
  dsimp only
  split
  · exact h
  · exact .ite h h

theorem State.Canon.setDirectory {d : Directory} (h : s.Canon p) : (s.setDirectory d).Canon p := h

theorem State.Canon.registerOwner {key : Key} {t : Nat} (h : s.Canon p) : (s.registerOwner key t).Canon p := by
  unfold State.registerOwner
  dsimp only
  split
  · exact .ite h (.modTil h)
  · exact .setDirectory h

theorem State.Canon.register {c : Nat} {key : Key} (h : s.Canon p) : (s.register c key).Canon p := .registerOwner (.modTil h)
theorem State.Canon.withdraw {c : Nat} (h : s.Canon p) : (s.withdraw c).Canon p := .modTil h
theorem State.Canon.wakeAt {t : Nat} {key : Key} (h : s.Canon p) : (s.wakeAt t key).Canon p :=
  .foldl (fun _ _ h' => .wakeCtx h') h

theorem State.Canon.notify {key : Key} (h : s.Canon p) : (s.notify key).Canon p := by
  unfold State.notify
  dsimp only
  split
  · exact .foldl (fun _ _ h' => .ite h' (.laterOnce h')) (.setTil h)
  · exact .foldl (fun _ _ h' => .laterOnce h') (.ite h (.setDirectory h))

theorem State.Canon.markAt {t : Nat} {key : Key} (h : s.Canon p) : (s.markAt t key).Canon p :=
  h.of_keys (hc := keys_map fun e => by split <;> rfl)

theorem State.Canon.changeKey {key : Key} (h : s.Canon p) : (s.changeKey key).Canon p := by
  unfold State.changeKey
  split
  · exact .notify (.wakeAt (.markAt h))
  · exact .notify h

theorem State.Canon.freeHeld {til : Nat} (h : s.Canon p) : (s.freeHeld til).Canon p :=
  .foldl (fun _ _ h' => .ite h' (.laterOnce h')) (h.of_keys (hc := keys_map fun q => by split <;> rfl))
theorem State.Canon.dropToken {c : Nat} (h : s.Canon p) : (s.dropToken c).Canon p :=
  .ite (.changeKey (.freeHeld (.setTil h))) (.ite (.changeKey (.setTil h)) (.setTil h))
theorem State.Canon.withdrawIssue {c : Nat} (h : s.Canon p) : (s.withdrawIssue c).Canon p := .ite (.rest (.modCtx h)) h
theorem State.Canon.restart {c : Nat} {f : Tx → Tx} (h : s.Canon p) : (s.restart c f).Canon p :=
  .dropToken (.withdrawIssue (.modCtx h))
theorem State.Canon.restartConflict {c : Nat} (h : s.Canon p) : (s.restartConflict c).Canon p := .restart h
theorem State.Canon.restartPreempt {c : Nat} (h : s.Canon p) : (s.restartPreempt c).Canon p := .restart h
theorem State.Canon.abortTx {c cause : Nat} {acode : BitVec 16} (h : s.Canon p) : (s.abortTx c cause acode).Canon p :=
  .dropToken (.modCtx h)
theorem State.Canon.conflictAt {t : Nat} {key : Key} {who : Option Nat} (h : s.Canon p) : (s.conflictAt t key who).Canon p :=
  .foldl (fun _ _ h' => .ite h' (.restartConflict h')) h
theorem State.Canon.notice {t : Nat} {key : Key} (h : s.Canon p) : (s.notice t key).Canon p :=
  .foldl (fun _ _ h' => .ite h' (.restartConflict h')) (.wakeAt (.markAt h))

theorem State.Canon.freePattern {t e : Nat} (h : s.Canon p) : (s.freePattern t e).Canon p := by
  unfold State.freePattern
  dsimp only
  split
  · exact h
  · exact .ite (.modTil h) (.changeKey (.modTil h))

theorem State.Canon.unstageLine {t l : Nat} (h : s.Canon p) : (s.unstageLine t l).Canon p := by
  unfold State.unstageLine
  dsimp only
  refine .ite ?_ h
  split
  · exact .ite (.changeKey (.setTil h)) (.setTil h)
  · exact .setTil h

theorem State.Canon.changeLine {l : Nat} {who : Option Nat} (h : s.Canon p) : (s.changeLine l who).Canon p := by
  unfold State.changeLine
  dsimp only
  split
  · exact .unstageLine (.foldl (fun _ _ h' => .freePattern h') (.notify (.wakeAt (.markAt (.conflictAt h)))))
  · split
    · exact .notify h
    · exact .laterOnce (.notify h)

theorem State.Canon.unstageAt {a n : Nat} (h : s.Canon p) : (s.unstageAt a n).Canon p := by
  unfold State.unstageAt
  split
  · exact h
  · exact .foldl (fun _ _ h' => .unstageLine h') h

theorem State.Canon.devWr {a n x : Nat} (h : s.Canon p) : (s.devWr a n x).Canon p := .unstageAt (.wr h)
theorem State.Canon.store {a : Nat} {bs : List Byte} {who : Option Nat} (h : s.Canon p) : (s.store a bs who).Canon p :=
  .foldl (fun _ _ h' => .changeLine h') (.cleanse (.putBytes h))
theorem State.Canon.changeChan {ring : Nat} (h : s.Canon p) : (s.changeChan ring).Canon p := .changeKey h
theorem State.Canon.dropThirst {c : Nat} (h : s.Canon p) : (s.dropThirst c).Canon p := h
theorem State.Canon.letIn {til : Nat} (h : s.Canon p) : (s.letIn til).Canon p := .ite h (.laterOnce h)

theorem State.Canon.goHome {c : Nat} (h : s.Canon p) : (s.goHome c).Canon p := by
  unfold State.goHome
  dsimp only
  split
  · exact h
  · exact .letIn (.setCtx (.setCtx h))

theorem State.Canon.takeTrap {c cause aux : Nat} {va : Word} {word : IWord} (h : s.Canon p) :
    (s.takeTrap c cause aux va word).Canon p :=
  .ite (.later (.modCore h)) (.send (.modCtx (.goHome h)))

/-! ### Access -/

theorem Op.Keeps.fresh : Op.Keeps p fresh := .bind .ask fun _ => .bind (.upd fun _ h => .tick h) fun _ => .pure
theorem State.Canon.fillTlb {c : Nat} {fetch : Bool} {e : TlbEntry} (h : s.Canon p) : (s.fillTlb c fetch e).Canon p :=
  .tick (.modTil (.tick (.modCore h)))

theorem State.Canon.lookup {c : Nat} {fetch : Bool} {va : Nat} (h : s.Canon p) : (s.lookup c fetch va).2.Canon p := by
  unfold State.lookup
  dsimp only
  split
  · exact h
  · split
    · exact .fillTlb h
    · split
      · exact .fillTlb h
      · exact h

theorem State.Canon.of_lookup {c : Nat} {fetch : Bool} {va : Nat} {o : Option TlbEntry} {t : State} (h : s.Canon p)
    (e : s.lookup c fetch va = (o, t)) : t.Canon p := by
  have h' : (s.lookup c fetch va).2.Canon p := .lookup h
  rwa [e] at h'

theorem Op.Keeps.checkLanes {n : Nat} {l : List (Nat × Word)} : Op.Keeps p (checkLanes n l) := by
  induction l with
  | nil => exact .pure
  | cons a r ih =>
    unfold Machine.checkLanes
    refine .get_bind fun s _ => ?_
    extract_lets rest
    have hr : ∀ u, Op.Keeps p (rest u) := fun _ => by
      unfold rest
      split
      · exact .stop
      · exact .bind ih fun _ => .pure
    split
    · split
      · exact .ite .stop_bind .stop_bind
      · exact hr ()
    · exact hr ()

theorem Op.Keeps.translateLanes {k : Acc} {n : Nat} {l : List (Nat × Word × Place)} : Op.Keeps p (translateLanes k n l) := by
  induction l with
  | nil => exact .pure
  | cons a r ih =>
    obtain ⟨i, va, ⟨t, off⟩ | a⟩ := a
    · exact .bind .ask fun _ => .bind ih fun _ => .pure
    · refine .get_bind fun s h => .ite (.ite (.bind ih fun _ => .pure) .stop) ?_
      split
      · exact .stop
      · rename_i e
        split
        · exact .stop
        · exact .bind (.set (h.of_lookup e)) fun _ => .bind ih fun _ => .pure

theorem Op.Keeps.resolve {k : Acc} {n : Nat} {vas : List (Nat × Word)} : Op.Keeps p (resolve k n vas) :=
  .bind .checkLanes fun _ => .translateLanes
theorem Op.Keeps.readKey {key : Key} : Op.Keeps p (readKey key) :=
  .bind .ask fun _ => .ite .pure (.ite .stop (.upd fun _ h => .modMe h))
theorem Op.Keeps.writeKey {key : Key} : Op.Keeps p (writeKey key) :=
  .bind .ask fun _ => .ite .pure (.ite .stop (.upd fun _ h => .modMe h))
theorem Op.Keeps.inTx : Op.Keeps p inTx := .ask

theorem Op.Keeps.soleHold {a n : Nat} : Op.Keeps p (soleHold a n) := by
  unfold Machine.soleHold
  refine .get_bind fun _ h => ?_
  split
  · exact .pure
  · exact .stop

theorem State.Canon.flashL1 {t : Nat} (h : s.Canon p) : (s.flashL1 t).Canon p := .modTil h
theorem State.Canon.acquire {t scope : Nat} (h : s.Canon p) : (s.acquire t scope).Canon p := .ite (.flashL1 h) h
theorem State.Canon.dropL1 {t a n : Nat} (h : s.Canon p) : (s.dropL1 t a n).Canon p := .modTil h
theorem State.Canon.l1Store {t a : Nat} {bs : List Byte} (h : s.Canon p) : (s.l1Store t a bs).Canon p := .modTil h

theorem Op.Keeps.globalLoad {l : Lane} {hint : Nat} {useL1 : Bool} : Op.Keeps p (globalLoad l hint useL1) := by
  unfold Machine.globalLoad
  dsimp only
  refine .get_bind fun _ h => ?_
  split
  · exact .bind (.upd fun _ h' => .modTil h') fun _ => .pure
  · exact .ite .stop_bind (.ite (.bind (.upd fun _ h' => .modTil h') fun _ => .pure) .pure)

theorem Op.Keeps.loadLane {hint : Nat} {useL1 : Bool} {l : Lane} : Op.Keeps p (loadLane hint useL1 l) :=
  .get_bind fun _ _ => .ite (.bind .readKey fun _ => .ite (.bind (.upd fun _ h' => .registerOwner h') fun _ => .ite .stop_bind
      .pure) (.ite .stop_bind .pure)) (.ite .globalLoad (.ite .stop_bind .pure))

theorem State.Canon.own {a n part : Nat} (h : s.Canon p) : (s.own a n part).Canon p := .ite h h

theorem State.Canon.globalStore {a part : Nat} {bs : List Byte} {who : Option Nat} (h : s.Canon p) :
    (s.globalStore a part bs who).Canon p :=
  .own (.store h)

theorem Op.Keeps.storeLane {all : Bool} {l : Lane} {bs : List Byte} : Op.Keeps p (storeLane all l bs) :=
  .get_bind fun _ _ => .ite (.ite .stop_bind (.bind .writeKey fun _ => .upd fun _ h' => .modMe h')) (.bind .soleHold fun _ =>
      .ite (.upd fun _ h' => .foldl (fun _ _ h'' => .l1Store (.globalStore h'')) h') (.upd fun _ h' => .store h'))

theorem Op.Keeps.remoteCheck {ps : List (Nat × Word × Place)} : Op.Keeps p (remoteCheck ps) :=
  .get_bind fun _ _ => .ite .stop .pure
theorem Op.Keeps.resolveStore {k : Acc} {n : Nat} {vas : List (Nat × Word)} : Op.Keeps p (resolveStore k n vas) :=
  .bind .checkLanes fun _ => .bind .remoteCheck fun _ => .translateLanes

theorem Op.Keeps.loadScalar {n : Nat} {va : Word} {hint : Nat} : Op.Keeps p (loadScalar n va hint) := by
  unfold Machine.loadScalar
  refine .bind .resolve (fun _ => ?_)
  split
  · exact .bind .loadLane fun _ => .pure
  · exact .pure

/-! ### Rings -/

theorem State.Canon.setRing {x : Ring} (h : s.Canon p) : (s.setRing x).Canon p := h
theorem State.Canon.rPut {r off x : Nat} (h : s.Canon p) : (s.rPut r off x).Canon p := .devWr h

theorem State.Canon.adopt {r : Nat} (h : s.Canon p) : (s.adopt r).Canon p :=
  .ite h (.ite (.ite (.setRing h) (.laterOnce (.setRing h))) (.scramble (.scramble (.ite (.setRing h) (.laterOnce
      (.setRing h))))))

theorem State.Canon.markSoon {r seq : Nat} (h : s.Canon p) : (s.markSoon r seq).Canon p := .ite h (.setRing h)
theorem State.Canon.fillSlot {r k seq : Nat} {x : Elem} {grp : Nat} (h : s.Canon p) : (s.fillSlot r k seq x grp).Canon p :=
  .unstageAt (.unstageAt (.wr (.wr h)))

theorem State.Canon.toExt {r seq idx : Nat} {x : Elem} {grp : Option Nat} (h : s.Canon p) :
    (s.toExt r seq idx x grp).Canon p := by
  unfold State.toExt
  dsimp only
  refine .setRing ?_
  split
  · exact .globalStore h
  · exact h

theorem State.Canon.ringPlace {r seq : Nat} {x : Elem} {grp : Option Nat} {g : Nat} (h : s.Canon p) :
    (s.ringPlace r seq x grp g).Canon p := by
  unfold State.ringPlace
  dsimp only
  refine .ite ?_ (.ite (.setRing (.fillSlot (.markSoon h))) (.toExt (.markSoon h)))
  split
  · exact .ite (.setRing (.fillSlot (.setRing (.markSoon h)))) (.toExt (.setRing (.markSoon h)))
  · exact .toExt (.setRing (.markSoon h))

theorem State.Canon.advancePseq {r f : Nat} (h : s.Canon p) : (s.advancePseq r f).Canon p := by
  induction f generalizing s with
  | zero => exact h
  | succ f ih => exact .ite (ih (.rPut h)) h

theorem State.Canon.freePassed {r : Nat} (h : s.Canon p) : (s.freePassed r).Canon p :=
  .changeChan (.ite (.ite (.ite (.setRing h) (.ite (.setRing h) (.setRing h))) (.laterOnce (.ite (.setRing h) (.ite (.setRing h)
      (.setRing h))))) (.laterOnce (.ite (.ite (.setRing h) (.ite (.setRing h) (.setRing h))) (.laterOnce (.ite (.setRing h)
      (.ite (.setRing h) (.setRing h)))))))

theorem State.Canon.passPublished {r n : Nat} (h : s.Canon p) : (s.passPublished r n).Canon p :=
  .ite (.freePassed (.ite (.rPut h) (.advancePseq h))) (.changeChan (.ite (.rPut h) (.advancePseq h)))

theorem State.Canon.publish {r seq : Nat} {x : Elem} {grp : Option Nat} {g : Nat} (h : s.Canon p) :
    (s.publish r seq x grp g).Canon p :=
  .passPublished (.ringPlace h)

theorem State.Canon.publishAt {r seq : Nat} {x : Elem} {grp : Option Nat} (h : s.Canon p) : (s.publishAt r seq x grp).Canon p :=
  .ite (.rest (.ite (.setRing h) h)) (.publish h)

theorem State.Canon.ringAppend {r : Nat} {x : Elem} {grp deal : Option Nat} {dealt : Bool} (h : s.Canon p) :
    (s.ringAppend r x grp deal dealt).Canon p :=
  .publishAt (.ite (.setRing (.rPut h)) (.rPut h))

theorem State.Canon.release7 {r : Nat} (h : s.Canon p) : (s.release7 r).Canon p := by
  unfold State.release7
  dsimp only
  split
  · exact h
  · exact .ite (.rest (.ringAppend (.rest (.setRing h)))) h

theorem State.Canon.afterLow {r : Nat} (h : s.Canon p) : (s.afterLow r).Canon p := .release7 (.freePassed h)

theorem State.Canon.ringEnqueue {r c : Nat} {x : Elem} {grp deal : Option Nat} {dealt : Bool} (h : s.Canon p) :
    (s.ringEnqueue r c x grp deal dealt).Canon p :=
  .ite (.release7 (.setRing h)) (.ringAppend h)

theorem State.Canon.closeGroup {r g : Nat} (h : s.Canon p) : (s.closeGroup r g).Canon p :=
  .ite h (.ite (.ite (.ite (.rPut (.setRing h)) (.changeChan (.rPut (.setRing h)))) (.laterOnce (.ite (.rPut (.setRing h))
      (.changeChan (.rPut (.setRing h)))))) (.laterOnce (.ite (.ite (.rPut (.setRing h)) (.changeChan (.rPut (.setRing h))))
      (.laterOnce (.ite (.rPut (.setRing h)) (.changeChan (.rPut (.setRing h))))))))

theorem State.Canon.launchCargo {r c : Nat} {x : Cargo} (h : s.Canon p) : (s.launchCargo r c x).Canon p := .later h
theorem State.Canon.closeFor {c g : Nat} (h : s.Canon p) : (s.closeFor c g).Canon p :=
  .foldl (fun _ _ h' => .ite (.launchCargo h') (.closeGroup h')) h
theorem State.Canon.endFor {c : Nat} (h : s.Canon p) : (s.endFor c).Canon p :=
  .foldl (fun _ _ h' => .ite (.launchCargo h') (.release7 (.setRing h'))) h
theorem State.Canon.advanceCursor {r cur n : Nat} (h : s.Canon p) : (s.advanceCursor r cur n).Canon p :=
  .ite (.rPut h) (.afterLow (.rPut h))
theorem State.Canon.holdCursor {r cur : Nat} {on : Bool} (h : s.Canon p) : (s.holdCursor r cur on).Canon p := .ite h (.devWr h)

theorem State.Canon.moveOne {r : Nat} {t : State} (h : s.Canon p) (e : s.moveOne r = some t) : t.Canon p := by
  unfold State.moveOne at e
  dsimp only at e
  split at e
  · split at e
    · cases e
    · split at e
      · cases e
      · obtain rfl := Option.some.inj e
        exact .setRing (.fillSlot h)
  · split at e
    · cases e
    · obtain rfl := Option.some.inj e
      exact .setRing (.fillSlot h)

theorem State.Canon.moveAll {r f : Nat} (h : s.Canon p) : (s.moveAll r f).Canon p := by
  induction f generalizing s with
  | zero => exact h
  | succ f ih =>
    unfold State.moveAll
    split
    · exact h
    · exact ih (h.moveOne ‹_›)

theorem State.Canon.setCredit {c e r n : Nat} (h : s.Canon p) : (s.setCredit c e r n).Canon p := .modTil h
theorem State.Canon.thirst {c e r : Nat} (h : s.Canon p) : (s.thirst c e r).Canon p := .laterOnce (.setRing h)
theorem State.Canon.toPeer {m : PeerMsg} (h : s.Canon p) : (s.toPeer m).Canon p := h
theorem State.Canon.giveCredit {r : Nat} {w : Nat × Nat} (h : s.Canon p) : (s.giveCredit r w).Canon p :=
  .ite (.toPeer (.setRing h)) (.setCredit h)

theorem State.Canon.grantTo {r : Nat} {w : Nat × Nat} {t : State} (h : s.Canon p) (e : s.grantTo r w = some t) : t.Canon p := by
  unfold State.grantTo at e
  dsimp only at e
  split at e
  · cases e
  · split at e
    · obtain rfl := Option.some.inj e
      exact .rPut (.giveCredit h)
    · split at e
      · exact Option.some.inj e ▸ h
      · split at e
        · exact Option.some.inj e ▸ h
        · cases e

theorem State.Canon.grantEach {r : Nat} {l : List (Nat × Nat)} (h : s.Canon p) : (s.grantEach r l).Canon p := by
  induction l generalizing s with
  | nil => exact h
  | cons w ws ih =>
    unfold State.grantEach
    split
    · exact ih h
    · have ht := h.grantTo ‹_›
      exact ih (.ite ht (.changeChan ht))

theorem State.Canon.grantMore {r : Nat} {ws : List (Nat × Nat)} {keep f : Nat} (h : s.Canon p) :
    (s.grantMore r ws keep f).Canon p := by
  induction f generalizing s with
  | zero => exact h
  | succ f ih => exact .ite (.ite (ih (.grantEach h)) h) h

theorem State.Canon.grant {r : Nat} (h : s.Canon p) : (s.grant r).Canon p :=
  .ite (.adopt h) (.setRing (.grantMore (.grantEach (.adopt h))))
theorem State.Canon.sendFar {c e r : Nat} {x : Cargo} (h : s.Canon p) : (s.sendFar c e r x).Canon p := .ite h (.launchCargo h)

theorem State.Canon.sendTo {c e r : Nat} {x : Elem} {grp deal : Option Nat} {dealt : Bool} (h : s.Canon p) :
    (s.sendTo c e r x grp deal dealt).Canon p :=
  .sendFar (.setCredit (.ite h (.setRing h)))

/-! ### Operands -/

theorem State.Canon.setRef {r : RefBind} (h : s.Canon p) : (s.setRef r).Canon p := .modTil h
theorem State.Canon.setStream {r : StreamBind} (h : s.Canon p) : (s.setStream r).Canon p := .modTil h
theorem State.Canon.refDeliver {r : RefBind} (h : s.Canon p) : (s.refDeliver r).Canon p :=
  .ite (.setRef h) (.ite (.setRef h) (.changeKey (.setRef h)))

theorem State.Canon.startQueued {til eng f : Nat} (h : s.Canon p) : (s.startQueued til eng f).Canon p := by
  induction f generalizing s with
  | zero => exact h
  | succ f ih =>
    unfold State.startQueued
    dsimp only
    split
    · exact h
    · exact .ite h (ih (.later (.setRef h)))

theorem State.Canon.regroup {c r cur : Nat} {x : Elem} (h : s.Canon p) : (s.regroup c r cur x).Canon p := by
  unfold State.regroup
  refine .ite (.ite ?_ ?_) h
  · split
    · exact h
    · exact .closeFor (.modCtx h)
  · split
    · exact h
    · split
      · exact .modCtx h
      · exact .ite h (.closeFor (.modCtx h))

theorem State.Canon.endTake {c e : Nat} (h : s.Canon p) : (s.endTake c e).Canon p := by
  unfold State.endTake
  dsimp only
  split
  · split
    · exact h
    · exact .acquire (.advanceCursor (.regroup h))
  · split
    · exact h
    · exact .changeKey (.setRef h)
  · split
    · exact h
    · exact .laterOnce (.modTil h)
  · split
    · exact h
    · exact .setStream h

theorem Put.Canon.blockPut {c e b : Nat} {x : Elem} (h : s.Canon p) : Put.Canon p (s.blockPut c e b x) := by
  unfold State.blockPut
  extract_lets grp live s1 i r g s2 r0
  have all : ∀ l : List Nat, ∀ o : Option State, (∀ t ∈ o, t.Canon p) → ∀ t ∈ l.foldl (fun (t : Option State) i => t.bind
      (fun s =>
      if 0 < s.credit c e (s.pTarget b i) ∧ s.takes (s.pTarget b i) none then
        some (s.sendTo c e (s.pTarget b i) x none none true) else none)) o, t.Canon p := by
    intro l
    induction l with
    | nil => exact fun _ ho => ho
    | cons i l ih =>
      refine fun o ho => ih _ fun t ht => ?_
      obtain ⟨u, hu, e⟩ := Option.bind_eq_some_iff.mp ht
      split at e
      · exact Option.some.inj e ▸ .sendTo (ho u hu)
      · cases e
  have h1 : s1.Canon p := by
    unfold s1
    split
    · exact h
    · exact .devWr (.devWr h)
  have h2 : s2.Canon p := .ite (.devWr h1) h1
  refine .ite (.ite ?_ (.ite (.done h2) (.ite (.done (.sendTo h2)) .of_full))) (.ite (.done (.sendTo h)) .of_full)
  split
  · rename_i t e
    exact .done (all _ _ (fun _ e => Option.some.inj e ▸ .devWr h) t e)
  · exact .of_full

theorem Put.Canon.refPut {c e : Nat} {x : Elem} (h : s.Canon p) : Put.Canon p (s.refPut c e x) := by
  unfold State.refPut
  dsimp only
  split
  · exact .of_full
  · exact .ite .of_full (.ite (.done (.refDeliver h)) (.ite (.done (.refDeliver h)) (.ite (.done (.setRef h)) (.done (.later
      (.setRef h))))))

theorem Put.Canon.mergePut {c port : Nat} {x : Elem} (h : s.Canon p) : Put.Canon p (s.mergePut c port x) := by
  unfold State.mergePut
  dsimp only
  split
  · exact .of_full
  · exact .ite .of_full (.done (.laterOnce (.modTil h)))

theorem Put.Canon.streamPut {c e : Nat} {x : Elem} (h : s.Canon p) : Put.Canon p (s.streamPut c e x) := by
  unfold State.streamPut
  split
  · exact .of_over
  · exact .ite (.ite .of_full (.done h)) (.ite .of_over (.ite .of_full (.done (.setStream h))))

theorem Put.Canon.putUnit {c e : Nat} {x : Elem} (h : s.Canon p) : Put.Canon p (s.putUnit c e x) := by
  unfold State.putUnit
  dsimp only
  split
  · exact .refPut h
  · exact .mergePut h
  · exact .streamPut h

theorem Put.Canon.putUnits {c e : Nat} {l : List Elem} (h : s.Canon p) : Put.Canon p (s.putUnits c e l) := by
  induction l generalizing s with
  | nil => exact h
  | cons x l ih =>
    unfold State.putUnits
    split
    · exact ih (Put.Canon.of_eq ‹_› (.putUnit h))
    · exact .of_full
    · exact .of_over

theorem Put.Canon.unitPut {c e : Nat} {x : Elem} (h : s.Canon p) : Put.Canon p (s.unitPut c e x) := by
  unfold State.unitPut
  dsimp only
  split
  · exact .putUnit h
  · split
    · exact .done (.modTil h)
    · exact .putUnits h

theorem State.Canon.takeIn {i : Intake} (h : s.Canon p) : (s.takeIn i).Canon p := by
  unfold State.takeIn
  split
  · exact Put.Canon.of_eq ‹_› (.putUnit (.modTil h))
  · exact h

theorem State.Canon.takeAll {c e : Nat} (h : s.Canon p) : (s.takeAll c e).Canon p := .foldl (fun _ _ h' => .takeIn h') h

theorem Put.Canon.endPut {c e : Nat} {x : Elem} (h : s.Canon p) : Put.Canon p (s.endPut c e x) := by
  unfold State.endPut
  dsimp only
  split
  · exact .ite (.ite (.done (.ringEnqueue h)) .of_full) (.blockPut h)
  · exact .unitPut h

theorem Put.Canon.runOps {c : Nat} {l : List TxOp} (h : s.Canon p) : Put.Canon p (s.runOps c l) := by
  induction l generalizing s with
  | nil => exact h
  | cons o l ih =>
    cases o with
    | deq e => exact ih (.endTake h)
    | enq e x due =>
      unfold State.runOps
      split
      · rename_i e
        exact ih (.rest (Put.Canon.of_eq e (.endPut (.rest h))))
      · exact .of_full
      · exact .of_over

theorem Op.Keeps.examine {rd : List Nat} {wr : List (Nat × Elem)} : Op.Keeps p (examine rd wr) := by
  unfold Machine.examine
  refine .get_bind fun _ _ => ?_
  extract_lets x scan near
  have hscan : ∀ u, Op.Keeps p (scan u) := fun _ => by
    unfold scan
    split
    · exact .stop
    · exact .stop
    · exact .ite (.bind (.forM fun _ => .readKey) fun _ => .forM fun _ => .writeKey) .pure
    · exact .stop
    · exact .stop
  exact .ite .stop_bind (.ite (.ite .stop_bind (hscan ())) (hscan ()))

theorem Op.Keeps.deq {e : Nat} : Op.Keeps p (deq e) := by
  unfold Machine.deq
  dsimp only
  refine .get_bind fun _ h => ?_
  split
  · exact .ite (.bind (.set (.modMe h)) fun _ => .pure) (.bind (.set (.endTake h)) fun _ => .pure)
  · exact .stop

theorem Op.Keeps.enq {e : Nat} {x : Elem} : Op.Keeps p (enq e x) := by
  unfold Machine.enq
  refine .get_bind fun s h => .ite ?_ ?_
  · extract_lets ops
    split
    · exact .stop
    · exact .stop
    · exact .set (.modMe h)
  · split
    · rename_i e
      exact .set (Put.Canon.of_eq e (.endPut h))
    · exact .stop
    · exact .stop

theorem Op.Keeps.rdS {n : BitVec 5} : Op.Keeps p (rdS n) := by
  unfold Machine.rdS
  refine .bind .ask (fun _ => ?_)
  split
  · exact .bind .deq fun _ => .pure
  · exact .pure

theorem Op.Keeps.wrS {n : BitVec 5} {w : Word} : Op.Keeps p (wrS n w) := by
  unfold Machine.wrS
  refine .bind .ask (fun _ => ?_)
  split
  · exact .enq
  · exact .upd fun _ h => .modMe h

theorem Op.Keeps.rdB {i : BitVec 1} {b : BitVec 5} : Op.Keeps p (rdB i b) := .ite .pure .rdS

theorem Op.Keeps.rdV {n : BitVec 5} : Op.Keeps p (rdV n) := by
  unfold Machine.rdV
  refine .bind .ask (fun _ => ?_)
  split
  · exact .deq
  · exact .pure

theorem Op.Keeps.wrV {n : BitVec 5} {w : VReg} : Op.Keeps p (wrV n w) := by
  unfold Machine.wrV
  refine .bind .ask (fun _ => ?_)
  split
  · exact .enq
  · exact .upd fun _ h => .modMe h

theorem Op.Keeps.rdAB {n : BitVec 5} {w : Nat} : Op.Keeps p (rdAB n w) := .ite .rdV (.bind .rdS fun _ => .pure)
theorem Op.Keeps.rdM {n : Nat} : Op.Keeps p (rdM n) := .ask
theorem Op.Keeps.wrM {n : Nat} {w : Word} : Op.Keeps p (wrM n w) := .upd fun _ h => .modMe h

theorem State.Canon.flush {til : Nat} {x : Flush} (h : s.Canon p) : (s.flush til x).Canon p := by
  unfold State.flush
  split
  · exact h
  · exact .acquire h
  · exact .modTil h

theorem State.Canon.holdOrder {loads : Bool} {line : Option Nat} {at_ : Word} {flush : Flush} (h : s.Canon p) :
    (s.holdOrder loads line at_ flush).Canon p :=
  .ite (.modMe h) (.flush h)

theorem State.Canon.postMiss {c : Nat} {k : Acc} {lane : Nat} {va : Word} {quiet : Bool} (h : s.Canon p) :
    (s.postMiss c k lane va quiet).Canon p :=
  .send (.modCtx h)

theorem State.Canon.postFault {c : Nat} {k : Acc} {cause lane : Nat} {va : Word} (h : s.Canon p) :
    (s.postFault c k cause lane va).Canon p :=
  .send (.modCtx h)

theorem State.Canon.nudge {c e : Nat} (h : s.Canon p) : (s.nudge c e).Canon p := .ite (.foldl (fun _ _ h' => .thirst h') h) h

theorem State.Canon.sleepOn {c cause : Nat} {keys : List Key} {ends : List Nat} (h : s.Canon p) :
    (s.sleepOn c cause keys ends).Canon p :=
  .foldl (fun _ _ h' => .nudge h') (.foldl (fun _ _ h' => .register h') (.modCtx h))

theorem State.Canon.txRetry {c : Nat} (h : s.Canon p) : (s.txRetry c).Canon p := by
  unfold State.txRetry
  dsimp only
  split
  · exact .setCtx h
  · exact .ite (.wakeCtx (.dropToken (.foldl (fun _ _ h' => .register h') (.setCtx h)))) (.dropToken (.foldl (fun _ _ h' =>
      .register h') (.setCtx h)))

theorem State.Canon.txWait {c : Nat} {keys : List Key} {ends : List Nat} (h : s.Canon p) : (s.txWait c keys ends).Canon p :=
  .ite (.abortTx (.foldl (fun _ _ h' => .registerOwner h') (.foldl (fun _ _ h' => .nudge h') h))) (.txRetry (.setCtx (.foldl
      (fun _ _ h' => .registerOwner h') (.foldl (fun _ _ h' => .nudge h') h))))

theorem State.Canon.depart {c target : Nat} {recalled : Bool} (h : s.Canon p) : (s.depart c target recalled).Canon p :=
  .tick (.modCtx (.modCtx (.modTil h)))
theorem State.Canon.moveOut {c target : Nat} (h : s.Canon p) : (s.moveOut c target).Canon p := .ite (.modCtx h) (.depart h)

theorem State.Canon.meetAwn {c e : Nat} {x : Elem} {word : IWord} (h : s.Canon p) : (s.meetAwn c e x word).Canon p := by
  unfold State.meetAwn
  dsimp only
  split
  · exact .takeTrap h
  · exact .modCtx (.endTake h)

theorem State.Canon.onStop {word : IWord} {e : Stop} (h : s.Canon p) : (s.onStop word e).Canon p := by
  unfold State.onStop
  dsimp only
  refine .ite ?_ ?_
  · split
    · exact .ite (.abortTx h) (.ite (.abortTx h) (.abortTx h))
    · exact .txWait h
    · exact .postMiss h
    · exact .abortTx h
    · exact .abortTx h
    · exact .modCtx h
    · exact .abortTx h
    · exact .restartConflict h
    · exact .moveOut h
  · split
    · exact .takeTrap h
    · exact .sleepOn h
    · exact .postMiss h
    · exact .postFault h
    · exact .meetAwn h
    · exact .modCtx h
    · exact h
    · exact h
    · exact .moveOut h

theorem State.Canon.onDone {x : Flow} (h : s.Canon p) : (s.onDone x).Canon p := by
  unfold State.onDone
  split
  · exact .modMe h
  · exact .modMe h
  · exact h

theorem Op.Keeps.rowCheck {i : Instr} : Op.Keeps p (rowCheck i) :=
  .bind .ask fun _ => .ite .stop_bind (.ite .stop_bind (.ite .stop .pure))
theorem Op.Keeps.examineFields {i : Instr} : Op.Keeps p (examineFields i) := .bind .ask fun _ => .examine

theorem Settles.performRaw {i : Instr} {body : Op Flow} (hb : Op.Keeps p body) (h : s.Canon p) :
    Settles p (performRaw i body s) := by
  unfold Machine.performRaw
  split
  · rename_i e
    exact .next (.onDone (Op.Keeps.bind .rowCheck (fun _ => hb) s _ h e))
  · exact .next (.onStop h)

theorem Settles.perform {i : Instr} {body : Op Flow} (hb : Op.Keeps p body) (h : s.Canon p) : Settles p (perform i body s) :=
  .performRaw (.bind .examineFields fun _ => hb) h
theorem Op.Keeps.thenNext {m : Op Unit} (hm : Op.Keeps p m) : Op.Keeps p (thenNext m) := .bind hm fun _ => .pure

/-! ### Channel -/

theorem State.Canon.doBind {c e : Nat} {b : Word} (h : s.Canon p) : (s.doBind c e b).Canon p := by
  unfold State.doBind
  dsimp only
  split
  · exact .ite (.ite (.adopt (.modCtx h)) (.modCtx h)) (.holdCursor (.rPut (.ite (.adopt (.modCtx h)) (.modCtx h))))
  · refine .ite (.modTil (.ite (.adopt (.modCtx h)) (.modCtx h))) ?_
    split
    · exact .ite (.adopt (.modCtx h)) (.modCtx h)
    · exact .refDeliver (.ite (.adopt (.modCtx h)) (.modCtx h))
  · exact .laterOnce (.modTil (.ite (.adopt (.modCtx h)) (.modCtx h)))
  · exact .modTil (.ite (.adopt (.modCtx h)) (.modCtx h))

theorem State.Canon.voidNumber {r : Nat} {u : Nat × Nat × Nat} (h : s.Canon p) : (s.voidNumber r u).Canon p :=
  .ite (.setRing h) (.publishAt (.setRing h))
theorem State.Canon.voidFar {r : Nat} {u : Nat × Nat × Nat} (h : s.Canon p) : (s.voidFar r u).Canon p := .sendFar (.setRing h)
theorem State.Canon.voidReserved {c e : Nat} (h : s.Canon p) : (s.voidReserved c e).Canon p :=
  .foldl (fun _ _ h' => .foldl (fun _ _ h'' => .ite (.voidFar h'') (.voidNumber h'')) h') h
theorem State.Canon.returnCredits {c e : Nat} (h : s.Canon p) : (s.returnCredits c e).Canon p :=
  .foldl (fun _ _ h' => .ite (.toPeer h') (.changeChan (.ite (.rPut h') (.laterOnce (.rPut h'))))) (.rest (.modTil h))
theorem State.Canon.releaseCursor {r cur : Nat} (h : s.Canon p) : (s.releaseCursor r cur).Canon p :=
  .foldl (fun _ _ h' => .wakeCtx h') (.afterLow (.holdCursor h))

theorem State.Canon.unbind {c e : Nat} (h : s.Canon p) : (s.unbind c e).Canon p := by
  unfold State.unbind
  dsimp only
  split
  · exact .modCtx (.takeAll h)
  · exact .ite (.returnCredits (.voidReserved (.modCtx (.takeAll h)))) (.releaseCursor (.modCtx (.modCtx (.takeAll h))))
  · refine .ite ?_ (.modTil (.modCtx (.takeAll h)))
    split
    · exact .modCtx (.takeAll h)
    · split
      · exact .startQueued (.modTil (.modCtx (.takeAll h)))
      · exact .modCtx (.startQueued (.modTil (.modCtx (.takeAll h))))
  · split
    · exact .modCtx (.takeAll h)
    · exact .modTil (.modCtx (.takeAll h))
  · exact .modTil (.modCtx (.takeAll h))

theorem State.Canon.endReplica {c : Nat} (h : s.Canon p) : (s.endReplica c).Canon p :=
  .endFor (.modCtx (.foldl (fun _ _ h' => .closeFor h') h))
theorem State.Canon.unbindAll {c : Nat} (h : s.Canon p) : (s.unbindAll c).Canon p := .foldl (fun _ _ h' => .unbind h') h
theorem Op.Keeps.boundEnd {e : BitVec 5} : Op.Keeps p (boundEnd e) := .bind .ask fun _ => .ite .stop_bind .pure
theorem Op.Keeps.wrData {e d : BitVec 5} {w : VReg} : Op.Keeps p (wrData e d w) := .ite .wrS .wrV
theorem Op.Keeps.rdData {e d : BitVec 5} : Op.Keeps p (rdData e d) := .ite (.bind .rdS fun _ => .pure) .rdV
theorem Op.Keeps.setEmpty {af ef : Bool} : Op.Keeps p (setEmpty af ef) := .upd fun _ h => .modMe h

theorem Op.Keeps.tryHead {i : Instr} {take : Bool} {d a b : BitVec 5} : Op.Keeps p (tryHead i take d a b) := by
  unfold Machine.tryHead
  refine .thenNext ?_
  extract_lets e rest
  refine .bind .boundEnd fun _ => ?_
  have hrest : ∀ u, Op.Keeps p (rest u) := fun _ => by
    refine .bind .ask fun _ => ?_
    extract_lets put look
    have hput : ∀ u, Op.Keeps p (put u) := fun _ => by
      refine .bind .ask fun _ => ?_
      split
      · exact .ite .stop (.bind .wrS fun _ => .setEmpty)
      · exact .bind .wrS fun _ => .setEmpty
      · refine .ite ?_ ?_
        · exact .ite (.bind .deq fun _ => .bind .wrS fun _ => .setEmpty) (.bind .wrS fun _ => .setEmpty)
        · exact .ite (.bind .deq fun _ => .bind .wrData fun _ => .bind .wrS fun _ => .setEmpty)
            (.bind .wrData fun _ => .bind .wrS fun _ => .setEmpty)
    have hlook : ∀ u, Op.Keeps p (look u) := fun _ =>
      .bind .examine fun _ => .ite (.bind .ask fun _ => .bind .readKey hput) (hput ())
    exact .ite (.bind .ask fun _ => .ite .stop_bind (hlook ())) (hlook ())
  exact .ite .stop_bind (hrest ())

theorem Op.Keeps.putAwn {i : Instr} {d a : BitVec 5} {level : Nat} : Op.Keeps p (putAwn i d a level) :=
  .thenNext (.bind .boundEnd fun _ => .ite .stop_bind (.bind .ask fun _ => .bind .examine fun _ => .bind .rdS fun _ => .enq))
theorem State.Canon.polled {c e : Nat} (h : s.Canon p) : (s.polled c e).Canon p := .ite (.nudge h) h
theorem State.Canon.useCredits {c e r n : Nat} (h : s.Canon p) : (s.useCredits c e r n).Canon p := .ite h (.rPut (.setCredit h))
theorem State.Canon.reserve {c e r seq n : Nat} (h : s.Canon p) : (s.reserve c e r seq n).Canon p := .setRing h

theorem Settles.execRres {d a b : BitVec 5} {i : BitVec 1} (h : s.Canon p) : Settles p (execRres d a b i s) := by
  unfold Machine.execRres
  dsimp only
  refine .perform (.thenNext (.bind .boundEnd (fun _ => (.bind .ask (fun _ => ?_))))) h
  split
  · exact .stop
  · exact .bind .rdB fun _ => .bind (.upd fun _ h' => .adopt h') fun _ => .get_bind fun _ _ => .ite .wrS (.ite (.ite .stop (.bind
      .fresh fun _ => .bind (.upd fun _ h'' => .reserve (.setCredit h'')) fun _ => .wrS)) (.ite .stop (.bind (.upd fun _ h'' =>
      .rPut (.reserve (.useCredits h''))) fun _ => .wrS)))

theorem State.Canon.publishOwn {c e r seq : Nat} {x : Elem} (h : s.Canon p) : (s.publishOwn c e r seq x).Canon p :=
  .ite (.sendFar h) (.publishAt h)

theorem Settles.execRpub {d a b : BitVec 5} {w : BitVec 1} (h : s.Canon p) : Settles p (execRpub d a b w s) := by
  unfold Machine.execRpub
  dsimp only
  refine .perform (.thenNext (.bind .boundEnd (fun _ => (.ite .stop_bind (.bind .rdData (fun _ => (.bind .rdS (fun _ =>
      (.get_bind fun _ h' => ?_))))))))) h
  split
  · exact .stop
  · exact .ite .stop_bind (.ite .stop_bind (.upd fun _ h'' => .publishOwn (.setRing h'')))

/-! ### Clock -/

theorem State.Canon.fillCode {til pa : Nat} (h : s.Canon p) : (s.fillCode til pa).Canon p :=
  .ite h (.ite (.setTil h) (.tick (.setTil h)))

theorem State.Canon.codeHere {c : Nat} (h : s.Canon p) : (s.codeHere c).Canon p := by
  unfold State.codeHere
  extract_lets pc s1
  have h1 : s1.Canon p := .modCtx h
  split
  · exact h1
  · rename_i e
    have h2 := h1.of_lookup e
    exact .ite h2 (.fillCode h2)

theorem Settles.execTlbEntryDisplaced {level unit index : Nat} (h : s.Canon p) :
    Settles p (execTlbEntryDisplaced level unit index s) := by
  unfold Machine.execTlbEntryDisplaced
  refine .next ?_
  split
  · exact .modCore h
  · exact .modCore h
  · exact .modTil h
  · exact .modDie h
  · exact h

/-! ### Lanes -/

theorem Op.Keeps.setFlags {fl : Flags} : Op.Keeps p (setFlags fl) := .upd fun _ h => .modMe h
theorem Op.Keeps.putV {d : BitVec 5} {r : VReg × Flags} : Op.Keeps p (putV d r) := .bind .wrV fun _ => .setFlags

theorem Op.Keeps.vec2 {d a b : BitVec 5} {t : BitVec 4} {m : BitVec 3} {f : Nat → Nat → Nat × Flags} :
    Op.Keeps p (vec2 d a b t m f) :=
  .thenNext (.bind .rdAB fun _ => .bind .rdAB fun _ => .bind .rdM fun _ => .putV)

theorem Op.Keeps.vec1 {d a : BitVec 5} {t : BitVec 4} {m : BitVec 3} {f : Nat → Nat × Flags} : Op.Keeps p (vec1 d a t m f) :=
  .thenNext (.bind .rdAB fun _ => .bind .rdM fun _ => .putV)

theorem Op.Keeps.vec3 {d a b : BitVec 5} {t : BitVec 4} {m : BitVec 3} {f : Nat → Nat → Nat → Nat × Flags} :
    Op.Keeps p (vec3 d a b t m f) :=
  .thenNext (.bind .rdAB fun _ => .bind .rdAB fun _ => .bind .rdV fun _ => .bind .rdM fun _ => .putV)

/-! ### Stores -/

theorem State.Canon.loosen {a : Nat} {mask : Byte} (h : s.Canon p) : (s.loosen a mask).Canon p := .tick (.setByte h)
theorem State.Canon.rebuilt {old : State} {a n : Nat} (h : s.Canon p) : (s.rebuilt old a n).Canon p := .ite h h

theorem State.Canon.tailWritten {old : State} {a n : Nat} (h : s.Canon p) : (s.tailWritten old a n).Canon p := by
  unfold State.tailWritten
  dsimp only
  refine .foldl (fun _ _ h' => ?_) h
  split
  · exact h'
  · exact .ite (.devWr (.devWr h')) h'

theorem State.Canon.tamper {old : State} {a n : Nat} (h : s.Canon p) : (s.tamper old a n).Canon p := by
  unfold State.tamper
  dsimp only
  refine .foldl (fun _ _ h' => .loosen (.scramble h')) (.foldl (fun _ _ h' => .loosen (.scramble (.scramble h'))) (.foldl
      (fun _ _ h' => ?_) (.foldl (fun _ _ h' => .scramble (.scramble h')) (.rebuilt (.tailWritten h)))))
  split
  · exact .foldl (fun _ _ h'' => .ite (.scramble h'') h'') h'
  · exact .ite (.scramble (.foldl (fun _ _ h'' => .ite (.scramble h'') h'') h')) (.foldl (fun _ _ h'' => .ite
      (.scramble h'') h'') h')

theorem Op.Keeps.strandStore {all : Bool} {l : Lane} {bs : List Byte} : Op.Keeps p (strandStore all l bs) :=
  .get_bind fun _ _ => .bind .storeLane fun _ => .ite (.upd fun _ h' => .tamper h') .pure
theorem State.Canon.devStore {loc part : Nat} {bs : List Byte} (h : s.Canon p) : (s.devStore loc part bs).Canon p :=
  .tamper (.globalStore h)

theorem Op.Keeps.storeScalar {k : Acc} {n : Nat} {va : Word} {x : Nat} : Op.Keeps p (storeScalar k n va x) := by
  unfold Machine.storeScalar
  refine .bind .resolveStore (fun _ => ?_)
  split
  · exact .strandStore
  · exact .pure

/-! ### Engines -/

theorem State.Canon.publishPeer {r c seq : Nat} {x : Elem} (h : s.Canon p) : (s.publishPeer r c seq x).Canon p := by
  unfold State.publishPeer
  dsimp only
  split
  · exact h
  · exact .publishAt (.setRing h)

theorem State.Canon.arrive {r : Nat} (h : s.Canon p) : (s.arrive r).Canon p := by
  unfold State.arrive
  dsimp only
  split
  · exact h
  · refine .ite ?_ ?_
    · refine .ite h ?_
      split
      · exact .toPeer h
      · exact h
    · split
      · refine .ite h ?_
        split
        · exact .publishPeer h
        · exact .rest (.ringEnqueue (.rest (.rPut h)))
      · exact .closeGroup h
      · exact .release7 (.setRing h)

theorem State.Canon.fromPeer {module : Nat} {f : State → State} (h : s.Canon p) (hf : ∀ s, s.Canon p → (f s).Canon p) :
    (s.fromPeer module f).Canon p :=
  .ite h (hf _ h)

theorem Settles.execElementArrival {ring : Nat} (h : s.Canon p) : Settles p (execElementArrival ring s) := by
  unfold Machine.execElementArrival
  refine .next (.arrive ?_)
  split
  · exact .ite (.fromPeer h (fun _ h' => .launchCargo h')) h
  · exact h

theorem State.Canon.peerGrant {r : Nat} (h : s.Canon p) : (s.peerGrant r).Canon p :=
  .ite h (.foldl (fun _ _ h' => .ite (.tick h') (.changeChan (.setRing (.setCredit (.tick h'))))) h)
theorem State.Canon.reservePeer {r module k n : Nat} (h : s.Canon p) : (s.reservePeer r module k n).Canon p :=
  .ite (.toPeer h) (.ite h (.toPeer (.rPut (.reserve h))))

theorem State.Canon.peerAsks {r : Nat} (h : s.Canon p) : (s.peerAsks r).Canon p := by
  unfold State.peerAsks
  dsimp only
  split
  · exact .ite (.fromPeer h (fun _ h' => .ite (.adopt h') (.setRing (.adopt h')))) h
  · exact .ite (.fromPeer h (fun _ h' => .ite (.adopt h') (.rPut (.adopt h')))) h
  · exact .ite (.fromPeer h (fun _ h' => .ite (.adopt h') (.reservePeer (.adopt h')))) h
  · exact h

theorem State.Canon.engErr {c kind eng til desc : Nat} {va : Word} (h : s.Canon p) : (s.engErr c kind eng til desc va).Canon p :=
  .send h

theorem State.Canon.fetchBack {c e : Nat} (h : s.Canon p) : (s.fetchBack c e).Canon p := by
  unfold State.fetchBack
  dsimp only
  split
  · exact h
  · split
    · exact h
    · split
      · exact .ite (.refDeliver (.engErr h)) (.refDeliver h)
      · exact .send (.setRef (.devWr (.devWr h)))

theorem State.Canon.fetchReturn {c e : Nat} (h : s.Canon p) : (s.fetchReturn c e).Canon p := by
  unfold State.fetchReturn
  split
  · exact h
  · exact .startQueued (.fetchBack h)

theorem State.Canon.stale {til : Nat} (h : s.Canon p) : (s.stale til).Canon p := .modTil h

theorem Settles.execEngineReply {til : Nat} {body : Body} (h : s.Canon p) : Settles p (execEngineReply til body s) := by
  unfold Machine.execEngineReply
  dsimp only
  refine .next (.ite (.stale h) ?_)
  split
  · exact .stale h
  · split
    · exact .stale h
    · exact .ite (.later (.refDeliver h)) (.startQueued (.refDeliver h))

theorem State.Canon.copyFaultMsg {sid : BitVec 32} {til ckind cause tag : Nat} {va pc : Word} (h : s.Canon p) :
    (s.copyFaultMsg sid til ckind cause tag va pc).Canon p :=
  .send h

theorem State.Canon.copyErrMsg {sid : BitVec 32} {code tag : Nat} {va pc : Word} (h : s.Canon p) :
    (s.copyErrMsg sid code tag va pc).Canon p :=
  .send h

theorem State.Canon.streamDeliver {b : StreamBind} {x : Elem} (h : s.Canon p) : (s.streamDeliver b x).Canon p :=
  .changeKey (.setStream h)

theorem State.Canon.streamRead {c e : Nat} (h : s.Canon p) : (s.streamRead c e).Canon p := by
  unfold State.streamRead
  dsimp only
  split
  · exact h
  · refine .ite h ?_
    split
    · exact .streamDeliver h
    · exact .copyFaultMsg (.setStream h)
    · exact .ite (.streamDeliver (.engErr h)) (.streamDeliver h)

theorem State.Canon.streamStored {b : StreamBind} (h : s.Canon p) : (s.streamStored b).Canon p :=
  .ite (.modTil (.changeKey (.setStream h))) (.changeKey (.setStream h))

theorem State.Canon.streamStore {c e : Nat} (h : s.Canon p) : (s.streamStore c e).Canon p := by
  unfold State.streamStore
  dsimp only
  split
  · exact h
  · refine .ite h ?_
    split
    · exact h
    · split
      · exact .streamStored (.copyErrMsg h)
      · exact .copyFaultMsg (.setStream h)
      · exact .streamStored (.devStore h)

theorem State.Canon.streamReply {b : StreamBind} {resume : Bool} (h : s.Canon p) : (s.streamReply b resume).Canon p :=
  .ite (.setStream h) (.ite (.streamStored h) (.streamDeliver h))

theorem State.Canon.mergeStep {til : Nat} (h : s.Canon p) : (s.mergeStep til).Canon p := by
  unfold State.mergeStep
  dsimp only
  split
  · exact h
  · split
    · exact .ite h (.laterOnce (.changeKey (.ite (.devWr (.ite (.devWr (.modTil h)) (.modTil h))) (.ite (.devWr (.modTil h))
        (.modTil h)))))
    · exact h

theorem Op.Keeps.mergeCounters {d a : BitVec 5} {clear : Bool} : Op.Keeps p (mergeCounters d a clear) :=
  .thenNext (.bind .boundEnd fun _ => .ite .stop_bind (.get_bind fun _ _ => .ite (.bind (.upd fun _ h' => .devWr h') fun _ =>
      .wrS) .wrS))

/-! ### Tx -/

theorem State.Canon.commitCells {c : Nat} {cells : List (Nat × Byte)} {stores : List (Nat × Nat)} (h : s.Canon p) :
    (s.commitCells c cells stores).Canon p :=
  .foldr (fun _ _ h' => .tamper h') (.foldl (fun _ _ h' => .changeLine h') (.rest (.foldr (fun _ _ h' => .setByte h') h)))

theorem Op.Keeps.commitTx : Op.Keeps p commitTx := by
  refine .get_bind fun s h => .ite .stop_bind (.ite .stop_bind ?_)
  split
  · rename_i e
    exact .set (.dropToken (.commitCells (.modCtx (.modTil (Put.Canon.of_eq e (.runOps h))))))
  · exact .stop

theorem Op.Keeps.inAttempt : Op.Keeps p inAttempt := .bind .ask fun _ => .ite .stop .pure

/-! ### Counters -/

theorem State.Canon.setCounter {loc : Nat} {k : Counter} {who : Option Nat} (h : s.Canon p) : (s.setCounter loc k who).Canon p :=
  .store h

theorem State.Canon.dropMember {t : Nat} {m : Member} {kill : Bool} (h : s.Canon p) : (s.dropMember t m kill).Canon p := by
  unfold State.dropMember
  dsimp only
  split
  · exact .modTil h
  · exact .setCounter (.modTil h)

theorem State.Canon.dropMembers {c : Nat} {kill : Bool} (h : s.Canon p) : (s.dropMembers c kill).Canon p :=
  .foldl (fun _ _ h' => .dropMember h') h

/-! ### Levels -/

theorem State.Canon.lvPut {part o off n x : Nat} (h : s.Canon p) : (s.lvPut part o off n x).Canon p := .globalStore h
theorem State.Canon.lvOr {part o fl : Nat} (h : s.Canon p) : (s.lvOr part o fl).Canon p := .ite h (.lvPut h)

theorem State.Canon.lvComplete {part til f o : Nat} (h : s.Canon p) : (s.lvComplete part til f o).Canon p := by
  induction f generalizing s o with
  | zero => exact h
  | succ f ih =>
    unfold State.lvComplete
    extract_lets st fl s1
    have h1 : s1.Canon p := .lvPut h
    refine .ite h1 ?_
    split
    · exact h1
    · rename_i q _
      extract_lets old new s2 s3
      have h2 : s2.Canon p := .lvPut h1
      have h3 : s3.Canon p := .lvOr h2
      exact .ite h2 (.ite (ih h3) h3)

theorem State.Canon.retryShares (h : s.Canon p) : s.retryShares.Canon p := .foldl (fun _ _ h' => .laterOnce h') h
theorem State.Canon.forgetLaunches (h : s.Canon p) : s.forgetLaunches.Canon p := h
theorem State.Canon.dropGrants {id : Nat} {f : Use → Bool} (h : s.Canon p) : (s.dropGrants id f).Canon p :=
  h.of_keys (ht := keys_map fun _ => rfl)
theorem State.Canon.dropRings {part : Nat} {locs : List Nat} (h : s.Canon p) : (s.dropRings part locs).Canon p :=
  h.of_keys (ht := keys_map fun _ => rfl)
theorem State.Canon.freeStorage {l : Launch} (h : s.Canon p) : (s.freeStorage l).Canon p :=
  .forgetLaunches (.retryShares (.dropRings (.dropGrants h)))
theorem State.Canon.levelsMoved (h : s.Canon p) : s.levelsMoved.Canon p :=
  .foldl (fun _ _ h' => .freeStorage h') (.foldl (fun _ _ h' => .laterOnce h') h)
theorem State.Canon.lvAdd {part til o n : Nat} (h : s.Canon p) : (s.lvAdd part til o n).Canon p :=
  .levelsMoved (.ite (.lvComplete (.lvPut h)) (.lvPut h))

theorem State.Canon.countStrand {c : Nat} {killed nonzero : Bool} (h : s.Canon p) : (s.countStrand c killed nonzero).Canon p := by
  unfold State.countStrand
  dsimp only
  refine .ite h ?_
  split
  · exact h
  · exact .lvAdd (.ite (.modCtx h) (.lvOr (.modCtx h)))

theorem State.Canon.replicaGone {part c : Nat} (h : s.Canon p) : (s.replicaGone part c).Canon p := by
  unfold State.replicaGone
  dsimp only
  split
  · exact h
  · exact .forgetLaunches (.retryShares (.dropGrants h))

/-! ### Release -/

theorem State.Canon.dropLease {c : Nat} (h : s.Canon p) : (s.dropLease c).Canon p := .ite (.changeKey (.setTil h)) (.setTil h)
theorem State.Canon.dropOwner {c : Nat} (h : s.Canon p) : (s.dropOwner c).Canon p := .ite (.changeKey (.modTil h)) h
theorem State.Canon.freeAcc {til acc : Nat} (h : s.Canon p) : (s.freeAcc til acc).Canon p := .ite (.later (.setTil h)) (.setTil h)
theorem State.Canon.freeTile {c : Nat} (h : s.Canon p) : (s.freeTile c).Canon p :=
  .foldl (fun _ _ h' => .freeAcc h') (.dropOwner (.dropLease h))
theorem State.Canon.failFaulted {c : Nat} (h : s.Canon p) : (s.failFaulted c).Canon p :=
  .foldl (fun _ _ h' => .streamStored h') (.foldl (fun _ _ h' => .later h') h)
theorem State.Canon.endResources {c : Nat} {kill : Bool} (h : s.Canon p) : (s.endResources c kill).Canon p :=
  .failFaulted (.freeTile (.dropMembers (.unbindAll (.endReplica (.modCtx (.dropToken (.withdraw h)))))))
theorem State.Canon.freed {c : Nat} (h : s.Canon p) : (s.freed c).Canon p := .letIn h
theorem State.Canon.leaveHost {c : Nat} (h : s.Canon p) : (s.leaveHost c).Canon p := .freed (.setCtx h)

theorem State.Canon.cancelTicket {c : Nat} (h : s.Canon p) : (s.cancelTicket c).Canon p := by
  unfold State.cancelTicket
  dsimp only
  split
  · exact h
  · exact .ite h (.laterOnce (.modTil h))

theorem State.Canon.exitMsg {c kind cause : Nat} {status pc : Word} (h : s.Canon p) :
    (s.exitMsg c kind cause status pc).Canon p :=
  .send h

theorem State.Canon.exitStrand {c : Nat} {code : BitVec 32} (h : s.Canon p) : (s.exitStrand c code).Canon p :=
  .countStrand (.exitMsg (.modCtx (.ite (.endResources (.cancelTicket h)) (.leaveHost (.cancelTicket h)))))

theorem State.Canon.unspill {part : Nat} (h : s.Canon p) : (s.unspill part).Canon p :=
  .foldl (fun _ _ h' => .later h') (.foldl (fun _ _ h' => .ite h' (.foldl (fun _ _ h'' => .changeChan h'') (.laterOnce h')))
      (.foldl (fun _ _ h' => .changeChan h') (.foldl (fun _ _ h' => .ite (.release7 h') h') (.foldl (fun _ _ h' => .foldl
      (fun _ _ h'' => .voidNumber h'') h') (.foldl (fun _ _ h' => .publish h') (.ite h h))))))

theorem State.Canon.killStrand {c cause : Nat} (h : s.Canon p) : (s.killStrand c cause).Canon p :=
  .ite (.unspill (.freed (.replicaGone (.modCtx (.countStrand (.exitMsg (.endResources (.cancelTicket h)))))))) (.freed
      (.replicaGone (.modCtx (.countStrand (.exitMsg (.endResources (.cancelTicket h)))))))

theorem State.Canon.migrantDead {g cause : Nat} (h : s.Canon p) : (s.migrantDead g cause).Canon p :=
  .countStrand (.exitMsg (.modCtx h))

/-! ### Strands -/

theorem Op.Keeps.checkTarget {t : Word} : Op.Keeps p (checkTarget t) := .ite .stop .pure

theorem Settles.branch {i : Instr} {a b : BitVec 5} {k : BitVec 14} {cond : Word → Word → Bool} (h : s.Canon p) :
    Settles p (branch i a b k cond s) :=
  .perform (.bind .rdS fun _ => .bind .rdS fun _ => .bind .ask fun _ => .bind .checkTarget fun _ => .pure) h

theorem Op.Keeps.stewardOnly : Op.Keeps p stewardOnly := .bind .ask fun _ => .ite .stop .pure

theorem State.Canon.startStrand {cid : Nat} {b : Block} {tile mig : Bool} (h : s.Canon p) :
    (s.startStrand cid b tile mig).Canon p :=
  .ite (.modTil (.foldl (fun _ _ h' => .doBind h') (.setCtx h))) (.foldl (fun _ _ h' => .doBind h') (.setCtx h))

theorem Settles.execSpawn {d a b : BitVec 5} {i t g : BitVec 1} (h : s.Canon p) : Settles p (execSpawn d a b i t g s) := by
  unfold Machine.execSpawn
  dsimp only
  refine .performRaw (.thenNext (.bind .stewardOnly (fun _ => (.bind .examineFields (fun _ => (.bind .rdS (fun _ => (.bind .rdB
      (fun _ => (.get_bind fun _ h' => ?_)))))))))) h
  split
  · exact .ite .stop_bind (.ite .stop_bind (.ite .stop_bind (.ite .wrS (.ite .wrS (.ite .stop (.ite .wrS (.ite .wrS (.ite .stop
      (.bind (.upd fun _ h'' => .startStrand h'') fun _ => .bind .ask fun _ => .wrS)))))))))
  · exact .stop

theorem Settles.execReap {d a b : BitVec 5} {i : BitVec 1} (h : s.Canon p) : Settles p (execReap d a b i s) := by
  unfold Machine.execReap
  refine .performRaw (.thenNext (.bind .stewardOnly fun _ => .bind .examineFields fun _ => ?_)) h
  extract_lets away reap
  have hreap : ∀ n, Op.Keeps p (reap n) := fun _ => by
    refine .get_bind fun _ _ => .ite .wrS (.ite .wrS ?_)
    split
    · exact .wrS
    · exact .bind (.upd fun _ h => .freed (.replicaGone (.modCtx h))) fun _ => .wrS
    · exact .bind (.upd fun _ h => .later (.modCtx h)) fun _ => .wrS
    · exact .wrS
    all_goals exact .bind (.upd fun _ h => .killStrand h) fun _ => .wrS
  exact .ite (.bind .pure hreap) (.bind .rdS hreap)

theorem State.Canon.exitStep {c : Nat} {code : BitVec 32} (h : s.Canon p) : (s.exitStep c code).Canon p :=
  .ite (.modCtx h) (.exitStrand h)

theorem State.Canon.wake {c : Nat} (h : s.Canon p) : (s.wake c).Canon p := by
  unfold State.wake
  refine .ite ?_ h
  split
  · exact .modCtx (.withdraw h)
  · exact .modCtx (.withdraw h)
  · exact h

theorem State.Canon.answer {til : Nat} {body : Body} (h : s.Canon p) : (s.answer til body).Canon p := by
  unfold State.answer
  dsimp only
  refine .ite (.stale h) ?_
  split
  · exact .ite (.modCtx h) (.takeTrap (.modCtx h))
  · exact .stale h

theorem State.Canon.deliver {k b f : Nat} (h : s.Canon p) : (s.deliver k b f).Canon p := by
  induction f generalizing s with
  | zero => exact h
  | succ f ih =>
    unfold State.deliver
    dsimp only
    split
    · exact .ite (h.of_keys (hc := keys_map fun _ => rfl)) h
    · exact .ite (ih (.ring (.setCore h))) h

/-! ### Migration -/

theorem State.Canon.serve {til : Nat} (h : s.Canon p) : (s.serve til).Canon p := .ite (.modTil h) (.later (.modTil h))
theorem State.Canon.leftSource {m : Migrant} (h : s.Canon p) : (s.leftSource m).Canon p := .ite (.modCtx h) (.leaveHost h)

theorem State.Canon.sendHome {c : Nat} (h : s.Canon p) : (s.sendHome c).Canon p := by
  unfold State.sendHome
  dsimp only
  split
  · exact h
  · exact .depart (.modCtx (.cancelTicket h))

theorem State.Canon.enter {m : Migrant} {c : Nat} (h : s.Canon p) : (s.enter m c).Canon p :=
  .ite (.modCtx (.leftSource h)) (.ite (.sendHome (.modCtx (.setCtx (.leftSource h)))) (.modCtx (.setCtx (.leftSource h))))
theorem State.Canon.perish {m : Migrant} (h : s.Canon p) : (s.perish m).Canon p := .migrantDead (.modCtx (.ite h (.leaveHost h)))
theorem State.Canon.refuse {til : Nat} {m : Migrant} (h : s.Canon p) : (s.refuse til m).Canon p := .modCtx (.modCtx (.modTil h))
theorem State.Canon.goBack {til : Nat} {m : Migrant} (h : s.Canon p) : (s.goBack til m).Canon p := .tick (.modTil (.modCtx h))

theorem State.Canon.arriveMigrant {til : Nat} (h : s.Canon p) : (s.arriveMigrant til).Canon p := by
  unfold State.arriveMigrant
  dsimp only
  split
  · exact h
  · exact .ite (.perish (.modTil h)) (.ite (.goBack (.modTil h)) (.ite (.ite (.modTil h) (.enter (.modTil h))) (.ite (.modTil h)
      (.ite (.modTil h) (.refuse (.modTil h))))))

theorem State.Canon.admitQueued {til f : Nat} (h : s.Canon p) : (s.admitQueued til f).Canon p := by
  induction f generalizing s with
  | zero => exact h
  | succ f ih =>
    unfold State.admitQueued
    dsimp only
    split
    · exact h
    · exact ih (.enter (.modTil h))

theorem State.Canon.killMigrant {g cause : Nat} (h : s.Canon p) : (s.killMigrant g cause).Canon p := by
  unfold State.killMigrant
  dsimp only
  refine .ite h ?_
  split
  · exact .migrantDead (.leaveHost (.cancelTicket h))
  · split
    · exact .laterOnce (.migrantDead (.foldl (fun _ _ h' => .leftSource h') (.modTil h)))
    · exact h

/-! ### System -/

theorem Settles.execMfs {d : BitVec 5} {k : BitVec 16} (h : s.Canon p) : Settles p (execMfs d k s) := by
  unfold Machine.execMfs
  refine .perform (.thenNext (.get_bind fun _ h' => ?_)) h
  split
  · exact .wrS
  · exact .stop

theorem Settles.mtsSteward {i : Instr} {d : BitVec 5} {f : Word → State → State} (hf : ∀ w s, s.Canon p → (f w s).Canon p)
    (h : s.Canon p) : Settles p (mtsSteward i d f s) :=
  .performRaw (.thenNext (.bind .stewardOnly fun _ => .bind .examineFields fun _ => .bind .rdS fun w => .upd (hf w))) h

theorem State.Canon.fitRings {til : Nat} (h : s.Canon p) : (s.fitRings til).Canon p :=
  .foldl (fun _ _ h' => .ite (.changeKey (.setTil h')) h') h
theorem State.Canon.freePatterns {til : Nat} (h : s.Canon p) : (s.freePatterns til).Canon p :=
  .foldl (fun _ _ h' => .freePattern h') h
theorem State.Canon.splitTo {til n : Nat} (h : s.Canon p) : (s.splitTo til n).Canon p :=
  .freePatterns (.fitRings (.scramble (.setTil h)))
theorem State.Canon.swizzleTo {til : Nat} {new : BitVec 16} (h : s.Canon p) : (s.swizzleTo til new).Canon p :=
  .ite (.foldl (fun _ _ h' => .scramble h') (.setTil h)) (.freePatterns (.foldl (fun _ _ h' => .scramble h') (.setTil h)))

theorem State.Canon.resize {til : Nat} (h : s.Canon p) : (s.resize til).Canon p := by
  unfold State.resize
  dsimp only
  refine .ite h ?_
  split
  · split
    · exact .setTil h
    · exact .splitTo (.setTil h)
  · refine .swizzleTo ?_
    split
    · exact .setTil h
    · exact .splitTo (.setTil h)

theorem State.Canon.writeLsplit {til : Nat} {w : Word} (h : s.Canon p) : (s.writeLsplit til w).Canon p :=
  .ite h (.resize (.setTil h))
theorem State.Canon.writeSwz {til : Nat} {w : Word} (h : s.Canon p) : (s.writeSwz til w).Canon p := .resize (.modTil h)
theorem Op.Keeps.callTrap {cause : Nat} {k : BitVec 16} : Op.Keeps p (callTrap cause k) :=
  .bind .ask fun _ => .ite .stop_bind .stop

theorem State.Canon.takeReads {c : Nat} (h : s.Canon p) : (s.takeReads c).Canon p := by
  unfold State.takeReads
  split
  · exact .foldl (fun _ _ h' => .endTake h') h
  · exact h

theorem State.Canon.declareFault {c cause : Nat} (h : s.Canon p) : (s.declareFault c cause).Canon p := by
  unfold State.declareFault
  dsimp only
  split
  · exact .ite (.modCtx (.takeReads (.modCtx h))) (.ite (.abortTx (.modCtx h)) (.postFault (.modCtx (.modCtx h))))
  · exact h

theorem State.Canon.installEntry {c : Nat} {fetch : Bool} {e : TlbEntry} (h : s.Canon p) : (s.installEntry c fetch e).Canon p :=
  .tick (.modDie (.fillTlb h))

theorem State.Canon.fill {e w : Word} (h : s.Canon p) : (s.fill e w).1.Canon p := by
  unfold State.fill
  extract_lets act psz pre c missing fetch va s1
  rw [apply_ite Prod.fst, apply_ite Prod.fst, apply_ite Prod.fst, apply_ite Prod.fst]
  exact .ite h (.ite h (.ite (.ite h (.declareFault h)) (.ite (.ite (.installEntry h) (.modCtx (.installEntry h)))
      (.declareFault h))))

theorem Op.Keeps.privilegedOnly : Op.Keeps p privilegedOnly := .bind .ask fun _ => .ite .stop .pure
theorem State.Canon.dropEntries {f : TlbEntry → Bool} (h : s.Canon p) : (s.dropEntries f).Canon p :=
  h.of_keys (hk := keys_map fun _ => rfl) (ht := keys_map fun _ => rfl) (hd := keys_map fun _ => rfl)

theorem Op.Keeps.finishLater {d : BitVec 5} {w : Word} : Op.Keeps p (finishLater d w) :=
  .bind .fresh fun _ => .get_bind fun _ _ => .bind (.upd fun _ h' => h') fun _ => .bind .wrS fun _ => .upd fun _ h' =>
      .holdOrder h'

theorem Op.Keeps.ownBuffer {va : Word} : Op.Keeps p (ownBuffer va) := by
  unfold Machine.ownBuffer
  refine .get_bind fun _ h => ?_
  split
  · exact .stop
  · exact .ite .pure .stop
  · exact .stop

theorem Settles.execMbxr {d a : BitVec 5} {y : BitVec 1} {x : BitVec 2} (h : s.Canon p) : Settles p (execMbxr d a y x s) := by
  unfold Machine.execMbxr
  dsimp only
  refine .performRaw (.thenNext (.get_bind fun _ h' => (.ite .stop_bind (.ite .stop_bind (.bind .examineFields (fun _ => (.bind
      .rdS (fun _ => (.bind .ownBuffer (fun _ => ?_)))))))))) h
  split
  · exact .ite .wrS .stop
  · exact .bind (.upd fun _ h'' => .modCore h'') fun _ => .bind .storeScalar fun _ => .bind .wrS fun _ => .upd fun _ h'' => .ite
      (.laterOnce h'') h''

theorem Op.Keeps.outgoing {i : Instr} {d a b : BitVec 5} {service : Bool} {len : Nat} {f : Body → Word → Op Word}
    (hf : ∀ m w, Op.Keeps p (f m w)) : Op.Keeps p (outgoing i d a b service len f) :=
  .thenNext (.get_bind fun _ _ => .ite .stop_bind (.bind .examineFields fun _ => .bind .rdS fun _ => .bind .rdS fun _ =>
    .bind .ownBuffer fun _ => .ite .stop_bind (.bind (hf _ _) fun _ => .wrS)))

theorem Op.Keeps.sendReply {mk : Nat → Body → Instr} {m : Body} {dst : Word} : Op.Keeps p (sendReply mk m dst) := by
  unfold Machine.sendReply
  refine .get_bind fun _ h => ?_
  split
  · exact .pure
  · exact .bind (.upd fun _ h' => .later h') fun _ => .pure

theorem Op.Keeps.sendBox {type : Nat} {m : Body} {dst : Word} : Op.Keeps p (sendBox type m dst) := by
  unfold Machine.sendBox
  dsimp only
  refine .get_bind fun _ h => ?_
  split
  · exact .pure
  · exact .ite (.bind (.upd fun _ h' => .send h') fun _ => .pure) .stop

theorem State.Canon.resume {m : Body} (h : s.Canon p) : (s.resume m).1.Canon p := by
  unfold State.resume
  dsimp only
  split
  · exact h
  · split
    · exact .stale h
    · split
      · exact h
      · exact .setCtx h

theorem State.Canon.recallAll {k : Nat} (h : s.Canon p) : (s.recallAll k).Canon p :=
  .foldl (fun _ _ h' => .goBack (.modTil h')) (.foldl (fun _ _ h' => .sendHome h') (.foldl (fun _ _ h' => .sendHome h') h))
theorem State.Canon.beginHalt {k : Nat} {area : List Nat} (h : s.Canon p) : (s.beginHalt k area).Canon p :=
  .recallAll (.modCore h)
theorem State.Canon.endHalt {k : Nat} (h : s.Canon p) : (s.endHalt k).Canon p := .letIn (.modCore h)

theorem State.Canon.park {c : Nat} (h : s.Canon p) : (s.park c).Canon p := by
  unfold State.park
  extract_lets s1 s2 t l s3 s4
  have h1 : s1.Canon p := .foldl (fun _ _ h => .takeAll h) (.withdraw (.cancelTicket h))
  have h2 : s2.Canon p := .ite (.restartPreempt h1) (.dropToken h1)
  have h3 : s4.Canon p := .ite (.changeKey (.setTil h2)) (.setTil h2)
  exact .modCtx (.dropThirst h3)

theorem State.Canon.scrambleArea {a n part : Nat} (h : s.Canon p) : (s.scrambleArea a n part).Canon p :=
  .foldl (fun _ _ h' => .changeLine (.own h')) (.cleanse (.scramble h))
theorem State.Canon.parkAll {k : Nat} (h : s.Canon p) : (s.parkAll k).Canon p := .foldl (fun _ _ h' => .park h') h
theorem State.Canon.imprint {area : List Nat} {part : Nat} (h : s.Canon p) : (s.imprint area part).1.Canon p :=
  .foldl_fst (fun _ _ hq => .scrambleArea hq) h
theorem State.Canon.saveCore {k : Nat} {area : List Nat} (h : s.Canon p) : (s.saveCore k area).Canon p :=
  .endHalt (.foldl (fun _ _ h' => .modCtx h') (.rest (.devStore (.imprint (.parkAll h)))))

theorem Settles.execCsaveSave {d a : BitVec 5} (h : s.Canon p) : Settles p (execCsaveSave d a s) := by
  unfold Machine.execCsaveSave
  dsimp only
  refine .performRaw (.bind .stewardOnly (fun _ => (.bind .examineFields (fun _ => (.get_bind fun _ h' => (.bind .rdS (fun _ =>
      (.ite .stop_bind ?_)))))))) h
  split
  · exact .bind .wrS fun _ => .pure
  · exact .ite (.bind (.upd fun _ h'' => .saveCore (.ite h'' (.beginHalt h''))) fun _ => .bind .ask fun _ => .bind
      .finishLater fun _ => .pure) (.bind (.set (.modMe (.ite h' (.beginHalt h')))) fun _ => .pure)

theorem State.Canon.restoreCtx {v : Saved} {c : Nat} (h : s.Canon p) : (s.restoreCtx v c).Canon p :=
  .modTil (.foldl (fun _ _ h' => .holdCursor h') (.foldl (fun _ _ h' => .holdCursor h') (.setCtx h)))

theorem State.Canon.restoreRing {old : State} {v : Saved} {r : Nat} (h : s.Canon p) : (s.restoreRing old v r).Canon p := by
  unfold State.restoreRing
  dsimp only
  split
  · exact .rPut (.rPut h)
  · exact .ite (.rPut (.rPut (.rPut h))) (.rPut (.rest (.setRing (.rPut h))))

theorem State.Canon.restoreQueue {k : Nat} {v : Saved} (h : s.Canon p) : (s.restoreQueue k v).Canon p :=
  .foldl (fun _ _ h' => .restoreRing h') (.regrab h)
theorem State.Canon.restoreCore {k : Nat} {v : Saved} {mask : Nat} (h : s.Canon p) : (s.restoreCore k v mask).Canon p :=
  .laterOnce (.unspill (.foldl (fun _ _ h' => .restoreCtx h') (.modCore (.restoreQueue h))))

theorem Settles.execCsaveRest {d a : BitVec 5} (h : s.Canon p) : Settles p (execCsaveRest d a s) := by
  unfold Machine.execCsaveRest
  dsimp only
  refine .performRaw (.thenNext (.bind .stewardOnly (fun _ => (.bind .examineFields (fun _ => (.bind .rdS (fun _ => (.ite
      .stop_bind (.get_bind fun _ h' => ?_))))))))) h
  split
  · exact .wrS
  · refine .ite .stop_bind ?_
    split
    · exact .wrS
    · exact .ite .wrS (.bind (.upd fun _ h'' => .restoreCore h'') fun _ => .finishLater)

/-! ### Tile -/

theorem State.Canon.looseAcc {til acc : Nat} (h : s.Canon p) : (s.looseAcc til acc).Canon p := .tick (.modTil h)
theorem State.Canon.landSlot {til n seq : Nat} (h : s.Canon p) : (s.landSlot til n seq).Canon p :=
  .ite (.setTil h) (.changeKey (.setTil h))
theorem State.Canon.writeRing {til n : Nat} {w : Word} (h : s.Canon p) : (s.writeRing til n w).Canon p := .changeKey (.setTil h)
theorem State.Canon.grantLease {til c : Nat} (h : s.Canon p) : (s.grantLease til c).Canon p := .modTil h
theorem State.Canon.waitLease {til c : Nat} (h : s.Canon p) : (s.waitLease til c).Canon p := .sleepOn (.modTil h)

theorem Op.Keeps.underLease {body : Op Flow} (hb : Op.Keeps p body) : Op.Keeps p (underLease body) :=
  .get_bind fun _ _ => .ite hb (.ite (.ite (.bind (.upd fun _ h => .grantLease h) fun _ => .pure)
    (.bind (.upd fun _ h => .waitLease h) fun _ => .pure)) .stop)

theorem State.Canon.countCommand {til : Nat} (h : s.Canon p) : (s.countCommand til).Canon p :=
  .ite (.laterOnce (.modTil h)) (.modTil h)
theorem Op.Keeps.issueCommand {acc : Nat} {op : TileOp} : Op.Keeps p (issueCommand acc op) :=
  .upd fun _ h => .later (.countCommand (.modTil h))
theorem Op.Keeps.accHeld {acc : Nat} : Op.Keeps p (accHeld acc) := .get_bind fun _ _ => .ite .stop .pure

theorem State.Canon.rearbitrate {til : Nat} (h : s.Canon p) : (s.rearbitrate til).Canon p := by
  unfold State.rearbitrate
  dsimp only
  split
  · exact h
  · refine .ite h ?_
    split
    · exact .setTil h
    · exact .changeKey (.grantLease (.setTil h))

theorem State.Canon.stageMul {til c : Nat} {fm : MulFmt} {ra rb : Nat} (h : s.Canon p) : (s.stageMul til c fm ra rb).Canon p :=
  .setTil h
theorem State.Canon.occupy {acc u readable : Nat} (h : s.Canon p) : (s.occupy acc u readable).Canon p := .modTil h

theorem State.Canon.addJob {acc : Nat} {load : Bool} {off pitch width : Nat} (h : s.Canon p) :
    (s.addJob acc load off pitch width).Canon p :=
  .modTil h

theorem Op.Keeps.multiplyTile {ra rb : BitVec 4} {acc : BitVec 3} {cnt : BitVec 5} {f : BitVec 4} {popb popa : BitVec 1} {tr :
    Bool} :
    Op.Keeps p (multiplyTile ra rb acc cnt f popb popa tr) := by
  unfold Machine.multiplyTile
  dsimp only
  refine .bind .ask (fun _ => ?_)
  split
  · exact .stop
  · refine .ite .stop_bind (.underLease (.thenNext (.bind .accHeld (fun _ => (.get_bind fun _ h => (.ite .stop_bind (.ite
      .stop_bind (.ite .stop_bind (.bind (.upd fun _ h' => .stageMul h') (fun _ => (.bind .ask (fun _ => ?_))))))))))))
    split
    · exact .bind (.upd fun _ h' => .modTil h') fun _ => .bind (.upd fun _ h' => .occupy h') fun _ => .issueCommand
    · exact .pure

theorem Op.Keeps.rowsChecked {va pitch : Word} {width : Nat} : Op.Keeps p (rowsChecked va pitch width) := by
  unfold Machine.rowsChecked
  dsimp only
  refine .get_bind fun _ h => ?_
  split
  · exact .ite .stop_bind (.ite .stop_bind (.ite .stop_bind .pure))
  · exact .stop

theorem State.Canon.commandFlags {k : TileCmd} {fl : Flags} (h : s.Canon p) : (s.commandFlags k fl).Canon p := .ite (.modCtx h) h
theorem State.Canon.tileErr {til : Nat} {k : TileCmd} (h : s.Canon p) : (s.tileErr til k).Canon p := .send h

theorem State.Canon.storeAcc {til : Nat} {k : TileCmd} {rows : List (Nat × List Byte × Flags)} (h : s.Canon p) :
    (s.storeAcc til k rows).Canon p :=
  .ite (.tileErr (.commandFlags (.foldl (fun _ _ h' => .tamper (.store h')) h))) (.commandFlags (.foldl (fun _ _ h' => .tamper
      (.store h')) h))

theorem State.Canon.releasePattern {til e : Nat} (h : s.Canon p) : (s.releasePattern til e).Canon p := by
  unfold State.releasePattern
  dsimp only
  split
  · exact h
  · exact .ite (.modTil h) (.ite (.freePattern (.modTil h)) (.changeKey (.modTil h)))

theorem State.Canon.completeCommand {til : Nat} {k : TileCmd} (h : s.Canon p) : (s.completeCommand til k).Canon p := by
  unfold State.completeCommand
  dsimp only
  split
  · exact .setTil h
  · refine .ite (.tileErr (.looseAcc h)) ?_
    split
    · exact h
    · exact .commandFlags (.setTil h)
  · exact .ite (.tileErr (.looseAcc h)) (.setTil h)
  · exact .storeAcc h
  · exact .setTil h
  · exact .releasePattern (.ite (.tileErr (.looseAcc h)) (.ite (.looseAcc h) (.commandFlags (.setTil h))))
  · exact .setTil h

theorem Settles.execTileCommandComplete {til : Nat} (h : s.Canon p) : Settles p (execTileCommandComplete til s) := by
  unfold Machine.execTileCommandComplete
  refine .next ?_
  split
  · exact h
  · exact .completeCommand (.modTil h)

/-! ### Copy -/

theorem State.Canon.setCopy {q : Copy} (h : s.Canon p) : (s.setCopy q).Canon p := h
theorem State.Canon.keepSources {rs : List (Nat × Nat)} (h : s.Canon p) : (s.keepSources rs).Canon p := .ite h h
theorem State.Canon.scrambleAll {rs : List (Nat × Nat)} (h : s.Canon p) : (s.scrambleAll rs).Canon p :=
  .foldl (fun _ _ h' => .scramble h') h
theorem State.Canon.sharers {q : Option Nat} {here : List (Nat × Nat)} (h : s.Canon p) : (s.sharers q here).1.Canon p :=
  .foldl (fun _ _ h' => .ite h' (.setCopy h')) h

theorem State.Canon.entangle {id : Nat} (h : s.Canon p) : (s.entangle id).Canon p := by
  unfold State.entangle
  dsimp only
  split
  · exact h
  · exact .scrambleAll (.keepSources (.setCopy (.sharers h)))

theorem Op.Keeps.descriptorAt {va : Word} {n : Nat} : Op.Keeps p (descriptorAt va n) := by
  unfold Machine.descriptorAt
  dsimp only
  refine .get_bind fun _ h => ?_
  split
  · exact .ite .stop_bind (.ite .stop_bind (.ite .stop_bind .pure))
  · exact .stop

theorem Op.Keeps.issueCopy {d : BitVec 5} {va : Word} {multi : Bool} {tag mask : Nat} :
    Op.Keeps p (issueCopy d va multi tag mask) := by
  unfold Machine.issueCopy
  dsimp only
  refine .bind .descriptorAt fun _ => .get_bind fun _ h => .ite .wrS (.ite .stop ?_)
  split
  · exact .wrS
  · exact .bind (.upd fun _ h' => .ite (.rest (.tick (.modCore h'))) (.entangle (.rest (.tick (.modCore h'))))) fun _ => .wrS

theorem State.Canon.endCopy {q : Copy} {st : CopyState} (h : s.Canon p) : (s.endCopy q st).Canon p := .laterOnce (.setCopy h)
theorem State.Canon.failCopy {q : Copy} {code : Nat} {va : Word} (h : s.Canon p) : (s.failCopy q code va).Canon p :=
  .endCopy (.copyErrMsg h)
theorem State.Canon.failDest {q : Copy} {j code : Nat} {va : Word} (h : s.Canon p) : (s.failDest q j code va).Canon p :=
  .ite (.endCopy (.copyErrMsg h)) (.setCopy (.copyErrMsg h))
theorem State.Canon.faultCopy {q : Copy} {kind cause : Nat} {va : Word} (h : s.Canon p) : (s.faultCopy q kind cause va).Canon p :=
  .copyFaultMsg (.setCopy h)

theorem State.Canon.creditDest {q : Copy} {d : Dest} (h : s.Canon p) : (s.creditDest q d).1.Canon p := by
  unfold State.creditDest
  split
  · exact h
  · split
    · exact .setCounter h
    · split
      · exact h
      · exact .copyErrMsg h

theorem State.Canon.finishTag {k tag : Nat} {failed : Bool} (h : s.Canon p) : (s.finishTag k tag failed).Canon p :=
  .changeKey (.modCore h)

theorem State.Canon.completeCopy {id : Nat} (h : s.Canon p) : (s.completeCopy id).Canon p := by
  unfold State.completeCopy
  split
  · exact h
  · dsimp only
    split
    · exact h
    · exact .finishTag (.foldl_fst (fun _ _ hq => .creditDest hq) (.rest h))

theorem State.Canon.claimIn {r : Nat × Nat} {n : Nat} (h : s.Canon p) : (s.claimIn r n).1.Canon p := .setTil h

theorem State.Canon.claimSlots {q : Copy} {d : Dest} (h : s.Canon p) : (s.claimSlots q d).1.Canon p := by
  unfold State.claimSlots
  split
  · exact h
  · exact .claimIn h

theorem State.Canon.startCopy {id : Nat} (h : s.Canon p) : (s.startCopy id).Canon p := by
  unfold State.startCopy
  split
  · exact h
  · extract_lets rs bad good r s1 s2
    have hr : r.1.Canon p := by
      unfold r
      split
      · refine .foldl_fst (fun q x hq => ?_) h
        split
        · exact .claimSlots hq
        · exact hq
      · exact h
    have h2 : s2.Canon p := .tick (.ite (.entangle (.setCopy hr)) (.setCopy hr))
    refine .ite h (.ite (.failCopy h) (.ite h (.ite h (.foldl (fun s b hs => ?_) h2))))
    split
    · exact hs
    · exact .failDest hs

theorem State.Canon.spoil {a n : Nat} (h : s.Canon p) : (s.spoil a n).Canon p := h

theorem State.Canon.landBytes {q : Copy} {a : Nat} {bs : List Byte} (h : s.Canon p) : (s.landBytes q a bs).Canon p := by
  unfold State.landBytes
  dsimp only
  refine .scrambleAll (.devStore (.keepSources ?_))
  split
  · exact h
  · exact .sharers h

theorem State.Canon.landClaim {c : Claim} {pos : Nat} (h : s.Canon p) : (s.landClaim c pos).Canon p := .ite (.landSlot h) h

theorem State.Canon.landSlots {q : Copy} (h : s.Canon p) : (s.landSlots q).Canon p := by
  unfold State.landSlots
  refine .foldl (fun _ _ h' => ?_) h
  split
  · exact h'
  · exact .ite h' (.landClaim h')

theorem State.Canon.bytesToPeer {q : Copy} {bs : List Byte} (h : s.Canon p) : (s.bytesToPeer q bs).Canon p := by
  unfold State.bytesToPeer
  split
  · exact .toPeer h
  · exact h

theorem State.Canon.moveBytes {q : Copy} (h : s.Canon p) : (s.moveBytes q).Canon p := by
  unfold State.moveBytes
  dsimp only
  split
  · exact .failCopy h
  · exact .faultCopy h
  · split
    · exact .faultCopy h
    · exact .failDest h
    · exact .ite (.failCopy h) (.ite (.failCopy (.tick h)) (.ite (.failCopy (.foldl (fun _ _ h' => .spoil h') h)) (.ite (.tick
        (.landSlots (.setCopy (.bytesToPeer (.foldl (fun _ _ h' => .landBytes h') h))))) (.ite (.setCopy (.tick (.landSlots
        (.setCopy (.bytesToPeer (.foldl (fun _ _ h' => .landBytes h') h)))))) (.endCopy (.tick (.landSlots (.setCopy
        (.bytesToPeer (.foldl (fun _ _ h' => .landBytes h') h))))))))))

theorem Settles.execCopyTransfer {id : Nat} (h : s.Canon p) : Settles p (execCopyTransfer id s) := by
  unfold Machine.execCopyTransfer
  refine .next ?_
  split
  · exact h
  · exact .ite (.moveBytes h) h

theorem State.Canon.copyReply {til : Nat} {body : Body} (h : s.Canon p) : (s.copyReply til body).Canon p := by
  unfold State.copyReply
  dsimp only
  refine .ite (.stale h) ?_
  split
  · exact .ite (.entangle (.setCopy h)) (.endCopy h)
  · split
    · exact .streamReply h
    · exact .stale h

theorem Op.Keeps.acquirePkg : Op.Keeps p acquirePkg := .upd fun _ h => .acquire h

theorem Op.Keeps.waitTags {i : Instr} {d a : BitVec 5} {ready : Core → Word → Bool} : Op.Keeps p (waitTags i d a ready) :=
  .thenNext (.bind .examineFields fun _ => .bind .rdS fun _ => .get_bind fun _ _ => .ite (.bind .readKey fun _ => .ite (.ite
      (.bind .acquirePkg fun _ => .wrS) .wrS) .stop) (.ite (.ite (.bind .acquirePkg fun _ => .wrS) .wrS) .stop))

theorem Op.Keeps.counterAt {va : Word} {waits : Bool} : Op.Keeps p (counterAt va waits) := by
  unfold Machine.counterAt
  dsimp only
  refine .get_bind fun _ h => ?_
  split
  · exact .ite .stop_bind (.ite .stop_bind (.ite .stop_bind .pure))
  · exact .stop

theorem Op.Keeps.readCounter {va : Word} {u : Nat × Nat} : Op.Keeps p (readCounter va u) :=
  .get_bind fun _ _ => .ite (.bind .readKey fun _ => .ite (.bind (.upd fun _ h' => .registerOwner h') fun _ => .ite .stop_bind
      .pure) (.bind .writeKey fun _ => .ite .stop_bind .pure)) (.ite .stop_bind .pure)

theorem Op.Keeps.changeCounter {u : Nat × Nat} {k : Counter} {m : Option (Option (Bool × Bool))} :
    Op.Keeps p (changeCounter u k m) := by
  unfold Machine.changeCounter
  dsimp only
  refine .get_bind fun _ h => .ite (.upd fun _ h' => .modMe h') (.bind .soleHold (fun _ => (.upd (fun _ h' => ?_))))
  split
  · exact .setCounter h'
  · exact .modTil (.setCounter h')

theorem Op.Keeps.counterOp {i : Instr} {d a : BitVec 5}
    {f : Counter → Option Member → Nat → Word → Option (Counter × Option (Option (Bool × Bool)))} {arg : Op Word}
    (ha : Op.Keeps p arg) : Op.Keeps p (counterOp i d a f arg) := by
  refine .thenNext (.bind .examineFields fun _ => .bind .rdS fun _ => .bind ha fun _ => .bind .counterAt fun _ =>
    .bind .readCounter fun _ => .bind .acquirePkg fun _ => ?_)
  split
  · exact .wrS
  · refine .bind .ask fun _ => .bind .ask fun _ => ?_
    split
    · exact .wrS
    · exact .bind .changeCounter fun _ => .wrS

theorem Op.Keeps.phaseOp {i : Instr} {d a b : BitVec 5} {imm : BitVec 1} {waits : Bool} :
    Op.Keeps p (phaseOp i d a b imm waits) := by
  unfold Machine.phaseOp
  dsimp only
  refine .thenNext (.bind .examineFields (fun _ => (.bind .rdS (fun _ => (.bind .rdB (fun _ => (.bind .counterAt (fun _ => (.bind
      .readCounter (fun _ => ?_))))))))))
  split
  · exact .bind .acquirePkg fun _ => .wrS
  · exact .ite .stop_bind (.bind .acquirePkg fun _ => .wrS)

/-! ### Integer -/

theorem Op.Keeps.alu2 {d a b : BitVec 5} {i : BitVec 1} {f : Word → Word → Word} : Op.Keeps p (alu2 d a b i f) :=
  .thenNext (.bind .rdS fun _ => .bind .rdB fun _ => .wrS)
theorem Op.Keeps.alu1 {d a : BitVec 5} {f : Word → Word} : Op.Keeps p (alu1 d a f) := .thenNext (.bind .rdS fun _ => .wrS)
theorem Op.Keeps.alu3 {d a b : BitVec 5} {i : BitVec 1} {f : Word → Word → Word → Word} : Op.Keeps p (alu3 d a b i f) :=
  .thenNext (.bind .rdS fun _ => .bind .rdS fun _ => .bind .rdB fun _ => .wrS)

/-! ### Sparse -/

theorem Op.Keeps.directoryAt {va : Word} {index : Nat} {coord : Bool} {vsize : Nat} :
    Op.Keeps p (directoryAt va index coord vsize) := by
  unfold Machine.directoryAt
  dsimp only
  refine .get_bind fun _ h => ?_
  split
  · exact .stop
  · exact .ite .stop_bind (.ite .stop_bind (.ite .stop_bind (.ite .stop_bind (.ite .stop_bind (.ite .stop_bind (.ite .stop_bind
      (.ite (.ite .stop_bind (.ite (.ite .stop_bind (.ite .stop_bind (.ite .stop_bind .pure))) (.ite .stop_bind (.ite .stop_bind
      .pure)))) (.ite (.ite .stop_bind (.ite .stop_bind (.ite .stop_bind .pure))) (.ite .stop_bind (.ite .stop_bind
      .pure))))))))))

theorem State.Canon.usePattern {til e : Nat} (h : s.Canon p) : (s.usePattern til e).Canon p := .modTil h

theorem State.Canon.freeEntry {til : Nat} {q : State × Nat} (h : s.Canon p) (e : s.freeEntry til = some q) : q.1.Canon p := by
  unfold State.freeEntry at e
  extract_lets t at e
  split at e
  · exact Option.some.inj e ▸ h
  · obtain ⟨v, -, rfl⟩ := Option.map_eq_some_iff.mp e
    exact .freePattern h

theorem State.Canon.requestPattern {til : Nat} {r : TileRef} {q : State × Pattern} (h : s.Canon p)
    (e : s.requestPattern til r = some q) : q.1.Canon p := by
  unfold State.requestPattern at e
  split at e
  · exact Option.some.inj e ▸ h
  · obtain ⟨v, hv, rfl⟩ := Option.map_eq_some_iff.mp e
    exact .laterOnce (.modTil (h.freeEntry hv))

theorem State.Canon.startCompile {til : Nat} (h : s.Canon p) : (s.startCompile til).Canon p := by
  unfold State.startCompile
  dsimp only
  refine .ite h ?_
  split
  · exact h
  · exact .setTil h

theorem State.Canon.endCompile {til : Nat} (h : s.Canon p) : (s.endCompile til).Canon p := by
  unfold State.endCompile
  dsimp only
  split
  · exact h
  · exact .laterOnce (.changeKey (.setTil h))

theorem Op.Keeps.issueSparse {acc : Nat} {int pop : Bool} {ring g : Nat} {r : TileRef} {u : Pattern} :
    Op.Keeps p (issueSparse acc int pop ring g r u) := by
  unfold Machine.issueSparse
  dsimp only
  refine .get_bind fun _ h => ?_
  split
  · exact .stop
  · exact .ite .stop_bind (.bind (.upd fun _ h' => .usePattern (.modTil h')) fun _ => .bind (.upd fun _ h' =>
      .occupy h') fun _ => .issueCommand)

theorem Settles.execSpmma {d a b : BitVec 5} {f u : BitVec 1} (h : s.Canon p) : Settles p (execSpmma d a b f u s) := by
  unfold Machine.execSpmma
  refine .performRaw (.underLease (.bind .accHeld fun _ => .get_bind fun old ho => .bind .examineFields fun _ =>
    .bind .rdS fun _ => .bind .rdS fun _ => ?_)) h
  extract_lets til t n g
  refine .bind .directoryAt fun r => ?_
  extract_lets ready tag slot
  have hready : ∀ x, Op.Keeps p (ready x) := fun _ => by
    unfold ready
    split
    · exact .stop
    · rename_i e
      exact .ite (.bind (.set (.sleepOn (ho.requestPattern e))) fun _ => .pure)
        (.ite .stop_bind (.ite .stop_bind (.bind .issueSparse fun _ => .pure)))
  have htag : ∀ x, Op.Keeps p (tag x) := fun _ => .ite (.bind .acquirePkg hready) (hready ())
  exact .ite .stop_bind (.ite .stop_bind (htag ()))

theorem State.Canon.stageOne {c : Nat} {w : Wanted} (h : s.Canon p) : (s.stageOne c w).Canon p := by
  unfold State.stageOne
  dsimp only
  refine .ite (.setTil h) (.ite (.setTil h) ?_)
  split
  · split
    · split
      · exact h
      · split
        · exact .ite (.setTil h) (.changeKey (.setTil h))
        · exact .setTil h
    · exact h
  · exact h

theorem Settles.execTileStaging {cid : Nat} (h : s.Canon p) : Settles p (execTileStaging cid s) := by
  unfold Machine.execTileStaging
  refine .next ?_
  split
  · exact h
  · exact .stageOne h

theorem Settles.execSppre {d a b : BitVec 5} (h : s.Canon p) : Settles p (execSppre d a b s) := by
  refine .perform (.thenNext (.bind .rdS fun _ => .bind .rdS fun _ => .bind .directoryAt fun _ => .get_bind fun s hs =>
    .ite .wrS ?_)) h
  split
  · exact .wrS
  · rename_i e
    have ha := hs.requestPattern e
    exact .bind (.set (.ite (.usePattern ha) ha)) fun _ => .wrS

theorem Settles.execSpinvOne {d a b : BitVec 5} (h : s.Canon p) : Settles p (execSpinvOne d a b s) := by
  unfold Machine.execSpinvOne
  refine .perform (.thenNext (.bind .rdS (fun _ => (.bind .rdS (fun _ => (.bind .directoryAt (fun _ => (.get_bind fun _ h' =>
      ?_)))))))) h
  split
  · exact .wrS
  · exact .bind (.upd fun _ h'' => .freePattern h'') fun _ => .wrS

/-! ### Launch -/

theorem State.Canon.qPut {d part off n x : Nat} (h : s.Canon p) : (s.qPut d part off n x).Canon p := .globalStore h
theorem State.Canon.qErr {d part : Nat} (h : s.Canon p) : (s.qErr d part).Canon p := .qPut h
theorem State.Canon.qDisable {d part : Nat} (h : s.Canon p) : (s.qDisable d part).Canon p := .qPut h
theorem State.Canon.wakeQueues {die : Nat} (h : s.Canon p) : (s.wakeQueues die).Canon p :=
  .foldl (fun _ _ h' => .foldl (fun _ _ h'' => .ite (.laterOnce h'') h'') h') h
theorem State.Canon.modLaunch {id : Nat} {f : Launch → Launch} (h : s.Canon p) : (s.modLaunch id f).Canon p := h
theorem State.Canon.rejectObj {part til o reason : Nat} (h : s.Canon p) : (s.rejectObj part til o reason).Canon p :=
  .levelsMoved (.lvComplete (.lvPut (.lvPut h)))
theorem State.Canon.cancelObj {part til o : Nat} (h : s.Canon p) : (s.cancelObj part til o).Canon p :=
  .ite h (.levelsMoved (.lvComplete (.lvOr h)))
theorem State.Canon.releaseShares {id : Nat} (h : s.Canon p) : (s.releaseShares id).Canon p :=
  .foldl (fun _ _ h' => .freed h') (.retryShares (.dropGrants (.modLaunch h)))
theorem State.Canon.dropLaunch {l : Launch} (h : s.Canon p) : (s.dropLaunch l).Canon p := .wakeQueues (.rest (.releaseShares h))

theorem State.Canon.killReplicas {l : Launch} (h : s.Canon p) : (s.killReplicas l).Canon p := by
  unfold State.killReplicas
  dsimp only
  refine .ite h (.foldl (fun _ _ h' => ?_) (.modLaunch h))
  split
  · exact h'
  · exact .ite h' (.send h')

theorem State.Canon.cancelLaunch {l : Launch} (h : s.Canon p) : (s.cancelLaunch l).Canon p := by
  unfold State.cancelLaunch
  split
  · exact h
  · split
    · exact .ite h (.killReplicas (.lvOr h))
    · exact .cancelObj (.dropLaunch h)

theorem Settles.execCancelNotice {die part obj : Nat} (h : s.Canon p) : Settles p (execCancelNotice die part obj s) := by
  unfold Machine.execCancelNotice
  refine .next (.foldl (fun _ _ h' => ?_) h)
  split
  · exact h'
  · exact .cancelLaunch h'

theorem State.Canon.enterPool {part q lrec o : Nat} {bs : List Byte} (h : s.Canon p) : (s.enterPool part q lrec o bs).Canon p :=
  .ite (.rejectObj (.lvPut h)) (.ite (.cancelObj (.lvPut h)) (.ite (.laterOnce (.rest (.lvPut h))) (.rest (.lvPut h))))

theorem State.Canon.takeEntry {q : Nat} (h : s.Canon p) : (s.takeEntry q).Canon p := by
  unfold State.takeEntry
  dsimp only
  split
  · exact h
  · refine .ite h (.ite (.qPut (.qErr (.qDisable h))) (.ite h ?_))
    split
    · exact .qErr (.qDisable h)
    · refine .ite (.qErr (.qDisable h)) ?_
      split
      · exact .qPut (.qErr (.qPut h))
      · exact .enterPool (.qPut h)

theorem State.Canon.giveWay {l : Launch} (h : s.Canon p) : (s.giveWay l).Canon p :=
  .foldl (fun _ _ h' => .modLaunch (.releaseShares h')) h

theorem State.Canon.makeReady {id : Nat} (h : s.Canon p) : (s.makeReady id).Canon p := by
  unfold State.makeReady
  split
  · exact h
  · exact .ite h (.ite (.cancelLaunch h) (.giveWay (.modLaunch h)))

theorem State.Canon.dispatch {l : Launch} (h : s.Canon p) : (s.dispatch l).Canon p :=
  .ite (.cancelLaunch h) (.wakeQueues (.laterOnce (.ite (.modLaunch h) (.modLaunch h))))

theorem State.Canon.attempt {die : Nat} (h : s.Canon p) : (s.attempt die).Canon p := by
  unfold State.attempt
  dsimp only
  split
  · exact .dispatch (.retryShares h)
  · split
    · exact .ite (.modDie (.tick (.tick (.retryShares h)))) (.tick (.tick (.retryShares h)))
    · exact .dispatch (.ite (.modDie (.tick (.tick (.retryShares h)))) (.tick (.tick (.retryShares h))))

theorem State.Canon.enterFound {id : Nat} {f : Found} (h : s.Canon p) : (s.enterFound id f).Canon p := by
  unfold State.enterFound
  dsimp only
  split
  · exact .modLaunch (.scramble (.modTil h))
  · exact .modLaunch (.modTil h)
  · exact .modLaunch (.modTil h)
  · exact .modLaunch (.modTil h)

theorem State.Canon.takeShare {l : Launch} {die : Nat} {t : State} (h : s.Canon p) (e : s.takeShare l die = some t) :
    t.Canon p := by
  unfold State.takeShare at e
  extract_lets u todo mine others at e
  split at e
  · cases e
  · obtain ⟨v, hv, rfl⟩ := Option.map_eq_some_iff.mp e
    exact .foldl (fun _ _ h => .enterFound h) (.modLaunch h)

theorem State.Canon.buildChan {l : Launch} {c : Chan} (h : s.Canon p) : (s.buildChan l c).Canon p := by
  unfold State.buildChan
  dsimp only
  split
  · exact h
  · exact .setRing (.store (.store h))

theorem State.Canon.buildBlock {l : Launch} {b : PBlock} (h : s.Canon p) : (s.buildBlock l b).Canon p := by
  unfold State.buildBlock
  dsimp only
  split
  · exact h
  · exact .store h

theorem State.Canon.placeReplica {l : Launch} {r : Replica} (h : s.Canon p) : (s.placeReplica l r).Canon p := by
  unfold State.placeReplica
  dsimp only
  split
  · exact h
  · exact .send (.store h)

theorem State.Canon.completeLaunch {id : Nat} (h : s.Canon p) : (s.completeLaunch id).Canon p := by
  unfold State.completeLaunch
  dsimp only
  split
  · exact h
  · refine .modLaunch (.foldl (fun _ _ h' => .placeReplica h') (.foldl (fun _ _ h' => .buildBlock h') (.foldl (fun _ _ h' =>
      .buildChan h') ?_)))
    split
    · exact h
    · exact .lvPut (.lvPut (.lvPut h))

theorem State.Canon.reserveShare {id : Nat} (h : s.Canon p) : (s.reserveShare id).Canon p := by
  unfold State.reserveShare
  split
  · exact h
  · split
    · refine .ite h ?_
      split
      · exact h
      · rename_i e
        have ht := h.takeShare e
        exact .ite (.cancelLaunch ht) (.ite (.completeLaunch ht) (.laterOnce ht))
    · exact h

theorem Op.Keeps.globalAddr {va : Word} : Op.Keeps p (globalAddr va) := .ite .stop_bind (.ite .stop .pure)
theorem Op.Keeps.objectLane {k : Acc} {va : Word} : Op.Keeps p (objectLane k va) :=
  .bind .globalAddr fun _ => .bind .translateLanes fun _ => .ite .stop_bind .pure
theorem State.Canon.noticeCancel {part o : Nat} (h : s.Canon p) : (s.noticeCancel part o).Canon p :=
  .foldl (fun _ _ h' => .later h') h
theorem Op.Keeps.readObject {va : Word} : Op.Keeps p (readObject va) :=
  .bind .objectLane fun _ => .get_bind fun _ _ => .bind .loadLane fun _ => .ite (.bind .acquirePkg fun _ => .pure) .pure

theorem Settles.lcnt {i : Instr} {d a : BitVec 5} {f : List Byte → Word} (h : s.Canon p) : Settles p (lcnt i d a f s) := by
  unfold Machine.lcnt
  refine .perform (.thenNext (.bind .rdS (fun _ => (.bind .readObject (fun _ => ?_))))) h
  split
  · exact .wrS
  · exact .wrS

theorem Settles.execLwait {d a b : BitVec 5} {i : BitVec 1} (h : s.Canon p) : Settles p (execLwait d a b i s) := by
  unfold Machine.execLwait
  refine .perform (.thenNext (.bind .rdS (fun _ => (.bind .rdB (fun _ => (.bind .readObject (fun _ => ?_))))))) h
  split
  · exact .wrS
  · exact .ite .wrS .stop

theorem State.Canon.acknowledge {l : Launch} {r : Replica} {failed : Bool} (h : s.Canon p) :
    (s.acknowledge l r failed).Canon p := by
  unfold State.acknowledge
  dsimp only
  refine .forgetLaunches (.retryShares (.ite ?_ (.dropGrants (.modLaunch h))))
  split
  · exact .dropGrants (.modLaunch h)
  · refine .letIn (.lvAdd ?_)
    split
    · exact .ite (.dropGrants (.modLaunch h)) (.lvPut (.lvPut (.dropGrants (.modLaunch h))))
    · exact .killReplicas (.ite (.dropGrants (.modLaunch h)) (.lvPut (.lvPut (.dropGrants (.modLaunch h)))))

theorem Settles.execPlace {d a b : BitVec 5} (h : s.Canon p) : Settles p (execPlace d a b s) := by
  unfold Machine.execPlace
  refine .performRaw (.thenNext (.bind .stewardOnly (fun _ => (.bind .examineFields (fun _ => (.bind .rdS (fun _ => (.bind .rdS
      (fun _ => (.get_bind fun _ h' => ?_)))))))))) h
  split
  · exact .wrS
  · exact .bind (.upd fun _ h'' => .acknowledge h'') fun _ => .wrS

/-! ### Memory -/

theorem Op.Keeps.addrJ {a : BitVec 5} {k : BitVec 14} : Op.Keeps p (addrJ a k) := .bind .rdS fun _ => .pure

theorem Settles.execStm {d a : BitVec 5} {k : BitVec 14} (h : s.Canon p) : Settles p (execStm d a k s) := by
  unfold Machine.execStm
  dsimp only
  refine .perform (.thenNext (.bind .addrJ (fun _ => (.bind .rdS (fun _ => (.get_bind fun _ h' => (.ite .stop_bind ?_))))))) h
  split
  · exact .stop
  · exact .storeScalar

theorem Op.Keeps.loadLanes {hint : Nat} {l : List Lane} : Op.Keeps p (loadLanes hint l) := by
  induction l with
  | nil => exact .pure
  | cons a r ih => exact .bind .loadLane fun _ => .bind ih fun _ => .pure

theorem Op.Keeps.storeLanes {w : Nat} {v : VReg} {ls : List Lane} : Op.Keeps p (storeLanes w v ls) := .forM fun _ => .strandStore
theorem Op.Keeps.vecLoad {d : BitVec 5} {w hint : Nat} {vas : List (Nat × Word)} : Op.Keeps p (vecLoad d w hint vas) :=
  .bind .resolve fun _ => .bind .loadLanes fun _ => .wrV
theorem Op.Keeps.vecStore {v : VReg} {w : Nat} {vas : List (Nat × Word)} : Op.Keeps p (vecStore v w vas) :=
  .bind .resolveStore fun _ => .storeLanes

theorem Op.Keeps.cachePage {walk : Bool} {va : Word} : Op.Keeps p (cachePage walk va) := by
  refine .get_bind fun s h => ?_
  split
  · refine .ite .pure ?_
    split
    · rename_i e
      exact .bind (.set (h.of_lookup e)) fun _ => .pure
    · exact .ite .stop .pure
  · exact .pure

theorem Settles.execPrfL1 {a : BitVec 5} {k : BitVec 14} (h : s.Canon p) : Settles p (execPrfL1 a k s) := by
  unfold Machine.execPrfL1
  dsimp only
  refine .perform (.thenNext (.bind .addrJ (fun _ => (.bind .cachePage (fun _ => ?_))))) h
  split
  · exact .pure
  · exact .get_bind fun _ _ => .ite .pure (.upd fun _ h'' => .modTil h'')

theorem Settles.execCfl {a : BitVec 5} {k : BitVec 14} (h : s.Canon p) : Settles p (execCfl a k s) := by
  unfold Machine.execCfl
  refine .perform (.thenNext (.bind .addrJ (fun _ => (.bind .cachePage (fun _ => ?_))))) h
  split
  · exact .pure
  · exact .upd fun _ h' => .ite h' (.dropL1 h')

theorem Op.Keeps.invalidate {data code : Bool} {va : Word} : Op.Keeps p (invalidate data code va) := by
  unfold Machine.invalidate
  refine .bind .cachePage (fun _ => ?_)
  split
  · exact .pure
  · exact .upd fun _ h => .holdOrder h

/-! ### Ordering -/

theorem Op.Keeps.acquirePart {o sc : BitVec 3} : Op.Keeps p (acquirePart o sc) :=
  .bind .ask fun _ => .ite (.upd fun _ h => .acquire h) .pure
theorem Op.Keeps.atomicLane {n : Nat} {va : Word} : Op.Keeps p (atomicLane n va) :=
  .bind .resolveStore fun _ => .ite .stop_bind .pure
theorem Op.Keeps.leaveL1 {l : Lane} : Op.Keeps p (leaveL1 l) := .ite (.upd fun _ h => .dropL1 h) .pure

theorem Settles.amo {i : Instr} {u : Nat} {d a b : BitVec 5} {sc o w : BitVec 3} (h : s.Canon p) :
    Settles p (amo i u d a b sc o w s) :=
  .perform (.thenNext (.bind .rdS fun _ => .bind .rdS fun _ => .bind .atomicLane fun _ => .forM fun _ => .bind .loadLane fun _ =>
      .bind .strandStore fun _ => .bind .leaveL1 fun _ => .bind .acquirePart fun _ => .bind .wrS fun _ => .setFlags)) h

/-! ### Ports -/

theorem State.Canon.modPort {f : Port → Port} (h : s.Canon p) : (s.modPort f).Canon p := h
theorem State.Canon.reply {a : Answer} (h : s.Canon p) : (s.reply a).Canon p := .ite h (.modPort h)

theorem State.Canon.answerCmd {qp : Nat} {g : SendHeader} {st : Nat} {info : List Nat} (h : s.Canon p) :
    (s.answerCmd qp g st info).Canon p :=
  .reply h

theorem State.Canon.serveHead {qp : Nat} {f : State → State} (h : s.Canon p) (hf : ∀ s, s.Canon p → (f s).Canon p) :
    (s.serveHead qp f).Canon p :=
  .ite (hf _ (.modPort h)) (.modPort h)

theorem State.Canon.serveCmd {qp op : Nat} {hd : SendHeader} {f : State → State} (h : s.Canon p)
    (hf : ∀ s, s.Canon p → (f s).Canon p) : (s.serveCmd qp op hd f).Canon p :=
  .serveHead h fun s h' => .ite (hf s h') (.answerCmd h')

theorem Settles.execInvalidRequest (h : s.Canon p) : Settles p (execInvalidRequest s) := by
  unfold Machine.execInvalidRequest
  refine .next ?_
  split
  · exact .serveHead h (fun _ h' => .modPort (.reply h'))
  · exact h

theorem State.Canon.hostWrite {part f va : Nat} {bs : List Byte} (h : s.Canon p) : (s.hostWrite part f va bs).1.Canon p := by
  induction f generalizing s va bs with
  | zero => exact h
  | succ f ih =>
    unfold State.hostWrite
    split
    · exact h
    · split
      · exact h
      · exact ih (.foldl (fun _ _ h' => .devStore h') h)

theorem Settles.execRdmaWrite (h : s.Canon p) : Settles p (execRdmaWrite s) := by
  unfold Machine.execRdmaWrite
  dsimp only
  refine .next ?_
  split
  · refine .serveHead h (fun _ h' => ?_)
    split
    · exact .reply h'
    · exact .reply (.hostWrite h')
  · exact h

theorem Settles.execRdmaRead (h : s.Canon p) : Settles p (execRdmaRead s) := by
  unfold Machine.execRdmaRead
  refine .next ?_
  split
  · refine .serveHead h (fun _ h' => ?_)
    split
    · exact .reply h'
    · exact .reply h'
  · exact h

theorem Settles.execEvents (h : s.Canon p) : Settles p (execEvents s) := by
  unfold Machine.execEvents
  refine .next ?_
  split
  · exact .serveCmd h (fun _ h' => .answerCmd (.modPort h'))
  · exact h

theorem State.Canon.mapLeaf {part va : Nat} {leaf : Word} {f tbl : Nat} (h : s.Canon p) :
    (s.mapLeaf part va leaf f tbl).Canon p := by
  induction f generalizing s tbl with
  | zero => exact .globalStore h
  | succ f ih => exact .ite (ih h) (ih (.globalStore (.globalStore h)))

theorem State.Canon.mapBlock {part block : Nat} {on : Bool} (h : s.Canon p) : (s.mapBlock part block on).Canon p := .mapLeaf h
theorem State.Canon.dropTlb {part : Nat} (h : s.Canon p) : (s.dropTlb part).Canon p :=
  h.of_keys (hk := keys_map fun _ => rfl) (ht := keys_map fun _ => rfl) (hd := keys_map fun _ => rfl)

theorem Settles.execPartCreate (h : s.Canon p) : Settles p (execPartCreate s) := by
  unfold Machine.execPartCreate
  refine .next ?_
  split
  · refine .serveCmd h fun s h' => .ite (.answerCmd h') (.answerCmd (.foldl (fun _ _ h => .mapBlock h)
      (.foldl (fun _ _ h => .modTil h) ?_)))
    exact h'.of_keys (hc := keys_map fun c => by split <;> rfl)
  · exact h

theorem State.Canon.disableQueues {u : Nat} (h : s.Canon p) : (s.disableQueues u).Canon p :=
  .foldl (fun _ _ h' => .foldl (fun _ _ h'' => .ite (.qDisable h'') h'') h') h

theorem State.Canon.killAway {g cause : Nat} (h : s.Canon p) : (s.killAway g cause).Canon p := by
  unfold State.killAway
  dsimp only
  split
  · exact .laterOnce (.migrantDead (.ite (.modTil (.modCtx h)) (.leaveHost (.modTil (.modCtx h)))))
  · exact .killMigrant (.modCtx h)

theorem State.Canon.killAll {u cause : Nat} (h : s.Canon p) : (s.killAll u cause).Canon p := by
  unfold State.killAll
  refine .foldl (fun _ _ h' => ?_) h
  split
  · exact h'
  · exact h'
  · exact .killAway h'
  · exact .killAway h'
  · exact .killStrand h'

theorem State.Canon.killStowed {u til c : Nat} {x : Ctx} {cause : Nat} (h : s.Canon p) :
    (s.killStowed u til c x cause).Canon p := by
  unfold State.killStowed
  dsimp only
  refine .replicaGone (.ite (.send h) ?_)
  split
  · exact .send h
  · exact .lvAdd (.ite (.send h) (.lvOr (.send h)))

theorem State.Canon.killShadow {til cause : Nat} (h : s.Canon p) : (s.killShadow til cause).Canon p := by
  unfold State.killShadow
  dsimp only
  split
  · exact h
  · exact .modTil (.foldl (fun _ _ h' => .killStowed h') h)

theorem State.Canon.failCopies {u : Nat} (h : s.Canon p) : (s.failCopies u).Canon p := by
  unfold State.failCopies
  refine .foldl (fun _ _ h' => ?_) h
  split
  · exact h'
  · exact h'
  · exact .failCopy (.tick h')

theorem State.Canon.chargePart {u : Nat} (h : s.Canon p) : (s.chargePart u).Canon p := by
  unfold State.chargePart
  dsimp only
  refine .levelsMoved (.event (.failCopies (.foldl (fun _ _ h' => .ite h' (.lvPut h')) (.foldl (fun _ _ h' => .killShadow h')
      (.killAll (.foldl (fun _ _ h' => ?_) (.foldl (fun _ _ h' => .lvOr h') (.disableQueues h))))))))
  split
  · exact h'
  · exact .cancelLaunch h'

theorem State.Canon.damage {loc : Nat} (h : s.Canon p) : (s.damage loc).1.Canon p := by
  unfold State.damage
  dsimp only
  split
  · exact h
  · split
    · exact h
    · split
      · exact .modTil (.ite h h)
      · exact .modTil (.ite h h)
      · exact .modDie (.ite h h)

theorem Settles.execUncorrectableError {loc : Nat} (h : s.Canon p) : Settles p (execUncorrectableError loc s) := by
  unfold Machine.execUncorrectableError
  dsimp only
  refine .next ?_
  split
  · exact .event (.damage h)
  · exact .chargePart (.damage h)

theorem State.Canon.endPart {q : Nat} (h : s.Canon p) : (s.endPart q).Canon p := by
  unfold State.endPart
  extract_lets s1 s2 s3 s4 ts s5 s6
  have h1 : s1.Canon p := .disableQueues h
  have h2 : s2.Canon p := .dropTlb (.foldl (fun _ _ h => .mapBlock h) h1)
  have h3 : s3.Canon p := .foldl (fun _ _ h => .dropLaunch h) h2
  have h4 : s4.Canon p := .failCopies (.killAll h3)
  have h5 : s5.Canon p := .foldl (fun _ _ h => .modTil (.killShadow h)) h4
  clear_value s5
  have h6 : s6.Canon p := h5.of_keys (hc := keys_map fun x => by split <;> rfl)
  exact .foldl (fun _ _ h => .modTil (.freePatterns h)) (.modPort h6)

theorem Settles.execPartDestroy (h : s.Canon p) : Settles p (execPartDestroy s) := by
  unfold Machine.execPartDestroy
  refine .next ?_
  split
  · exact .serveCmd h (fun _ h' => .ite (.answerCmd h') (.ite (.answerCmd h') (.answerCmd (.endPart h'))))
  · exact h

theorem State.Canon.clearTil {til : Nat} (h : s.Canon p) : (s.clearTil til).Canon p := by
  unfold State.clearTil
  extract_lets s1 s2 s3
  have h1 : s1.Canon p := h.of_keys (hc := keys_map fun x => by split <;> rfl)
  exact .modTil (.foldl (fun _ _ h => .modCore (.scramble h)) (.scramble h1))

theorem State.Canon.unstow {til : Nat} {g : Shadow} (h : s.Canon p) : (s.unstow til g).Canon p :=
  .modTil (.rest (.foldl (fun _ _ h' => .regrab h') (.regrab (.foldl (fun _ _ h' => .modCore h') (.foldl (fun _ _ h' =>
      .setCtx h') h)))))

theorem State.Canon.exchange {til : Nat} (h : s.Canon p) : (s.exchange til).Canon p := by
  unfold State.exchange
  dsimp only
  refine .foldl (fun _ _ h' => .modCore h') ?_
  split
  · exact .modTil (.clearTil (.freePatterns (.foldl (fun _ _ h' => .ite h' (.park h')) h)))
  · exact .unstow (.modTil (.clearTil (.freePatterns (.foldl (fun _ _ h' => .ite h' (.park h')) h))))

theorem State.Canon.landFlights {tils : List Nat} (h : s.Canon p) : (s.landFlights tils).Canon p :=
  .foldl (fun _ _ h' => .arrive h') h
theorem State.Canon.haltCore {k : Nat} (h : s.Canon p) : (s.haltCore k).Canon p := .beginHalt h

theorem State.Canon.swapOn {qp : Nat} {g : SendHeader} {tils : List Nat} (h : s.Canon p) : (s.swapOn qp g tils).Canon p :=
  .ite h (.ite (.foldl (fun _ _ h' => .ite h' (.haltCore h')) h) (.ite h (.answerCmd (.retryShares (.modPort (.foldl
      (fun _ _ h' => .laterOnce h') (.foldl (fun _ _ h' => .unspill h') (.foldl (fun _ _ h' => .exchange h')
      (.landFlights h)))))))))

theorem State.Canon.goOn (h : s.Canon p) : s.goOn.Canon p := by
  unfold State.goOn
  split
  · exact h
  · exact .swapOn h

theorem Settles.execPartSwap (h : s.Canon p) : Settles p (execPartSwap s) := by
  unfold Machine.execPartSwap
  dsimp only
  refine .next ?_
  split
  · exact .ite (.goOn h) (.serveCmd h (fun _ h' => .ite (.answerCmd h') (.ite (.answerCmd h') (.modPort (.foldl (fun _ _ h'' =>
      .ite h'' (.haltCore h'')) h')))))
  · exact .goOn h

theorem State.Canon.setHold {qp : Nat} {g : SendHeader} {til : Nat} {on : Bool} (h : s.Canon p) :
    (s.setHold qp g til on).Canon p :=
  .ite (.answerCmd h) (.answerCmd (.modTil h))

theorem Settles.execHold (h : s.Canon p) : Settles p (execHold s) := by
  unfold Machine.execHold
  refine .next ?_
  split
  · exact .serveCmd h (fun _ h' => .setHold h')
  · exact h

theorem Settles.execUnhold (h : s.Canon p) : Settles p (execUnhold s) := by
  unfold Machine.execUnhold
  refine .next ?_
  split
  · exact .serveCmd h (fun _ h' => .setHold h')
  · exact h

theorem Settles.execQtable (h : s.Canon p) : Settles p (execQtable s) := by
  unfold Machine.execQtable
  refine .next ?_
  split
  · refine .serveCmd h (fun _ h' => ?_)
    split
    · exact .answerCmd h'
    · exact .answerCmd h'
  · exact h

theorem Settles.execClkset (h : s.Canon p) : Settles p (execClkset s) := by
  unfold Machine.execClkset
  refine .next ?_
  split
  · exact .serveCmd h (fun _ h' => .ite (.answerCmd h') (.answerCmd (.modDie h')))
  · exact h

theorem Settles.execCommandPortIntr (h : s.Canon p) : Settles p (execCommandPortIntr s) := by
  unfold Machine.execCommandPortIntr
  dsimp only
  refine .next ?_
  split
  · exact .send h
  · exact h

theorem Settles.execPeermap (h : s.Canon p) : Settles p (execPeermap s) := by
  unfold Machine.execPeermap
  refine .next ?_
  split
  · exact .serveCmd h (fun _ h' => .ite (.answerCmd h') (.answerCmd (.modPort h')))
  · exact h

theorem Settles.execPeerLinkDown {port : Nat} (h : s.Canon p) : Settles p (execPeerLinkDown port s) := by
  unfold Machine.execPeerLinkDown
  dsimp only
  refine .next (.event (.foldl (fun _ _ h' => ?_) h))
  split
  · exact h'
  · exact h'
  · exact .failCopy h'

theorem State.Canon.peerFate {q : PeerCopy} {va : Nat} {w : PeerWrite} (h : s.Canon p) : (s.peerFate q va w).1.Canon p := by
  unfold State.peerFate
  dsimp only
  split
  · split
    · exact h
    · split
      · exact h
      · split
        · exact h
        · split
          · exact h
          · split
            · exact h
            · split
              · exact h
              · exact .claimIn h
  · split
    · exact h
    · split
      · exact h
      · split
        · exact h
        · exact h

theorem State.Canon.writePieces {part : Nat} {l : List (List Nat × Nat)} {bs : List Byte} (h : s.Canon p) :
    (s.writePieces part l bs).Canon p := by
  induction l generalizing s bs with
  | nil => exact h
  | cons q l ih => exact ih (.foldl (fun _ _ h' => .devStore h') h)

theorem State.Canon.landPeer {q : PeerCopy} {ps : List (List Nat × Nat)} {bs : List Byte} (h : s.Canon p) :
    (s.landPeer q ps bs).1.Canon p := by
  unfold State.landPeer
  dsimp only
  split
  · exact .scrambleAll (.writePieces (.keepSources (.sharers (.modPort h))))
  · exact .foldl (fun _ _ h' => .landClaim h') (.scrambleAll (.writePieces (.keepSources (.sharers (.modPort h)))))

theorem Settles.execXmodCopyWrite {port part va : Nat} {w : PeerWrite} (h : s.Canon p) :
    Settles p (execXmodCopyWrite port part va w s) := by
  unfold Machine.execXmodCopyWrite
  dsimp only
  refine .next (.ite h (.ite (.toPeer (.modPort h)) ?_))
  split
  · exact h
  · exact .toPeer (.modPort h)
  · exact .ite (.toPeer (.modPort (.landPeer (.peerFate h)))) (.ite (.toPeer (.modPort (.landPeer (.peerFate h)))) (.modPort
      (.landPeer (.peerFate h))))

theorem Settles.execFwload (h : s.Canon p) : Settles p (execFwload s) := by
  unfold Machine.execFwload
  refine .next ?_
  split
  · exact .answerCmd (.modPort h)
  · split
    · exact .serveCmd h (fun _ h' => .ite (.answerCmd h') (.tick (.modPort h')))
    · exact h

theorem Settles.execAttest (h : s.Canon p) : Settles p (execAttest s) := by
  unfold Machine.execAttest
  refine .next ?_
  split
  · exact .serveCmd h (fun _ h' => .ite (.answerCmd h') (.ite (.answerCmd h') (.reply h')))
  · exact h

theorem Settles.execI3cDynamicAddress (h : s.Canon p) : Settles p (execI3cDynamicAddress s) := by
  unfold Machine.execI3cDynamicAddress
  dsimp only
  refine .next ?_
  split
  · exact h
  · exact h

theorem Settles.execI3cRead (h : s.Canon p) : Settles p (execI3cRead s) := by
  unfold Machine.execI3cRead
  dsimp only
  refine .next ?_
  split
  · exact .ite (.tick (.reply h)) h
  · exact h

theorem Settles.execOrderlyShutdown (h : s.Canon p) : Settles p (execOrderlyShutdown s) := by
  unfold Machine.execOrderlyShutdown
  dsimp only
  refine .next ?_
  split
  · exact .ite h (.ite (.foldl (fun _ _ h' => .endPart h') h) h)
  · exact h

/-! ### Timing -/

theorem State.Canon.settle {pre post : State} {c : Nat} {i : Instr} {r : Option Reach} (h : post.Canon p) :
    (pre.settle post c i r).Canon p :=
  .ite h (.modCore (.modCtx h))

theorem State.Canon.postFetch {c : Nat} (h : s.Canon p) : (s.postFetch c).Canon p := by
  unfold State.postFetch
  refine .ite ?_ h
  split
  · exact .modCtx (.tick h)
  · exact .postMiss h
  · exact .ite (.abortTx h) (.postFault (.modCtx h))
  · exact h
  · exact h

theorem State.Canon.endWait {c : Nat} (h : s.Canon p) : (s.endWait c).Canon p := by
  unfold State.endWait
  cases (s.ctx c).wait with
  | code u => exact .ite (.codeHere h) h
  | begin_ u => exact .ite (.modCtx h) h
  | drain => exact .ite (.modCtx h) h
  | order loads line u flush => exact .ite h (.flush (.modCtx h))
  | ending code => exact .ite h (.exitStrand h)
  | moving t => exact .ite h (.depart h)
  | _ => exact h

theorem State.Canon.begins {c : Nat} (h : s.Canon p) : (s.begins c).Canon p := by
  unfold State.begins
  refine .ite ?_ h
  split
  · exact .laterOnce h
  · exact .laterOnce h
  · exact h

theorem State.Canon.clockCtx {c : Nat} {issued : Bool} (h : s.Canon p) : (s.clockCtx c issued).Canon p := by
  unfold State.clockCtx
  extract_lets s1 s2 x y s3 k
  have h1 : s1.Canon p := by
    unfold s1
    split
    · exact h
    · exact .modCtx h
  have h2 : s2.Canon p := .begins (.endWait h1)
  have h3 : s3.Canon p := .setCtx h2
  exact .ite (.ite (.laterOnce h3) h3) (.setCtx h2)

theorem State.Canon.blockDone {til : Nat} {x : HalfOf} (h : s.Canon p) : (s.blockDone til x).Canon p := by
  unfold State.blockDone
  split
  · exact .modTil h
  · exact .ite (.laterOnce h) h

theorem State.Canon.tileMoves {til : Nat} (h : s.Canon p) : (s.tileMoves til).Canon p := by
  unfold State.tileMoves
  extract_lets t next s1 s2
  have h1 : s1.Canon p := by
    unfold s1
    split
    · exact h
    · exact .ite h (.blockDone h)
  clear_value next
  split
  · exact .modTil h1
  · exact .ite (.blockDone (.modTil (.modTil h1))) (.modTil (.modTil h1))

theorem State.Canon.streamMoves {til : Nat} (h : s.Canon p) : (s.streamMoves til).Canon p := by
  unfold State.streamMoves
  dsimp only
  split
  · exact .modTil h
  · exact .ite (.laterOnce (.modTil (.modTil h))) (.modTil (.modTil h))

theorem State.Canon.putOff {v : Wave} {t : Word} (h : s.Canon p) : (s.putOff v t).Canon p := .modTil (.rest (.modCtx h))

theorem State.Canon.delayWave {k : Nat} (h : s.Canon p) : (s.delayWave k).Canon p := by
  unfold State.delayWave
  dsimp only
  split
  · exact h
  · exact .foldl (fun _ _ h' => .ite h' (.putOff h')) (.modCore h)

theorem State.Canon.answerReq {til : Nat} {ok : Bool} {who : Requester} (h : s.Canon p) : (s.answerReq til ok who).Canon p := by
  unfold State.answerReq
  dsimp only
  split
  · exact .ite (.tileMoves h) (.modTil h)
  · exact .ite (.streamMoves h) (.modTil h)
  · exact .ite (.modCore h) (.delayWave h)

theorem State.Canon.servePorts {til : Nat} (h : s.Canon p) : (s.servePorts til).Canon p :=
  .foldl (fun _ _ h' => .answerReq h') (.ite h (.modTil h))
theorem State.Canon.openResults {til : Nat} (h : s.Canon p) : (s.openResults til).Canon p :=
  .foldl (fun _ _ h' => .passPublished (.setRing h')) h

theorem State.Canon.holdValues {til : Nat} (h : s.Canon p) : (s.holdValues til).Canon p := by
  unfold State.holdValues
  dsimp only
  split
  · exact .ite h (.modTil h)
  · exact .ite h (.changeKey (.modTil h))

theorem State.Canon.fillUnits {til : Nat} (h : s.Canon p) : (s.fillUnits til).Canon p := by
  refine .foldl_fst (fun q i hq => ?_) h
  split
  · exact hq
  · exact .takeIn hq

theorem State.Canon.endCycle {til : Nat} (h : s.Canon p) : (s.endCycle til).Canon p :=
  .ite h (.holdValues (.fillUnits (.openResults (.servePorts h))))

theorem State.Canon.clockDie {k : Nat} (h : s.Canon p) : (s.clockDie k).Canon p :=
  .ite (.ite (.laterOnce (.foldl (fun _ _ h' => .laterOnce h') (.ite (.foldl (fun _ _ h' => .laterOnce h') (.ite (.laterOnce
      (.ite (.laterOnce (.tick (.tick (.modDie h)))) (.tick (.tick (.modDie h))))) (.ite (.laterOnce (.tick (.tick (.modDie h))))
      (.tick (.tick (.modDie h)))))) (.ite (.laterOnce (.ite (.laterOnce (.tick (.tick (.modDie h)))) (.tick (.tick
      (.modDie h))))) (.ite (.laterOnce (.tick (.tick (.modDie h)))) (.tick (.tick (.modDie h)))))))) (.foldl (fun _ _ h' =>
      .laterOnce h') (.ite (.foldl (fun _ _ h' => .laterOnce h') (.ite (.laterOnce (.ite (.laterOnce (.tick (.tick (.modDie h))))
      (.tick (.tick (.modDie h))))) (.ite (.laterOnce (.tick (.tick (.modDie h)))) (.tick (.tick (.modDie h)))))) (.ite
      (.laterOnce (.ite (.laterOnce (.tick (.tick (.modDie h)))) (.tick (.tick (.modDie h))))) (.ite (.laterOnce (.tick (.tick
      (.modDie h)))) (.tick (.tick (.modDie h)))))))) h

theorem State.Canon.clockPats {til : Nat} {cycle : Word} (h : s.Canon p) : (s.clockPats til cycle).Canon p := by
  unfold State.clockPats
  dsimp only
  split
  · exact .ite (.laterOnce h) h
  · exact .ite (.laterOnce h) h

theorem State.Canon.clockStream {til : Nat} (h : s.Canon p) : (s.clockStream til).Canon p := .ite h (.ite h (.tick (.modTil h)))

theorem State.Canon.clockTil {k : Nat} (h : s.Canon p) : (s.clockTil k).Canon p :=
  .ite (.ite (.laterOnce (.tick (.modTil (.ite (.laterOnce (.resize (.clockPats (.clockStream (.foldl (fun _ _ h' => .ite
      (.laterOnce (.tick h')) (.tick h')) (.foldl (fun _ _ h' => .laterOnce h') h)))))) (.resize (.clockPats (.clockStream
      (.foldl (fun _ _ h' => .ite (.laterOnce (.tick h')) (.tick h')) (.foldl (fun _ _ h' => .laterOnce h') h))))))))) (.tick
      (.modTil (.ite (.laterOnce (.resize (.clockPats (.clockStream (.foldl (fun _ _ h' => .ite (.laterOnce (.tick h'))
      (.tick h')) (.foldl (fun _ _ h' => .laterOnce h') h)))))) (.resize (.clockPats (.clockStream (.foldl (fun _ _ h' => .ite
      (.laterOnce (.tick h')) (.tick h')) (.foldl (fun _ _ h' => .laterOnce h') h))))))))) h

theorem State.Canon.enterCycle {k : Nat} (h : s.Canon p) : (s.enterCycle k).Canon p := .modCore (.modCore h)

theorem State.Canon.keepWord {c : Nat} (h : s.Canon p) : (s.keepWord c).Canon p := by
  unfold State.keepWord
  dsimp only
  refine .ite ?_ (.ite h (.setCtx h))
  split
  · exact .setCtx h
  · exact h

theorem State.Canon.clockCycle {k : Nat} (h : s.Canon p) : (s.clockCycle k).Canon p := by
  unfold State.clockCycle
  dsimp only
  split
  · exact .foldl (fun _ _ h' => .clockCtx h') (.clockTil (.clockDie (.foldl (fun _ _ h' => .keepWord h') (.foldl (fun _ _ h' =>
      .postFetch h') (.enterCycle (.ite (.endCycle h) h))))))
  · exact .rest (.modCtx (.foldl (fun _ _ h' => .clockCtx h') (.clockTil (.clockDie (.foldl (fun _ _ h' => .keepWord h') (.foldl
      (fun _ _ h' => .postFetch h') (.enterCycle (.ite (.endCycle h) h))))))))

theorem State.Canon.trapAt {cause : Nat} {va : Word} {word : IWord} (h : s.Canon p) : (s.trapAt cause va word).Canon p :=
  .onStop h

/-! ### Vector -/

theorem Op.Keeps.immOp {d : BitVec 5} {t : BitVec 3} {k : BitVec 16} {f : Nat → Nat → Nat → Nat × Flags} :
    Op.Keeps p (immOp d t k f) :=
  .thenNext (.bind .rdV fun _ => .putV)

/-! ### Dispatch -/

/-- The meaning of every instruction keeps the canonical form. -/
theorem Settles.exec {i : Instr} (h : s.Canon p) : Settles p (exec i s) := by
  cases i with
  | add => exact .perform .alu2 h
  | sub => exact .perform .alu2 h
  | mul => exact .perform .alu2 h
  | mulh => exact .perform .alu2 h
  | mulhn => exact .perform .alu2 h
  | div => exact .perform .alu2 h
  | divn => exact .perform .alu2 h
  | rem => exact .perform .alu2 h
  | remn => exact .perform .alu2 h
  | and => exact .perform .alu2 h
  | or => exact .perform .alu2 h
  | xor => exact .perform .alu2 h
  | andn => exact .perform .alu2 h
  | shl => exact .perform .alu2 h
  | shr => exact .perform .alu2 h
  | sra => exact .perform .alu2 h
  | rot => exact .perform .alu2 h
  | clz => exact .perform .alu1 h
  | ctz => exact .perform .alu1 h
  | popc => exact .perform .alu1 h
  | min => exact .perform .alu2 h
  | max => exact .perform .alu2 h
  | minn => exact .perform .alu2 h
  | maxn => exact .perform .alu2 h
  | slt => exact .perform .alu2 h
  | sltn => exact .perform .alu2 h
  | seq => exact .perform .alu2 h
  | sel => exact .perform .alu3 h
  | lea => exact .perform .alu2 h
  | bfx => exact .perform .alu2 h
  | bfi => exact .perform .alu3 h
  | addi => exact .perform .alu1 h
  | andi => exact .perform .alu1 h
  | lih => exact .perform (.thenNext .wrS) h
  | beq => exact .branch h
  | bne => exact .branch h
  | blt => exact .branch h
  | bge => exact .branch h
  | bltn => exact .branch h
  | bgen => exact .branch h
  | jal => exact .perform (.bind .ask fun _ => .bind .checkTarget fun _ => .bind .wrS fun _ => .pure) h
  | jalr =>
    exact .perform (.bind .ask fun _ => .bind .rdS fun _ => .ite .stop_bind (.bind .checkTarget fun _ => .bind .wrS fun _ =>
        .pure)) h
  | repf =>
    exact .perform (.bind .ask fun _ => .ite .stop_bind (.bind .ask fun _ => .bind (.upd fun _ h' => .modMe h') fun _ => .pure)) h
  | spawn => exact .execSpawn h
  | reap => exact .execReap h
  | exit =>
    exact .performRaw (.bind .ask fun _ => .ite .stop_bind (.bind .examineFields fun _ => .ite (.bind .pure fun _ => .bind
        (.upd fun _ h' => .exitStep h') fun _ => .pure) (.bind .rdS fun _ => .bind (.upd fun _ h' => .exitStep h') fun _ =>
        .pure))) h
  | launch =>
    exact .perform (.thenNext (.bind .rdS fun _ => .bind .rdS fun _ => .bind .globalAddr fun _ => .get_bind fun _ _ => .ite .wrS
        (.ite .wrS (.ite .wrS (.ite .stop_bind (.bind .translateLanes fun _ => .bind (.forM fun _ => .strandStore) fun _ => .bind
        (.upd fun _ h'' => .qPut h'') fun _ => .wrS)))))) h
  | done =>
    exact .perform (.thenNext (.bind .rdS fun _ => .bind .rdB fun _ => .bind .objectLane fun _ => .get_bind fun _ _ => .ite
        .stop_bind (.ite .wrS (.ite .wrS (.ite (.bind (.upd fun _ h'' => .lvAdd h'') fun _ => .bind .acquirePkg fun _ => .wrS)
        (.bind .acquirePkg fun _ => .wrS)))))) h
  | cancel =>
    exact .perform (.thenNext (.bind .rdS fun _ => .bind .objectLane fun _ => .get_bind fun _ _ => .ite .stop_bind (.ite .wrS
        (.ite .wrS (.ite .wrS (.bind (.upd fun _ h'' => .noticeCancel (.lvOr h'')) fun _ => .wrS)))))) h
  | lcntCmp => exact .lcnt h
  | lcntExp => exact .lcnt h
  | lcntSt => exact .lcnt h
  | lwait => exact .execLwait h
  | place => exact .execPlace h
  | qbind =>
    exact .perform (.thenNext (.bind .rdS fun _ => .get_bind fun _ _ => .ite .wrS (.ite .wrS (.ite .stop (.ite .wrS (.bind
        .wrS fun _ => .upd fun _ h'' => .doBind h'')))))) h
  | qunb => exact .perform (.thenNext (.bind .ask fun _ => .ite .wrS (.bind .wrS fun _ => .upd fun _ h' => .unbind h'))) h
  | qtry => exact .performRaw .tryHead h
  | qpeek => exact .performRaw .tryHead h
  | qawn => exact .performRaw .putAwn h
  | qlen =>
    exact .perform (.thenNext (.bind .boundEnd fun _ => .bind .ask fun _ => .ite (.bind .ask fun _ => .ite .stop_bind (.bind
        .ask fun _ => .bind .readKey fun _ => .bind .ask fun _ => .bind (.upd fun _ h' => .polled h') fun _ => .wrS)) (.bind
        .ask fun _ => .bind (.upd fun _ h' => .polled h') fun _ => .wrS))) h
  | qend => exact .performRaw .putAwn h
  | rres => exact .execRres h
  | rpub => exact .execRpub h
  | rcurGet =>
    exact .perform (.thenNext (.bind .boundEnd fun _ => .get_bind fun _ _ => .ite .stop_bind (.ite (.ite .stop_bind (.bind
        .readKey fun _ => .wrS)) .wrS))) h
  | rcurSkip =>
    exact .perform (.thenNext (.bind .boundEnd fun _ => .bind .rdS fun _ => .get_bind fun _ _ => .ite .stop_bind (.ite (.ite
        .stop_bind (.bind .readKey fun _ => .bind (.forM fun _ => .bind .deq fun _ => .pure) fun _ => .wrS)) (.bind
        (.forM fun _ => .bind .deq fun _ => .pure) fun _ => .wrS)))) h
  | tokh =>
    exact .perform (.thenNext (.bind .boundEnd fun _ => .bind .ask fun _ => .ite .stop_bind (.upd fun _ h' => .modMe h'))) h
  | txb =>
    exact .performRaw (.get_bind fun _ _ => .ite .stop_bind (.ite (.ite (.bind (.upd fun _ h'' => .changeKey (.modTil
        (.modMe h''))) fun _ => .pure) (.bind (.upd fun _ h'' => .sleepOn (.modTil h'')) fun _ => .pure)) (.bind
        (.upd fun _ h'' => .modMe h'') fun _ => .pure))) h
  | txo =>
    exact .performRaw (.thenNext (.bind .inAttempt fun _ => .bind .ask fun _ => .ite .stop_bind (.ite .stop_bind
        (.upd fun _ h' => .modMe h')))) h
  | txa => exact .performRaw (.bind .inAttempt fun _ => .bind (.upd fun _ h' => .abortTx h') fun _ => .pure) h
  | watch =>
    exact .performRaw (.thenNext (.bind .inAttempt fun _ => .bind .examineFields fun _ => .bind .rdS fun _ => .bind
        .resolve fun _ => .forM fun _ => .bind .readKey fun _ => .ite (.upd fun _ h' => .registerOwner h') .pure)) h
  | ld => exact .perform (.thenNext (.bind .addrJ fun _ => .bind .loadScalar fun _ => .wrS)) h
  | st => exact .perform (.thenNext (.bind .addrJ fun _ => .bind .rdS fun _ => .storeScalar)) h
  | ldx => exact .perform (.thenNext (.bind .rdS fun _ => .bind .rdS fun _ => .bind .loadScalar fun _ => .wrS)) h
  | stx => exact .perform (.thenNext (.bind .rdS fun _ => .bind .rdS fun _ => .bind .rdS fun _ => .storeScalar)) h
  | vld => exact .perform (.thenNext (.bind .addrJ fun _ => .bind .loadScalar fun _ => .wrV)) h
  | vst => exact .perform (.thenNext (.bind .addrJ fun _ => .bind .rdV fun _ => .storeScalar)) h
  | vlds => exact .perform (.thenNext (.bind .rdS fun _ => .bind .rdS fun _ => .bind .rdM fun _ => .vecLoad)) h
  | vsts =>
    exact .perform (.thenNext (.bind .rdS fun _ => .bind .rdS fun _ => .bind .rdV fun _ => .bind .rdM fun _ => .vecStore)) h
  | vgth => exact .perform (.thenNext (.bind .rdS fun _ => .bind .rdAB fun _ => .bind .rdM fun _ => .vecLoad)) h
  | vsct =>
    exact .perform (.thenNext (.bind .rdS fun _ => .bind .rdAB fun _ => .bind .rdV fun _ => .bind .rdM fun _ => .vecStore)) h
  | prfL2 => exact .perform (.thenNext (.bind .addrJ fun _ => .bind .cachePage fun _ => .pure)) h
  | prfL1 => exact .execPrfL1 h
  | cfl => exact .execCfl h
  | cinvD => exact .perform (.thenNext (.bind .addrJ fun _ => .invalidate)) h
  | cinvI => exact .perform (.thenNext (.bind .addrJ fun _ => .invalidate)) h
  | cinvDi => exact .perform (.thenNext (.bind .addrJ fun _ => .invalidate)) h
  | stm => exact .execStm h
  | ldaq =>
    exact .perform (.thenNext (.bind .rdS fun _ => .bind .resolve fun _ => .forM fun _ => .bind .loadLane fun _ => .bind
        .acquirePart fun _ => .wrS)) h
  | strl => exact .perform (.thenNext (.bind .rdS fun _ => .bind .rdS fun _ => .bind .storeScalar fun _ => .acquirePart)) h
  | fence => exact .perform (.thenNext (.bind .inTx fun _ => .ite (.upd fun _ h' => .holdOrder h') .pure)) h
  | amoadd => exact .amo h
  | amoswp => exact .amo h
  | amocas =>
    exact .perform (.thenNext (.bind .rdS fun _ => .bind .rdS fun _ => .bind .rdS fun _ => .bind .atomicLane fun _ =>
        .forM fun _ => .bind .loadLane fun _ => .ite (.bind .strandStore fun _ => .bind .leaveL1 fun _ => .bind
        .acquirePart fun _ => .wrS) (.bind .inTx fun _ => .ite (.bind .writeKey fun _ => .bind .leaveL1 fun _ => .bind
        .acquirePart fun _ => .wrS) (.bind .leaveL1 fun _ => .bind .acquirePart fun _ => .wrS)))) h
  | amomin => exact .amo h
  | amomax => exact .amo h
  | amoand => exact .amo h
  | amoor => exact .amo h
  | amoxor => exact .amo h
  | red =>
    exact .perform (.thenNext (.bind .rdS fun _ => .bind .rdS fun _ => .bind .inTx fun _ => .ite .stop_bind (.bind
        .atomicLane fun _ => .forM fun _ => .get_bind fun _ _ => .bind .strandStore fun _ => .ite (.bind (.upd fun _ h'' =>
        h'') fun _ => .leaveL1) .leaveL1))) h
  | migrantLand => exact .next (.serve (.admitQueued (.arriveMigrant h)))
  | migrantRecall => exact .next (.foldl (fun _ _ h' => .depart h') h)
  | migrantKill => exact .next (.killMigrant h)
  | vcvt => exact .perform (.thenNext (.bind .rdAB fun _ => .bind .rdM fun _ => .putV)) h
  | vpack => exact .perform (.thenNext (.bind .rdAB fun _ => .bind .rdAB fun _ => .bind .rdM fun _ => .putV)) h
  | vunpk => exact .perform (.thenNext (.bind .rdAB fun _ => .bind .rdM fun _ => .putV)) h
  | vscl => exact .perform .vec2 h
  | vclsExp => exact .perform .vec1 h
  | vclsCls => exact .perform .vec1 h
  | vtriD2 => exact .perform (.thenNext (.bind .rdAB fun _ => .bind .rdM fun _ => .putV)) h
  | vtriD5 => exact .perform (.thenNext (.bind .rdAB fun _ => .bind .rdM fun _ => .putV)) h
  | vtriE2 => exact .perform (.thenNext (.bind .rdAB fun _ => .bind .rdM fun _ => .putV)) h
  | vtriE5 => exact .perform (.thenNext (.bind .rdAB fun _ => .bind .rdM fun _ => .putV)) h
  | vadd => exact .perform .vec2 h
  | vsub => exact .perform .vec2 h
  | vmul => exact .perform .vec2 h
  | vfma => exact .perform .vec3 h
  | vfms => exact .perform .vec3 h
  | vmin => exact .perform .vec2 h
  | vmax => exact .perform .vec2 h
  | vabs => exact .perform .vec1 h
  | vneg => exact .perform .vec1 h
  | vrcp => exact .perform .vec1 h
  | vrsq => exact .perform .vec1 h
  | vexp2 => exact .perform .vec1 h
  | vlog2 => exact .perform .vec1 h
  | vcmp =>
    exact .perform (.thenNext (.bind .rdAB fun _ => .bind .rdAB fun _ => .bind .rdM fun _ => .bind .wrM fun _ => .setFlags)) h
  | vsel => exact .perform (.thenNext (.bind .rdAB fun _ => .bind .rdAB fun _ => .bind .rdM fun _ => .putV)) h
  | vand => exact .perform .vec2 h
  | vor => exact .perform .vec2 h
  | vxor => exact .perform .vec2 h
  | vshl => exact .perform .vec2 h
  | vshr => exact .perform .vec2 h
  | vsra => exact .perform .vec2 h
  | vperm => exact .perform (.thenNext (.bind .rdAB fun _ => .bind .rdAB fun _ => .bind .rdM fun _ => .putV)) h
  | vbcst => exact .perform (.thenNext .putV) h
  | vaddi => exact .perform .immOp h
  | vmuli => exact .perform .immOp h
  | vmvs => exact .perform (.thenNext (.bind .rdAB fun _ => .bind .rdAB fun _ => .wrS)) h
  | vmsv => exact .perform (.thenNext (.bind .rdAB fun _ => .bind .rdAB fun _ => .bind .rdV fun _ => .putV)) h
  | vred => exact .perform (.thenNext (.bind .rdAB fun _ => .bind .rdM fun _ => .putV)) h
  | vscan => exact .perform (.thenNext (.bind .rdAB fun _ => .bind .rdM fun _ => .putV)) h
  | vpopc => exact .perform (.thenNext (.bind .rdAB fun _ => .bind .rdAB fun _ => .bind .rdM fun _ => .wrS)) h
  | vcmpr => exact .perform (.thenNext (.bind .rdAB fun _ => .bind .rdM fun _ => .wrV)) h
  | vxpnd => exact .perform (.thenNext (.bind .rdAB fun _ => .bind .rdM fun _ => .wrV)) h
  | vdot => exact .perform (.thenNext (.bind .rdAB fun _ => .bind .rdAB fun _ => .bind .rdV fun _ => .bind .rdM fun _ => .putV)) h
  | mand => exact .perform (.thenNext (.bind .rdM fun _ => .bind .rdM fun _ => .wrM)) h
  | mor => exact .perform (.thenNext (.bind .rdM fun _ => .bind .rdM fun _ => .wrM)) h
  | mnot => exact .perform (.thenNext (.bind .rdM fun _ => .wrM)) h
  | tacq =>
    exact .perform (.thenNext (.ite (.bind .pure fun _ => .get_bind fun _ _ => .ite .wrS (.ite .wrS (.bind (.upd fun _ h'' =>
        .modTil h'') fun _ => .bind .ask fun _ => .wrS))) (.bind .rdS fun _ => .get_bind fun _ _ => .ite .wrS (.ite .wrS (.bind
        (.upd fun _ h'' => .modTil h'') fun _ => .bind .ask fun _ => .wrS))))) h
  | trel =>
    exact .perform (.thenNext (.bind .rdS fun _ => .bind .ask fun _ => .bind (.upd fun _ h' => .foldl (fun _ _ h'' =>
        .freeAcc h'') h') fun _ => .wrS)) h
  | tzro => exact .performRaw (.underLease (.thenNext (.bind .accHeld fun _ => .issueCommand))) h
  | tmma => exact .performRaw .multiplyTile h
  | tmmt => exact .performRaw .multiplyTile h
  | tlda =>
    exact .performRaw (.underLease (.thenNext (.bind .accHeld fun _ => .bind .examineFields fun _ => .bind .rdS fun _ => .bind
        .rdS fun _ => .bind .rowsChecked fun _ => .get_bind fun _ _ => .bind (.upd fun _ h'' => .addJob h'') fun _ =>
        .issueCommand))) h
  | tsta =>
    exact .performRaw (.underLease (.thenNext (.bind .accHeld fun _ => .bind .examineFields fun _ => .bind .rdS fun _ => .bind
        .rdS fun _ => .bind .rowsChecked fun _ => .bind .ask fun _ => .bind (.forM fun _ => .soleHold) fun _ => .bind
        (.upd fun _ h' => .addJob h') fun _ => .issueCommand))) h
  | tgeo =>
    exact .performRaw (.underLease (.thenNext (.bind .accHeld fun _ => .bind .examineFields fun _ => .bind .rdS fun _ => .bind
        .rdS fun _ => .issueCommand))) h
  | bsum =>
    exact .performRaw (.thenNext (.bind .boundEnd fun _ => .ite .stop_bind (.bind .ask fun _ => .bind .examine fun _ => .bind
        .rdS fun _ => .bind .rdS fun _ => .bind .enq fun _ => .enq))) h
  | bacc =>
    exact .performRaw (.thenNext (.bind .ask fun _ => .ite .stop_bind (.bind .examineFields fun _ => .bind .rdS fun _ => .bind
        .rdS fun _ => .bind .ask fun _ => .bind .setFlags fun _ => .upd fun _ h' => .modMe h'))) h
  | tileStaging => exact .execTileStaging h
  | tileCommandComplete => exact .execTileCommandComplete h
  | leaseRearbitration => exact .next (.rearbitrate h)
  | spmma => exact .execSpmma h
  | sppre => exact .execSppre h
  | spinvOne => exact .execSpinvOne h
  | spinvAll => exact .perform (.thenNext (.bind .ask fun _ => .bind (.upd fun _ h' => .freePatterns h') fun _ => .wrS)) h
  | spqry =>
    exact .perform (.thenNext (.bind .rdS fun _ => .bind .rdS fun _ => .bind .directoryAt fun _ => .get_bind fun _ _ => .wrS)) h
  | mrgcStat => exact .perform .mergeCounters h
  | mrgcClr => exact .perform .mergeCounters h
  | mzkey => exact .perform (.thenNext (.bind .rdS fun _ => .bind .rdS fun _ => .wrS)) h
  | mzkeyInv => exact .perform (.thenNext (.bind .rdS fun _ => .wrS)) h
  | patternCompileStart => exact .next (.startCompile h)
  | patternCompileEnd => exact .next (.endCompile h)
  | mergeEmit => exact .next (.mergeStep h)
  | cpy => exact .perform (.thenNext (.bind .rdS fun _ => .bind .rdB fun _ => .issueCopy)) h
  | cpym => exact .perform (.thenNext (.bind .rdS fun _ => .bind .rdS fun _ => .issueCopy)) h
  | tffr =>
    exact .perform (.thenNext (.bind .rdS fun _ => .bind .ask fun _ => .bind (.upd fun _ h' => .modCore h') fun _ => .ite (.bind
        .acquirePkg fun _ => .wrS) .wrS)) h
  | wany => exact .performRaw .waitTags h
  | wall => exact .performRaw .waitTags h
  | aexp => exact .performRaw (.counterOp .rdB) h
  | arrv => exact .performRaw (.counterOp .rdB) h
  | wphsWait => exact .performRaw .phaseOp h
  | wphsTest => exact .performRaw .phaseOp h
  | bjoin => exact .performRaw (.counterOp .pure) h
  | bleav => exact .performRaw (.counterOp .pure) h
  | copyStart => exact .next (.startCopy h)
  | copyTransfer => exact .execCopyTransfer h
  | copyComplete => exact .next (.completeCopy h)
  | copyFaultReply => exact .next (.copyReply h)
  | mfs => exact .execMfs h
  | mts =>
    exact .performRaw (.thenNext (.get_bind fun _ _ => .ite .stop_bind (.bind .examineFields fun _ => .bind .rdS fun _ =>
        .upd fun _ h'' => .modMe h''))) h
  | lsplitWrite => exact .mtsSteward (fun _ _ h' => .writeLsplit h') h
  | swzWrite => exact .mtsSteward (fun _ _ h' => .writeSwz h') h
  | tringWrite =>
    exact .performRaw (.underLease (.thenNext (.bind .examineFields fun _ => .bind .rdS fun _ => .upd fun _ h' => .countCommand
        (.writeRing h')))) h
  | fstatClear => exact .perform (.thenNext (.bind .rdS fun _ => .upd fun _ h' => .modMe h')) h
  | svcmapWrite => exact .mtsSteward (fun _ _ h' => .modCore h') h
  | wdogWrite => exact .mtsSteward (fun _ _ h' => .modCore h') h
  | sysc => exact .performRaw .callTrap h
  | brk => exact .performRaw .callTrap h
  | tlbf =>
    exact .performRaw (.thenNext (.bind .privilegedOnly fun _ => .bind .examineFields fun _ => .bind .rdS fun _ => .bind
        .rdS fun _ => .ask_bind fun _ h' => .bind (.set (.fill h')) fun _ => .wrS)) h
  | tlbiVa =>
    exact .performRaw (.thenNext (.bind .privilegedOnly fun _ => .bind .examineFields fun _ => .bind .rdS fun _ => .bind
        (.upd fun _ h' => .dropEntries h') fun _ => .finishLater)) h
  | tlbiPart =>
    exact .performRaw (.thenNext (.bind .privilegedOnly fun _ => .bind .examineFields fun _ => .bind (.upd fun _ h' =>
        .dropEntries h') fun _ => .finishLater)) h
  | mbxr => exact .execMbxr h
  | mbxsFrep => exact .performRaw (.outgoing (fun _ _ => .sendReply)) h
  | mbxsCrep => exact .performRaw (.outgoing (fun _ _ => .sendReply)) h
  | mbxsErep => exact .performRaw (.outgoing (fun _ _ => .sendReply)) h
  | mbxsResume => exact .performRaw (.outgoing (fun _ _ => .ask_bind fun _ h' => .bind (.set (.resume h')) fun _ => .pure)) h
  | mbxsIntr => exact .performRaw (.outgoing (fun _ _ => .sendBox)) h
  | mbxsUser => exact .performRaw (.outgoing (fun _ _ => .sendBox)) h
  | mailboxDelivery => exact .next (.deliver h)
  | csaveSave => exact .execCsaveSave h
  | csaveRest => exact .execCsaveRest h
  | pcnt => exact .perform (.thenNext (.bind .rdB fun _ => .bind .ask fun _ => .wrS)) h
  | pcntCtx =>
    exact .performRaw (.thenNext (.bind .stewardOnly fun _ => .bind .examineFields fun _ => .bind .rdS fun _ => .bind
        .rdB fun _ => .bind .ask fun _ => .wrS)) h
  | strandStart => exact .next (.ite (.modCtx h) h)
  | strandWake => exact .next (.ite (.stale h) (.wake h))
  | changeNotice => exact .next (.notice h)
  | faultReply => exact .next (.answer h)
  | engineFetchComplete => exact .next (.fetchReturn h)
  | engineReply => exact .execEngineReply h
  | streamReadElement => exact .next (.streamRead h)
  | streamStoreElement => exact .next (.streamStore h)
  | elementArrival => exact .execElementArrival h
  | extensionMove => exact .next (.ite h (.changeChan (.moveAll h)))
  | creditGrant => exact .next (.ite (.peerGrant h) (.grant (.peerAsks h)))
  | queueEntryTake => exact .next (.takeEntry h)
  | launchReady => exact .next (.makeReady h)
  | dispatchAttempt => exact .next (.attempt h)
  | shareReserve => exact .next (.reserveShare h)
  | cancelNotice => exact .execCancelNotice h
  | budgetPublish => exact .next (.modDie h)
  | droopResponse => exact .next (.modDie h)
  | droopEnd => exact .next (.modDie h)
  | watchdogExpire =>
    exact .next (.ite h (.ite (.event (.modCtx h)) (.takeTrap (.modTil (.modCtx (.dropThirst (.dropToken (.withdraw h))))))))
  | uncorrectableError => exact .execUncorrectableError h
  | peerLinkDown => exact .execPeerLinkDown h
  | flitReplay => exact .next (.ite h (.ite (.modPort (.tick h)) (.laterOnce (.modPort (.tick h)))))
  | ucieEdgeDown => exact .next (.ite h (.foldl (fun _ _ h' => .chargePart h') (.event (.modPort h))))
  | thermalThrottle => exact .next (.event (.modDie h))
  | coreClockCycle => exact .next (.clockCycle h)
  | unassignedOpcode => exact .performRaw .stop h
  | tlbEntryDisplaced => exact .execTlbEntryDisplaced h
  | peerLinkUp => exact .next (.ite (.modPort h) h)
  | xmodCopyWrite => exact .execXmodCopyWrite h
  | tret => exact .perform (.bind .ask fun _ => .ite .stop_bind (.bind (.upd fun _ h' => .modMe h') fun _ => .pure)) h
  | txe => exact .performRaw (.thenNext (.bind .inAttempt fun _ => .commitTx)) h
  | txr => exact .performRaw (.bind .inAttempt fun _ => .bind (.upd fun _ h' => .txRetry h') fun _ => .pure) h
  | tlse =>
    exact .performRaw (.get_bind fun _ _ => .ite .pure (.ite (.bind (.upd fun _ h'' => .grantLease h'') fun _ => .pure) (.bind
        (.upd fun _ h'' => .waitLease h'') fun _ => .pure))) h
  | tlrl => exact .performRaw (.thenNext (.upd fun _ h' => .ite (.changeKey (.setTil h')) h')) h
  | powerGood => exact .next (.rest .reset)
  | rdmaWrite => exact .execRdmaWrite h
  | rdmaRead => exact .execRdmaRead h
  | invalidRequest => exact .execInvalidRequest h
  | partCreate => exact .execPartCreate h
  | partDestroy => exact .execPartDestroy h
  | partSwap => exact .execPartSwap h
  | hold => exact .execHold h
  | unhold => exact .execUnhold h
  | qtable => exact .execQtable h
  | attest => exact .execAttest h
  | fwload => exact .execFwload h
  | events => exact .execEvents h
  | peermap => exact .execPeermap h
  | clkset => exact .execClkset h
  | thermalShutdown => exact .next (.modPort h)
  | i3cDynamicAddress => exact .execI3cDynamicAddress h
  | i3cRead => exact .execI3cRead h
  | orderlyShutdown => exact .execOrderlyShutdown h
  | commandPortIntr => exact .execCommandPortIntr h

/-! ### Steps -/

/-- What an issue comes to is canonical, whether an instruction runs or none. -/
def Issued.Canon (p : Form) : Issued → Prop
  | .run _ _ t => t.Canon p
  | .done t => t.Canon p

theorem Issued.Canon.issueOf {c : Nat} (h : s.Canon p) : Issued.Canon p (s.issueOf c) := by
  have trap {t : State} {cause : Nat} {va : Word} {w : IWord} (ht : t.Canon p) : (t.trapAt cause va w).Canon p := .onStop ht
  unfold State.issueOf
  extract_lets raw s1
  have h1 : s1.Canon p := .modMe h
  clear_value raw
  split
  · exact State.Canon.withdrawIssue h
  split
  · exact State.Canon.modCtx (.withdrawIssue h)
  split
  · exact State.Canon.modCtx (.tick h1)
  · exact State.Canon.postMiss h1
  · exact State.Canon.ite (.abortTx h1) (.postFault h1)
  · exact trap h1
  · split
    · split
      · exact trap (.modMe h1)
      · extract_lets s2 w
        have h2 : s2.Canon p := .modMe h1
        split
        · exact h2
        · exact trap h2
    · split
      · exact h1
      · exact trap h1

theorem Settles.settled {pre : State} {c : Nat} {i : Instr} {r : Option Reach} {o : Host.Outcome State Fault Refusal}
    (h : Settles p o) : Settles p (settled pre c i r o) := by
  cases o with
  | next t => exact .next (.settle h)
  | _ => trivial

theorem State.Canon.nextRequest {q : State × Request} (h : s.Canon p) (e : s.nextRequest = some q) : q.1.Canon p := by
  obtain ⟨r, -, rfl⟩ := Option.map_eq_some_iff.mp e
  exact .modPort h

/-- A step keeps each half of the canonical form. -/
theorem Settles.step (h : s.Canon p) : Settles p (step s) := by
  unfold Machine.step
  split
  · trivial
  split
  · exact .exec h
  split
  · rename_i e
    exact .exec (h.nextRequest e)
  split
  · rename_i c _
    have hi : Issued.Canon p (({ s with issue := none } : State).issueOf c) := .issueOf h
    split <;> rename_i e <;> rw [e] at hi
    · exact .settled (.exec hi)
    · exact .next hi
  · exact .exec h

/-- Settles O6: no step lists memory out of order, or a byte that an unlisted one reads as. -/
theorem stepKeepsMemory : Obligations.StepKeepsMemory := by
  intro s t h e
  have ht : Settles .memory (step s) := .step (p := .memory) h
  rwa [e] at ht

/-- Settles O7: no step lists a number twice; s0 and m0 are hard-wired in every context. -/
theorem stepKeepsTables : Obligations.StepKeepsTables := by
  intro s t h e
  have ht : Settles .tables (step s) := .step (p := .tables) h
  rw [e] at ht
  exact ⟨ht, fun c => ⟨rfl, rfl⟩⟩

end Sys2Proof.Machine
end

section
/-! SUPPORT. What reset leaves (R78, R419) and what a field that names no bound end reads and writes (R15, R35, R36). -/

namespace Sys2Proof.Machine

/-- Settles O5: every table of the reset state is empty, so that each number has its reset entry. -/
theorem resetState : Obligations.ResetState := by
  have bind (c e : Nat) : (State.reset.ctx c).getBind e = 0 := by
    show ((Vector.replicate 12 (0 : Word))[e]?).getD 0 = 0
    by_cases h : e < 12 <;> simp [h]
  have geom : ∀ a < 8, (Vector.replicate 8 geomReset)[a]? = some 0x2020 := by decide
  exact ⟨fun _ => rfl, fun c => ⟨rfl, rfl, bind c⟩, fun _ => ⟨rfl, rfl, rfl⟩, fun _ => ⟨rfl, rfl, rfl, geom⟩, rfl, rfl, rfl, rfl,
    rfl, rfl, rfl, rfl⟩

/-! ### Registers -/

/-- A scalar field names s0 when its bits are zero. -/
theorem toNat_field_eq_zero (n : BitVec 5) : n.toNat = 0 ↔ n = 0 := ⟨fun e => BitVec.eq_of_toNat_eq e, fun e => e ▸ rfl⟩

theorem Ctx.getS_toNat (x : Ctx) (n : BitVec 5) : x.getS n.toNat = if n = 0 then 0 else (x.s[n.toNat]?).getD 0 := by
  simp only [Ctx.getS, toNat_field_eq_zero]

theorem Ctx.setS_toNat (x : Ctx) (n : BitVec 5) (w : Word) :
    x.setS n.toNat w = if n = 0 then x else { x with s := x.s.setIfInBounds n.toNat w } := by
  simp only [Ctx.setS, toNat_field_eq_zero]

/-- A write of a register sets it alone, and s0 never (R15). -/
theorem Ctx.getS_setS (x : Ctx) (n m : BitVec 5) (w : Word) :
    (x.setS n.toNat w).getS m.toNat = if m = 0 then 0 else if m = n then w else (x.s[m.toNat]?).getD 0 := by
  rw [Ctx.getS_toNat, Ctx.setS_toNat]
  by_cases hm : m = 0
  · rw [if_pos hm, if_pos hm]
  rw [if_neg hm, if_neg hm]
  by_cases hn : n = 0
  · rw [if_pos hn, if_neg (by rintro rfl; exact hm hn)]
  rw [if_neg hn]
  by_cases e : m = n
  · subst e
    simp [m.isLt]
  · have : n.toNat ≠ m.toNat := fun h => e (BitVec.eq_of_toNat_eq h.symm)
    simp [e, this]

/-! ### A scalar spread over the lanes -/

/-- The sum of which a spread scalar is made, over the first lanes. -/
def laneSum (w y k : Nat) : Nat := (List.range k).foldl (fun a j => a + y * 2 ^ (w * j)) 0

theorem laneSum_succ (w y k : Nat) : laneSum w y (k + 1) = laneSum w y k + y * 2 ^ (w * k) := by
  simp [laneSum, List.range_succ]

theorem laneSum_lt {w y : Nat} (h : y < 2 ^ w) (k : Nat) : laneSum w y k < 2 ^ (w * k) := by
  induction k with
  | zero => simp [laneSum]
  | succ k ih =>
    have : (y + 1) * 2 ^ (w * k) ≤ 2 ^ w * 2 ^ (w * k) := Nat.mul_le_mul_right _ h
    rw [laneSum_succ, Nat.mul_succ, Nat.add_comm (w * k) w, Nat.pow_add]
    linarith

/-- Every lane of a spread scalar is the scalar. -/
theorem laneSum_lane {w y k i : Nat} (h : y < 2 ^ w) (hi : i < k) : laneSum w y k / 2 ^ (w * i) % 2 ^ w = y := by
  induction k with
  | zero => omega
  | succ k ih =>
    rw [laneSum_succ]
    by_cases e : i = k
    · subst e
      rw [Nat.add_mul_div_right _ _ (Nat.two_pow_pos _), Nat.div_eq_of_lt (laneSum_lt h i), Nat.zero_add, Nat.mod_eq_of_lt h]
    · obtain ⟨d, rfl⟩ : ∃ d, k = i + (d + 1) := ⟨k - i - 1, by omega⟩
      have split : y * 2 ^ (w * (i + (d + 1))) = y * 2 ^ (w * d) * 2 ^ w * 2 ^ (w * i) := by ring
      rw [split, Nat.add_mul_div_right _ _ (Nat.two_pow_pos _), Nat.add_mul_mod_self_right, ih (by omega)]

theorem lane_broadcast {w i : Nat} (x : Word) (hd : 512 % w = 0) (hi : i < 512 / w) :
    lane w (broadcast w x) i = x.toNat % 2 ^ w := by
  have hx : x.toNat % 2 ^ w < 2 ^ w := Nat.mod_lt _ (Nat.two_pow_pos w)
  have hlt : laneSum w (x.toNat % 2 ^ w) (512 / w) < 2 ^ 512 := by
    have := laneSum_lt hx (512 / w)
    rwa [Nat.mul_div_cancel' (Nat.dvd_of_mod_eq_zero hd)] at this
  show ((BitVec.ofNat 512 (laneSum w (x.toNat % 2 ^ w) (512 / w))).extractLsb' (w * i) w).toNat = _
  rw [BitVec.extractLsb'_toNat, BitVec.toNat_ofNat, Nat.mod_eq_of_lt hlt, Nat.shiftRight_eq_div_pow, laneSum_lane hx hi]

/-- A vector source of the vector classes is read as a vector field is. -/
theorem rdAB_vector {n : BitVec 5} {s : State} (w : Nat) (hn : n.toNat < 16) (h : s.me.endOf (.v n.toNat) = none) :
    rdAB n w s = .ok (s.me.getV n.toNat, s) := by
  rw [rdAB, if_pos hn, rdV_plain h]

/-- A scalar source of the vector classes is spread over the lanes. -/
theorem rdAB_scalar {n : BitVec 5} {s : State} (w : Nat) (hn : 16 ≤ n.toNat) (h : s.me.endOf (.s n.toNat) = none) :
    rdAB n w s = .ok (broadcast w (s.me.getS n.toNat), s) := by
  rw [rdAB, if_neg (by omega), op_bind, rdS_plain h]
  rfl

/-- Settles O11: a field without a bound end is its register, and a write of it sets that register alone. -/
theorem registerOperands : Obligations.RegisterOperands := by
  intro n s w q
  refine ⟨fun h => ⟨?_, _, wrS_plain h, ?_, fun m hm => ?_⟩, fun h hn => ⟨rdV_plain h, wrV_plain h, fun width => rdAB_vector width hn h⟩,
    fun h hn width _ _ hd => ⟨_, rdAB_scalar width hn h, fun i hi => ?_⟩⟩
  · rw [Reads, rdS_plain h, Ctx.getS_toNat]
  · exact congrArg s.modMe (funext fun x => Ctx.setS_toNat x n w)
  · rw [Reads, rdS_plain hm, State.me_modMe, Ctx.getS_setS]
  · have : n ≠ 0 := by rintro rfl; simp at hn
    rw [lane_broadcast _ hd hi, Ctx.getS_toNat, if_neg this]

end Sys2Proof.Machine
end

section
/-! SUPPORT. A strand's load of one word of global space (R209, R216, R219), and the messages of a miss and a fault (R221, R384). -/

namespace Sys2Proof.Machine

/-! ### A load of one global address -/

theorem op_get (s : State) : (get : Op State) s = .ok (s, s) := rfl
theorem op_set (t s : State) : (set t : Op PUnit) s = .ok ((), t) := rfl
theorem op_map {α β : Type} (f : α → β) (m : Op α) (s : State) : (f <$> m) s = (m s).map (fun p => (f p.1, p.2)) := by
  show (m s).bind _ = _
  cases m s <;> rfl
theorem op_stop {α : Type} (e : Stop) (s : State) : (stop e : Op α) s = .error e := rfl
theorem except_bind_ok {α β : Type} (x : α) (f : α → Except Stop β) : (Except.ok x).bind f = f x := rfl
theorem except_bind_error {α β : Type} (e : Stop) (f : α → Except Stop β) : (Except.error e : Except Stop α).bind f = .error e := rfl

variable {s : State} {va : Word} {n : Nat} {e : TlbEntry}

theorem State.place_global {me : Nat} (h : va.toNat < 2 ^ 52) : s.place me va = some (.global va.toNat) := by
  have top : (va.extractLsb' 56 8).toNat = 0 := by
    rw [BitVec.extractLsb'_toNat, Nat.shiftRight_eq_div_pow, Nat.div_eq_of_lt (h.trans (by decide)), Nat.zero_mod]
  have low : va.extractLsb' 52 4 = 0 := by
    apply BitVec.eq_of_toNat_eq
    rw [BitVec.extractLsb'_toNat, Nat.shiftRight_eq_div_pow, Nat.div_eq_of_lt h]
    rfl
  simp [State.place, top, low]

theorem checkLanes_global (h : va.toNat < 2 ^ 52) (ha : va.toNat % n = 0) :
    checkLanes n [(0, va)] s = .ok ([(0, va, .global va.toNat)], s) := by
  have hc : s.check s.myTil va n = .ok (.global va.toNat) := by simp [State.check, State.place_global h, ha]
  simp [checkLanes, op_bind, op_get, State.place_global h, migrates, hc, op_pure, Except.bind]

/-- The one lane of a load, as the data TLB translates it. -/
def globalLane (s : State) (va : Word) (n : Nat) (e : TlbEntry) : Lane :=
  { i := 0, va := va, loc := e.pa va.toNat (dieOfTil s.myTil), n := n, own := false, global := true
    nc := entNc e.entry, repl := entRepl e.entry }

theorem State.lookup_dtlb {c a : Nat} (h : tlbFind (s.core (coreOf c)).dtlb (s.partOf (tilOf c)) a = some e) :
    s.lookup c false a = (some e, s) := by
  simp [State.lookup, h]

/-- A page without read permission posts a translation fault (R219, R221). -/
theorem loadScalar_fault {hint : Nat} (hc : ctxNo s.cur ≠ 15) (h : va.toNat < 2 ^ 52) (ha : va.toNat % n = 0)
    (hl : s.lookup s.cur false va.toNat = (some e, s)) (hr : entRd e.entry = false) :
    loadScalar n va hint s = .error (.fault .load 2 0 va) := by
  simp [loadScalar, resolve, op_bind, checkLanes_global h ha, translateLanes, except_bind_ok, op_get, hc, hl, permFault, hr, op_stop,
    except_bind_error]

/-- An address that no level of the TLB holds stops the strand with a miss (R219). -/
theorem loadScalar_miss {hint : Nat} (hc : ctxNo s.cur ≠ 15) (h : va.toNat < 2 ^ 52) (ha : va.toNat % n = 0)
    (hl : (s.lookup s.cur false va.toNat).1 = none) : loadScalar n va hint s = .error (.miss .load 0 va false) := by
  obtain ⟨o, u, hu⟩ : ∃ o u, s.lookup s.cur false va.toNat = (o, u) := ⟨_, _, rfl⟩
  rw [hu] at hl
  subst hl
  simp [loadScalar, resolve, op_bind, checkLanes_global h ha, translateLanes, except_bind_ok, op_get, hc, hu, op_stop,
    except_bind_error]

/-- With the permission the load is that of its lane. -/
theorem loadScalar_lane {hint : Nat} (hc : ctxNo s.cur ≠ 15) (h : va.toNat < 2 ^ 52) (ha : va.toNat % n = 0)
    (hl : s.lookup s.cur false va.toNat = (some e, s)) (hr : entRd e.entry = true) :
    loadScalar n va hint s = (loadLane hint true (globalLane s va n e) s).map (fun p => (natOfBytes p.1, p.2)) := by
  simp [loadScalar, resolve, op_bind, checkLanes_global h ha, translateLanes, except_bind_ok, op_get, hc, hl, permFault, hr, op_set,
    op_map, globalLane, Except.map]

theorem loadLane_global {l : Lane} {hint : Nat} (hx : s.me.tx.active = false) (hg : l.global = true) (hc : ctxNo s.cur ≠ 15) :
    loadLane hint true l s = globalLoad l hint (!s.me.mig) s := by
  simp [loadLane, op_bind, op_get, except_bind_ok, hx, hg, hc]

theorem natOfBytes_bytes (s : State) (a n : Nat) : natOfBytes (s.bytes a n) = s.rd a n := by
  induction n generalizing a with
  | zero => rfl
  | succ n ih => simp [State.bytes, State.rd, natOfBytes, ih]

section globalLoad
variable {l : Lane} {hint : Nat} {useL1 : Bool}

/-- A line that the L1 holds answers, and becomes the most recently used (R209). -/
theorem globalLoad_hit {c : CacheLine} (h1 : (s.til s.myTil).l1sz ≠ 0)
    (hf : (s.til s.myTil).l1.find? (fun x => x.line == l.loc / 64) = some c) :
    globalLoad l hint true s = .ok (c.get l.loc l.n,
      s.modTil s.myTil (fun t => { t with l1 := c :: t.l1.filter (fun x => x.line ≠ c.line) })) := by
  simp [globalLoad, op_bind, op_get, except_bind_ok, h1, hf, op_upd, op_map, Except.map]

/-- The L1 does not answer: it is not used, there is none, or it does not hold the line. -/
def Misses (s : State) (l : Lane) (useL1 : Bool) : Prop :=
  useL1 = false ∨ (s.til s.myTil).l1sz = 0 ∨ (s.til s.myTil).l1.find? (fun x => x.line == l.loc / 64) = none

theorem Misses.hit (h : Misses s l useL1) :
    (if useL1 ∧ (s.til s.myTil).l1sz ≠ 0 then (s.til s.myTil).l1.find? (fun x => x.line == l.loc / 64) else none) = none := by
  rcases h with h | h | h <;> simp [h]

/-- A poisoned location that the L1 does not hold raises POISON (R214). -/
theorem globalLoad_poison (h : Misses s l useL1) (hp : s.poisoned l.loc l.n = true) :
    globalLoad l hint useL1 s = .error (.trap Cause.poison l.i l.va) := by
  simp only [globalLoad, op_bind, op_get, except_bind_ok, h.hit, hp]
  rfl

/-- May the line of a load enter the L1 (R209, R214)? -/
def Fills (s : State) (l : Lane) (hint : Nat) (useL1 : Bool) : Prop :=
  useL1 ∧ (s.til s.myTil).l1sz ≠ 0 ∧ hint ≠ 2 ∧ !l.nc ∧ !(s.poisoned (l.loc / 64 * 64) 64)

/-- Memory answers, and its line enters the L1 if it may. -/
theorem globalLoad_fill (h : Misses s l useL1) (hp : s.poisoned l.loc l.n = false) (hf : Fills s l hint useL1) :
    globalLoad l hint useL1 s = .ok (s.bytes l.loc l.n,
      s.modTil s.myTil (fun t => { t with l1 := l1Fill (128 * t.l1sz) (hint == 1) t.l1 (s.lineNow (l.loc / 64)) })) := by
  simp only [globalLoad, op_bind, op_get, except_bind_ok, h.hit, hp]
  exact congrFun (if_pos hf) s

theorem globalLoad_past (h : Misses s l useL1) (hp : s.poisoned l.loc l.n = false) (hf : ¬Fills s l hint useL1) :
    globalLoad l hint useL1 s = .ok (s.bytes l.loc l.n, s) := by
  simp only [globalLoad, op_bind, op_get, except_bind_ok, h.hit, hp]
  exact congrFun (if_neg hf) s

end globalLoad

/-! ### Messages -/

/-- The number that the fields of a body make up. -/
def fieldSum : List (Nat × Nat × Nat) → Nat
  | [] => 0
  | f :: r => f.2.2 % 2 ^ (8 * f.2.1) * 2 ^ (8 * f.1) + fieldSum r

theorem foldl_fieldSum (fs : List (Nat × Nat × Nat)) (a : Nat) :
    fs.foldl (fun acc f => acc + f.2.2 % 2 ^ (8 * f.2.1) * 2 ^ (8 * f.1)) a = a + fieldSum fs := by
  induction fs generalizing a with
  | nil => rfl
  | cons f r ih => rw [List.foldl_cons, ih, fieldSum, Nat.add_assoc]

theorem fieldSum_append (l r : List (Nat × Nat × Nat)) : fieldSum (l ++ r) = fieldSum l + fieldSum r := by
  induction l with
  | nil => simp [fieldSum]
  | cons f l ih => simp [fieldSum, ih, Nat.add_assoc]

/-- The fields of a body lie one behind the other. -/
def Apart (fs : List (Nat × Nat × Nat)) : Prop := fs.Pairwise (fun f g => f.1 + f.2.1 ≤ g.1)

/-- Fields from an offset on make up a multiple of its weight. -/
theorem fieldSum_dvd {fs : List (Nat × Nat × Nat)} {lo : Nat} (h : ∀ f ∈ fs, lo ≤ f.1) : 2 ^ (8 * lo) ∣ fieldSum fs := by
  induction fs with
  | nil => exact Nat.dvd_zero _
  | cons f r ih =>
    have hf : lo ≤ f.1 := h f (by simp)
    exact Nat.dvd_add (Nat.dvd_mul_left_of_dvd (Nat.pow_dvd_pow 2 (by omega)) _) (ih (fun g hg => h g (by simp [hg])))

theorem field_lt (f : Nat × Nat × Nat) : f.2.2 % 2 ^ (8 * f.2.1) * 2 ^ (8 * f.1) < 2 ^ (8 * (f.1 + f.2.1)) := by
  have e : 2 ^ (8 * (f.1 + f.2.1)) = 2 ^ (8 * f.2.1) * 2 ^ (8 * f.1) := by rw [← Nat.pow_add]; congr 1; ring
  exact e ▸ Nat.mul_lt_mul_of_pos_right (Nat.mod_lt _ (Nat.two_pow_pos _)) (Nat.two_pow_pos _)

/-- Fields below an offset make up less than its weight. -/
theorem fieldSum_lt {fs : List (Nat × Nat × Nat)} {hi : Nat} (h : Apart fs) (hhi : ∀ f ∈ fs, f.1 + f.2.1 ≤ hi) :
    fieldSum fs < 2 ^ (8 * hi) := by
  induction fs with
  | nil => exact Nat.two_pow_pos _
  | cons f r ih =>
    obtain ⟨hf, hr⟩ := List.pairwise_cons.mp h
    obtain ⟨q, hq⟩ := fieldSum_dvd hf
    have hlt := ih hr (fun g hg => hhi g (by simp [hg]))
    obtain ⟨p, hp⟩ : ∃ p, hi = f.1 + f.2.1 + p := ⟨_, (Nat.add_sub_of_le (hhi f (by simp))).symm⟩
    have hpow : 2 ^ (8 * hi) = 2 ^ (8 * (f.1 + f.2.1)) * 2 ^ (8 * p) := by rw [hp, Nat.mul_add, Nat.pow_add]
    rw [hq, hpow] at hlt
    have hqp : q + 1 ≤ 2 ^ (8 * p) := Nat.lt_of_mul_lt_mul_left hlt
    calc fieldSum (f :: r) < 2 ^ (8 * (f.1 + f.2.1)) + 2 ^ (8 * (f.1 + f.2.1)) * q := by
          rw [fieldSum, hq]; exact Nat.add_lt_add_right (field_lt f) _
      _ = 2 ^ (8 * (f.1 + f.2.1)) * (q + 1) := by ring
      _ ≤ 2 ^ (8 * hi) := hpow ▸ Nat.mul_le_mul_left _ hqp

/-- What a body holds in a field of the list that it is made from. -/
theorem field_bodyOf {fs : List (Nat × Nat × Nat)} {f : Nat × Nat × Nat} (h : Apart fs) (hhi : ∀ g ∈ fs, g.1 + g.2.1 ≤ 32) (hf : f ∈ fs) :
    Body.field (bodyOf fs) f.1 f.2.1 = f.2.2 % 2 ^ (8 * f.2.1) := by
  obtain ⟨l, r, rfl⟩ := List.append_of_mem hf
  obtain ⟨hl, hfr, hlr⟩ := List.pairwise_append.mp h
  have low : fieldSum l < 2 ^ (8 * f.1) := fieldSum_lt hl (fun g hg => hlr g hg f (by simp))
  obtain ⟨q, hq⟩ : 2 ^ (8 * (f.1 + f.2.1)) ∣ fieldSum r := fieldSum_dvd (List.pairwise_cons.mp hfr).1
  have shape : fieldSum (l ++ f :: r) = fieldSum l + (f.2.2 % 2 ^ (8 * f.2.1) + 2 ^ (8 * f.2.1) * q) * 2 ^ (8 * f.1) := by
    rw [fieldSum_append, fieldSum, hq]; ring
  rw [Body.field, bodyOf, foldl_fieldSum, BitVec.toNat_ofNat, Nat.zero_add, Nat.mod_eq_of_lt (fieldSum_lt h hhi), shape,
    Nat.add_mul_div_right _ _ (Nat.two_pow_pos _), Nat.div_eq_of_lt low, Nat.zero_add, Nat.add_mul_mod_self_left, Nat.mod_mod]

/-- A wake of those who wait at a box touches contexts alone. -/
theorem State.ring_eq (s : State) (k b : Nat) : ∃ l, s.ring k b = { s with ctxs := l } := by
  unfold State.ring
  induction List.range 16 generalizing s with
  | nil => exact ⟨s.ctxs, rfl⟩
  | cons j r ih =>
    rw [List.foldl_cons]
    obtain ⟨l, hl⟩ := ih (if (s.ctx (k * 16 + j)).wait = .box b then s.modCtx (k * 16 + j) (fun x => { x with wait := .none }) else s)
    refine ⟨l, hl.trans ?_⟩
    split <;> rfl

theorem State.core_ring (s : State) (k b j : Nat) : (s.ring k b).core j = s.core j := by
  obtain ⟨l, hl⟩ := State.ring_eq s k b
  rw [hl]
  rfl

theorem State.ctx_ring {k b e : Nat} (h : (s.ctx e).wait ≠ .box b) : (s.ring k b).ctx e = s.ctx e := by
  unfold State.ring
  induction List.range 16 generalizing s with
  | nil => rfl
  | cons j r ih =>
    rw [List.foldl_cons]
    split
    · rename_i hj
      have ne : e ≠ k * 16 + j := by rintro rfl; exact h hj
      rw [ih (by rwa [State.ctx_modCtx_ne _ _ _ _ ne]), State.ctx_modCtx_ne _ _ _ _ ne]
    · exact ih h

theorem Core.box_setBox (k : Core) (b : Nat) (q : List Msg) : (k.setBox b q).box b = q := by
  unfold Core.setBox Core.box
  split
  · rfl
  split <;> rfl

section send
variable {k b : Nat} {m : Msg}

/-- A message touches the core of its box, and contexts that wait at the box. -/
theorem State.send_eq (s : State) (k b : Nat) (m : Msg) :
    ∃ l x, s.send k b m = { s with ctxs := l, cores := tset s.cores k x } := by
  unfold State.send
  split
  · obtain ⟨l, hl⟩ := State.ring_eq (s.modCore k (fun x => x.setBox b (x.box b ++ [m]))) k b
    exact ⟨l, _, hl⟩
  · exact ⟨s.ctxs, _, rfl⟩

theorem State.ctx_send {e : Nat} (h : (s.ctx e).wait ≠ .box b) : (s.send k b m).ctx e = s.ctx e := by
  unfold State.send
  split
  · exact State.ctx_ring h
  · rfl

theorem State.core_send_ne {j : Nat} (h : j ≠ k) : (s.send k b m).core j = s.core j := by
  obtain ⟨l, x, e⟩ := State.send_eq s k b m
  rw [e]
  exact State.core_setCore_ne s k j x h

/-- A message for a box with room comes to its end. -/
theorem State.box_send (h : s.boxRoom k b = true) : ((s.send k b m).core k).box b = (s.core k).box b ++ [m] := by
  rw [State.send, if_pos h, State.core_ring, State.core_modCore, Core.box_setBox]

end send

theorem header_type {type : Nat} (len til core ctx : Nat) :
    (header type len til core ctx).extractLsb' 0 8 = BitVec.ofNat 8 type := by
  apply BitVec.eq_of_toNat_eq
  rw [BitVec.extractLsb'_toNat, header, BitVec.toNat_ofNat, BitVec.toNat_ofNat, Nat.shiftRight_zero]
  omega

/-- A strand posts a message and waits: it alone changes, but for those who wait at the box. -/
theorem State.ctx_wait_send {c k b : Nat} {m : Msg} {w : Wait} (hw : w ≠ .box b) :
    let t := (s.modCtx c (fun x => { x with wait := w })).send k b m
    t.ctx c = { s.ctx c with wait := w } ∧ (∀ e, e ≠ c → (s.ctx e).wait ≠ .box b → t.ctx e = s.ctx e) ∧ t.mem = s.mem ∧
      t.tils = s.tils ∧ ∀ j, j ≠ k → t.core j = s.core j := by
  intro t
  obtain ⟨l, x, e⟩ := State.send_eq (s.modCtx c (fun x => { x with wait := w })) k b m
  refine ⟨?_, fun e he hb => ?_, by rw [show t = _ from e]; rfl, by rw [show t = _ from e]; rfl, fun j hj => State.core_send_ne hj⟩
  · rw [State.ctx_send (by rwa [State.ctx_modCtx]), State.ctx_modCtx]
  · have ne := State.ctx_modCtx_ne s c e (fun x => { x with wait := w }) he
    rw [State.ctx_send (by rwa [ne]), ne]

/-- A message comes to a box with room, with the fields that fit. -/
theorem posted_send {k b len til core ctx type : Nat} {fs gs : List (Nat × Nat × Nat)} (h : s.boxRoom k b = true) (ha : Apart fs)
    (h32 : ∀ g ∈ fs, g.1 + g.2.1 ≤ 32) (hsub : ∀ g ∈ gs, g ∈ fs ∧ g.2.2 < 2 ^ (8 * g.2.1)) :
    Posted s (s.send k b { header := header type len til core ctx, body := bodyOf fs }) k b type gs :=
  ⟨_, State.box_send h, header_type .., fun g hg => by rw [field_bodyOf ha h32 (hsub g hg).1, Nat.mod_eq_of_lt (hsub g hg).2]⟩

theorem kindCode_eq (kind : Acc) : kindCode kind = match kind with
    | .load => 0
    | .store => 1
    | .fetch => 2
    | .atomic => 3
    | .stm => 4 := by
  cases kind <;> rfl

theorem kindCode_lt (kind : Acc) : kindCode kind < 256 := by cases kind <;> decide

theorem Misses.of_l1sz_or_mig {l : Lane} (h : (s.til s.myTil).l1sz = 0 ∨ s.me.mig = true) : Misses s l (!s.me.mig) :=
  h.elim (fun h => .inr (.inl h)) (fun h => .inl (by simp [h]))

/-- A load of a page that the data TLB holds, with read permission. -/
theorem loadScalar_of_globalLoad {u : State} {bs : List Byte} (hx : s.me.tx.active = false) (hc : ctxNo s.cur ≠ 15)
    (h : va.toNat < 2 ^ 52) (ha : va.toNat % n = 0) (hl : s.lookup s.cur false va.toNat = (some e, s)) (hr : entRd e.entry = true)
    (hg : globalLoad (globalLane s va n e) 0 (!s.me.mig) s = .ok (bs, u)) : loadScalar n va 0 s = .ok (natOfBytes bs, u) := by
  rw [loadScalar_lane hc h ha hl hr, loadLane_global hx rfl hc, hg]
  rfl

/-- An instruction that is ready stops where its body does, and its context takes what the stop asks (R220). -/
theorem perform_error {i : Instr} {body : Op Flow} {r : State} {x : Stop} (h : Ready i s r) (hb : body r = .error x) :
    perform i body s = .next (s.onStop (wordOf i) x) := by
  simp only [perform, performRaw, op_bind, h.1, except_bind_ok, h.2, hb]

theorem State.onStop_miss {w : IWord} {k : Acc} {lane : Nat} {quiet : Bool} :
    s.onStop w (.miss k lane va quiet) = s.postMiss s.cur k lane va quiet := by
  unfold State.onStop
  split <;> rfl

/-- An ld whose address no TLB level holds posts a miss, and nothing else of it happens (R219). -/
theorem exec_ld_miss {d a : BitVec 5} {k : BitVec 14} {r t : State} {x : Word} (hr : Ready (.ld d a k) s r) (hx : Reads a r x t)
    (hm : loadScalar 8 (x + BitVec.ofInt 64 k.toInt) 0 t = .error (.miss .load 0 va false)) :
    exec (.ld d a k) s = .next (s.postMiss s.cur .load 0 va false) := by
  have hj : addrJ a k r = .ok (x + BitVec.ofInt 64 k.toInt, t) := by
    rw [addrJ, op_bind, show rdS a r = .ok (x, t) from hx]
    rfl
  refine (perform_error (x := .miss .load 0 va false) hr ?_).trans (congrArg _ State.onStop_miss)
  simp [thenNext, op_bind, hj, except_bind_ok, hm, except_bind_error]

/-- Settles O25: the load is its one lane's, and a miss and a fault are messages of the strand. -/
theorem globalAccess : Obligations.GlobalAccess := by
  refine ⟨?_, ?_, ?_⟩
  · intro s va n e hx hc h ha _ hl pa line lines loads
    have hl := State.lookup_dtlb hl
    have load {u : State} (hr : entRd e.entry = true)
        (hg : globalLoad (globalLane s va n e) 0 (!s.me.mig) s = .ok (s.bytes pa n, u)) : loads (s.rd pa n) u :=
      natOfBytes_bytes s pa n ▸ loadScalar_of_globalLoad hx hc h ha hl hr hg
    refine ⟨loadScalar_fault hc h ha hl, fun hr hno hp => ?past, fun hr h1 hm => ⟨fun c hf => ?hit, fun hn hp => ⟨fun hno => ?keep,
      fun hnc hpl => ?fill⟩, fun hn hp => ?poison⟩⟩
    case past =>
      exact load hr (globalLoad_past (.of_l1sz_or_mig hno) hp (fun hf => hno.elim hf.2.1 (fun hm => by simpa [hm] using hf.1)))
    case hit =>
      refine loadScalar_of_globalLoad hx hc h ha hl hr ?_
      rw [hm]
      exact globalLoad_hit h1 hf
    case keep =>
      refine load hr (globalLoad_past (.inr (.inr hn)) hp (fun ⟨_, _, _, hnc, hpl⟩ => ?_))
      have hnc : (!entNc e.entry) = true := hnc
      have hpl : (!s.poisoned (pa / 64 * 64) 64) = true := hpl
      rcases hno with hno | hno
      · simp [hno] at hnc
      · simp [hno] at hpl
    case fill =>
      have hnc : (!entNc e.entry) = true := by simp [hnc]
      have hpl : (!s.poisoned (pa / 64 * 64) 64) = true := by simp [hpl]
      exact load hr (globalLoad_fill (.inr (.inr hn)) hp ⟨by simp [hm], h1, by decide, hnc, hpl⟩)
    case poison =>
      rw [loadScalar_lane hc h ha hl hr, loadLane_global hx rfl hc, globalLoad_poison (.inr (.inr hn)) hp]
      rfl
  · intro d a k s r t x hr hx hc va h ha hl
    exact exec_ld_miss hr hx (loadScalar_miss hc h ha hl)
  · intro s c lane cause kind va quiet hc hlane hcause code leaves who dest
    have hcode : code = kindCode kind := (kindCode_eq kind).symm
    have hk := kindCode_lt kind
    have hsid : (s.sid c).toNat < 2 ^ 32 := (s.sid c).isLt
    refine ⟨State.ctx_wait_send (by simp), fun hb => posted_send (s := s.modCtx c _) hb ?_ ?_ ?_, State.ctx_wait_send (by simp),
      fun hb => posted_send (s := s.modCtx c _) hb ?_ ?_ ?_⟩
    · simp [Apart]
    · simp
    · simp [who, hcode]
      exact ⟨hsid, hk, va.isLt, (s.ctx c).pc.isLt⟩
    · simp [Apart]
    · simp
    · simp [who, hcode]
      exact ⟨hsid, hk, va.isLt, (s.ctx c).pc.isLt, hcause, by omega, by unfold tilOf; omega⟩

end Sys2Proof.Machine
end

section
/-! SUPPORT. What befalls a strand from outside (R78, R176, R193 to R196, R222, R382, R437): what a change of a key leaves of the
other strands, and what one message, reply or deadline does to its own. -/

namespace Sys2Proof.Machine

variable {s t u : State}

/-! ### Tables whose entries are mapped -/

theorem tget_map {α β : Type} (l : List (Nat × α)) (g : Nat × α → Nat × β) (hg : ∀ p, (g p).1 = p.1) (n : Nat) :
    tget (l.map g) n = (tget l n).map (fun x => (g (n, x)).2) := by
  induction l with
  | nil => rfl
  | cons p r ih =>
    have hp : g p = (p.1, (g p).2) := Prod.ext (hg p) rfl
    rw [List.map_cons, hp]
    simp only [tget, ih]
    split
    · rename_i e
      subst e
      rfl
    · rfl

theorem mem_of_tget {α : Type} {l : List (Nat × α)} {n : Nat} {x : α} (h : tget l n = some x) : (n, x) ∈ l := by
  induction l with
  | nil => exact absurd h (by simp [tget])
  | cons p r ih =>
    simp only [tget] at h
    split at h
    · rename_i e
      cases h
      simp [e]
    · exact List.mem_cons_of_mem _ (ih h)

theorem lt_of_mem {α : Type} {p : Nat × α} {r : List (Nat × α)} (h : tableOk (p :: r) = true) : ∀ q ∈ r, p.1 < q.1 := by
  induction r generalizing p with
  | nil => simp
  | cons b r ih =>
    obtain ⟨hb, hlt⟩ := tableOk_cons.mp h
    have hlt := hlt b (by simp)
    intro q hq
    rcases List.mem_cons.mp hq with rfl | hq
    · exact hlt
    · exact hlt.trans (ih hb q hq)

/-- A table in order lists no number twice. -/
theorem nodup_of_tableOk {α : Type} {l : List (Nat × α)} (h : tableOk l = true) : (l.map Prod.fst).Nodup := by
  induction l with
  | nil => simp
  | cons p r ih =>
    refine List.nodup_cons.mpr ⟨fun hm => ?_, ih (tableOk_cons.mp h).1⟩
    obtain ⟨q, hq, e⟩ := List.mem_map.mp hm
    exact absurd (lt_of_mem h q hq) (by omega)

theorem tget_of_mem {α : Type} {l : List (Nat × α)} {n : Nat} {x : α} (h : tableOk l = true) (hm : (n, x) ∈ l) : tget l n = some x := by
  induction l with
  | nil => simp at hm
  | cons p r ih =>
    simp only [tget]
    rcases List.mem_cons.mp hm with rfl | hm
    · simp
    · rw [if_neg (by have := lt_of_mem h _ hm; simp only at this; omega), ih (tableOk_cons.mp h).1 hm]

/-- A context whose state is not that of reset is listed. -/
theorem State.tget_ctxs {c : Nat} (h : s.ctx c ≠ Ctx.reset c) : tget s.ctxs c = some (s.ctx c) := by
  cases e : tget s.ctxs c with
  | none => exact absurd (by rw [State.ctx, e]; rfl) h
  | some x => rw [State.ctx, e]; rfl

theorem State.ctx_mapCtxs {g : Nat × Ctx → Nat × Ctx} (hg : ∀ p, (g p).1 = p.1) (hr : ∀ c, (g (c, Ctx.reset c)).2 = Ctx.reset c) (c : Nat) :
    ({ s with ctxs := s.ctxs.map g } : State).ctx c = (g (c, s.ctx c)).2 := by
  show (tget (s.ctxs.map g) c).getD (Ctx.reset c) = _
  rw [tget_map _ _ hg, State.ctx]
  cases tget s.ctxs c with
  | none => exact (hr c).symm
  | some x => rfl

/-! ### What a change of a key leaves of a strand -/

/-- A strand that a change of a key befalls goes on where it is: its wait may end, and its attempt may be marked (R180, R185). -/
def Ctx.Stirred (x y : Ctx) : Prop :=
  ∃ w m, y = { x with wait := w, tx := { x.tx with marked := m } } ∧ (x.tx.marked = true → m = true) ∧
    (w = x.wait ∨ ∃ til, x.wait = .tokenHold til)

theorem Ctx.Stirred.refl (x : Ctx) : x.Stirred x := ⟨x.wait, x.tx.marked, rfl, id, .inl rfl⟩

theorem Ctx.Stirred.trans {x y z : Ctx} (h : x.Stirred y) (h' : y.Stirred z) : x.Stirred z := by
  obtain ⟨w, m, rfl, hm, hw⟩ := h
  obtain ⟨w', m', rfl, hm', hw'⟩ := h'
  refine ⟨w', m', rfl, hm' ∘ hm, ?_⟩
  rcases hw with hw | hw
  · exact hw ▸ hw'
  · exact .inr hw

section
variable {x y : Ctx} (h : x.Stirred y)
include h
theorem Ctx.Stirred.life : y.life = x.life := by obtain ⟨_, _, rfl, -⟩ := h; rfl
theorem Ctx.Stirred.pc : y.pc = x.pc := by obtain ⟨_, _, rfl, -⟩ := h; rfl
theorem Ctx.Stirred.regs : y.s = x.s := by obtain ⟨_, _, rfl, -⟩ := h; rfl
theorem Ctx.Stirred.home : y.home = x.home := by obtain ⟨_, _, rfl, -⟩ := h; rfl
theorem Ctx.Stirred.gen : y.gen = x.gen := by obtain ⟨_, _, rfl, -⟩ := h; rfl
theorem Ctx.Stirred.active : y.tx.active = x.tx.active := by obtain ⟨_, _, rfl, -⟩ := h; rfl
theorem Ctx.Stirred.sole : y.tx.sole = x.tx.sole := by obtain ⟨_, _, rfl, -⟩ := h; rfl
theorem Ctx.Stirred.reads : y.tx.reads = x.tx.reads := by obtain ⟨_, _, rfl, -⟩ := h; rfl
theorem Ctx.Stirred.marked (hm : x.tx.marked = true) : y.tx.marked = true := by
  obtain ⟨_, _, rfl, mono, -⟩ := h
  exact mono hm
end

/-- What a change of a key leaves: memory, cores and partitions as they are, strands where they are, and every device step that is
due. -/
structure State.Calm (s t : State) : Prop where
  mem : t.mem = s.mem
  cores : t.cores = s.cores
  part : ∀ n, (t.til n).part = (s.til n).part
  agenda : ∀ i ∈ s.agenda, i ∈ t.agenda
  ctx : ∀ c, (s.ctx c).Stirred (t.ctx c)

namespace State.Calm

theorem refl (s : State) : s.Calm s := ⟨rfl, rfl, fun _ => rfl, fun _ h => h, fun _ => .refl _⟩

theorem trans (h : s.Calm t) (h' : t.Calm u) : s.Calm u :=
  ⟨h'.mem.trans h.mem, h'.cores.trans h.cores, fun n => (h'.part n).trans (h.part n), fun i hi => h'.agenda i (h.agenda i hi),
    fun c => (h.ctx c).trans (h'.ctx c)⟩

theorem foldl {α : Type} {f : State → α → State} {l : List α} (hf : ∀ (s : State) x, s.Calm (f s x)) : s.Calm (l.foldl f s) := by
  induction l generalizing s with
  | nil => exact .refl s
  | cons x r ih => exact (hf s x).trans ih

theorem ite {c : Prop} [Decidable c] {a b : State} (ha : s.Calm a) (hb : s.Calm b) : s.Calm (if c then a else b) := by
  split <;> assumption

theorem later {i : Instr} : s.Calm (s.later i) :=
  ⟨rfl, rfl, fun _ => rfl, fun _ h => List.mem_append_left _ h, fun _ => .refl _⟩

theorem laterOnce {i : Instr} : s.Calm (s.laterOnce i) := .ite (.refl s) .later

theorem wakeCtx {c : Nat} : s.Calm (s.wakeCtx c) := .laterOnce

theorem setTil {n : Nat} {x : Tiller} (h : x.part = (s.til n).part) : s.Calm (s.setTil n x) := by
  refine ⟨rfl, rfl, fun m => ?_, fun _ h => h, fun _ => .refl _⟩
  by_cases e : m = n
  · rw [e, State.til_setTil, h]
  · rw [State.til_setTil_ne _ _ _ _ e]

theorem modTil {n : Nat} {f : Tiller → Tiller} (h : (f (s.til n)).part = (s.til n).part) : s.Calm (s.modTil n f) := setTil h

theorem withdraw {c : Nat} : s.Calm (s.withdraw c) := modTil rfl

theorem dropThirst {c : Nat} : s.Calm (s.dropThirst c) := ⟨rfl, rfl, fun _ => rfl, fun _ h => h, fun _ => .refl _⟩

theorem mapCtxs {g : Nat × Ctx → Nat × Ctx} (hg : ∀ p, (g p).1 = p.1) (hr : ∀ c, (g (c, Ctx.reset c)).2 = Ctx.reset c)
    (hs : ∀ p : Nat × Ctx, p.2.Stirred (g p).2) : s.Calm { s with ctxs := s.ctxs.map g } :=
  ⟨rfl, rfl, fun _ => rfl, fun _ h => h, fun c => State.ctx_mapCtxs (s := s) hg hr c ▸ hs (c, s.ctx c)⟩

theorem wakeAt {n : Nat} {key : Key} : s.Calm (s.wakeAt n key) := .foldl (fun _ _ => .wakeCtx)

theorem markAt {n : Nat} {key : Key} : s.Calm (s.markAt n key) := by
  refine mapCtxs (fun p => by dsimp only; split <;> rfl) (fun c => ?_) (fun p => ?_)
  · have : (Ctx.reset c).tx.active = false := rfl
    simp [this]
  · dsimp only
    split
    · exact ⟨p.2.wait, true, rfl, fun _ => rfl, .inl rfl⟩
    · exact .refl _

theorem notify {key : Key} : s.Calm (s.notify key) := by
  unfold State.notify
  split
  · refine .trans (.setTil ?_) (.foldl (fun _ _ => .ite (.refl _) .laterOnce))
    rfl
  · refine .trans ?_ (.foldl (fun _ _ => .laterOnce))
    exact .ite (.refl s) ⟨rfl, rfl, fun _ => rfl, fun _ h => h, fun _ => .refl _⟩

theorem changeKey {key : Key} : s.Calm (s.changeKey key) := by
  unfold State.changeKey
  split
  · exact .trans (.trans .markAt .wakeAt) .notify
  · exact .notify

theorem freeHeld {n : Nat} : s.Calm (s.freeHeld n) := by
  refine .trans ?_ (.foldl (fun _ _ => .ite (.refl _) .laterOnce))
  refine mapCtxs (fun p => by split <;> rfl) (fun c => by simp [Ctx.reset]) (fun p => ?_)
  split
  · rename_i h
    exact ⟨.none, p.2.tx.marked, rfl, id, .inr ⟨n, h⟩⟩
  · exact .refl _

theorem dropToken {c : Nat} : s.Calm (s.dropToken c) := by
  unfold State.dropToken
  extract_lets til t _ _ s'
  split
  · refine .trans (.trans (.setTil ?_) .freeHeld) .changeKey
    rfl
  · have hs : s.Calm s' := .setTil rfl
    exact .ite (.trans hs .changeKey) hs

end State.Calm

/-! ### Restarts of attempts (R170, R177) -/

theorem State.ctx_congr {c : Nat} (h : t.ctxs = s.ctxs) : t.ctx c = s.ctx c := by rw [State.ctx, State.ctx, h]

/-- A context whose choice to issue is withdrawn: the cycle counts as ELIGIBLE. -/
def Ctx.unissued (x : Ctx) : Ctx :=
  let n := x.cnt.setIfInBounds 16 ((x.cnt[16]?).getD 0 - 1)
  { x with cnt := n.setIfInBounds 17 ((n[17]?).getD 0 + 1) }

theorem State.withdrawIssue_eq (s : State) (c : Nat) :
    s.withdrawIssue c = if s.issue = some c then { s.modCtx c Ctx.unissued with issue := none } else s := rfl

theorem State.ctx_withdrawIssue (s : State) (c : Nat) : ∃ n, (s.withdrawIssue c).ctx c = { s.ctx c with cnt := n } := by
  rw [State.withdrawIssue_eq]
  split
  · exact ⟨_, (State.ctx_congr (s := s.modCtx c Ctx.unissued) rfl).trans (State.ctx_modCtx s c _)⟩
  · exact ⟨_, rfl⟩

/-- A restart leaves memory, the device steps that are due, and the other strands. -/
structure State.Restarts (c : Nat) (s t : State) : Prop where
  mem : t.mem = s.mem
  agenda : ∀ i ∈ s.agenda, i ∈ t.agenda
  ctx : ∀ e, e ≠ c → (s.ctx e).Stirred (t.ctx e)

namespace State.Restarts
variable {c : Nat}

theorem trans (h : s.Restarts c t) (h' : t.Restarts c u) : s.Restarts c u :=
  ⟨h'.mem.trans h.mem, fun i hi => h'.agenda i (h.agenda i hi), fun e he => (h.ctx e he).trans (h'.ctx e he)⟩

theorem of_calm (h : s.Calm t) : s.Restarts c t := ⟨h.mem, h.agenda, fun e _ => h.ctx e⟩

theorem modCtx (f : Ctx → Ctx) : s.Restarts c (s.modCtx c f) :=
  ⟨rfl, fun _ h => h, fun e he => (State.ctx_modCtx_ne s c e f he).symm ▸ .refl _⟩

theorem withdrawIssue : s.Restarts c (s.withdrawIssue c) := by
  rw [State.withdrawIssue_eq]
  split
  · exact .trans (.modCtx Ctx.unissued) ⟨rfl, fun _ h => h, fun e _ => State.ctx_congr (s := s.modCtx c Ctx.unissued) rfl ▸ .refl _⟩
  · exact .of_calm (.refl s)

end State.Restarts

theorem State.restart_restarts (c : Nat) (f : Tx → Tx) : s.Restarts c (s.restart c f) := by
  unfold State.restart
  exact .trans (.trans (.modCtx _) .withdrawIssue) (.of_calm .dropToken)

/-- A strand whose attempt has been restarted with CONFLICT (R167, R170). -/
structure Ctx.Conflicted (x y : Ctx) : Prop where
  active : y.tx.active = false
  pc : y.pc = x.tx.txbpc
  cause : y.tx.cause = 1
  nconf : y.tx.nconf = Nat.min 4 (x.tx.nconf + 1)
  reads : y.tx.reads = []

theorem Ctx.Conflicted.of_stirred {x y z w : Ctx} (h : x.Stirred y) (hc : y.Conflicted z) (h' : z.Stirred w) : x.Conflicted w := by
  obtain ⟨_, _, rfl, -⟩ := h
  obtain ⟨_, _, rfl, -⟩ := h'
  exact ⟨hc.active, hc.pc, hc.cause, hc.nconf, hc.reads⟩

theorem State.restartConflict_conflicted (s : State) (c : Nat) : (s.ctx c).Conflicted ((s.restartConflict c).ctx c) := by
  unfold State.restartConflict State.restart
  obtain ⟨n, hn⟩ := State.ctx_withdrawIssue (s.modCtx c (fun x => { x with
    tx := { ({ x.tx.undo 1 with nconf := Nat.min 4 (x.tx.nconf + 1) } : Tx) with rst := true }, pc := x.tx.txbpc, wait := x.wait.undone
    lastIssue := some (s.restartCycle c) })) c
  refine .of_stirred (.refl _) ?_ (State.Calm.ctx .dropToken c)
  rw [hn, State.ctx_modCtx]
  exact ⟨rfl, rfl, rfl, rfl, rfl⟩

/-! ### Change notices (R176, R195, R437) -/

/-- The attempt of a context of the tiller holds the key in its read set. -/
def State.Holds (s : State) (til : Nat) (key : Key) (c : Nat) : Prop :=
  tilOf c = til ∧ (s.ctx c).tx.active = true ∧ key ∈ (s.ctx c).tx.reads

theorem State.mem_holders {til c : Nat} {key : Key} (h : s.tablesOk) : c ∈ s.holders til key ↔ s.Holds til key c := by
  constructor
  · intro hc
    obtain ⟨⟨e, x⟩, he, rfl⟩ := List.mem_map.mp hc
    obtain ⟨hm, hx⟩ := List.mem_filter.mp he
    have hctx : s.ctx e = x := by rw [State.ctx, tget_of_mem h.1 hm]; rfl
    simp only [Bool.and_eq_true, beq_iff_eq, List.contains_iff_mem] at hx
    exact ⟨hx.1.1, hctx ▸ hx.1.2, hctx ▸ hx.2⟩
  · rintro ⟨ht, ha, hk⟩
    have hl : tget s.ctxs c = some (s.ctx c) := State.tget_ctxs (fun e => by rw [e] at ha; exact nomatch ha)
    refine List.mem_map.mpr ⟨(c, s.ctx c), List.mem_filter.mpr ⟨mem_of_tget hl, ?_⟩, rfl⟩
    simp [ht, ha, hk]

theorem State.holders_nodup {til : Nat} {key : Key} (h : s.tablesOk) : (s.holders til key).Nodup :=
  (nodup_of_tableOk h.1).sublist (List.filter_sublist.map _)

/-- The step that a notice takes with a strand that holds the key: the one with the token goes on (R437). -/
def State.upset (s : State) (c : Nat) : State := if (s.ctx c).tx.sole then s else s.restartConflict c

theorem State.upset_restarts (c : Nat) : s.Restarts c (s.upset c) := by
  unfold State.upset
  split
  · exact .of_calm (.refl s)
  · exact State.restart_restarts c _

theorem State.foldl_upset_frame (l : List Nat) :
    (l.foldl State.upset s).mem = s.mem ∧ (∀ i ∈ s.agenda, i ∈ (l.foldl State.upset s).agenda) ∧
      ∀ c ∉ l, (s.ctx c).Stirred ((l.foldl State.upset s).ctx c) := by
  induction l generalizing s with
  | nil => exact ⟨rfl, fun _ h => h, fun _ _ => .refl _⟩
  | cons e r ih =>
    obtain ⟨hm, ha, hc⟩ := ih (s := s.upset e)
    have h := State.upset_restarts (s := s) e
    refine ⟨hm.trans h.mem, fun i hi => ha i (h.agenda i hi), fun c hl => ?_⟩
    obtain ⟨hne, hr⟩ := not_or.mp (fun h => hl (List.mem_cons.mpr h))
    exact (h.ctx c hne).trans (hc c hr)

/-- A strand that holds the key is met once: with the token it goes on, without it restarts. -/
theorem State.foldl_upset_holder {l : List Nat} {c : Nat} (hn : l.Nodup) (h : c ∈ l) :
    ((s.ctx c).tx.sole = true → (s.ctx c).Stirred ((l.foldl State.upset s).ctx c)) ∧
      ((s.ctx c).tx.sole = false → (s.ctx c).Conflicted ((l.foldl State.upset s).ctx c)) := by
  obtain ⟨a, b, rfl⟩ := List.append_of_mem h
  have hcb : c ∉ b := (List.nodup_cons.mp (List.nodup_append.mp hn).2.1).1
  have hca : c ∉ a := fun ha => (List.nodup_append.mp hn).2.2 c ha c (by simp) rfl
  rw [List.foldl_append, List.foldl_cons]
  have before := (State.foldl_upset_frame (s := s) a).2.2 c hca
  have after := (State.foldl_upset_frame (s := (a.foldl State.upset s).upset c) b).2.2 c hcb
  have sole : ((a.foldl State.upset s).ctx c).tx.sole = (s.ctx c).tx.sole := before.sole
  constructor <;> intro hs <;> rw [State.upset, sole, hs] at after ⊢
  · exact before.trans after
  · exact .of_stirred before (State.restartConflict_conflicted _ c) after

theorem State.notice_eq (s : State) (til : Nat) (key : Key) :
    s.notice til key = (s.holders til key).foldl State.upset ((s.markAt til key).wakeAt til key) := rfl

theorem State.Calm.genOf (h : s.Calm t) (c : Nat) : t.genOf c = s.genOf c := by
  have home : t.homeOf c = s.homeOf c := by rw [State.homeOf, (h.ctx c).home, State.homeOf]
  rw [State.genOf, home, (h.ctx _).gen, State.genOf]

theorem State.mem_agenda_wakeCtx (s : State) (c : Nat) : .strandWake (c, s.genOf c) ∈ (s.wakeCtx c).agenda := by
  unfold State.wakeCtx State.laterOnce
  split
  · assumption
  · exact List.mem_append_right _ (by simp)

theorem State.mem_agenda_foldl_wakeCtx {l : List Nat} {c : Nat} (h : c ∈ l) :
    .strandWake (c, s.genOf c) ∈ (l.foldl State.wakeCtx s).agenda := by
  induction l generalizing s with
  | nil => simp at h
  | cons e r ih =>
    rw [List.foldl_cons]
    rcases List.mem_cons.mp h with rfl | hr
    · exact (State.Calm.foldl (s := s.wakeCtx c) fun _ _ => .wakeCtx).agenda _ (State.mem_agenda_wakeCtx s c)
    · exact (State.Calm.wakeCtx (s := s) (c := e)).genOf c ▸ ih hr

theorem State.marked_markAt {til c : Nat} {key : Key} (h : s.Holds til key c) : ((s.markAt til key).ctx c).tx.marked = true := by
  obtain ⟨ht, ha, hk⟩ := h
  have any : (s.ctx c).tx.reads.any (fun k => regKey k == regKey key) = true := List.any_eq_true.mpr ⟨key, hk, by simp⟩
  unfold State.markAt
  rw [State.ctx_mapCtxs]
  · simp [ht, ha, any]
  · intro p
    split <;> rfl
  · intro e
    have : (Ctx.reset e).tx.active = false := rfl
    simp [this]

/-- A change notice wakes those registered for its key, restarts the attempts that hold it, marks the one with the token, and
leaves the others where they are (R437). -/
theorem notice_effect (s : State) (c til : Nat) (key : Key) (h : s.tablesOk) : ∃ t, exec (.changeNotice til key) s = .next t ∧
    t.mem = s.mem ∧ (∀ x ∈ (s.til til).watchers key, .strandWake (x, s.genOf x) ∈ t.agenda) ∧
    (s.Holds til key c → (s.ctx c).tx.sole = false → (s.ctx c).Conflicted (t.ctx c)) ∧
    (s.Holds til key c → (s.ctx c).tx.sole = true → (s.ctx c).Stirred (t.ctx c) ∧ (t.ctx c).tx.marked = true) ∧
    (¬s.Holds til key c → (s.ctx c).Stirred (t.ctx c)) := by
  have mark : s.Calm (s.markAt til key) := .markAt
  have wake : (s.markAt til key).Calm ((s.markAt til key).wakeAt til key) := .wakeAt
  have begin_ := mark.trans wake
  obtain ⟨hmem, hag, hctx⟩ := State.foldl_upset_frame (s := (s.markAt til key).wakeAt til key) (s.holders til key)
  have holder (hc : s.Holds til key c) := State.foldl_upset_holder (s := (s.markAt til key).wakeAt til key) (State.holders_nodup h)
    ((State.mem_holders h).mpr hc)
  have hstir := begin_.ctx c
  rw [hstir.sole] at holder
  refine ⟨_, rfl, hmem.trans begin_.mem, fun x hx => hag _ ?_, fun hc hs => ?_, fun hc hs => ⟨hstir.trans ((holder hc).1 hs), ?_⟩,
    fun hc => hstir.trans (hctx c (fun hm => hc ((State.mem_holders h).mp hm)))⟩
  · rw [← mark.genOf x]
    exact State.mem_agenda_foldl_wakeCtx hx
  · exact .of_stirred hstir ((holder hc).2 hs) (.refl _)
  · exact ((holder hc).1 hs).marked ((wake.ctx c).marked (State.marked_markAt hc))

end Sys2Proof.Machine
end

section
/-! SUPPORT. Single strands: wakes, replies, the watchdog, messages that were held, and migrants (R78, R222, R255 to R259, R382,
R402). -/

namespace Sys2Proof.Machine

variable {s : State} {c : Nat}

/-! ### Starts, wakes and replies -/

theorem State.wake_asleep (hl : (s.ctx c).life = .running)
    (hw : ∃ keys, (s.ctx c).wait = .retry keys ∨ ∃ cause, (s.ctx c).wait = .sleep cause keys) :
    s.wake c = (s.withdraw c).modCtx c (fun x => { x with wait := .none, slept := 0 }) := by
  obtain ⟨keys, h | ⟨cause, h⟩⟩ := hw <;> simp [State.wake, hl, h]

/-- A strand that wakes has no key registered any more (R193). -/
theorem State.not_mem_withdraw (s : State) (c : Nat) : ∀ w ∈ ((s.withdraw c).til (tilOf c)).wake, c ∉ w.ctxs := by
  intro w hw
  rw [State.withdraw, State.til_modTil] at hw
  obtain ⟨v, -, rfl⟩ := List.mem_map.mp (List.mem_of_mem_filter hw)
  simp

theorem State.runsIn_running (h : (s.ctx c).life = .running) : s.runsIn c = c := by
  simp [State.runsIn, h]

/-- A reply to a fault of a running strand of the tiller is taken by its action (R222). -/
theorem State.answer_fault {kind : Acc} {lane : Nat} {va : Word} {body : Body} (hw : (s.ctx c).wait = .fault kind lane va)
    (hl : (s.ctx c).life = .running) (hc : cidOfSid (BitVec.ofNat 32 (Body.field body 0 4)) = c)
    (hs : s.sidLive (BitVec.ofNat 32 (Body.field body 0 4)) = true) (h0 : Body.field body 5 11 = 0) :
    s.answer (tilOf c) body = if 1 < Body.field body 4 1 then s.stale (tilOf c) else
      let t := s.modCtx c (fun x => { x with wait := .none })
      if Body.field body 4 1 = 0 then t else t.takeTrap c Cause.addr lane va (if kind = .fetch then 0 else t.wordAt c) := by
  simp only [State.answer, hc, State.runsIn_running hl, hl, hs, h0, hw]
  simp

/-! ### The watchdog (R402) -/

/-- A strand that stops at a trap (R381). -/
def Ctx.trapped (x : Ctx) : Ctx := { x with life := .stopped, wait := .none, slept := 0 }

/-- A trap of a user's strand at home stops it, and its message comes to the steward (R381). -/
theorem State.takeTrap_home {cause aux : Nat} {va : Word} {word : IWord} (hp : privileged c = false) (hh : (s.ctx c).home = none) :
    s.takeTrap c cause aux va word = (s.modCtx c Ctx.trapped).send (coreOf c) 0
      { header := headerFrom c 1, body := s.trapBody c cause aux va word (s.ctx c).pc } := by
  simp [State.takeTrap, hp, State.homeOf, State.goHome, hh]
  rfl

theorem State.core_congr {s t : State} {k : Nat} (h : t.cores = s.cores) : t.core k = s.core k := by rw [State.core, State.core, h]

theorem State.boxRoom_congr {s t : State} {k b : Nat} (h : t.cores = s.cores) : t.boxRoom k b = s.boxRoom k b := by
  rw [State.boxRoom, State.boxRoom, State.core_congr h]

theorem Posted.of_cores {s t u : State} {k b type : Nat} {fs : List (Nat × Nat × Nat)} (h : t.cores = s.cores) (hp : Posted t u k b type fs) :
    Posted s u k b type fs := by
  obtain ⟨m, hbox, hm⟩ := hp
  exact ⟨m, by rw [hbox, State.core_congr h], hm⟩

theorem State.sid_congr {s t : State} (hh : (t.ctx c).home = (s.ctx c).home) (h0 : (s.ctx c).home = none) (hg : (t.ctx c).gen = (s.ctx c).gen)
    (hp : (t.til (tilOf c)).part = (s.til (tilOf c)).part) : t.sid c = s.sid c := by
  simp only [State.sid, State.homeOf, State.partOf, hh, h0, Option.getD_none, hg, hp]

/-- The message of a trap names the strand, the cause and the pc (R381, R384). -/
theorem State.takeTrap_posted {cause aux : Nat} {va : Word} {word : IWord} (hp : privileged c = false) (hh : (s.ctx c).home = none)
    (hc : cause < 256) (room : s.boxRoom (coreOf c) 0 = true) :
    Posted s (s.takeTrap c cause aux va word) (coreOf c) 0 1 [(0, 4, (s.sid c).toNat), (4, 1, cause), (8, 8, (s.ctx c).pc.toNat)] := by
  rw [State.takeTrap_home hp hh]
  refine posted_send (s := s.modCtx c Ctx.trapped) room ?_ ?_ ?_
  · simp [Apart]
  · simp
  · simp only [List.mem_cons, List.not_mem_nil, or_false, forall_eq_or_imp, forall_eq, true_or, or_true, true_and]
    exact ⟨(s.sid c).isLt, hc, (s.ctx c).pc.isLt⟩

theorem State.takeTrap_ctx {cause aux : Nat} {va : Word} {word : IWord} (hp : privileged c = false) (hh : (s.ctx c).home = none) :
    (s.takeTrap c cause aux va word).ctx c = (s.ctx c).trapped := by
  rw [State.takeTrap_home hp hh, State.ctx_send, State.ctx_modCtx]
  rw [State.ctx_modCtx, Ctx.trapped]
  simp

/-- The strand of a context has no more of what it waited for, but for the lease. -/
def State.unwaited (s : State) (c : Nat) : State :=
  (((s.withdraw c).dropToken c).dropThirst c).modCtx c (fun x => { x with wait := .none, slept := 0 })

/-- Nor does it ask for the lease. -/
def State.expired (s : State) (c : Nat) : State :=
  (s.unwaited c).modTil (tilOf c) (fun t => { t with lease := { t.lease with
    waiting := t.lease.waiting.filter (· ≠ c), lost := t.lease.lost.filter (· ≠ c) } })

theorem State.expired_frame (s : State) (c : Nat) : (s.expired c).cores = s.cores ∧
    (∀ n, ((s.expired c).til n).part = (s.til n).part) ∧ ∃ y, (s.ctx c).Stirred y ∧ (s.expired c).ctx c = { y with wait := .none, slept := 0 } := by
  have drop : s.Calm (((s.withdraw c).dropToken c).dropThirst c) := .trans (.trans .withdraw .dropToken) .dropThirst
  have leave : (s.unwaited c).Calm (s.expired c) := .modTil rfl
  refine ⟨leave.cores.trans drop.cores, fun n => (leave.part n).trans (drop.part n), _, drop.ctx c, ?_⟩
  rw [State.expired, State.ctx_modTil, State.unwaited, State.ctx_modCtx]

/-- The watchdog stops a user's strand, with its message to the steward. -/
theorem watchdog_user (h : s.overdue c = true) (hh : (s.ctx c).home = none) (hp : privileged c = false) :
    ∃ t, exec (.watchdogExpire c) s = .next t ∧ (t.ctx c).life = .stopped ∧ (t.ctx c).s = (s.ctx c).s ∧
      (t.ctx c).pc = (s.ctx c).pc ∧ (s.boxRoom (coreOf c) 0 = true →
        Posted s t (coreOf c) 0 1 [(0, 4, (s.sid c).toNat), (4, 1, 13), (8, 8, (s.ctx c).pc.toNat)]) := by
  obtain ⟨hcores, hpart, y, hy, hctx⟩ := State.expired_frame s c
  have home : ((s.expired c).ctx c).home = (s.ctx c).home := by rw [hctx]; exact hy.home
  have gen : ((s.expired c).ctx c).gen = (s.ctx c).gen := by rw [hctx]; exact hy.gen
  have pc : ((s.expired c).ctx c).pc = (s.ctx c).pc := by rw [hctx]; exact hy.pc
  have regs : ((s.expired c).ctx c).s = (s.ctx c).s := by rw [hctx]; exact hy.regs
  have run : exec (.watchdogExpire c) s = .next ((s.expired c).takeTrap c Cause.watchdog 0 0 ((s.unwaited c).wordAt c)) := by
    show execWatchdogExpire c s = _
    unfold execWatchdogExpire
    rw [h, hp]
    exact congrArg Host.Outcome.next ((if_neg (by decide)).trans (if_neg (by decide)))
  have hx := State.takeTrap_ctx (s := s.expired c) (cause := Cause.watchdog) (aux := 0) (va := 0) (word := (s.unwaited c).wordAt c) hp (home.trans hh)
  refine ⟨_, run, by rw [hx]; rfl, by rw [hx]; exact regs, by rw [hx]; exact pc, fun room => .of_cores hcores ?_⟩
  rw [← pc, ← State.sid_congr home hh gen (hpart _)]
  exact State.takeTrap_posted hp (home.trans hh) (by decide) ((State.boxRoom_congr hcores).trans room)

theorem watchdog_privileged (h : s.overdue c = true) (hp : privileged c = true) : exec (.watchdogExpire c) s =
    .next ((s.modCtx c (fun x => { x with slept := 0 })).event 5 ((s.til (tilOf c)).part.getD 0xFF)) := by
  show execWatchdogExpire c s = _
  unfold execWatchdogExpire
  rw [h, hp]
  rfl

/-! ### Messages that were held (R382) -/

/-- The messages that a core's senders hold for a box. -/
def Core.heldFor (x : Core) (b : Nat) : List (Nat × Msg) := x.held.filter (fun h => h.1 == b)

/-- What the delivery of messages that are held comes to: they enter the box as far as it has room, and with none held any more
those who wait to post go on. -/
structure Delivers (k b : Nat) (s t : State) : Prop where
  box : (t.core k).box b = (s.core k).box b ++ (((s.core k).heldFor b).take (boxCap b - ((s.core k).box b).length)).map (·.2)
  held : (t.core k).heldFor b = ((s.core k).heldFor b).drop (boxCap b - ((s.core k).box b).length)
  others : (t.core k).held.filter (fun h => h.1 != b) = (s.core k).held.filter (fun h => h.1 != b)
  wait : ∀ c, (s.ctx c).wait = .post k b → (t.ctx c).wait =
    if ((s.core k).heldFor b).length < boxCap b - ((s.core k).box b).length then .none else .post k b

/-- With no message held, those who wait to post into a box with room go on. -/
theorem delivers_none {k b : Nat} (h : (s.core k).heldFor b = []) (room : ((s.core k).box b).length < boxCap b) :
    Delivers k b s { s with ctxs := s.ctxs.map (fun p => (p.1, if p.2.wait = .post k b then { p.2 with wait := .none } else p.2)) } := by
  refine ⟨by rw [h]; simp; rfl, by rw [h]; simp; exact h, rfl, fun c hc => ?_⟩
  rw [h, List.length_nil, if_pos (by omega)]
  have hx := State.ctx_mapCtxs (s := s) (g := fun p => (p.1, if p.2.wait = .post k b then { p.2 with wait := .none } else p.2))
    (fun _ => rfl) (fun e => by simp [Ctx.reset]) c
  rw [hx]
  simp [hc]

/-- A box without room takes nothing. -/
theorem delivers_full {k b : Nat} (full : boxCap b ≤ ((s.core k).box b).length) : Delivers k b s s := by
  have : boxCap b - ((s.core k).box b).length = 0 := by omega
  refine ⟨by simp [this], by simp [this], rfl, fun c hc => by simp [this, hc]⟩

/-- The first message held for a box enters it. -/
def State.boxIn (s : State) (k b : Nat) (h : Nat × Msg) : State :=
  (s.setCore k { ((s.core k).setBox b ((s.core k).box b ++ [h.2])) with held := (s.core k).held.erase h }).ring k b

theorem State.core_boxIn (s : State) (k b : Nat) (h : Nat × Msg) : ((s.boxIn k b h).core k).box b = (s.core k).box b ++ [h.2] ∧
    ((s.boxIn k b h).core k).held = (s.core k).held.erase h := by
  rw [State.boxIn, State.core_ring, State.core_setCore]
  exact ⟨Core.box_setBox _ _ _, rfl⟩

/-- It is the first of those held for the box, and leaves the messages for other boxes. -/
theorem State.heldFor_boxIn {k b : Nat} {h : Nat × Msg} (hf : (s.core k).held.find? (fun h => h.1 == b) = some h) :
    (s.core k).heldFor b = h :: ((s.boxIn k b h).core k).heldFor b ∧
      ((s.boxIn k b h).core k).held.filter (fun h => h.1 != b) = (s.core k).held.filter (fun h => h.1 != b) := by
  obtain ⟨hb, a, r, hl, ha⟩ := List.find?_eq_some_iff_append.mp hf
  have hna : h ∉ a := fun hm => by simpa [hb] using ha h hm
  have hfa : a.filter (fun h => h.1 == b) = [] := List.filter_eq_nil_iff.mpr (fun x hx => by simpa using ha x hx)
  have herase : (s.core k).held.erase h = a ++ r := by rw [hl, List.erase_append_right _ hna, List.erase_cons_head]
  rw [Core.heldFor, Core.heldFor, (State.core_boxIn s k b h).2, herase, hl]
  simp only [List.filter_append, hfa, List.filter_cons, hb, bne, List.nil_append, if_true, Bool.not_true, Bool.false_eq_true, if_false,
    and_self]

theorem Delivers.boxIn {k b : Nat} {t : State} {h : Nat × Msg} (hf : (s.core k).held.find? (fun h => h.1 == b) = some h)
    (room : ((s.core k).box b).length < boxCap b) (hd : Delivers k b (s.boxIn k b h) t) : Delivers k b s t := by
  obtain ⟨mine, others⟩ := State.heldFor_boxIn hf
  have hbox := (State.core_boxIn s k b h).1
  have hn : boxCap b - ((s.core k).box b).length = boxCap b - ((s.core k).box b ++ [h.2]).length + 1 := by
    rw [List.length_append, List.length_singleton]; omega
  refine ⟨?_, ?_, hd.others.trans others, fun c hc => ?_⟩
  · rw [hd.box, hbox, mine, hn, List.take_succ_cons, List.map_cons, List.append_assoc]; rfl
  · rw [hd.held, hbox, mine, hn, List.drop_succ_cons]
  · have hw : ((s.boxIn k b h).ctx c).wait = .post k b := by
      rw [State.boxIn, State.ctx_ring]
      · exact hc
      · show (s.ctx c).wait ≠ _
        rw [hc]; simp
    rw [hd.wait c hw, hbox, mine, hn, List.length_cons]
    simp only [Nat.add_lt_add_iff_right]

theorem State.delivers (s : State) (k b f : Nat) (hf : ((s.core k).heldFor b).length < f) : Delivers k b s (s.deliver k b f) := by
  induction f generalizing s with
  | zero => omega
  | succ f ih =>
    rw [State.deliver]
    split
    next hfind =>
      have hnil : (s.core k).heldFor b = [] := List.filter_eq_nil_iff.mpr (fun x hx => List.find?_eq_none.mp hfind x hx)
      split
      next room => exact delivers_none hnil room
      next full => exact delivers_full (Nat.le_of_not_lt full)
    next h hfind =>
      split
      next room =>
        refine .boxIn hfind room (ih (s.boxIn k b h) ?_)
        rw [(State.heldFor_boxIn hfind).1, List.length_cons] at hf
        omega
      next full => exact delivers_full (Nat.le_of_not_lt full)

end Sys2Proof.Machine
end

section
/-! SUPPORT. Migrants: landing, refusal, recall and kill (R255 to R259). -/

namespace Sys2Proof.Machine

variable {s : State} {c til : Nat} {m : Migrant}

/-- A landing without one of those that arrive. -/
def State.putLanding (s : State) (til : Nat) (l : Landing) (arriving : List Migrant) : State :=
  s.modTil til (fun t => { t with landing := { l with arriving := arriving } })

/-- Where a migrant that has arrived goes, unless it is killed or its core is being saved. -/
theorem State.arriveMigrant_eq {before rest : List Migrant} (hl : (s.til til).landing.arriving = before ++ m :: rest) (hm : m ∉ before)
    (hb : ∀ x ∈ before, (s.core (til * 4)).cycle.toNat < x.due.toNat) (hd : m.due.toNat ≤ (s.core (til * 4)).cycle.toNat)
    (hdo : m.doomed = false) (hk : (s.ctx m.home).life ≠ .killing)
    (hs : tilOf m.home ≠ til → (s.core (coreOf m.home)).saving = none) :
    let l := (s.til til).landing
    let put := fun l => s.putLanding til l (before ++ rest)
    s.arriveMigrant til =
      if tilOf m.home = til then
        if (s.ctx m.home).life = .saved then put { l with queue := l.queue ++ [m] } else (put l).enter m m.home
      else if m.ticket ≠ 0 ∧ m.ticket ∈ l.reserved then
        put { l with reserved := l.reserved.filter (fun n => n ≠ m.ticket), queue := l.queue ++ [m] }
      else if l.queue.length + l.reserved.length < 16 ∧ l.tserve = l.tnext then put { l with queue := l.queue ++ [m] }
      else (put l).refuse til m := by
  intro l put
  have first : s.landing til = some m := by
    rw [State.landing, hl]
    exact List.find?_eq_some_iff_append.mpr ⟨by simpa using hd, before, rest, rfl, fun x hx => by simpa using hb x hx⟩
  have herase : l.arriving.erase m = before ++ rest := by rw [hl, List.erase_append_right _ hm, List.erase_cons_head]
  have saving : ¬(tilOf m.home ≠ til ∧ (s.core (coreOf m.home)).saving.isSome = true) := fun h => by simp [hs h.1] at h
  unfold State.arriveMigrant
  simp only [first, hdo, hk, saving, List.contains_iff_mem]
  rw [if_neg (by simp), if_neg not_false, herase]
  rfl

/-- A migrant that is refused waits where it was with the next ticket. -/
theorem State.ctx_refuse (s : State) (til : Nat) (m : Migrant) : ∃ a, (s.refuse til m).ctx m.src =
    { s.ctx m.src with life := .running, wait := .ticket, ticket := (s.til til).landing.tnext, refused := some til, away := a } := by
  unfold State.refuse
  by_cases e : m.src = m.home
  · rw [← e, State.ctx_modCtx, State.ctx_modCtx]
    exact ⟨_, rfl⟩
  · rw [State.ctx_modCtx_ne _ _ _ _ e, State.ctx_modCtx]
    exact ⟨_, rfl⟩

theorem State.refuse_effect (s : State) (til : Nat) (m : Migrant) : let n := (s.til til).landing.tnext
    let t := s.refuse til m
    (t.ctx m.src).wait = .ticket ∧ (t.ctx m.src).ticket = n ∧ (t.ctx m.src).refused = some til ∧
      (t.til til).landing.tnext = (if n = BitVec.allOnes 32 then 1 else n + 1) ∧ (t.til til).migref = (s.til til).migref + 1 := by
  intro n t
  obtain ⟨a, hx⟩ := State.ctx_refuse s til m
  have hy : t.til til = { s.til til with
      landing := { (s.til til).landing with tnext := nextTicket n }, migref := (s.til til).migref + 1 } := by
    simp only [t, State.refuse, State.til_modCtx, State.til_modTil]
    rfl
  rw [hx, hy]
  exact ⟨rfl, rfl, rfl, rfl, rfl⟩

/-! ### A migrant at home -/

/-- The registers that a migrant brings: s1 to s15. -/
theorem getElem?_regs (ws : List Word) (v : Vector Word 32) (n j : Nat) (hn : n ≤ 15) (hj : j < n) :
    ((List.range n).foldl (fun v j => v.setIfInBounds (j + 1) ((ws[j]?).getD 0)) v)[j + 1]? = some ((ws[j]?).getD 0) := by
  induction n with
  | zero => omega
  | succ n ih =>
    rw [List.range_succ, List.foldl_append, List.foldl_cons, List.foldl_nil, Vector.getElem?_setIfInBounds]
    by_cases e : n + 1 = j + 1
    · obtain rfl : n = j := by omega
      rw [if_pos rfl, if_pos (by omega)]
    · rw [if_neg e]
      exact ih (by omega) (by omega)

theorem State.enter_home (s : State) (m : Migrant) : ∃ x g, (s.enter m m.home).ctx m.home =
    { m.into x with away := none, gen := g } := by
  unfold State.enter
  rw [if_pos rfl, State.ctx_modCtx]
  exact ⟨_, _, rfl⟩

theorem State.enter_effect (s : State) (m : Migrant) : let t := s.enter m m.home
    (t.ctx m.home).life = .running ∧ (t.ctx m.home).pc = m.pc ∧ (t.ctx m.home).away = none ∧
      ∀ j, j < 15 → (t.ctx m.home).getS (j + 1) = (m.s[j]?).getD 0 := by
  intro t
  obtain ⟨x, g, e⟩ := State.enter_home s m
  rw [e]
  refine ⟨rfl, rfl, rfl, fun j hj => ?_⟩
  rw [Ctx.getS, if_neg (by omega)]
  exact (congrArg (Option.getD · 0) (getElem?_regs m.s x.s 15 j (le_refl _) hj) :)

/-! ### Recall and kill -/

/-- The one holder of a called ticket is all that a recall finds. -/
theorem filter_unique {x : Ctx} {l : List (Nat × Ctx)} {p : Nat × Ctx → Bool} (ht : tableOk l = true) (hc : tget l c = some x)
    (hp : p (c, x) = true) (hu : ∀ e y, tget l e = some y → p (e, y) = true → e = c) : l.filter p = [(c, x)] := by
  have hm : (c, x) ∈ l.filter p := List.mem_filter.mpr ⟨mem_of_tget hc, hp⟩
  have all : ∀ q ∈ l.filter p, q = (c, x) := fun q hq => by
    obtain ⟨hq, hpq⟩ := List.mem_filter.mp hq
    have hg := tget_of_mem ht hq
    obtain rfl := hu q.1 q.2 hg hpq
    exact Prod.ext rfl (Option.some.inj (hg.symm.trans hc))
  have nodup : (l.filter p).Nodup := ((nodup_of_tableOk ht).of_map _).filter _
  match hf : l.filter p, hm, all, nodup with
  | [q], _, all, _ => rw [all q (by simp)]
  | q :: r :: _, _, all, nodup => exact absurd ((all q (by simp)).trans (all r (by simp)).symm) (by simp at nodup; tauto)

/-- The migrant that a strand which leaves becomes. -/
def State.departing (s : State) (c target : Nat) (recalled : Bool) : Migrant :=
  { home := s.homeOf c, sid := s.sid c
    flags := BitVec.ofNat 32 ((if (s.ctx c).af then 1 else 0) + (if (s.ctx c).ef then 2 else 0) + (s.ctx c).fstat.toNat * 2 ^ 16)
    s := (List.range 15).map (fun j => (s.ctx c).getS (j + 1)), pc := (s.ctx c).pc, ticket := (s.ctx c).ticket, frame := (s.ctx c).frame
    src := c, target := target, recalled := recalled, doomed := (s.ctx (s.homeOf c)).life == .killing
    due := s.landsAt (tilOf c) target }

/-- The strand of a context has left it. -/
def Ctx.departed (x : Ctx) : Ctx := { x with life := .migrated, wait := .none, slept := 0 }

/-- The home context of a strand that has left for a tiller. -/
def Ctx.sentAway (x : Ctx) (target : Nat) : Ctx :=
  { x with life := if x.life = .killing then .killing else .migrated, away := some target }

theorem State.depart_eq (s : State) (c target : Nat) (r : Bool) : s.depart c target r =
    (((s.modTil target (fun t => { t with landing := { t.landing with arriving := t.landing.arriving ++ [s.departing c target r] } })).modCtx
      c Ctx.departed).modCtx (s.homeOf c) (fun x => x.sentAway target)).tick := rfl

theorem State.depart_effect (s : State) (c target : Nat) (r : Bool) : let t := s.depart c target r
    (t.ctx c).life = .migrated ∧ (t.ctx (s.homeOf c)).away = some target ∧
      (t.til target).landing.arriving = (s.til target).landing.arriving ++ [s.departing c target r] := by
  intro t
  have ht : t = _ := State.depart_eq s c target r
  rw [ht, State.ctx_tick, State.ctx_tick, State.til_tick, State.til_modCtx, State.til_modCtx, State.til_modTil]
  refine ⟨?_, by rw [State.ctx_modCtx]; rfl, rfl⟩
  by_cases e : c = s.homeOf c
  · rw [← e, State.ctx_modCtx, State.ctx_modCtx]
    rfl
  · rw [State.ctx_modCtx_ne _ _ _ _ e, State.ctx_modCtx]
    rfl

/-- A migrant on an idle package lands after the time of R256. -/
theorem State.landsAt_quiet (src target : Nat) (h : s.quiet = true) :
    let cross := dieOfTil src ^^^ dieOfTil target
    let far := fun (a b : Nat) => (a - b) + (b - a)
    let hops := far (src / 16 % 16) (target / 16 % 16) + far (src % 16) (target % 16)
    s.landsAt src target = (s.core (src * 4)).cycle +
      BitVec.ofNat 64 ((if cross = 0 then 16 else if cross = 3 then 206 else 166) + 4 * hops) := by
  intro cross far hops
  have cycles : meshCycles src target - 8 = (if cross = 0 then 16 else if cross = 3 then 206 else 166) + 4 * hops := by
    show (if cross = 0 then 24 else if cross = 3 then 214 else 174) + 4 * hops - 8 = _
    split
    · omega
    · split <;> omega
  rw [State.landsAt, h, cycles]
  rfl

theorem State.killMigrant_hosted {x : Ctx} {k cause : Nat} (hl : (s.ctx c).life = .killing)
    (hf : s.ctxs.find? (fun p => p.2.home == some c && p.2.life == .running) = some (k, x)) :
    s.killMigrant c cause = ((s.cancelTicket k).leaveHost k).migrantDead c cause := by
  simp only [State.killMigrant, hl, hf]
  rfl

/-- The one strand whose ticket has been called is sent again, with its ticket and registers (R256, R257). -/
theorem migrantRecall_effect {x : Ctx} (ht : s.tablesOk) (hc : tget s.ctxs c = some x) (hw : x.wait = .ticket) (hr : x.refused = some til)
    (hk : x.ticket ∈ (s.til til).landing.reserved)
    (hu : ∀ e y, tget s.ctxs e = some y → y.wait = .ticket → y.refused = some til → y.ticket ∈ (s.til til).landing.reserved → e = c) :
    exec (.migrantRecall til) s = .next (s.depart c til false) := by
  have called := filter_unique (p := fun p => p.2.wait == .ticket && p.2.refused == some til &&
    (s.til til).landing.reserved.contains p.2.ticket) ht.1 hc (by simp [hw, hr, hk]) (fun e y he hp => by
      simp only [Bool.and_eq_true, beq_iff_eq, List.contains_iff_mem] at hp
      exact hu e y he hp.1.1 hp.1.2 hp.2)
  show execMigrantRecall til s = _
  simp only [execMigrantRecall, called]
  rfl

/-- A wake of a strand that sleeps ends its sleep, and withdraws its keys (R193). -/
theorem strandWake_effect (hl : (s.ctx c).life = .running)
    (hw : ∃ keys, (s.ctx c).wait = .retry keys ∨ ∃ cause, (s.ctx c).wait = .sleep cause keys) :
    ∃ t, exec (.strandWake (c, s.genOf c)) s = .next t ∧ t.ctx c = { s.ctx c with wait := .none, slept := 0 } ∧
      ∀ w ∈ (t.til (tilOf c)).wake, c ∉ w.ctxs := by
  have go : exec (.strandWake (c, s.genOf c)) s = .next (s.wake c) :=
    congrArg Host.Outcome.next (if_neg (by simp [hl]))
  rw [State.wake_asleep hl hw] at go
  refine ⟨_, go, ?_, ?_⟩
  · rw [State.ctx_modCtx, State.withdraw, State.ctx_modTil]
  · rw [State.til_modCtx]
    exact State.not_mem_withdraw s c

/-- Settles O56: each step of a strand is the operation of its own that it names. -/
theorem strandSteps : Obligations.StrandSteps := by
  intro s c til k b key
  refine ⟨fun hl hw => ?start, fun g hg => ?stale, strandWake_effect, fun ht => ?notice, fun kind lane act va body hw hl hc hs hact h0 => ?reply,
    watchdog_user, watchdog_privileged, fun _ => ?deliver, fun before m rest => ?land, State.refuse_effect s til, fun m => ?enter,
    fun x ht hc hw hr hk hu => ?called, fun hl x hf => congrArg Host.Outcome.next (State.killMigrant_hosted hl hf)⟩
  case start => exact congrArg Host.Outcome.next (if_pos ⟨hl, hw⟩)
  case stale => exact congrArg Host.Outcome.next (if_pos hg)
  case notice =>
    obtain ⟨t, run, mem, wakes, conflicted, marked, others⟩ := notice_effect s c til key ht
    refine ⟨t, run, mem, fun w hw hk x hx => wakes x ?_, fun w hw hk x hx => wakes x ?_, fun h hs => ?_, fun h hs => ?_, fun h => ?_⟩
    · exact List.mem_append_left _ (List.mem_flatMap.mpr ⟨w, List.mem_filter.mpr ⟨hw, by simp [hk]⟩, hx⟩)
    · exact List.mem_append_right _ (List.mem_flatMap.mpr ⟨w, List.mem_filter.mpr ⟨hw, by simp [hk]⟩, hx⟩)
    · obtain ⟨active, pc, cause, nconf, reads⟩ := conflicted h hs
      exact ⟨active, pc, cause, nconf, reads⟩
    · obtain ⟨stirred, hm⟩ := marked h hs
      exact ⟨stirred.active.trans h.2.1, hm, stirred.pc, stirred.reads⟩
    · exact ⟨(others h).active, (others h).pc, (others h).reads, (others h).life⟩
  case reply =>
    have go : exec (.faultReply (tilOf c) body) s = .next (s.answer (tilOf c) body) := rfl
    rw [go, State.answer_fault hw hl hc hs h0, hact]
    exact ⟨fun h => by subst h; rfl, fun h => by subst h; rfl, fun h => by rw [if_pos h]; rfl⟩
  case deliver =>
    have d := s.delivers k b ((s.core k).held.length + 1) (Nat.lt_succ_of_le (List.length_filter_le _ _))
    exact ⟨_, rfl, d.box, d.held, d.others, d.wait c⟩
  case land =>
    intro l now free put then_ hl hm hb hd hdo hk
    have go (hs : tilOf m.home ≠ til → (s.core (coreOf m.home)).saving = none) := State.arriveMigrant_eq hl hm hb hd hdo hk hs
    have run {u : State} (h : s.arriveMigrant til = u) : exec (.migrantLand til) s = .next (then_ u) := by rw [← h]; rfl
    refine ⟨fun hh => ⟨fun hv => run ?_, fun hv => run ?_⟩, fun hh hs => ⟨fun h0 hr => run ?_, fun h0 hf => run ?_, fun h0 hf => run ?_⟩⟩
    · rw [go (absurd hh), if_pos hh, if_neg hv]; rfl
    · rw [go (absurd hh), if_pos hh, if_pos hv]; rfl
    · rw [go (fun _ => hs), if_neg hh, if_pos ⟨h0, hr⟩]; rfl
    · rw [go (fun _ => hs), if_neg hh, if_neg (fun h => h.1 h0), if_pos hf]; rfl
    · rw [go (fun _ => hs), if_neg hh, if_neg (fun h => h.1 h0), if_neg hf]; rfl
  case enter => exact fun _ => State.enter_effect s m
  case called =>
    obtain ⟨life, away, arriving⟩ := State.depart_effect s c til false
    have hx : s.ctx c = x := by rw [State.ctx, hc]; rfl
    refine ⟨migrantRecall_effect ht hc hw hr hk hu, life, away, _, arriving, rfl, rfl, congrArg Ctx.ticket hx, congrArg Ctx.pc hx, rfl, ?_,
      State.landsAt_quiet (tilOf c) til⟩
    rw [← hx]
    rfl

end Sys2Proof.Machine
end

section
/-! SUPPORT. A charge to a partition that ends one of its strands without a message to the steward (R404). -/

namespace Sys2Proof.Machine

/-- A migrant of context 1 under way from context 2, of which context 2 knows nothing. -/
def strayed : Migrant :=
  { home := 1, sid := 0, flags := 0, s := [], pc := 0, ticket := 0, frame := .clear, src := 2, target := 0
    recalled := false, doomed := false, due := 0 }

/-- The strand of context 2, which runs at home. -/
def bystander : Ctx := { Ctx.reset 2 with life := .running }

/-- Partition 0 has tiller 0, where the strand of context 1 is about to land. -/
def straying : State :=
  { State.reset with
    ctxs := [(1, { Ctx.reset 1 with life := .migrated }), (2, bystander)]
    tils := [(0, { Tiller.reset with part := some 0, landing := { Landing.reset with arriving := [strayed] } })] }

/-- Has a steward of core 0 a message that names context 2? -/
def reportsBystander : Host.Outcome State Fault Refusal → Bool
  | .next t => (t.mail 0).any (fun m => Body.field m.body 0 4 == (straying.sid 2).toNat % 2 ^ 32)
  | _ => false

/-- An error that is charged to partition 0 kills the strand of context 1 first, which frees the context that its migrant has left:
context 2 is FREE before its own turn comes. -/
theorem straying_unreported : reportsBystander (exec (.uncorrectableError (2 ^ 52 + 0)) straying) = false := by decide +kernel

/-- Refutes O59: the migrant under way from context 2 is killed with context 1, and its source is made FREE, so that the strand
that runs there ends without the exit message which the statement has its steward get (R404). -/
theorem not_dieSteps : ¬ Obligations.DieSteps := by
  intro h
  obtain ⟨-, -, -, -, -, -, -, -, -, -, -, charge, -⟩ := h straying 0 0 0 (2 ^ 52 + 0) (by decide)
  obtain ⟨t, _, run, -, -, -, killed⟩ := charge 0 (.inr ⟨rfl, by decide⟩)
  obtain ⟨-, m, hm, -, sid, -⟩ := killed 2 bystander ⟨rfl, rfl, rfl, rfl⟩ (by decide) rfl rfl rfl rfl (.inl rfl)
  have reported : reportsBystander (exec (.uncorrectableError (2 ^ 52 + 0)) straying) = true := by
    rw [run]
    exact List.any_eq_true.mpr ⟨m, hm, by rw [beq_iff_eq]; exact sid⟩
  exact absurd reported (by rw [straying_unreported]; decide)

end Sys2Proof.Machine
end

section
/-! SUPPORT. Words and instructions (R27 to R40): a row accepts no word but that of the instruction it reads, and it accepts the word
of every well-formed one. A word is taken apart as the fields of which it is put together, from the last to the first. -/

namespace Sys2Proof

/-- A word holds the bits of a field, whose lowest is the last of the word's first `c`. -/
def Agrees {n : Nat} (x : BitVec n) (w : IWord) (c : Nat) : Prop := x = w.extractLsb' (32 - c) n

theorem agrees_append {m n c : Nat} (x : BitVec m) (y : BitVec n) (w : IWord) (hn : n ≤ c) (hc : c ≤ 32) :
    Agrees (x ++ y) w c ↔ Agrees x w (c - n) ∧ Agrees y w c := by
  have e : 32 - (c - n) = 32 - c + n := by omega
  have join : w.extractLsb' (32 - c + n) m ++ w.extractLsb' (32 - c) n = w.extractLsb' (32 - c) (m + n) :=
    BitVec.extractLsb'_append_extractLsb'_eq_extractLsb' rfl
  rw [Agrees, Agrees, Agrees, e, ← join]
  constructor
  · intro h
    exact ⟨by rw [← BitVec.extractLsb'_append_eq_left (a := x) (b := y), h, BitVec.extractLsb'_append_eq_left],
      by rw [← BitVec.extractLsb'_append_eq_right (a := x) (b := y), h, BitVec.extractLsb'_append_eq_right]⟩
  · rintro ⟨rfl, rfl⟩
    rfl

theorem agrees_extract {s n c : Nat} (w : IWord) (h : 32 - c = s) : Agrees (w.extractLsb' s n) w c := by
  rw [Agrees, h]

theorem agrees_fixed {n c v : Nat} {w mask pat : IWord} (h : w &&& mask = pat)
    (hm : mask.toNat / 2 ^ (32 - c) % 2 ^ n = 2 ^ n - 1) (hp : pat.toNat / 2 ^ (32 - c) % 2 ^ n = v % 2 ^ n) :
    Agrees (BitVec.ofNat n v) w c := by
  have hm : mask.extractLsb' (32 - c) n = BitVec.allOnes n :=
    BitVec.eq_of_toNat_eq (by simpa [Nat.shiftRight_eq_div_pow] using hm)
  have hp : pat.extractLsb' (32 - c) n = BitVec.ofNat n v :=
    BitVec.eq_of_toNat_eq (by simpa [Nat.shiftRight_eq_div_pow] using hp)
  rw [Agrees, ← hp, ← h, BitVec.extractLsb'_and, hm, BitVec.and_allOnes]

theorem singleton_eq_iff_agrees (x w : IWord) : [x] = [w] ↔ Agrees x w 32 := by
  rw [Agrees, List.singleton_inj, BitVec.extractLsb'_eq_self]

/-! ### A row accepts no word but its instruction's -/

/-- What a row answers for a word is written as that word. -/
def Spells (w : IWord) (o : Option Instr) : Prop := ∀ i, o = some i → encode i = [w]

theorem spells_row {w mask pat : IWord} {i : Instr} (h : w &&& mask = pat → encode i = [w]) : Spells w (row w mask pat i) := by
  intro j hj
  unfold row at hj
  split at hj
  · cases hj
    exact h ‹_›
  · cases hj

theorem spells_orElse {w : IWord} {o p : Option Instr} (ho : Spells w o) (hp : Spells w p) : Spells w (o <|> p) := by
  cases o with
  | none => exact hp
  | some i => exact ho

/-- MTS and the rows that some of its register numbers have of their own are one encoding (R377). -/
theorem encode_mtsRow (d : BitVec 5) (k : BitVec 16) : encode (mtsRow d k) = [0xE9#8 ++ d ++ 1#3 ++ k] := by
  unfold mtsRow
  split_ifs with fstat tring lsplit swz svcmap wdog
  case pos => rw [fstat]; rfl
  case pos =>
    have hk : 4#12 ++ k.extractLsb' 0 4 = k := by
      rw [← show k.extractLsb' 4 12 = 4#12 from tring]
      exact (BitVec.extractLsb'_append_extractLsb'_eq_extractLsb' rfl).trans BitVec.extractLsb'_eq_self
    have assoc : 0xE9#8 ++ d ++ 1#3 ++ 4#12 ++ k.extractLsb' 0 4 = 0xE9#8 ++ d ++ 1#3 ++ (4#12 ++ k.extractLsb' 0 4) :=
      BitVec.append_assoc
    rw [hk] at assoc
    exact congrArg (fun x => [x]) assoc
  case pos => rw [lsplit]; rfl
  case pos => rw [swz]; rfl
  case pos => rw [svcmap]; rfl
  case pos => rw [wdog]; rfl
  case neg => rfl

theorem spells_mtsRow (w : IWord) : Spells w (row w 0xFF070000 0xE9010000 (mtsRow (fD w) (w.extractLsb' 0 16))) := by
  refine spells_row fun h => ?_
  rw [encode_mtsRow, singleton_eq_iff_agrees]
  simp only [agrees_append, agrees_extract, agrees_fixed h, fD, BitVec.reduceToNat, Nat.reduceSub, Nat.reduceLeDiff,
    Nat.reducePow, Nat.reduceDiv, Nat.reduceMod, Nat.le_refl, and_self]

set_option maxRecDepth 5000 in
/-- Every row that accepts a word is its only spelling: each fixed bit is tested and each free bit is kept (R29). -/
theorem spells_decodeRow (w : IWord) : Spells w (decodeRow w) := by
  unfold decodeRow
  split
  case h_163 => exact spells_mtsRow w
  case h_177 => rintro _ ⟨⟩; rfl
  all_goals repeat' apply spells_orElse
  all_goals
    refine spells_row fun h => ?_
    simp only [encode, singleton_eq_iff_agrees, agrees_append, agrees_extract, agrees_fixed h, fD, fA, fB, BitVec.reduceToNat,
      Nat.reduceSub, Nat.reduceLeDiff, Nat.reducePow, Nat.reduceDiv, Nat.reduceMod, Nat.le_refl, and_self]

/-! ### The row of an instruction accepts its word -/

/-- A field has, under a mask, the bits of a pattern. -/
def Fits {n : Nat} (x : BitVec n) (mask pat : Nat) : Prop := x.toNat &&& mask = pat

theorem append_toNat {m n : Nat} (x : BitVec m) (y : BitVec n) : (x ++ y).toNat = 2 ^ n * x.toNat + y.toNat := by
  rw [BitVec.toNat_append, ← Nat.shiftLeft_add_eq_or_of_lt y.isLt, Nat.shiftLeft_eq, Nat.mul_comm]

theorem fits_append {m n : Nat} (x : BitVec m) (y : BitVec n) (mask pat : Nat) :
    Fits (x ++ y) mask pat ↔ Fits x (mask / 2 ^ n) (pat / 2 ^ n) ∧ Fits y (mask % 2 ^ n) (pat % 2 ^ n) := by
  have high : (x ++ y).toNat / 2 ^ n = x.toNat := by
    rw [append_toNat, Nat.mul_add_div (Nat.two_pow_pos n), Nat.div_eq_of_lt y.isLt, Nat.add_zero]
  have low : (x ++ y).toNat % 2 ^ n = y.toNat := by
    rw [append_toNat, Nat.mul_add_mod, Nat.mod_eq_of_lt y.isLt]
  rw [Fits, Fits, Fits, ← high, ← low, ← Nat.and_div_two_pow, ← Nat.and_mod_two_pow]
  constructor
  · rintro rfl
    exact ⟨rfl, rfl⟩
  · rintro ⟨h, l⟩
    rw [← Nat.div_add_mod ((x ++ y).toNat &&& mask) (2 ^ n), h, l, Nat.div_add_mod]

theorem fits_zero {n : Nat} (x : BitVec n) : Fits x 0 0 := Nat.and_zero _

theorem fits_literal (n v mask pat : Nat) : Fits (BitVec.ofNat n v) mask pat ↔ v % 2 ^ n &&& mask = pat :=
  Iff.rfl

theorem row_of_fits {w mask pat : IWord} {i j : Instr} (h : Fits w mask.toNat pat.toNat) (e : i = j) :
    row w mask pat i = some j := by
  rw [row, if_pos (BitVec.eq_of_toNat_eq (by rw [BitVec.toNat_and]; exact h)), e]

theorem row_of_not_fits {w mask pat : IWord} {i : Instr} (h : ¬Fits w mask.toNat pat.toNat) : row w mask pat i = none := by
  rw [row, if_neg fun e => h (by rw [Fits, ← BitVec.toNat_and, e])]

set_option maxRecDepth 5000 in
/-- An opcode that R39 assigns nothing has no row (R40). -/
theorem decodeRow_unassigned {w : IWord} (h : unassigned (w.extractLsb' 24 8).toNat = true) :
    decodeRow w = some (.unassignedOpcode w) := by
  unfold decodeRow
  split
  case h_177 => rfl
  all_goals
    rename_i op
    rw [op] at h
    cases h

/-- A register number whose write has no row of its own is MTS's. -/
theorem mtsRow_of_not_ownStep (d : BitVec 5) {k : BitVec 16} (h : ownStep k.toNat = false) : mtsRow d k = .mts d k := by
  have own (n : BitVec 16) (hn : ownStep n.toNat = true) : k ≠ n := by
    rintro rfl
    rw [hn] at h
    cases h
  have tring : k.extractLsb' 4 12 ≠ 4 := by
    intro e
    have e := congrArg BitVec.toNat e
    simp [ownStep] at h
    simp [Nat.shiftRight_eq_div_pow] at e
    omega
  rw [mtsRow, if_neg (own _ rfl), if_neg tring, if_neg (own _ rfl), if_neg (own _ rfl), if_neg (own _ rfl), if_neg (own _ rfl)]

theorem mtsRow_tring (d : BitVec 5) (n : BitVec 4) : mtsRow d (4#12 ++ n) = .tringWrite d n := by
  have t : (4#12 ++ n).extractLsb' 4 12 = 4 := BitVec.extractLsb'_append_eq_left
  have fstat : (4#12 ++ n : BitVec 16) ≠ 0x13 := fun e => absurd (e ▸ t) (by decide)
  rw [mtsRow, if_neg fstat, if_pos t]
  exact congrArg _ BitVec.extractLsb'_append_eq_right

theorem extract_tring {n : Nat} (x : BitVec n) (k : BitVec 4) : (x ++ 4#12 ++ k).extractLsb' 0 16 = 4#12 ++ k := by
  simp [BitVec.extractLsb'_append_eq_ite]

set_option maxRecDepth 5000 in
/-- The row of an instruction's opcode accepts its word and reads back its fields. -/
theorem decodeRow_of_encode {i : Instr} {w : IWord} (hi : i.wellFormed = true) (hw : encode i = [w]) : decodeRow w = some i := by
  unfold decodeRow
  generalize op : (w.extractLsb' 24 8).toNat = n
  cases i
  all_goals cases hw
  case unassignedOpcode =>
    subst op
    exact decodeRow_unassigned hi
  all_goals
    simp only [BitVec.extractLsb'_append_eq_of_le, BitVec.extractLsb'_eq_self, BitVec.reduceToNat, Nat.reduceLeDiff,
      Nat.reduceSub] at op
    subst op
  case lcntCmp | lcntExp | lcntSt | rcurGet | rcurSkip | prfL2 | prfL1 | cinvD | cinvI | cinvDi | vclsExp | vclsCls | vtriD2 |
      vtriD5 | vtriE2 | vtriE5 | spinvOne | spinvAll | mrgcStat | mrgcClr | mzkey | mzkeyInv | wphsWait | wphsTest | tlbiVa |
      tlbiPart | mbxsFrep | mbxsCrep | mbxsErep | mbxsResume | mbxsIntr | mbxsUser | csaveSave | csaveRest | pcnt | pcntCtx =>
    show (row _ _ _ _ <|> _) = _
    simp only [row_of_fits (e := rfl), row_of_not_fits, fits_append, fits_zero, fits_literal, fD, fA, fB,
      BitVec.extractLsb'_append_eq_of_le, BitVec.extractLsb'_append_eq_of_add_le, BitVec.extractLsb'_eq_self, BitVec.reduceToNat,
      Nat.reducePow, Nat.reduceDiv, Nat.reduceMod, Nat.reduceAnd, Nat.reduceSub, Nat.reduceLeDiff, Nat.reduceEqDiff,
      and_self, and_false, false_and, not_false_eq_true, Option.orElse_eq_orElse, Option.orElse_some, Option.orElse_none]
  all_goals refine row_of_fits ?_ ?_
  all_goals
    simp only [fits_append, fits_zero, fits_literal, fD, fA, fB, BitVec.extractLsb'_append_eq_of_le,
      BitVec.extractLsb'_append_eq_of_add_le, BitVec.extractLsb'_eq_self, BitVec.reduceToNat, Nat.reducePow, Nat.reduceDiv,
      Nat.reduceMod, Nat.reduceAnd, Nat.reduceSub, Nat.reduceLeDiff, and_self]
  case mts.refl.refine_2 d k => exact mtsRow_of_not_ownStep d (by simpa [Instr.wellFormed] using (Bool.and_eq_true_iff.mp hi).2)
  case tringWrite.refl.refine_2 d n => rw [extract_tring, mtsRow_tring]
  all_goals rfl

/-! ### The statements -/

/-- Settles O1: each field of a word is read back where it was put, and the row's fixed bits are there. -/
theorem decodeOfEncode : Obligations.DecodeOfEncode := by
  intro i w hi hw
  rw [decode, decodeRow_of_encode hi hw]
  exact if_pos hi

/-- Settles O2: a row accepts no other word than that of the instruction it reads. -/
theorem encodeOfDecode : Obligations.EncodeOfDecode := by
  intro w i h
  rw [decode] at h
  cases hj : decodeRow w with
  | none => rw [hj] at h; cases h
  | some j =>
    rw [hj] at h
    by_cases wf : j.wellFormed = true
    · cases (if_pos wf).symm.trans h
      exact ⟨spells_decodeRow w _ hj, wf⟩
    · cases (if_neg wf).symm.trans h

/-- Settles O3: each word is that of its instruction, so that O1 decodes it. -/
theorem wordsDecode : Obligations.WordsDecode := by
  unfold Obligations.WordsDecode
  refine ⟨?_, ?_, ?_, ?_, ?_, ?_, ?_, ?_, ?_, ?_, ?_, ?_, ?_, ?_, ?_, ?_, ?_, ?_, ?_, ?_, ?_, ?_, ?_⟩
  all_goals exact decodeOfEncode _ _ rfl rfl

end Sys2Proof
end

section
/-! SUPPORT. The lanes of integer types as numbers (R273 to R275, R285, R293, R295, R297, R306): a lane is the signed or natural
number of its bits, a number rounds to an integer by its mode, and one beyond a type is clamped. -/

namespace Sys2Proof.Machine

/-! ### Integer lanes as numbers -/

theorem widthOf_cases (t : Nat) : widthOf t = 8 ∨ widthOf t = 16 ∨ widthOf t = 32 ∨ widthOf t = 64 := by
  unfold widthOf
  split_ifs <;> simp

theorem mem_signed_iff (t : Nat) : t ∈ [0, 5, 7, 11] ↔ isSigned t = true := by
  simp [isSigned, or_assoc]

theorem intOf_eq (t x : Nat) :
    intOf t x = if isSigned t = true ∧ 2 ^ (widthOf t - 1) ≤ x then (x : Int) - 2 ^ widthOf t else x := by
  simp only [intOf, mem_signed_iff]

theorem laneInt_eq_intOf {t x : Nat} (hx : x < 2 ^ widthOf t) : laneInt t x = intOf t x := by
  rw [intOf_eq, laneInt]
  by_cases hs : isSigned t = true
  · rw [if_pos hs, BitVec.toInt_eq_toNat_cond, BitVec.toNat_ofNat, Nat.mod_eq_of_lt hx]
    rcases widthOf_cases t with w | w | w | w <;> rw [w] at hx ⊢ <;> simp only [hs, true_and] <;> split_ifs <;> omega
  · rw [if_neg hs, if_neg (fun h => hs h.1)]

theorem wrapLane_cast (t : Nat) (n : Int) : (wrapLane t n : Int) = n % 2 ^ widthOf t := by
  rw [wrapLane, Int.toNat_of_nonneg (Int.emod_nonneg _ (by positivity))]
  push_cast
  rfl

theorem wrapLane_lt (t : Nat) (n : Int) : wrapLane t n < 2 ^ widthOf t := by
  have e := wrapLane_cast t n
  rcases widthOf_cases t with w | w | w | w <;> rw [w] at e ⊢ <;> omega

/-- The least number of an integer type (R273). -/
def intLow (t : Nat) : Int := if isSigned t = true then -2 ^ (widthOf t - 1) else 0
/-- The greatest number of an integer type (R273). -/
def intHigh (t : Nat) : Int := if isSigned t = true then 2 ^ (widthOf t - 1) - 1 else 2 ^ widthOf t - 1

theorem intLow_le_intHigh (t : Nat) : intLow t ≤ intHigh t := by
  unfold intLow intHigh
  rcases widthOf_cases t with w | w | w | w <;> rw [w] <;> split_ifs <;> omega

/-- A number of an integer type is the value of its lane. -/
theorem intOf_wrapLane {t : Nat} {n : Int} (hl : intLow t ≤ n) (hh : n ≤ intHigh t) : intOf t (wrapLane t n) = n := by
  have e := wrapLane_cast t n
  rw [intOf_eq]
  unfold intLow at hl
  unfold intHigh at hh
  by_cases hs : isSigned t = true
  · rw [if_pos hs] at hl hh
    rcases widthOf_cases t with w | w | w | w <;> rw [w] at hl hh e ⊢ <;> simp only [hs, true_and] <;> split_ifs <;> omega
  · rw [if_neg hs] at hl hh
    rw [if_neg (fun h => hs h.1)]
    rcases widthOf_cases t with w | w | w | w <;> rw [w] at hh e <;> omega

theorem satLane_eq (t : Nat) (n : Int) : satLane t n =
    if n < intLow t then (wrapLane t (intLow t), SAT) else if intHigh t < n then (wrapLane t (intHigh t), SAT)
    else (wrapLane t n, 0) := by
  simp only [satLane, intLow, intHigh, Nat.cast_pow, Nat.cast_ofNat]
  rfl

theorem saturates_iff (t : Nat) (n : Int) (r : Nat × Flags) : Saturates t n r ↔ r.1 < 2 ^ widthOf t ∧
    intOf t r.1 = min (intHigh t) (max (intLow t) n) ∧ r.2 = if intLow t ≤ n ∧ n ≤ intHigh t then 0 else SAT := by
  simp only [Saturates, intLow, intHigh, mem_signed_iff]
  rfl

theorem saturates_satLane (t : Nat) (n : Int) : Saturates t n (satLane t n) := by
  have range := intLow_le_intHigh t
  rw [saturates_iff, satLane_eq]
  by_cases below : n < intLow t
  · rw [if_pos below, if_neg (by omega)]
    exact ⟨wrapLane_lt t _, by rw [intOf_wrapLane le_rfl range]; omega, rfl⟩
  rw [if_neg below]
  by_cases above : intHigh t < n
  · rw [if_pos above, if_neg (by omega)]
    exact ⟨wrapLane_lt t _, by rw [intOf_wrapLane range le_rfl]; omega, rfl⟩
  · rw [if_neg above, if_pos (by omega)]
    exact ⟨wrapLane_lt t _, by rw [intOf_wrapLane (by omega) (by omega)]; omega, rfl⟩

/-! ### Rounding to an integer (R271) -/

/-- Whether a rounding mode takes q + r / d away from zero. -/
def awayFrom (mode : Nat) (neg : Bool) (q r d : Nat) : Bool :=
  roundsUp mode neg q (r ≠ 0) (if 2 * r < d then .lt else if d < 2 * r then .gt else .eq)

/-- A number whose quotient is zero by far rounds as any other. -/
theorem roundShift_of_pos (mode : Nat) (neg : Bool) (num k : Nat) (hk : 0 < k) :
    (roundShift mode neg num k false).1 =
      num / 2 ^ k + if awayFrom mode neg (num / 2 ^ k) (num % 2 ^ k) (2 ^ k) = true then 1 else 0 := by
  have pos : ¬((k : Int) ≤ 0) := by omega
  rw [roundShift, if_neg pos]
  by_cases small : (Nat.log2 num : Int) + 2 < k
  · have lt : num * 4 < 2 ^ k := by
      have top : num < 2 ^ (Nat.log2 num + 1) := Nat.lt_log2_self
      have : 2 ^ (Nat.log2 num + 1) * 4 ≤ 2 ^ k := by
        rw [show (4 : Nat) = 2 ^ 2 from rfl, ← Nat.pow_add]
        exact Nat.pow_le_pow_right (by decide) (by omega)
      omega
    have q : num / 2 ^ k = 0 := Nat.div_eq_of_lt (by omega)
    have r : num % 2 ^ k = num := Nat.mod_eq_of_lt (by omega)
    have half : 2 * num < 2 ^ k := by omega
    simp only [if_pos small, q, r, awayFrom, if_pos half, Nat.zero_add, Bool.or_false]
  · rw [if_neg small]
    simp only [awayFrom, Int.toNat_natCast, Bool.or_false, decide_eq_true_eq]
    split_ifs <;> rfl

/-- The sign of a number, as a factor. -/
def signOf (neg : Bool) : Int := if neg then -1 else 1

theorem abs_signOf (neg : Bool) : |(signOf neg : ℚ)| = 1 := by
  cases neg <;> simp [signOf]

theorem awayFrom_nearest (neg : Bool) (q r d : Nat) :
    awayFrom 0 neg q r d = true ↔ d < 2 * r ∨ (2 * r = d ∧ q % 2 = 1) := by
  unfold awayFrom roundsUp
  split_ifs with below above
  · exact iff_of_false Bool.false_ne_true (by omega)
  · exact iff_of_true rfl (.inl above)
  · show (q % 2 == 1) = true ↔ _
    rw [beq_iff_eq]
    omega

/-- The nearest integer, the even one of two. -/
theorem nearest_awayFrom (neg : Bool) {q r d : Nat} (hr : r < d) :
    let u : Int := if awayFrom 0 neg q r d = true then 1 else 0
    |(r : ℚ) / d - u| ≤ 1 / 2 ∧ (|(r : ℚ) / d - u| = 1 / 2 → Even (q + u)) := by
  have hd : (0 : ℚ) < d := by exact_mod_cast (by omega : 0 < d)
  have hr' : (r : ℚ) < d := by exact_mod_cast hr
  have nonneg : (0 : ℚ) ≤ r / d := by positivity
  have one : (r : ℚ) / d < 1 := (div_lt_one hd).mpr hr'
  have half : 2 * (r : ℚ) / d = 2 * (r / d) := by ring
  simp only [awayFrom_nearest]
  split_ifs with away
  · rcases away with h | ⟨h, odd⟩
    · have : 1 / 2 < (r : ℚ) / d := by
        rw [div_lt_div_iff₀ two_pos hd]
        exact_mod_cast (by omega : 1 * d < r * 2)
      rw [abs_of_nonpos (by push_cast; linarith)]
      push_cast
      exact ⟨by linarith, fun e => by linarith⟩
    · have : (r : ℚ) / d = 1 / 2 := by
        rw [div_eq_div_iff hd.ne' two_ne_zero]
        exact_mod_cast (by omega : r * 2 = 1 * d)
      rw [this]
      refine ⟨by norm_num, fun _ => ?_⟩
      exact ⟨(q + 1) / 2, by omega⟩
  · push Not at away
    obtain ⟨le, even⟩ := away
    have : (r : ℚ) / d ≤ 1 / 2 := by
      rw [div_le_div_iff₀ hd two_pos]
      exact_mod_cast (by omega : r * 2 ≤ 1 * d)
    rw [abs_of_nonneg (by push_cast; linarith)]
    push_cast
    refine ⟨by linarith, fun e => ?_⟩
    have : 2 * r = d := by
      rw [sub_zero, div_eq_div_iff hd.ne' two_ne_zero] at e
      have e : r * 2 = 1 * d := by exact_mod_cast e
      omega
    exact ⟨q / 2, by have := even this; omega⟩

/-- A signed quotient with a rest is rounded by its mode. -/
theorem roundsToInt_awayFrom (mode : Nat) (neg : Bool) {q r d : Nat} (hr : r < d) :
    RoundsToInt mode (signOf neg * (q + (r : ℚ) / d)) (signOf neg * (q + if awayFrom mode neg q r d = true then 1 else 0)) := by
  have hd : (0 : ℚ) < d := by exact_mod_cast (by omega : 0 < d)
  have hr' : (r : ℚ) < d := by exact_mod_cast hr
  have nonneg : (0 : ℚ) ≤ r / d := by positivity
  have one : (r : ℚ) / d < 1 := (div_lt_one hd).mpr hr'
  have pos : r ≠ 0 → (0 : ℚ) < r / d := fun h => div_pos (by exact_mod_cast Nat.pos_of_ne_zero h) hd
  refine ⟨?_, ?_, ?_, ?_⟩ <;> rintro rfl
  · obtain ⟨near, tie⟩ := nearest_awayFrom neg (q := q) hr
    set u : Int := if awayFrom 0 neg q r d = true then 1 else 0
    have diff : (signOf neg : ℚ) * (q + (r : ℚ) / d) - (signOf neg * (q + u) : Int) = signOf neg * ((r : ℚ) / d - u) := by
      push_cast
      ring
    rw [diff, abs_mul, abs_signOf, one_mul]
    exact ⟨near, fun e => (tie e).mul_left _⟩
  · rw [if_neg (show ¬awayFrom 1 neg q r d = true from Bool.false_ne_true), add_zero]
    push_cast
    rw [← mul_sub, abs_mul, abs_mul, abs_mul, abs_signOf, one_mul, one_mul, one_mul, add_sub_cancel_left, abs_of_nonneg nonneg,
      abs_of_nonneg (by positivity), abs_of_nonneg (by positivity)]
    exact ⟨one, by linarith⟩
  · have away : awayFrom 2 neg q r d = (neg && decide (r ≠ 0)) := rfl
    cases neg
    · simp only [away, signOf, Bool.false_and, Bool.false_eq_true, if_false]
      push_cast
      constructor <;> linarith
    · by_cases h : r = 0
      · subst h
        simp [away, signOf]
      · have := pos h
        simp only [away, signOf, h, ne_eq, not_false_eq_true, decide_true, Bool.and_true, if_true]
        push_cast
        constructor <;> linarith
  · have away : awayFrom 3 neg q r d = (!neg && decide (r ≠ 0)) := rfl
    cases neg
    · by_cases h : r = 0
      · subst h
        simp [away, signOf]
      · have := pos h
        simp only [away, signOf, h, ne_eq, not_false_eq_true, decide_true, Bool.not_false, Bool.and_true, Bool.false_eq_true,
          if_true, if_false]
        push_cast
        constructor <;> linarith
    · simp only [away, signOf, Bool.not_true, Bool.false_and, Bool.false_eq_true, if_false, if_true]
      push_cast
      constructor <;> linarith

/-- Dividing by a power of two leaves a quotient and a rest. -/
theorem mul_two_zpow_neg (num k : Nat) :
    (num : ℚ) * 2 ^ (-(k : Int)) = ((num / 2 ^ k : Nat) : ℚ) + ((num % 2 ^ k : Nat) : ℚ) / (2 ^ k : Nat) := by
  have hk : ((2 ^ k : Nat) : ℚ) ≠ 0 := by positivity
  have split : (num : ℚ) = (2 ^ k : Nat) * (num / 2 ^ k : Nat) + (num % 2 ^ k : Nat) := by
    exact_mod_cast (Nat.div_add_mod num (2 ^ k)).symm
  rw [zpow_neg, zpow_natCast, ← div_eq_mul_inv, div_eq_iff (by positivity)]
  push_cast at split hk ⊢
  rw [add_mul, div_mul_cancel₀ _ hk]
  linarith

/-- An integer is what it rounds to. -/
theorem roundsToInt_self {mode : Nat} (k : Int) : RoundsToInt mode k k := by
  simp [RoundsToInt]

/-- A signed multiple or quotient by a power of two is rounded by its mode (R285). -/
theorem roundsToInt_intRound (mode : Nat) (neg : Bool) (num : Nat) {exp : Int} (he : exp ≤ 4096) :
    RoundsToInt mode (signOf neg * (num * 2 ^ exp)) (intRound mode neg num exp).1 := by
  have sign (n : Nat) : (if neg = true then -(n : Int) else n) = signOf neg * n := by
    cases neg <;> simp [signOf]
  rw [intRound, if_neg (by omega)]
  simp only [sign]
  by_cases h : -exp ≤ 0
  · obtain ⟨k, rfl⟩ : ∃ k : Nat, exp = k := ⟨exp.toNat, by omega⟩
    rw [roundShift, if_pos h]
    have exact := roundsToInt_self (mode := mode) (signOf neg * (num * 2 ^ k : Nat))
    push_cast at exact
    simpa using exact
  · obtain ⟨k, rfl⟩ : ∃ k : Nat, exp = -k := ⟨(-exp).toNat, by omega⟩
    rw [neg_neg, roundShift_of_pos _ _ _ _ (by omega), mul_two_zpow_neg]
    push_cast
    exact_mod_cast roundsToInt_awayFrom mode neg (Nat.mod_lt num (Nat.two_pow_pos k))

theorem signOf_mul_natAbs (n : Int) : signOf (decide (n < 0)) * (n.natAbs : Int) = n := by
  by_cases h : n < 0
  · rw [decide_eq_true h, signOf, if_pos rfl]
    omega
  · rw [decide_eq_false h, signOf, if_neg Bool.false_ne_true]
    omega

/-- The exponent of a scale, a signed byte (R285). -/
def scaleExp (e8 : Nat) : Int := if e8 < 128 then (e8 : Int) else e8 - 256

theorem scaleLane_of_int {t : Nat} (ht : isFloat t = false) (mode : Nat) {x e8 : Nat} (hx : x < 2 ^ widthOf t)
    (he : e8 < 256) :
    scaleLane t mode x e8 = if e8 = 128 then (0, 0) else
      satLane t (intRound mode (intOf t x < 0) (intOf t x).natAbs (scaleExp e8)).1 := by
  have e : (BitVec.ofNat 8 e8).toInt = scaleExp e8 := by
    rw [BitVec.toInt_eq_toNat_cond, BitVec.toNat_ofNat, Nat.mod_eq_of_lt he, scaleExp]
    split_ifs <;> omega
  have zero : scaleExp e8 = -128 ↔ e8 = 128 := by
    by_cases h : e8 < 128
    · rw [scaleExp, if_pos h]
      omega
    · rw [scaleExp, if_neg h]
      omega
  simp only [scaleLane, laneInt_eq_intOf hx, e, ht, zero, Bool.false_eq_true, if_false]

theorem scaleLane_saturates {t : Nat} (ht : isFloat t = false) (mode : Nat) {x e8 : Nat} (hx : x < 2 ^ widthOf t)
    (he : e8 < 256) (h : e8 ≠ 128) :
    ∃ k : ℤ, RoundsToInt mode ((intOf t x : ℚ) * 2 ^ scaleExp e8) k ∧ Saturates t k (scaleLane t mode x e8) := by
  refine ⟨_, ?_, by rw [scaleLane_of_int ht mode hx he, if_neg h]; exact saturates_satLane t _⟩
  have small : scaleExp e8 ≤ 4096 := by
    unfold scaleExp
    split_ifs <;> omega
  have rounded := roundsToInt_intRound mode (decide (intOf t x < 0)) (intOf t x).natAbs small
  rwa [← mul_assoc, ← Int.cast_natCast, ← Int.cast_mul, signOf_mul_natAbs] at rounded

/-! ### Ternary packings (R274, R275) -/

/-- A digit of base 4 lies in its byte. -/
theorem digit4_of_byte (n k : Nat) : n / 256 ^ (k / 4) % 256 / 4 ^ (k % 4) % 4 = n / 4 ^ k % 4 := by
  have low (m : Nat) : m % 256 / 4 ^ (k % 4) % 4 = m / 4 ^ (k % 4) % 4 := by
    have : k % 4 < 4 := Nat.mod_lt _ (by decide)
    interval_cases k % 4 <;> omega
  rw [low, show (256 : Nat) = 4 ^ 4 from rfl, ← Nat.pow_mul, Nat.div_div_eq_div_mul, ← Nat.pow_add, Nat.div_add_mod]

theorem tri2_eq (n k : Nat) : tri2 n k =
    (if n / 4 ^ k % 4 = 1 then 1 else if n / 4 ^ k % 4 = 3 then -1 else 0, decide (n / 4 ^ k % 4 = 2)) := by
  have : n / 4 ^ k % 4 < 4 := Nat.mod_lt _ (by decide)
  unfold tri2
  interval_cases n / 4 ^ k % 4 <;> rfl

/-! ### The lanes -/

theorem byType_int {t : Nat} (ht : isFloat t = false) (i : Nat → Nat → Nat) (f : Fmt → Nat → Nat → Nat × Flags) (x y : Nat) :
    byType t i f x y = (i x y % 2 ^ widthOf t, 0) := by
  rw [byType, ht, if_neg Bool.false_ne_true]

section
variable {t x y : Nat} (ht : isFloat t = false) (hx : x < 2 ^ widthOf t) (hy : y < 2 ^ widthOf t)
include ht

theorem laneSub_cast (mode : Nat) (hy : y < 2 ^ widthOf t) : ((laneSub t mode x y).1 : Int) = ((x : Int) - y) % 2 ^ widthOf t := by
  rw [laneSub, byType_int ht]
  rcases widthOf_cases t with w | w | w | w <;> rw [w] at hy ⊢ <;> omega

include hx in
theorem laneAbs_cast : ((laneAbs t x).1 : Int) = (intOf t x).natAbs % 2 ^ widthOf t := by
  rw [laneAbs, ht, if_neg Bool.false_ne_true]
  by_cases hs : isSigned t = true
  · rw [if_pos hs, wrapLane_cast, laneInt_eq_intOf hx]
  · rw [if_neg hs, intOf_eq, if_neg (fun h => hs h.1), Int.natAbs_natCast]
    exact_mod_cast (Nat.mod_eq_of_lt hx).symm

include hx in
theorem laneNeg_cast : ((laneNeg t x).1 : Int) = (-(x : Int)) % 2 ^ widthOf t := by
  rw [laneNeg, ht, if_neg Bool.false_ne_true]
  rcases widthOf_cases t with w | w | w | w <;> rw [w] at hx ⊢ <;> omega

include hx hy

theorem laneMin_int : (laneMin t x y).2 = 0 ∧ intOf t (laneMin t x y).1 = min (intOf t x) (intOf t y) := by
  rw [laneMin, byType_int ht, laneInt_eq_intOf hx, laneInt_eq_intOf hy]
  refine ⟨rfl, ?_⟩
  split_ifs with h
  · rw [Nat.mod_eq_of_lt hy, min_eq_right h.le]
  · rw [Nat.mod_eq_of_lt hx, min_eq_left (not_lt.mp h)]

theorem laneMax_int : (laneMax t x y).2 = 0 ∧ intOf t (laneMax t x y).1 = max (intOf t x) (intOf t y) := by
  rw [laneMax, byType_int ht, laneInt_eq_intOf hx, laneInt_eq_intOf hy]
  refine ⟨rfl, ?_⟩
  split_ifs with h
  · rw [Nat.mod_eq_of_lt hy, max_eq_right h.le]
  · rw [Nat.mod_eq_of_lt hx, max_eq_left (not_lt.mp h)]

theorem laneLess_int : laneLess t x y = (decide (intOf t x < intOf t y), 0) := by
  simp only [laneLess, ht, laneInt_eq_intOf hx, laneInt_eq_intOf hy, Bool.false_eq_true, if_false]

end

theorem laneSra_cast (t x y : Nat) (hx : x < 2 ^ widthOf t) : ((laneSra t x y).1 : Int) =
    (if 2 ^ (widthOf t - 1) ≤ x then (x : Int) - 2 ^ widthOf t else x) / 2 ^ (y % widthOf t) % 2 ^ widthOf t := by
  have value : (BitVec.ofNat (widthOf t) x).toInt = if 2 ^ (widthOf t - 1) ≤ x then (x : Int) - 2 ^ widthOf t else x := by
    rw [BitVec.toInt_eq_toNat_cond, BitVec.toNat_ofNat, Nat.mod_eq_of_lt hx]
    rcases widthOf_cases t with w | w | w | w <;> rw [w] at hx ⊢ <;> split_ifs <;> omega
  rw [← value]
  exact wrapLane_cast t _

theorem convert_int {a b : Nat} (ha : isFloat a = false) (hb : isFloat b = false) (mode : Nat) {x : Nat}
    (hx : x < 2 ^ widthOf a) : convert a b mode x = satLane b (intOf a x) := by
  simp only [convert, ha, hb, laneInt_eq_intOf hx, Bool.false_eq_true, if_false]

theorem dot_eq {t c : Nat} (ht : t = 7 ∨ t = 8) (hc : c < 2 ^ 32) (x y : VReg) (i : Nat) : dot t x y c i =
    satLane 0 (intOf 0 c + ((List.range 4).map (fun j => intOf t (lane 8 x (4 * i + j)) * intOf t (lane 8 y (4 * i + j)))).sum) := by
  have w : widthOf t = 8 := by rcases ht with rfl | rfl <;> rfl
  have byte (v : VReg) (j : Nat) : laneInt t (lane 8 v j) = intOf t (lane 8 v j) :=
    laneInt_eq_intOf (by rw [w]; exact BitVec.isLt _)
  have acc : laneInt 0 c = intOf 0 c := laneInt_eq_intOf (t := 0) hc
  simp only [dot, byte, acc, List.sum_eq_foldl]

/-- Settles O37: an integer lane is a number, and each operation is the number's own, wrapped or clamped. -/
theorem integerLanes : Obligations.IntegerLanes := by
  refine ⟨by decide, fun t mode x y _ ht hx hy => ?_, fun t n _ _ => saturates_satLane t n,
    fun t mode x e8 _ ht _ hx he => ⟨fun h => ?_, fun h => scaleLane_saturates ht mode hx he h⟩,
    fun a b mode x _ _ ha hb hx => ?_, fun t c i x y ht hc => ?_, fun n k => ⟨?_, ?_⟩⟩
  · obtain ⟨min0, min1⟩ := laneMin_int ht hx hy
    obtain ⟨max0, max1⟩ := laneMax_int ht hx hy
    exact ⟨byType_int ht _ _ x y, byType_int ht _ _ x y, by rw [laneSub, byType_int ht], laneSub_cast ht mode hy, min0, min1, max0,
      max1, rfl, rfl, laneSra_cast t x y hx, laneAbs_cast ht hx, laneNeg_cast ht hx, laneLess_int ht hx hy⟩
  · rw [scaleLane_of_int ht mode hx he, if_pos h]
  · rw [convert_int ha hb mode hx]
    exact saturates_satLane b _
  · rw [dot_eq ht hc]
    exact saturates_satLane 0 _
  · rw [tri2_eq]
    simp only [digit4_of_byte]
  · rfl

end Sys2Proof.Machine
end

section
/-! SUPPORT. What a field that names a bound end reads and writes, outside an attempt and inside one (R36, R156, R173). -/

namespace Sys2Proof.Machine

/-! ### Dequeues and enqueues -/

/-- The state with a tentative operation more in the attempt of the acting context (R173). -/
def State.holding (s : State) (o : TxOp) : State :=
  s.modMe (fun x => { x with tx := { x.tx with point := { x.tx.point with ops := x.tx.point.ops ++ [o] } } })

theorem deq_outside {s : State} {e : Nat} {x : Elem} (ht : s.me.tx.active = false) (hx : s.endHead s.cur e 0 = .elem x) :
    deq e s = .ok (x.data, s.endTake s.cur e) := by
  have none : s.me.deqs e = 0 := by rw [Ctx.deqs, ht]; rfl
  simp only [deq, op_bind, get, getThe, MonadStateOf.get, StateT.get, pure, Except.pure, Except.bind, none, hx, ht]
  rfl

theorem deq_inside {s : State} {e : Nat} {x : Elem} (ht : s.me.tx.active = true)
    (hx : s.endHead s.cur e (s.me.tx.point.ops.count (.deq e)) = .elem x) : deq e s = .ok (x.data, s.holding (.deq e)) := by
  have made : s.me.deqs e = s.me.tx.point.ops.count (.deq e) := by rw [Ctx.deqs, ht]; rfl
  simp only [deq, op_bind, get, getThe, MonadStateOf.get, StateT.get, pure, Except.pure, Except.bind, made, hx, ht]
  rfl

theorem enq_outside {s t : State} {e : Nat} {x : Elem} (ht : s.me.tx.active = false) (hx : s.endPut s.cur e x = .done t) :
    enq e x s = .ok ((), t) := by
  simp only [enq, op_bind, get, getThe, MonadStateOf.get, StateT.get, pure, Except.pure, Except.bind, hx, ht]
  rfl

theorem enq_inside {s t : State} {e : Nat} {x : Elem} (ht : s.me.tx.active = true)
    (hx : s.runOps s.cur (s.me.tx.point.ops ++ [.enq e x s.due]) = .done t) : enq e x s = .ok ((), s.holding (.enq e x s.due)) := by
  simp only [enq, op_bind, get, getThe, MonadStateOf.get, StateT.get, pure, Except.pure, Except.bind, hx, ht]
  rfl

/-! ### Fields -/

theorem rdS_end {n : BitVec 5} {s t : State} {e : Nat} {w : VReg} (h : s.me.endOf (.s n.toNat) = some e)
    (hd : deq e s = .ok (w, t)) : rdS n s = .ok (w.extractLsb' 0 64, t) := by
  simp only [rdS, op_bind, op_ask, Except.bind, h, hd]
  rfl

theorem wrS_end {n : BitVec 5} {s : State} {e : Nat} (w : Word) (h : s.me.endOf (.s n.toNat) = some e) :
    wrS n w s = enq e { awn := false, data := w.setWidth 512 } s := by
  simp only [wrS, op_bind, op_ask, Except.bind, h]

theorem rdV_end {n : BitVec 5} {s : State} {e : Nat} (h : s.me.endOf (.v n.toNat) = some e) : rdV n s = deq e s := by
  simp only [rdV, op_bind, op_ask, Except.bind, h]

theorem wrV_end {n : BitVec 5} {s : State} {e : Nat} (w : VReg) (h : s.me.endOf (.v n.toNat) = some e) :
    wrV n w s = enq e { awn := false, data := w } s := by
  simp only [wrV, op_bind, op_ask, Except.bind, h]

/-- A vector source is read as a vector field is, whatever it names. -/
theorem rdAB_eq_rdV {n : BitVec 5} (w : Nat) (hn : n.toNat < 16) : rdAB n w = rdV n := if_pos hn

/-- A scalar source that names an end spreads the element's low bits. -/
theorem rdAB_end {n : BitVec 5} {s t : State} {e : Nat} {q : VReg} (w : Nat) (hn : 16 ≤ n.toNat)
    (h : s.me.endOf (.s n.toNat) = some e) (hd : deq e s = .ok (q, t)) :
    rdAB n w s = .ok (broadcast w (q.extractLsb' 0 64), t) := by
  rw [rdAB, if_neg (by omega), op_bind, rdS_end h hd]
  rfl

theorem lane_broadcast_low {w i : Nat} (q : VReg) (hw : w ≤ 64) (hd : 512 % w = 0) (hi : i < 512 / w) :
    lane w (broadcast w (q.extractLsb' 0 64)) i = q.toNat % 2 ^ w := by
  rw [lane_broadcast _ hd hi, BitVec.extractLsb'_toNat, Nat.shiftRight_zero, Nat.mod_mod_of_dvd _ (Nat.pow_dvd_pow 2 hw)]

/-- Settles O12: a field that names an end is the end's dequeue or enqueue, which an attempt only notes down. -/
theorem endOperands : Obligations.EndOperands := by
  refine ⟨fun n e s ht => ⟨fun he => ⟨fun x hx => rdS_end he (deq_outside ht hx), fun w t hp => ?_, fun x width hn _ hw hd hx => ?_⟩,
    fun he => ⟨fun x hx => ⟨?_, fun width hn => ?_⟩, fun w t hp => ?_⟩⟩,
    fun n e s ht => ⟨fun he => ⟨fun x hx => rdS_end he (deq_inside ht hx), fun w room => ?_⟩, fun he => ⟨fun x hx => ?_, fun w room => ?_⟩⟩⟩
  · exact (wrS_end w he).trans (enq_outside ht hp)
  · exact ⟨_, rdAB_end width hn he (deq_outside ht hx), fun i hi => lane_broadcast_low x.data hw hd hi⟩
  · exact (rdV_end he).trans (deq_outside ht hx)
  · exact (congrFun (rdAB_eq_rdV width hn) s).trans ((rdV_end he).trans (deq_outside ht hx))
  · exact (wrV_end w he).trans (enq_outside ht hp)
  · obtain ⟨t, room⟩ := room
    exact (wrS_end w he).trans (enq_inside ht room)
  · exact (rdV_end he).trans (deq_inside ht hx)
  · obtain ⟨t, room⟩ := room
    exact (wrV_end w he).trans (enq_inside ht room)

end Sys2Proof.Machine
end

section
/-! SUPPORT. REPF (R44 to R46), and the instructions that trap by themselves or for want of privilege (R40, R79, R376, R389). -/

namespace Sys2Proof.Machine

/-! ### Completion -/

/-- An instruction that is ready completes where its body does. -/
theorem perform_ok {i : Instr} {body : Op Flow} {s r t : State} {f : Flow} (h : Ready i s r) (hb : body r = .ok (f, t)) :
    perform i body s = .next (t.onDone f) := by
  simp only [perform, performRaw, op_bind, h.1, except_bind_ok, h.2, hb]

/-- An instruction that examines its ends itself stops where its body does. -/
theorem performRaw_error {i : Instr} {body : Op Flow} {s : State} {e : Stop} (h : Allowed i s) (hb : body s = .error e) :
    performRaw i body s = .next (s.onStop (wordOf i) e) := by
  simp only [performRaw, op_bind, show rowCheck i s = .ok ((), s) from h, except_bind_ok, hb]

theorem bind_error {α β : Type} {m : Op α} {f : α → Op β} {s : State} {e : Stop} (h : m s = .error e) :
    (m >>= f) s = .error e := by
  rw [op_bind, h, except_bind_error]

/-! ### REPF -/

/-- What REPF sets of its context but for its pc. -/
def beginFrame (s : State) (n : BitVec 4) (cnt : BitVec 8) (d a b : BitVec 4) (x : Ctx) : Ctx :=
  { x with
    capture := (s.core s.myCore).cycle + 8
    frame := { on := true, handler := x.hmode, base := x.pc + 4, n := if n.toNat = 0 then 16 else n.toNat
               count := cnt.toNat + 1, sd := d, sa := a, sb := b, words := [], k := 0, i := 0 } }

theorem field_eq_zero_iff {w : Nat} {n : BitVec w} : n = 0 ↔ n.toNat = 0 := BitVec.toNat_eq.trans (by simp)

/-- An update of the acting context is what it makes of that context. -/
theorem State.modMe_congr {s : State} {f g : Ctx → Ctx} (h : f s.me = g s.me) : s.modMe f = s.modMe g :=
  congrArg (s.setCtx s.cur) h

theorem isReady_of_inCapture {s : State} {c : Nat} (h : s.inCapture c = true) : s.isReady c = false := by
  simp [State.isReady, h]

/-- Settles O15: REPF completes with a jump to the frame's first word, or raises ILLEGAL within a frame, and a context that
captures is not ready. -/
theorem repeatFrame : Obligations.RepeatFrame := by
  unfold Obligations.RepeatFrame
  refine ⟨fun n cnt d a b s r hr => ⟨fun hoff => ?begins, fun hon => perform_error hr ?within⟩, fun s c hon hh hlt => ?waits⟩
  case begins =>
    refine (perform_ok (f := .jump (r.me.pc + 4)) (t := r.modMe (beginFrame r n cnt d a b)) hr ?_).trans (congrArg _ ?_)
    · simp only [op_bind, op_ask, except_bind_ok, hoff, Bool.false_eq_true, if_false, op_pure, op_upd, field_eq_zero_iff]
      rfl
    · exact (State.modMe_modMe ..).trans (State.modMe_congr rfl)
  case within =>
    simp [op_bind, op_ask, except_bind_ok, hon, raise, op_stop, except_bind_error]
  case waits =>
    exact isReady_of_inCapture (by simp [State.inCapture, Ctx.framed, hon, hh, hlt])

/-! ### Instructions that trap by themselves or for want of privilege -/

theorem stewardOnly_error {s : State} (h : ctxNo s.cur ≠ 0) : stewardOnly s = .error (.trap Cause.priv 0 0) := by
  simp [stewardOnly, op_bind, op_ask, except_bind_ok, h, raise, op_stop]

theorem privilegedOnly_error {s : State} (h : privileged s.cur = false) : privilegedOnly s = .error (.trap Cause.priv 0 0) := by
  simp [privilegedOnly, op_bind, op_ask, except_bind_ok, h, raise, op_stop]

theorem outgoing_error {s : State} {i : Instr} {d a b : BitVec 5} {len : Nat} {f : Body → Word → Op Word}
    (h : ctxNo s.cur ≠ 0) : outgoing i d a b false len f s = .error (.trap Cause.priv 0 0) := by
  simp [outgoing, thenNext, op_bind, op_get, except_bind_ok, except_bind_error, h, raise, op_stop]

/-- A body whose first part stops. -/
theorem thenNext_error {m : Op Unit} {s : State} {e : Stop} (h : m s = .error e) : thenNext m s = .error e := bind_error h

theorem callTrap_user {s : State} {cause : Nat} {k : BitVec 16} (h : privileged s.cur = false) :
    callTrap cause k s = .error (.trap cause k.toNat 0) := by
  simp [callTrap, op_bind, op_ask, except_bind_ok, h, op_stop]

theorem callTrap_privileged {s : State} {cause : Nat} {k : BitVec 16} (h : privileged s.cur = true) :
    callTrap cause k s = .error (.trap Cause.priv 0 0) := by
  simp [callTrap, op_bind, op_ask, except_bind_ok, h, raise, op_stop, except_bind_error]

/-- Outside an attempt a trap goes to the context's steward. -/
theorem State.onStop_trap {s : State} {w : IWord} {cause aux : Nat} {va : Word} (h : s.me.tx.active = false) :
    s.onStop w (.trap cause aux va) = s.takeTrap s.cur cause aux va w := by
  simp [State.onStop, h]

theorem performRaw_trap {i : Instr} {body : Op Flow} {s : State} {cause aux : Nat} {va : Word} (hrow : Allowed i s)
    (ht : s.me.tx.active = false) (hb : body s = .error (.trap cause aux va)) :
    performRaw i body s = .next (s.takeTrap s.cur cause aux va (wordOf i)) :=
  (performRaw_error hrow hb).trans (congrArg _ (State.onStop_trap ht))

/-- A strand that is not a MIG one may execute an instruction that names no bound end, and inside an attempt one that is no
content of it. -/
theorem allowed_of_no_end {i : Instr} {s : State} (hm : s.me.mig = false) (ht : s.me.tx.active = false ∨ i.content = false)
    (hi : i.readsAndWrites = []) : Allowed i s := by
  have hc : ¬ (s.me.tx.active ∧ i.content) := by simpa [Classical.or_iff_not_imp_left] using ht
  simp [Allowed, rowCheck, op_bind, op_ask, op_pure, except_bind_ok, hm, hc, hi]

/-- A body that starts with the steward's check traps outside context 0. -/
theorem steward_trap {j : Instr} {m : Op Unit} {s : State} (ht : s.me.tx.active = false) (hc : ctxNo s.cur ≠ 0)
    (hrow : Allowed j s) : performRaw j (thenNext (stewardOnly >>= fun _ => m)) s
      = .next (s.takeTrap s.cur Cause.priv 0 0 (wordOf j)) :=
  performRaw_trap hrow ht (thenNext_error (bind_error (stewardOnly_error hc)))

/-- So does one that sends a message that only context 0 may send. -/
theorem outgoing_trap {j : Instr} {d a b : BitVec 5} {len : Nat} {f : Body → Word → Op Word} {s : State}
    (ht : s.me.tx.active = false) (hc : ctxNo s.cur ≠ 0) (hrow : Allowed j s) :
    performRaw j (outgoing j d a b false len f) s = .next (s.takeTrap s.cur Cause.priv 0 0 (wordOf j)) :=
  performRaw_trap hrow ht (outgoing_error hc)

theorem privileged_trap {j : Instr} {m : Op Unit} {s : State} (ht : s.me.tx.active = false) (hc : privileged s.cur = false)
    (hrow : Allowed j s) : performRaw j (thenNext (privilegedOnly >>= fun _ => m)) s
      = .next (s.takeTrap s.cur Cause.priv 0 0 (wordOf j)) :=
  performRaw_trap hrow ht (thenNext_error (bind_error (privilegedOnly_error hc)))

/-- Outside context 0 the steward's instructions raise PRIV (R79, R376). -/
theorem exec_stewardInstr {d a b : BitVec 5} {i t g : BitVec 1} {s : State} (ht : s.me.tx.active = false)
    (hc : ctxNo s.cur ≠ 0) : ∀ j ∈ stewardInstrs d a b i t g, Allowed j s →
      exec j s = .next (s.takeTrap s.cur Cause.priv 0 0 (wordOf j)) := by
  have trap {j : Instr} {m : Op Unit} := steward_trap (j := j) (m := m) ht hc
  have send {j : Instr} {len : Nat} {f : Body → Word → Op Word} := outgoing_trap (j := j) (d := d) (a := a) (b := b)
    (len := len) (f := f) ht hc
  simp only [stewardInstrs, List.forall_mem_cons]
  refine ⟨trap, trap, trap, trap, trap, trap, trap, send, send, send, fun save => ?_, trap, trap, List.forall_mem_nil _⟩
  exact performRaw_trap save ht (bind_error (stewardOnly_error hc))

/-- Outside contexts 0 and 15 TLBF and TLBI raise PRIV (R376). -/
theorem exec_translationInstr {d a b : BitVec 5} {s : State} (ht : s.me.tx.active = false) (hc : privileged s.cur = false) :
    ∀ j ∈ [Instr.tlbf d a b, .tlbiVa d a, .tlbiPart d], Allowed j s →
      exec j s = .next (s.takeTrap s.cur Cause.priv 0 0 (wordOf j)) := by
  intro j hj hrow
  simp only [List.mem_cons, List.not_mem_nil, or_false] at hj
  rcases hj with rfl | rfl | rfl <;> exact privileged_trap ht hc hrow

/-- Inside an attempt ILLEGAL aborts with cause 4 (R170). -/
theorem exec_unassigned_inside {w : IWord} {s : State} (hm : s.me.mig = false) (ht : s.me.tx.active = true) :
    exec (.unassignedOpcode w) s = .next (s.abortTx s.cur 4 0) := by
  refine (performRaw_error (allowed_of_no_end hm (.inr rfl) rfl) (op_stop _ s)).trans (congrArg _ ?_)
  simp [State.onStop, ht]

/-- Settles O19: each body stops at its first check. -/
theorem systemCalls : Obligations.SystemCalls := by
  unfold Obligations.SystemCalls
  refine ⟨fun w s hm => ⟨fun ht => ?_, exec_unassigned_inside hm⟩, fun k s ht hm => ⟨fun hp => ⟨?_, ?_⟩, fun hp => ⟨?_, ?_⟩⟩,
    fun d a b i t g s ht hm => ⟨exec_stewardInstr ht, exec_translationInstr ht⟩⟩
  · exact performRaw_trap (allowed_of_no_end hm (.inl ht) rfl) ht (op_stop _ s)
  · exact performRaw_trap (allowed_of_no_end hm (.inl ht) rfl) ht (callTrap_user hp)
  · exact performRaw_trap (allowed_of_no_end hm (.inl ht) rfl) ht (callTrap_user hp)
  · exact performRaw_trap (allowed_of_no_end hm (.inl ht) rfl) ht (callTrap_privileged hp)
  · exact performRaw_trap (allowed_of_no_end hm (.inl ht) rfl) ht (callTrap_privileged hp)

end Sys2Proof.Machine
end

section
/-! SUPPORT. What a step is: a device step, a request, an issue or a clock cycle (log 4), and what a fetch gives (R83, R219). -/

namespace Sys2Proof.Machine

/-! ### A state in which no context is chosen -/

/-- A state in which no context is chosen. -/
def State.idle (s : State) : State := { s with issue := none }

theorem State.active_idle (s : State) (c : Nat) : s.idle.active c = s.active c := rfl

/-- A translation is one of the first level that holds the page (R216). -/
theorem State.lookup_fst (s : State) (c : Nat) (fetch : Bool) (va : Nat) : (s.lookup c fetch va).1 =
    (tlbFind (if fetch then (s.core (coreOf c)).itlb else (s.core (coreOf c)).dtlb) (s.partOf (tilOf c)) va).or
      ((tlbFind (s.til (tilOf c)).stlb (s.partOf (tilOf c)) va).or
        (tlbFind (s.die (dieOfTil (tilOf c))).lltlb (s.partOf (tilOf c)) va)) := by
  unfold State.lookup
  dsimp only
  split
  · simp [*]
  · split
    · simp [*]
    · split <;> simp [*]

theorem State.fetch_idle (s : State) (c : Nat) (pc : Word) : s.idle.fetch c pc = s.fetch c pc := by
  have hrd (a n : Nat) : s.idle.rd a n = s.rd a n := State.rd_congr a n fun _ _ _ => rfl
  simp only [State.fetch, State.fetchAt, hrd, State.lookup_fst]
  rfl

theorem State.nextRaw_idle (s : State) (c : Nat) : s.idle.nextRaw c = s.nextRaw c := by
  simp only [State.nextRaw, State.fetched, State.fetch_idle]
  rfl

theorem State.nextInstr_idle (s : State) (c : Nat) : s.idle.nextInstr c = s.nextInstr c := by
  simp only [State.nextInstr, State.nextWord, State.nextRaw_idle]
  rfl

/-- A context's operands have landed and are to be staged before it issues (R317). -/
def State.stages (s : State) (c : Nat) : Bool := (s.nextInstr c).any (fun i => s.idle.tileWaits c i)

theorem State.stages_eq_false {s : State} {c : Nat} (h : ∀ i, s.nextInstr c = some i → s.idle.tileWaits c i = false) :
    s.stages c = false := by
  cases hi : s.nextInstr c with
  | none => simp [State.stages, hi]
  | some i => simp [State.stages, hi, h i hi]

/-! ### The order of what a step may be -/

/-- What a step comes to, once its issue is decided. -/
def Issued.outcome (c : Nat) : Issued → Host.Outcome State Fault Refusal
  | .run i r s => settled s c i r (exec i s)
  | .done s => .next s

/-- The state in which a chosen context takes its word. -/
def State.issuing (s : State) (c : Nat) : State :=
  ({ s with issue := none, cur := c } : State).modMe (fun x => { x with word := none })

theorem step_agenda {s : State} {i : Instr} {r : List Instr} (hu : s.port.down = false) (ha : s.agenda = i :: r) :
    step s = exec i { s with agenda := r } := by
  simp only [step, hu, ha, Bool.false_eq_true, false_and, if_false]

theorem step_request {s t : State} {q : Request} (hu : s.port.down = false) (ha : s.agenda = [])
    (hq : s.nextRequest = some (t, q)) : step s = exec q.event t := by
  simp only [step, hu, ha, hq, Bool.false_eq_true, false_and, if_false]

/-- Nothing comes before an issue: no device step is due, and no request is to be served. -/
structure State.Quiet (s : State) : Prop where
  up : s.port.down = false
  agenda : s.agenda = []
  request : s.nextRequest = none

theorem step_issue {s : State} {c : Nat} (h : s.Quiet) (hi : s.issue = some c) :
    step s = (s.idle.issueOf c).outcome c := by
  simp only [step, State.idle, h.up, h.agenda, h.request, hi, Bool.false_eq_true, false_and, if_false]
  rfl

theorem step_clock {s : State} (h : s.Quiet) (hi : s.issue = none) :
    step s = exec (.coreClockCycle s.clock) { s with clock := (s.clock + 1) % 4096 } := by
  simp only [step, h.up, h.agenda, h.request, hi, Bool.false_eq_true, false_and, if_false]

/-- The first request that need not wait is the one at the head of the inbox, if it need not. -/
theorem State.nextRequest_head {s : State} {q : Request} {r : List Request} (h : s.port.inbox = q :: r)
    (hq : s.port.blocked q = false) : s.nextRequest = some (s, q) := by
  have hp : ({ s.port with inbox := q :: (q :: r).erase q } : Port) = s.port := by rw [List.erase_cons_head, ← h]
  have hs : s.modPort (fun p => { p with inbox := q :: p.inbox.erase q }) = s := by
    rw [State.modPort, h, hp]
  rw [State.nextRequest, h, List.find?_cons_of_pos (by simp [hq])]
  exact congrArg (fun t => some (t, q)) hs

theorem State.nextRequest_eq_none {s : State} : s.nextRequest = none ↔ ∀ q ∈ s.port.inbox, s.port.blocked q = true := by
  simp [State.nextRequest]

/-! ### The issue of a context -/

section
variable {s : State} {c : Nat} {w : IWord} {i : Instr} {e : DecodeErr}

theorem issueOf_inactive (h : s.active c = false) :
    s.idle.issueOf c = .done (({ s with issue := some c } : State).withdrawIssue c) := by
  simp only [State.issueOf, State.active_idle, h, Bool.not_false, if_true]
  rfl

theorem issueOf_stages (h : s.active c = true) (hs : s.stages c = true) : s.idle.issueOf c =
    .done ((({ s with issue := some c } : State).withdrawIssue c).modCtx c (fun x => { x with lastIssue := none })) := by
  rw [State.stages] at hs
  simp only [State.issueOf, State.active_idle, State.nextInstr_idle, h, hs, Bool.not_true, Bool.false_eq_true, if_false, if_true]
  rfl

/-- A context that issues: it is active, and nothing is to be staged for it. -/
structure State.Issues (s : State) (c : Nat) : Prop where
  active : s.active c = true
  staged : s.stages c = false

theorem State.Issues.any_tileWaits (h : s.Issues c) : (s.nextInstr c).any (fun i => s.idle.tileWaits c i) = false := h.staged

theorem State.issuing_eq (s : State) (c : Nat) :
    ({ s.idle with cur := c } : State).modMe (fun x => { x with word := none }) = s.issuing c := rfl

/-- The state in which a captured word is kept (R44). -/
def State.capturing (s : State) (w : IWord) : State :=
  s.modMe (fun x => { x with frame := { x.frame with
    words := if x.frame.i < x.frame.words.length then x.frame.words else x.frame.words ++ [w] } })

theorem issueOf_trap {cause : Nat} (h : s.Issues c) (hn : s.nextRaw c = .trap cause) :
    s.idle.issueOf c = .done ((s.issuing c).trapAt cause (s.issuing c).me.pc 0) := by
  simp only [State.issueOf, State.active_idle, State.nextInstr_idle, h.active, h.any_tileWaits, State.nextRaw_idle, hn, Bool.not_true,
    Bool.false_eq_true, if_false, State.issuing_eq]

/-- A context starts what a word decodes to, or traps (R29, R40). -/
def State.startWord (s : State) (c : Nat) (w : IWord) : Issued :=
  match decode w with
  | .ok i => s.starts c i
  | .error _ => .done (s.trapAt Cause.illegal 0 w)

/-- What a context issues for a word that it has taken. -/
def State.issueWord (s : State) (c : Nat) (w : IWord) : Issued :=
  if s.me.framed then
    if !isArithmetic w then .done ((s.modMe (fun x => { x with frame := .clear })).trapAt Cause.illegal 0 w)
    else (s.capturing w).startWord c ((s.capturing w).me.frame.stepWord w (s.capturing w).me.frame.k)
  else s.startWord c w

theorem issueOf_word (h : s.Issues c) (hn : s.nextRaw c = .word w) : s.idle.issueOf c = (s.issuing c).issueWord c w := by
  simp only [State.issueOf, State.active_idle, State.nextInstr_idle, h.active, h.any_tileWaits, State.nextRaw_idle, hn, Bool.not_true,
    Bool.false_eq_true, if_false, State.issuing_eq]
  rfl

/-- Outside a frame the context starts what its word decodes to. -/
theorem issueWord_ok (hf : s.me.framed = false) (hd : decode w = .ok i) : s.issueWord c w = s.starts c i := by
  simp [State.issueWord, State.startWord, hf, hd]

theorem issueWord_error (hf : s.me.framed = false) (hd : decode w = .error e) :
    s.issueWord c w = .done (s.trapAt Cause.illegal 0 w) := by
  simp [State.issueWord, State.startWord, hf, hd]

/-- A frame keeps the word, steps it by its strides, and the context starts what it decodes to (R43, R44). -/
theorem issueWord_captured (hf : s.me.framed = true) (ha : isArithmetic w = true)
    (hd : decode ((s.capturing w).me.frame.stepWord w (s.capturing w).me.frame.k) = .ok i) :
    s.issueWord c w = (s.capturing w).starts c i := by
  simp [State.issueWord, State.startWord, hf, ha, hd]

theorem issueWord_uncaptured (hf : s.me.framed = true) (ha : isArithmetic w = false) :
    s.issueWord c w = .done ((s.modMe (fun x => { x with frame := .clear })).trapAt Cause.illegal 0 w) := by
  simp [State.issueWord, hf, ha]

/-- Outside an attempt what stands at a pc traps to the strand's steward. -/
theorem State.trapAt_outside {cause : Nat} {va : Word} (h : s.me.tx.active = false) :
    s.trapAt cause va w = s.takeTrap s.cur cause 0 va w := State.onStop_trap h
end

/-! ### Fetches -/

theorem State.fetched_eq_fetch {s : State} {c : Nat} (h : (s.ctx c).word = none) : s.fetched c = s.fetch c (s.ctx c).pc := by
  simp [State.fetched, h]

theorem State.fetched_word {s : State} {c : Nat} {w : IWord} (h : (s.ctx c).word = some ((s.ctx c).pc, w)) :
    s.fetched c = .word w := by
  simp [State.fetched, h]

theorem State.nextRaw_unframed {s : State} {c : Nat} (h : (s.ctx c).framed = false) : s.nextRaw c = s.fetched c := by
  simp [State.nextRaw, h]

theorem State.fetchAt_same {s : State} {l : CacheLine} {pa : Nat}
    (h : l.data.extractLsb' (8 * (pa % 64)) 32 = BitVec.ofNat 32 (s.rd pa 4)) : s.fetchAt l pa = BitVec.ofNat 32 (s.rd pa 4) := by
  simp [State.fetchAt, h]

section
variable {s : State} {c : Nat} {pc : Word} {e : TlbEntry}

theorem State.fetch_high (h : 2 ^ 52 ≤ pc.toNat) : s.fetch c pc = .trap Cause.addr := if_pos h

theorem permFault_fetch {e : Word} : permFault .fetch e = if entEx e then none else some 4 := rfl

variable (hpc : pc.toNat < 2 ^ 52) (he : tlbFind (s.core (coreOf c)).itlb (s.partOf (tilOf c)) pc.toNat = some e)
include hpc he

/-- A fetch of a page that the instruction TLB holds needs EX. -/
theorem State.fetch_noEx (hx : entEx e.entry = false) : s.fetch c pc = .fault 4 := by
  rw [State.fetch, if_neg (Nat.not_le.mpr hpc)]
  simp [State.lookup_fst, he, permFault_fetch, hx]

theorem State.fetch_noLine (hx : entEx e.entry = true)
    (hl : (s.til (tilOf c)).icache.find? (fun l => l.line == e.pa pc.toNat (dieOfTil (tilOf c)) / 64) = none) :
    s.fetch c pc = if s.poisoned (e.pa pc.toNat (dieOfTil (tilOf c))) 4 then .trap Cause.poison
      else .late (1 + Config.freeNat s.nonce) := by
  rw [State.fetch, if_neg (Nat.not_le.mpr hpc)]
  simp [State.lookup_fst, he, permFault_fetch, hx, hl, State.tlbDelay]

theorem State.fetch_line {l : CacheLine} (hx : entEx e.entry = true)
    (hl : (s.til (tilOf c)).icache.find? (fun l => l.line == e.pa pc.toNat (dieOfTil (tilOf c)) / 64) = some l) :
    s.fetch c pc = .word (s.fetchAt l (e.pa pc.toNat (dieOfTil (tilOf c)))) := by
  rw [State.fetch, if_neg (Nat.not_le.mpr hpc)]
  simp [State.lookup_fst, he, permFault_fetch, hx, hl, State.tlbDelay]

end

/-! ### The statement -/

/-- A context whose choice to issue is withdrawn stays where it is. -/
theorem State.withdrawIssue_kept {s : State} {c : Nat} (h : s.issue = some c) :
    (s.withdrawIssue c).issue = none ∧ ((s.withdrawIssue c).ctx c).pc = (s.ctx c).pc ∧ (s.withdrawIssue c).mem = s.mem := by
  obtain ⟨n, hn⟩ := s.ctx_withdrawIssue c
  refine ⟨?_, by rw [hn], ?_⟩ <;> rw [State.withdrawIssue_eq, if_pos h]
  rfl

/-- A context that a step since its choice has stopped, or whose operands are to be staged, does not issue (R317). -/
theorem step_withdraws {s : State} {c : Nat} (h : s.Quiet) (hi : s.issue = some c) (hw : s.active c = false ∨ s.stages c = true) :
    ∃ u, step s = .next u ∧ u.issue = none ∧ (u.ctx c).pc = (s.ctx c).pc ∧ u.mem = s.mem := by
  obtain ⟨hnone, hpc, hmem⟩ := State.withdrawIssue_kept (s := { s with issue := some c }) rfl
  cases ha : s.active c with
  | false => exact ⟨_, (step_issue h hi).trans (congrArg _ (issueOf_inactive ha)), hnone, hpc, hmem⟩
  | true =>
    have hs : s.stages c = true := hw.resolve_left (by simp [ha])
    refine ⟨_, (step_issue h hi).trans (congrArg _ (issueOf_stages ha hs)), hnone, ?_, hmem⟩
    rw [State.ctx_modCtx]
    exact hpc

/-- What an issue raises outside an attempt is the step's trap. -/
theorem step_trapAt {s t : State} {c cause : Nat} {va : Word} {w : IWord} (h : s.Quiet) (hi : s.issue = some c)
    (hx : s.idle.issueOf c = .done (t.trapAt cause va w)) (ht : t.me.tx.active = false) :
    step s = .next (t.takeTrap t.cur cause 0 va w) := by
  rw [step_issue h hi, hx, Issued.outcome, State.trapAt_outside ht]

/-- Settles O4: the order of a step's parts, the word that a context takes, and what a fetch gives are those of `step`, of
`issueOf` and of `fetch`. -/
theorem stepRunsDecoded : Obligations.StepRunsDecoded := by
  unfold Obligations.StepRunsDecoded
  refine ⟨fun s c w i => ?runs, fun s hu => ⟨fun i r ha => step_agenda hu ha, fun ha q r hin hq => ?request,
    fun ha hq => step_clock ⟨hu, ha, hq⟩, State.nextRequest_eq_none.symm⟩, fun s c w e cause => ?traps,
    fun s c w hf => ⟨fun h => ?_, fun h => ?_⟩, fun s c pc _ => ⟨State.fetch_high, fun e hpc he => ?fetches⟩⟩
  case runs =>
    intro t runs staging hu hag hq hi
    have quiet : s.Quiet := ⟨hu, hag, hq⟩
    refine ⟨fun ha hs hn => ?_, step_withdraws quiet hi⟩
    have issues : s.Issues c := ⟨ha, Bool.eq_false_of_not_eq_true hs⟩
    refine ⟨fun hf hd => ?_, fun hf har hd => ?_⟩
    · exact (step_issue quiet hi).trans (congrArg _ ((issueOf_word issues hn).trans (issueWord_ok hf hd)))
    · exact (step_issue quiet hi).trans (congrArg _ ((issueOf_word issues hn).trans (issueWord_captured hf har hd)))
  case request => exact step_request hu ha (State.nextRequest_head hin hq)
  case traps =>
    intro t hu hag hq hi ha htx hw
    have quiet : s.Quiet := ⟨hu, hag, hq⟩
    have issues : s.Issues c := ⟨ha, State.stages_eq_false hw⟩
    refine ⟨fun hn => step_trapAt quiet hi (issueOf_trap issues hn) htx, fun hn => ⟨fun hf hd => ?_, fun hf har => ?_⟩⟩
    · exact step_trapAt quiet hi ((issueOf_word issues hn).trans (issueWord_error hf hd)) htx
    · refine step_trapAt quiet hi ((issueOf_word issues hn).trans (issueWord_uncaptured hf har)) ?_
      rw [State.me_modMe]
      exact htx
  case fetches =>
    refine ⟨State.fetch_noEx hpc he, fun hx hl hp => ?_, fun hx hl hp => ⟨1 + Config.freeNat s.nonce, by omega, ?_⟩,
      fun l hx hl hd => ?_⟩
    · rw [State.fetch_noLine hpc he hx hl, if_pos hp]
    · rw [State.fetch_noLine hpc he hx hl, if_neg (by simp [hp])]
    · rw [State.fetch_line hpc he hx hl, State.fetchAt_same hd]
  · rw [State.nextRaw_unframed hf, State.fetched_eq_fetch h]
  · rw [State.nextRaw_unframed hf, State.fetched_word h]
end Sys2Proof.Machine
end

section
/-! SUPPORT. The scalar integer class (R58 to R67): its operations as numbers, its three shapes, and what an instruction of it leaves
unchanged. -/

namespace Sys2Proof.Machine

/-! ### The operations of R58 and R59 as numbers -/

theorem toNat_count (y : Word) : count y = y.toNat % 64 := by
  rw [count, BitVec.extractLsb'_toNat, Nat.shiftRight_zero]

theorem sub_eq_ofInt (x y : Word) : x - y = BitVec.ofInt 64 ((x.toNat : Int) - y.toNat) := by
  apply BitVec.eq_of_toInt_eq
  rw [BitVec.toInt_sub, BitVec.toInt_ofInt]
  simp only [BitVec.toInt_eq_toNat_bmod, Int.bmod_sub_bmod, Int.sub_bmod_bmod]

theorem mul_eq_ofNat (x y : Word) : x * y = BitVec.ofNat 64 (x.toNat * y.toNat) := rfl

theorem opShl_eq (x y : Word) : opShl x y = BitVec.ofNat 64 (x.toNat * 2 ^ (y.toNat % 64)) := by
  apply BitVec.eq_of_toNat_eq
  rw [opShl, BitVec.toNat_shiftLeft, BitVec.toNat_ofNat, toNat_count, Nat.shiftLeft_eq]

theorem opShr_eq (x y : Word) : opShr x y = BitVec.ofNat 64 (x.toNat / 2 ^ (y.toNat % 64)) := by
  have : x.toNat / 2 ^ (y.toNat % 64) < 2 ^ 64 := (Nat.div_le_self _ _).trans_lt x.isLt
  apply BitVec.eq_of_toNat_eq
  rw [opShr, BitVec.toNat_ushiftRight, BitVec.toNat_ofNat, toNat_count, Nat.shiftRight_eq_div_pow, Nat.mod_eq_of_lt this]

theorem opSra_eq (x y : Word) : opSra x y = BitVec.ofInt 64 (x.toInt / 2 ^ (y.toNat % 64)) := by
  apply BitVec.eq_of_toInt_eq
  rw [opSra, ← BitVec.ofInt_toInt (x := x.sshiftRight (count y)), BitVec.toInt_sshiftRight, Int.shiftRight_eq_div_pow, toNat_count]
  norm_cast

theorem opRot_eq (x y : Word) : opRot x y =
    BitVec.ofNat 64 (x.toNat / 2 ^ (y.toNat % 64) + x.toNat * 2 ^ (64 - y.toNat % 64)) := by
  have hk : y.toNat % 64 < 64 := Nat.mod_lt _ (by decide)
  apply BitVec.eq_of_toNat_eq
  rw [opRot, toNat_count, BitVec.toNat_rotateRight, Nat.mod_eq_of_lt hk, BitVec.toNat_ofNat, Nat.shiftRight_eq_div_pow,
    Nat.shiftLeft_eq]
  generalize y.toNat % 64 = r at hk
  have split : 2 ^ 64 = 2 ^ (64 - r) * 2 ^ r := by rw [← Nat.pow_add, Nat.sub_add_cancel hk.le]
  have low : x.toNat / 2 ^ r < 2 ^ (64 - r) := by
    rw [Nat.div_lt_iff_lt_mul (Nat.two_pow_pos r), ← split]
    exact x.isLt
  have high : x.toNat * 2 ^ (64 - r) % 2 ^ 64 = 2 ^ (64 - r) * (x.toNat % 2 ^ r) := by
    rw [split, Nat.mul_comm x.toNat, Nat.mul_mod_mul_left]
  have fits : 2 ^ (64 - r) * (x.toNat % 2 ^ r) + x.toNat / 2 ^ r < 2 ^ 64 :=
    calc 2 ^ (64 - r) * (x.toNat % 2 ^ r) + x.toNat / 2 ^ r < 2 ^ (64 - r) * (x.toNat % 2 ^ r + 1) := by rw [Nat.mul_succ]; omega
      _ ≤ 2 ^ 64 := split ▸ Nat.mul_le_mul_left _ (Nat.mod_lt _ (Nat.two_pow_pos r))
  rw [← Nat.add_mod_mod, high, Nat.add_comm, Nat.mod_eq_of_lt fits, Nat.two_pow_add_eq_or_of_lt low, Nat.lor_comm]

theorem opMin_eq (x y : Word) : opMin x y = BitVec.ofInt 64 (min x.toInt y.toInt) := by
  unfold opMin
  split <;> rename_i h <;> rw [BitVec.slt_iff_toInt_lt] at h
  · rw [min_eq_right h.le, BitVec.ofInt_toInt]
  · rw [min_eq_left (not_lt.mp h), BitVec.ofInt_toInt]

theorem opMax_eq (x y : Word) : opMax x y = BitVec.ofInt 64 (max x.toInt y.toInt) := by
  unfold opMax
  split <;> rename_i h <;> rw [BitVec.slt_iff_toInt_lt] at h
  · rw [max_eq_right h.le, BitVec.ofInt_toInt]
  · rw [max_eq_left (not_lt.mp h), BitVec.ofInt_toInt]

theorem opMinn_eq (x y : Word) : opMinn x y = BitVec.ofNat 64 (min x.toNat y.toNat) := by
  unfold opMinn
  split <;> rename_i h <;> rw [BitVec.ult_iff_lt, BitVec.lt_def] at h
  · rw [min_eq_right h.le, BitVec.ofNat_toNat, BitVec.setWidth_eq]
  · rw [min_eq_left (not_lt.mp h), BitVec.ofNat_toNat, BitVec.setWidth_eq]

theorem opMaxn_eq (x y : Word) : opMaxn x y = BitVec.ofNat 64 (max x.toNat y.toNat) := by
  unfold opMaxn
  split <;> rename_i h <;> rw [BitVec.ult_iff_lt, BitVec.lt_def] at h
  · rw [max_eq_right h.le, BitVec.ofNat_toNat, BitVec.setWidth_eq]
  · rw [max_eq_left (not_lt.mp h), BitVec.ofNat_toNat, BitVec.setWidth_eq]

theorem opSlt_eq (x y : Word) : opSlt x y = if x.toInt < y.toInt then 1 else 0 := by
  simp only [opSlt, BitVec.slt_iff_toInt_lt]

theorem opSltn_eq (x y : Word) : opSltn x y = if x.toNat < y.toNat then 1 else 0 := by
  simp only [opSltn, BitVec.ult_iff_lt, BitVec.lt_def]

theorem opRem_eq (x y : Word) :
    opRem x y = if y = 0 then x else BitVec.ofInt 64 (x.toInt - x.toInt.tdiv y.toInt * y.toInt) := by
  rw [opRem, Int.tmod_def, Int.mul_comm y.toInt]

/-- Each of the two-operand instructions is the shape that they share, with its operation. -/
theorem exec_scalarTwo : ∀ p ∈ scalarTwo, ∀ (d a b : BitVec 5) (i : BitVec 1) (s : State),
    exec (p.1 d a b i) s = perform (p.1 d a b i) (alu2 d a b i p.2) s := by
  have run {j : Instr} {d a b : BitVec 5} {i : BitVec 1} {f g : Word → Word → Word} (s : State) (h : ∀ x y, f x y = g x y) :
      perform j (alu2 d a b i f) s = perform j (alu2 d a b i g) s := by
    rw [show f = g from funext fun x => funext (h x)]
  simp only [scalarTwo, List.forall_mem_cons]
  exact ⟨fun _ _ _ _ s => run s BitVec.add_def, fun _ _ _ _ s => run s sub_eq_ofInt, fun _ _ _ _ s => run s mul_eq_ofNat,
    fun _ _ _ _ _ => rfl, fun _ _ _ _ _ => rfl, fun _ _ _ _ _ => rfl, fun _ _ _ _ _ => rfl, fun _ _ _ _ _ => rfl,
    fun _ _ _ _ _ => rfl, fun _ _ _ _ s => run s opShl_eq, fun _ _ _ _ s => run s opShr_eq, fun _ _ _ _ s => run s opSra_eq,
    fun _ _ _ _ s => run s opRot_eq, fun _ _ _ _ s => run s opMin_eq, fun _ _ _ _ s => run s opMax_eq,
    fun _ _ _ _ s => run s opMinn_eq, fun _ _ _ _ s => run s opMaxn_eq, fun _ _ _ _ s => run s opSlt_eq,
    fun _ _ _ _ s => run s opSltn_eq, fun _ _ _ _ _ => rfl, fun _ _ _ _ _ => rfl, fun _ _ _ _ _ => rfl,
    fun _ _ _ _ s => run s opRem_eq, fun _ _ _ _ _ => rfl, List.forall_mem_nil _⟩

/-! ### The shapes of the class -/

section
variable {d a b : BitVec 5} {i : BitVec 1} {s r t u v w : State} {x y c : Word} {j : Instr}

theorem thenNext_ok {m : Op Unit} (h : m s = .ok ((), t)) : thenNext m s = .ok (.next, t) := by
  rw [thenNext, op_bind, h]
  rfl

theorem alu1_ok {f : Word → Word} (ha : Reads a r x t) (hw : Writes d t (f x) v) : alu1 d a f r = .ok (.next, v) :=
  thenNext_ok (by rw [op_bind, show rdS a r = .ok (x, t) from ha]; exact hw)

theorem alu2_ok {f : Word → Word → Word} (ha : Reads a r x t) (hb : ReadsB i b t y u) (hw : Writes d u (f x y) v) :
    alu2 d a b i f r = .ok (.next, v) := by
  refine thenNext_ok ?_
  rw [op_bind, show rdS a r = .ok (x, t) from ha, except_bind_ok, op_bind, show rdB i b t = .ok (y, u) from hb]
  exact hw

theorem alu3_ok {f : Word → Word → Word → Word} (hd : Reads d r c t) (ha : Reads a t x u) (hb : ReadsB i b u y v)
    (hw : Writes d v (f c x y) w) : alu3 d a b i f r = .ok (.next, w) := by
  refine thenNext_ok ?_
  rw [op_bind, show rdS d r = .ok (c, t) from hd, except_bind_ok, op_bind, show rdS a t = .ok (x, u) from ha, except_bind_ok,
    op_bind, show rdB i b u = .ok (y, v) from hb]
  exact hw

end

/-- Settles O9: the instructions differ in their operation alone. -/
theorem scalarTwoOperands : Obligations.ScalarTwoOperands := by
  intro p hp d a b i s r t u v x y hr ha hb hw
  rw [exec_scalarTwo p hp]
  exact perform_ok hr (alu2_ok ha hb hw)

/-! ### Scaled add, bit fields, bit counts and immediates -/

theorem scaledAdd_eq (x y : Word) (k : Nat) : x + y * BitVec.ofNat 64 (2 ^ k) = BitVec.ofNat 64 (x.toNat + y.toNat * 2 ^ k) := by
  apply BitVec.eq_of_toNat_eq
  simp only [BitVec.toNat_add, BitVec.toNat_mul, BitVec.toNat_ofNat, Nat.mul_mod_mod, Nat.add_mod_mod]

theorem fieldOf_eq (i : BitVec 1) (w : BitVec 5) (y : Word) : fieldOf i w y = (y.toNat % 64,
    if i = 1 then w.toNat + 1 else if y.toNat / 256 % 64 = 0 then 64 else y.toNat / 256 % 64) := by
  have pos : (y.extractLsb' 0 6).toNat = y.toNat % 64 := by rw [BitVec.extractLsb'_toNat, Nat.shiftRight_zero]
  have width : (y.extractLsb' 8 6).toNat = y.toNat / 256 % 64 := by rw [BitVec.extractLsb'_toNat, Nat.shiftRight_eq_div_pow]
  unfold fieldOf
  split <;> simp [pos, width]

theorem opBfx_unsigned (x : Word) (pos n : Nat) : opBfx (decide ((0 : BitVec 1) = 1)) x pos n = BitVec.ofNat 64 (x.toNat / 2 ^ pos % 2 ^ n) := by
  simp [opBfx]

theorem opBfx_signed (x : Word) (pos n : Nat) : opBfx (decide ((1 : BitVec 1) = 1)) x pos n = BitVec.ofInt 64
    (if x.toNat / 2 ^ pos % 2 ^ n < 2 ^ (n - 1) then x.toNat / 2 ^ pos % 2 ^ n
     else ((x.toNat / 2 ^ pos % 2 ^ n : Nat) : Int) - 2 ^ n) := by
  simp only [opBfx, decide_true, true_and, ← not_lt, ite_not]
  split
  · rfl
  · norm_cast

/-- Leading zeros are counted from the highest bit down. -/
theorem zerosTop_eq (x : Word) (n : Nat) : zerosTop x n = ((List.range n).takeWhile (fun j => !x.getLsbD (n - 1 - j))).length := by
  induction n with
  | zero => rfl
  | succ n ih =>
    have shift : (fun j => !x.getLsbD (n + 1 - 1 - j)) ∘ Nat.succ = fun j => !x.getLsbD (n - 1 - j) := by
      funext j
      simp only [Function.comp, Nat.succ_eq_add_one, Nat.add_sub_cancel, Nat.sub_sub, Nat.add_comm 1 j]
    rw [zerosTop, List.range_succ_eq_map, List.takeWhile_cons, List.takeWhile_map, shift, ih]
    cases h : x.getLsbD n <;> simp [h, Nat.add_comm]

/-- Trailing zeros are counted from the lowest bit up. -/
theorem zerosFrom_eq (x : Word) (n : Nat) (hn : n ≤ 64) :
    zerosFrom x n = ((List.range n).takeWhile (fun j => !x.getLsbD (64 - n + j))).length := by
  induction n with
  | zero => rfl
  | succ n ih =>
    have shift : (fun j => !x.getLsbD (64 - (n + 1) + j)) ∘ Nat.succ = fun j => !x.getLsbD (64 - n + j) := by
      funext j
      rw [Function.comp, show 64 - (n + 1) + Nat.succ j = 64 - n + j by omega]
    have first : 64 - (n + 1) + 0 = 63 - n := by omega
    rw [zerosFrom, List.range_succ_eq_map, List.takeWhile_cons, List.takeWhile_map, shift, first, ih (by omega)]
    cases h : x.getLsbD (63 - n) <;> simp [Nat.add_comm]

theorem onesBelow_eq (x : Word) (n : Nat) : onesBelow x n = ((List.range n).filter (fun j => x.getLsbD j)).length := by
  induction n with
  | zero => rfl
  | succ n ih =>
    rw [onesBelow, List.range_succ, List.filter_append, List.length_append, ih]
    cases h : x.getLsbD n <;> simp [h, Nat.add_comm]

theorem opClz_eq (x : Word) : opClz x = BitVec.ofNat 64 ((List.range 64).takeWhile (fun j => !x.getLsbD (63 - j))).length :=
  congrArg (BitVec.ofNat 64) (zerosTop_eq x 64)

theorem opCtz_eq (x : Word) : opCtz x = BitVec.ofNat 64 ((List.range 64).takeWhile (fun j => !x.getLsbD j)).length := by
  rw [opCtz, zerosFrom_eq x 64 le_rfl]
  simp only [Nat.sub_self, Nat.zero_add]

theorem opPopc_eq (x : Word) : opPopc x = BitVec.ofNat 64 ((List.range 64).filter (fun j => x.getLsbD j)).length := by
  rw [opPopc, onesBelow_eq]

/-- An immediate is extended by its sign. -/
theorem signExtend_eq_ofInt {n : Nat} (k : BitVec n) : k.signExtend 64 = BitVec.ofInt 64 k.toInt := rfl

theorem addi_eq (x : Word) (k : BitVec 14) : x + k.signExtend 64 = BitVec.ofInt 64 (x.toNat + k.toInt) := by
  rw [signExtend_eq_ofInt, BitVec.ofInt_add, BitVec.ofInt_natCast, BitVec.ofNat_toNat, BitVec.setWidth_eq]

theorem lihValue_signed (k : BitVec 16) : lihValue 0 k = BitVec.ofInt 64 k.toInt := rfl

theorem lihValue_natural (k : BitVec 16) : lihValue 1 k = BitVec.ofNat 64 k.toNat := (BitVec.ofNat_toNat 64 k).symm

theorem lihValue_high (k : BitVec 16) : lihValue 6 k = BitVec.ofNat 64 (k.toNat * 65536) := by
  apply BitVec.eq_of_toNat_eq
  show ((k ++ 0#16).setWidth 64).toNat = _
  rw [BitVec.toNat_setWidth, BitVec.toNat_ofNat, BitVec.toNat_append, BitVec.toNat_ofNat, Nat.shiftLeft_eq, Nat.zero_mod, Nat.or_zero]

section
variable {d a b : BitVec 5} {i x : BitVec 1} {wd : BitVec 5} {sc : BitVec 3} {s : State}

theorem exec_lea : exec (.lea d a b sc i) s =
    perform (.lea d a b sc i) (alu2 d a b i (fun x y => x + y * BitVec.ofNat 64 (2 ^ sc.toNat))) s := rfl
theorem exec_sel : exec (.sel d a b i) s = perform (.sel d a b i) (alu3 d a b i (fun c x y => if c ≠ 0 then x else y)) s := rfl
theorem exec_bfx : exec (.bfx d a b x i wd) s =
    perform (.bfx d a b x i wd) (alu2 d a b i (fun v y => opBfx (x = 1) v (fieldOf i wd y).1 (fieldOf i wd y).2)) s := rfl
theorem exec_bfi : exec (.bfi d a b i wd) s =
    perform (.bfi d a b i wd) (alu3 d a b i (fun old v y => opBfi old v (fieldOf i wd y).1 (fieldOf i wd y).2)) s := rfl
theorem exec_clz : exec (.clz d a) s = perform (.clz d a) (alu1 d a opClz) s := rfl
theorem exec_ctz : exec (.ctz d a) s = perform (.ctz d a) (alu1 d a opCtz) s := rfl
theorem exec_popc : exec (.popc d a) s = perform (.popc d a) (alu1 d a opPopc) s := rfl
theorem exec_addi {k : BitVec 14} : exec (.addi d a k) s = perform (.addi d a k) (alu1 d a (fun x => x + k.signExtend 64)) s := rfl
theorem exec_andi {k : BitVec 14} : exec (.andi d a k) s = perform (.andi d a k) (alu1 d a (fun x => x &&& k.signExtend 64)) s := rfl
theorem exec_lih {t : BitVec 3} {k : BitVec 16} : exec (.lih d t k) s = perform (.lih d t k) (thenNext (wrS d (lihValue t k))) s := rfl
end

/-- Settles O10: each instruction is its shape, with an operation that is the statement's. -/
theorem scalarUnary : Obligations.ScalarUnary := by
  refine ⟨fun d a b i s r t u v w c x y ha hb => ⟨fun sc hr hw => ?lea, fun hd hr hw => ?sel, fun wd => ?fields⟩,
    fun d a s r t v x ha => ⟨fun hr hw => ?clz, fun hr hw => ?ctz, fun hr hw => ?popc⟩,
    fun d a s r t v x => ⟨fun k ha => ⟨fun hr hw => ?addi, fun hr hw => ?andi⟩,
      fun k => ⟨fun hr hw => ?signed, fun hr hw => ?natural, fun hr hw => ?high⟩⟩⟩
  case lea => exact exec_lea.trans (perform_ok hr (alu2_ok ha hb (by rwa [scaledAdd_eq])))
  case sel => exact exec_sel.trans (perform_ok hr (alu3_ok hd ha hb (by exact hw)))
  case fields =>
    intro pos n field mask
    refine ⟨fun hr hw => exec_bfx.trans (perform_ok hr (alu2_ok ha hb ?_)),
      fun hr hw => exec_bfx.trans (perform_ok hr (alu2_ok ha hb ?_)),
      fun hd hr hw => exec_bfi.trans (perform_ok hr (alu3_ok hd ha hb ?_))⟩ <;> rw [fieldOf_eq]
    · rwa [opBfx_unsigned]
    · rwa [opBfx_signed]
    · exact hw
  case clz => exact exec_clz.trans (perform_ok hr (alu1_ok ha (by rwa [opClz_eq])))
  case ctz => exact exec_ctz.trans (perform_ok hr (alu1_ok ha (by rwa [opCtz_eq])))
  case popc => exact exec_popc.trans (perform_ok hr (alu1_ok ha (by rwa [opPopc_eq])))
  case addi => exact exec_addi.trans (perform_ok hr (alu1_ok ha (by rwa [addi_eq])))
  case andi => exact exec_andi.trans (perform_ok hr (alu1_ok ha (by exact hw)))
  case signed => exact exec_lih.trans (perform_ok hr (thenNext_ok (by rwa [lihValue_signed])))
  case natural => exact exec_lih.trans (perform_ok hr (thenNext_ok (by rwa [lihValue_natural])))
  case high => exact exec_lih.trans (perform_ok hr (thenNext_ok (by rwa [lihValue_high])))

/-! ### What the class leaves unchanged -/

/-- Control changes the pc and the frame alone. -/
theorem Ctx.advance_eq (x : Ctx) : ∃ f p, x.advance = { x with frame := f, pc := p } := by
  unfold Ctx.advance
  split
  · exact ⟨_, _, rfl⟩
  · exact ⟨x.frame, _, rfl⟩

theorem Ctx.setS_eq (x : Ctx) (n : Nat) (w : Word) : ∃ l, x.setS n w = { x with s := l } := by
  unfold Ctx.setS
  split
  · exact ⟨x.s, rfl⟩
  · exact ⟨_, rfl⟩

theorem Ctx.getS_setS_ne (x : Ctx) {n m : Nat} (w : Word) (h : m ≠ n) : (x.setS n w).getS m = x.getS m := by
  unfold Ctx.setS
  split
  · rfl
  · simp [Ctx.getS, Vector.getElem?_setIfInBounds_ne (Ne.symm h)]

/-- The instruction writes its D alone and goes on. -/
def WritesAlone (i : Instr) (d : BitVec 5) (s : State) : Prop :=
  ∃ w, exec i s = .next (s.modMe (fun x => x.setS d.toNat w)).past

section
variable {d a b : BitVec 5} {i : BitVec 1} {s : State} {j : Instr}

/-- The fields that an instruction of the class names are registers. -/
theorem alu1_plain {f : Word → Word} (ha : s.me.endOf (.s a.toNat) = none) (hd : s.me.endOf (.s d.toNat) = none) :
    alu1 d a f s = .ok (.next, s.modMe (fun x => x.setS d.toNat (f (s.me.getS a.toNat)))) :=
  alu1_ok (rdS_plain ha) (wrS_plain hd)

theorem alu2_plain {f : Word → Word → Word} (ha : s.me.endOf (.s a.toNat) = none)
    (hb : i = 0 → s.me.endOf (.s b.toNat) = none) (hd : s.me.endOf (.s d.toNat) = none) :
    alu2 d a b i f s = .ok (.next, s.modMe (fun x => x.setS d.toNat (f (s.me.getS a.toNat) (s.me.opB i b)))) :=
  alu2_ok (rdS_plain ha) (rdB_plain hb) (wrS_plain hd)

theorem alu3_plain {f : Word → Word → Word → Word} (ha : s.me.endOf (.s a.toNat) = none)
    (hb : i = 0 → s.me.endOf (.s b.toNat) = none) (hd : s.me.endOf (.s d.toNat) = none) : alu3 d a b i f s =
      .ok (.next, s.modMe (fun x => x.setS d.toNat (f (s.me.getS d.toNat) (s.me.getS a.toNat) (s.me.opB i b)))) :=
  alu3_ok (rdS_plain hd) (rdS_plain ha) (rdB_plain hb) (wrS_plain hd)

theorem writesAlone_of_body {body : Op Flow} {w : Word} (h : Plain j s) (he : exec j s = perform j body s)
    (hb : body s = .ok (.next, s.modMe (fun x => x.setS d.toNat w))) : WritesAlone j d s :=
  ⟨w, by rw [he, perform_plain h, hb]; rfl⟩

theorem writesAlone_alu1 {f : Word → Word} (h : Plain j s) (he : exec j s = perform j (alu1 d a f) s)
    (hr : j.reads = [.s a.toNat]) (hw : j.writes = [.s d.toNat]) : WritesAlone j d s :=
  writesAlone_of_body h he (alu1_plain (h.field (by simp [hr])) (h.field (by simp [hw])))

theorem writesAlone_alu2 {f : Word → Word → Word} (h : Plain j s) (he : exec j s = perform j (alu2 d a b i f) s)
    (hr : j.reads = [.s a.toNat] ++ (if i = 0 then [.s b.toNat] else [])) (hw : j.writes = [.s d.toNat]) : WritesAlone j d s :=
  writesAlone_of_body h he (alu2_plain (h.field (by simp [hr])) (fun hi => h.field (by simp [hr, hi])) (h.field (by simp [hw])))

theorem writesAlone_alu3 {f : Word → Word → Word → Word} (h : Plain j s) (he : exec j s = perform j (alu3 d a b i f) s)
    (hr : j.reads = [.s a.toNat] ++ (if i = 0 then [.s b.toNat] else [])) (hd : j.readsAndWrites = [.s d.toNat]) : WritesAlone j d s :=
  writesAlone_of_body h he (alu3_plain (h.field (by simp [hr])) (fun hi => h.field (by simp [hr, hi])) (h.field (by simp [hd])))

end

/-- The two-operand instructions read A, then B unless it is an immediate, and write D (R30, R58). -/
theorem fields_scalarTwo : ∀ p ∈ scalarTwo, ∀ (d a b : BitVec 5) (i : BitVec 1),
    (p.1 d a b i).reads = [.s a.toNat] ++ (if i = 0 then [.s b.toNat] else []) ∧ (p.1 d a b i).writes = [.s d.toNat] ∧
      (p.1 d a b i).readsAndWrites = [] := by
  simp only [scalarTwo, List.forall_mem_cons]
  and_intros
  on_goal 25 => exact List.forall_mem_nil _
  all_goals exact fun _ _ _ _ => ⟨rfl, rfl, rfl⟩

/-- An instruction that writes its D alone keeps everything else but the pc and the frame. -/
theorem WritesAlone.frame {i : Instr} {d : BitVec 5} {s t : State} (h : WritesAlone i d s) (ht : exec i s = .next t) :
    (∀ m : Nat, m ≠ d.toNat → t.me.getS m = s.me.getS m) ∧ t.me.v = s.me.v ∧ t.me.m = s.me.m ∧ t.me.bind = s.me.bind ∧
    t.me.af = s.me.af ∧ t.me.ef = s.me.ef ∧ t.me.hmode = s.me.hmode ∧ t.me.fstat = s.me.fstat ∧ t.me.fmt = s.me.fmt ∧
    t.me.scla = s.me.scla ∧ t.me.sclb = s.me.sclb ∧ t.me.tx = s.me.tx ∧ t.me.tokv = s.me.tokv ∧ t.me.tokpc = s.me.tokpc ∧
    (∀ a, t.byteAt a = s.byteAt a) ∧ (∀ c, c ≠ s.cur → t.ctx c = s.ctx c) ∧ t.cores = s.cores ∧ t.tils = s.tils ∧
    t.dies = s.dies ∧ t.rings = s.rings := by
  obtain ⟨w, hw⟩ := h
  obtain rfl : (s.modMe (fun x => x.setS d.toNat w)).past = t := Host.Outcome.next.inj (hw.symm.trans ht)
  have me : (s.modMe (fun x => x.setS d.toNat w)).past.me = (s.me.setS d.toNat w).advance := by
    rw [State.past, State.me_modMe, State.me_modMe]
  have others (c : Nat) (hc : c ≠ s.cur) : (s.modMe (fun x => x.setS d.toNat w)).past.ctx c = s.ctx c :=
    (State.ctx_modCtx_ne _ _ _ _ hc).trans (State.ctx_modCtx_ne _ _ _ _ hc)
  have regs (m : Nat) (hm : m ≠ d.toNat) : ((s.me.setS d.toNat w).advance).getS m = s.me.getS m := by
    obtain ⟨f, p, e⟩ := (s.me.setS d.toNat w).advance_eq
    rw [e]
    exact Ctx.getS_setS_ne _ w hm
  obtain ⟨f, p, e⟩ := (s.me.setS d.toNat w).advance_eq
  obtain ⟨l, e'⟩ := s.me.setS_eq d.toNat w
  rw [e'] at e
  rw [me]
  refine ⟨regs, ?_⟩
  rw [e', e]
  exact ⟨rfl, rfl, rfl, rfl, rfl, rfl, rfl, rfl, rfl, rfl, rfl, rfl, rfl, fun _ => rfl, others, rfl, rfl, rfl, rfl⟩

/-- Settles O13: each instruction of the class writes D alone, since its shape does. -/
theorem scalarFrame : Obligations.ScalarFrame := by
  intro i d s t hi h
  refine WritesAlone.frame ?_
  rcases hi with ⟨p, hp, a, b, j, rfl⟩ | ⟨a, rfl | rfl | rfl⟩ | ⟨a, b, j, rfl⟩ | ⟨a, b, sc, j, rfl⟩ | ⟨a, b, x, j, w, rfl⟩ |
    ⟨a, b, j, w, rfl⟩ | ⟨a, k, rfl | rfl⟩ | ⟨p, k, rfl⟩
  · obtain ⟨hr, hw, -⟩ := fields_scalarTwo p hp d a b j
    exact writesAlone_alu2 h (exec_scalarTwo p hp d a b j s) hr hw
  · exact writesAlone_alu1 h exec_clz rfl rfl
  · exact writesAlone_alu1 h exec_ctz rfl rfl
  · exact writesAlone_alu1 h exec_popc rfl rfl
  · exact writesAlone_alu3 h exec_sel rfl rfl
  · exact writesAlone_alu2 h exec_lea rfl rfl
  · exact writesAlone_alu2 h exec_bfx rfl rfl
  · exact writesAlone_alu3 h exec_bfi rfl rfl
  · exact writesAlone_alu1 h exec_addi rfl rfl
  · exact writesAlone_alu1 h exec_andi rfl rfl
  · exact writesAlone_of_body h exec_lih (thenNext_ok (wrS_plain (h.field (List.mem_append_left _ (by simp [Instr.writes])))))

end Sys2Proof.Machine
end

section
/-! SUPPORT. What stops an integer instruction: empty and full ends (R68, R189), awns (R137, R138), and one end that is named twice (R36);
and token handlers (R139, R164). -/

namespace Sys2Proof.Machine

/-! ### What a wait of an instruction leaves (R189, R193) -/

/-- No context and no byte differ. -/
structure State.Aside (s t : State) : Prop where
  ctxs : t.ctxs = s.ctxs
  mem : t.mem = s.mem
  unspec : t.unspec = s.unspec

namespace State.Aside
variable {s t u : State}

theorem refl (s : State) : s.Aside s := ⟨rfl, rfl, rfl⟩

theorem trans (h : s.Aside t) (h' : t.Aside u) : s.Aside u :=
  ⟨h'.ctxs.trans h.ctxs, h'.mem.trans h.mem, h'.unspec.trans h.unspec⟩

theorem foldl {α : Type} {f : State → α → State} {l : List α} (hf : ∀ (s : State) x, s.Aside (f s x)) : s.Aside (l.foldl f s) := by
  induction l generalizing s with
  | nil => exact .refl s
  | cons x r ih => exact (hf s x).trans ih

theorem registerOwner {key : Key} {n : Nat} : s.Aside (s.registerOwner key n) := by
  unfold State.registerOwner
  dsimp only
  split
  · split
    · exact .refl s
    · exact ⟨rfl, rfl, rfl⟩
  · exact ⟨rfl, rfl, rfl⟩

theorem register {c : Nat} {key : Key} : s.Aside (s.register c key) :=
  .trans (t := s.modTil (tilOf c) (fun t => registerLocal t (regKey key) c)) ⟨rfl, rfl, rfl⟩ .registerOwner

theorem laterOnce {i : Instr} : s.Aside (s.laterOnce i) := by
  unfold State.laterOnce
  split
  · exact .refl s
  · exact ⟨rfl, rfl, rfl⟩

theorem nudge {c e : Nat} : s.Aside (s.nudge c e) := by
  unfold State.nudge
  dsimp only
  split
  · exact .foldl fun s r => .trans (t := s.setRing _) ⟨rfl, rfl, rfl⟩ .laterOnce
  · exact .refl s

theorem ctx (h : s.Aside t) (c : Nat) : t.ctx c = s.ctx c := State.ctx_congr h.ctxs

theorem byteAt (h : s.Aside t) (a : Nat) : t.byteAt a = s.byteAt a := by rw [State.byteAt, h.unspec, h.mem, State.byteAt]

end State.Aside

section
variable {s t u : State} {e : Nat} {rd : List Nat} {wr : List (Nat × Elem)} {x : Elem}

/-- A strand that sleeps waits, and nothing else of any strand, nor a byte, changes. -/
theorem State.sleepOn_frame (s : State) (c cause : Nat) (keys : List Key) (ends : List Nat) :
    (s.sleepOn c cause keys ends).ctx c = { s.ctx c with wait := .sleep cause keys } ∧
      (∀ e, e ≠ c → (s.sleepOn c cause keys ends).ctx e = s.ctx e) ∧
      ∀ a, (s.sleepOn c cause keys ends).byteAt a = s.byteAt a := by
  have aside : (s.modCtx c (fun x => { x with wait := .sleep cause keys })).Aside (s.sleepOn c cause keys ends) :=
    .trans (.foldl fun _ _ => .register) (.foldl fun _ _ => .nudge)
  refine ⟨(aside.ctx c).trans (State.ctx_modCtx ..), fun e he => (aside.ctx e).trans (State.ctx_modCtx_ne _ _ _ _ he), fun a => ?_⟩
  exact aside.byteAt a

/-! ### What is examined before an instruction acts (R68, R138) -/

/-- The end has an element that is no awn to give. -/
def State.HasData (s : State) (e : Nat) : Prop := ∃ y, s.endHead s.cur e 0 = .elem y ∧ y.awn = false

theorem Ctx.deqs_outside {x : Ctx} (h : x.tx.active = false) : x.deqs e = 0 := by simp [Ctx.deqs, h]

theorem earlier_eq_zero {l : List Nat} (h : e ∉ l) : earlier e l = 0 := by
  rw [earlier, List.length_eq_zero_iff, List.filter_eq_nil_iff]
  rintro f hf he
  exact h (beq_iff_eq.mp he ▸ hf)

/-- The place that is examined of an end that no field before names: its head. -/
theorem State.examined_head {seen : List Nat} (ht : s.me.tx.active = false) (h : e ∉ seen) :
    s.endHead s.cur e (s.me.deqs e + earlier e seen) = s.endHead s.cur e 0 := by
  rw [Ctx.deqs_outside ht, earlier_eq_zero h]

/-- The ends that are empty, as the statements write them. -/
theorem emptyEnds_eq (ht : s.me.tx.active = false) {l seen : List Nat} (h : l.Nodup) (hs : ∀ e ∈ l, e ∉ seen) :
    emptyEnds s seen l = l.filter (fun e => s.endHead s.cur e 0 = .empty) := by
  induction l generalizing seen with
  | nil => rfl
  | cons e r ih =>
    obtain ⟨he, hr⟩ := List.nodup_cons.mp h
    have rest : ∀ f ∈ r, f ∉ e :: seen := fun f hf => by
      rintro (_ | ⟨_, hm⟩)
      · exact he hf
      · exact hs f (List.mem_cons_of_mem _ hf) hm
    rw [emptyEnds, State.examined_head ht (hs e (by simp)), ih hr rest]
    cases hh : s.endHead s.cur e 0 <;> simp [hh]

/-- Ends that have data to give let the examination go on. -/
theorem scanReads_data (ht : s.me.tx.active = false) {pre l seen : List Nat} (hp : ∀ e ∈ pre, s.HasData e)
    (h : (pre ++ l).Nodup) (hs : ∀ e ∈ pre, e ∉ seen) : scanReads s seen (pre ++ l) = scanReads s (pre.reverse ++ seen) l := by
  induction pre generalizing seen with
  | nil => rfl
  | cons e r ih =>
    obtain ⟨he, hr⟩ := List.nodup_cons.mp h
    obtain ⟨y, hy, hawn⟩ := hp e (by simp)
    have rest : ∀ f ∈ r, f ∉ e :: seen := fun f hf => by
      rintro (_ | ⟨_, hm⟩)
      · exact he (List.mem_append_left _ hf)
      · exact hs f (List.mem_cons_of_mem _ hf) hm
    rw [List.cons_append, scanReads, State.examined_head ht (hs e (by simp)), hy]
    simp only [hawn, Bool.false_eq_true, if_false]
    rw [ih (fun f hf => hp f (List.mem_cons_of_mem _ hf)) hr rest, List.reverse_cons, List.append_assoc]
    rfl

theorem scanReads_all (ht : s.me.tx.active = false) (h : rd.Nodup) (hp : ∀ e ∈ rd, s.HasData e) : scanReads s [] rd = .ok [] := by
  have := scanReads_data (l := []) (seen := []) ht hp (by rwa [List.append_nil]) (by simp)
  rw [List.append_nil] at this
  rw [this, scanReads]

section
variable {pre post : List Nat}

/-- Nothing of the ends before one is that one, nor among those behind it. -/
theorem not_mem_of_nodup (h : (pre ++ e :: post).Nodup) : e ∉ pre.reverse ++ [] ∧ e ∉ post ∧ post.Nodup ∧
    ∀ f ∈ post, f ∉ e :: (pre.reverse ++ []) := by
  obtain ⟨hpre, hpost, hdis⟩ := List.nodup_append.mp h
  obtain ⟨he, hn⟩ := List.nodup_cons.mp hpost
  refine ⟨fun hm => hdis e (by simpa using hm) e (by simp) rfl, he, hn, fun f hf => ?_⟩
  rintro (_ | ⟨_, hm⟩)
  · exact he hf
  · have hm : f ∈ pre.reverse ++ [] := hm
    exact hdis f (by simpa using hm) f (List.mem_cons_of_mem _ hf) rfl

/-- The first end without data decides, here as it is empty: the instruction waits for every empty one (R68). -/
theorem scanReads_empty (ht : s.me.tx.active = false) (h : (pre ++ e :: post).Nodup) (hp : ∀ f ∈ pre, s.HasData f)
    (he : s.endHead s.cur e 0 = .empty) :
    scanReads s [] (pre ++ e :: post) = .ok ((pre ++ e :: post).filter (fun f => s.endHead s.cur f 0 = .empty)) := by
  obtain ⟨hpre, -, hn, hpost⟩ := not_mem_of_nodup h
  have none : pre.filter (fun f => s.endHead s.cur f 0 = .empty) = [] := by
    refine List.filter_eq_nil_iff.mpr fun f hf => ?_
    obtain ⟨y, hy, -⟩ := hp f hf
    simp [hy]
  rw [scanReads_data ht hp h (by simp), scanReads, State.examined_head ht hpre, he, emptyEnds_eq ht hn hpost, List.filter_append, none]
  simp [he]

/-- It decides as it is an awn, whatever stands behind (R138). -/
theorem scanReads_awn (ht : s.me.tx.active = false) (h : (pre ++ e :: post).Nodup) (hp : ∀ f ∈ pre, s.HasData f)
    (he : s.endHead s.cur e 0 = .elem x) (hx : x.awn = true) : scanReads s [] (pre ++ e :: post) = .error (.awn e x) := by
  obtain ⟨hpre, hpost, -, -⟩ := not_mem_of_nodup h
  rw [scanReads_data ht hp h (by simp), scanReads, State.examined_head ht hpre, he]
  simp only [hx, if_true]
  rw [if_neg (by simpa using ⟨by simpa using hpre, hpost⟩)]

end

/-- An end that an instruction writes lacks room. -/
def State.endFull (s : State) (e : Nat) : Bool :=
  match s.endPut s.cur e dataElem with
  | .full => true
  | _ => false

theorem Ctx.enqs_outside {x : Ctx} (h : x.tx.active = false) : x.enqs = [] := by simp [Ctx.enqs, h]

/-- What the one end that an instruction writes comes to, where no token keeps it out (R180): it waits for room, if anything. -/
theorem scanWrites_one (ht : s.me.tx.active = false) (hb : s.tokenBlocks s.cur e = false) :
    (scanWrites s [] [(e, dataElem)]).toOption.getD [] = [e].filter s.endFull ∧
      (s.endFull e = true → scanWrites s [] [(e, dataElem)] = .ok [e]) := by
  unfold State.endFull
  cases hp : s.endPut s.cur e dataElem <;>
    simp [scanWrites, Ctx.enqs_outside ht, hb, State.putAll, hp, Except.map, Except.toOption]

theorem State.waitKey_unblocked (hb : s.tokenBlocks s.cur e = false) : s.waitKey e = s.endKey s.cur e := by
  have : s.tokenAt s.cur e = none := by simpa [State.tokenBlocks] using hb
  rw [State.waitKey, this]

/-- The ends are of the directions that the fields need (R133). -/
def State.Directed (s : State) (rd : List Nat) (wr : List (Nat × Elem)) : Prop :=
  (∀ e ∈ rd, readEnd (s.me.getBind e) = true) ∧ ∀ p ∈ wr, readEnd (s.me.getBind p.1) = false

theorem State.Directed.legal (h : s.Directed rd wr) :
    ¬ (rd.any (fun e => !readEnd (s.me.getBind e)) ∨ wr.any (fun p => readEnd (s.me.getBind p.1))) := by
  obtain ⟨hr, hw⟩ := h
  simp only [List.any_eq_true, Bool.not_eq_true', not_or, not_exists, not_and, Bool.not_eq_false, Bool.not_eq_true]
  exact ⟨hr, hw⟩

section
variable (ht : s.me.tx.active = false) (hd : s.Directed rd wr)
include ht hd

theorem examine_stop {e : Stop} (hr : scanReads s [] rd = .error e) : examine rd wr s = .error e := by
  simp only [examine, op_bind, op_get, except_bind_ok, if_neg hd.legal, ht, Bool.false_eq_true, if_false, hr]
  rfl

theorem examine_empty {rs : List Nat} (hr : scanReads s [] rd = .ok rs) (hne : rs ≠ []) : examine rd wr s = .error
    (.sleep 2 (rs.map (s.endKey s.cur) ++ ((scanWrites s [] wr).toOption.getD []).map s.waitKey)
      (rs ++ (scanWrites s [] wr).toOption.getD [])) := by
  obtain ⟨e, r, rfl⟩ := List.exists_cons_of_ne_nil hne
  simp only [examine, op_bind, op_get, except_bind_ok, if_neg hd.legal, ht, Bool.false_eq_true, if_false, hr]
  rfl

theorem examine_full {ws : List Nat} (hr : scanReads s [] rd = .ok []) (hw : scanWrites s [] wr = .ok ws) (hne : ws ≠ []) :
    examine rd wr s = .error (.sleep 3 (ws.map s.waitKey) ws) := by
  obtain ⟨e, r, rfl⟩ := List.exists_cons_of_ne_nil hne
  simp only [examine, op_bind, op_get, except_bind_ok, if_neg hd.legal, ht, Bool.false_eq_true, if_false, hr, hw]
  rfl

theorem examine_ready (hr : scanReads s [] rd = .ok []) (hw : scanWrites s [] wr = .ok []) : examine rd wr s = .ok ((), s) := by
  simp only [examine, op_bind, op_get, except_bind_ok, if_neg hd.legal, ht, Bool.false_eq_true, if_false, hr, hw]
  rfl

end
end

/-! ### Integer instructions whose ends stop them -/

/-- An instruction that runs in the shared frame, and writes one field at most. -/
def Framed (j : Instr) : Prop :=
  (∃ body, ∀ s, exec j s = perform j body s) ∧ (j.writes = [] ∨ ∃ f, j.writes = [f])

theorem framed_scalarInstrs {d a b : BitVec 5} {i x : BitVec 1} {sc : BitVec 3} {wd : BitVec 5} {k : BitVec 14} :
    ∀ j ∈ scalarInstrs d a b i x sc wd k, Framed j := by
  intro j hj
  rcases List.mem_append.mp hj with hj | hj
  · obtain ⟨p, hp, rfl⟩ := List.mem_map.mp hj
    exact ⟨⟨_, exec_scalarTwo p hp d a b i⟩, .inr ⟨_, (fields_scalarTwo p hp d a b i).2.1⟩⟩
  · simp only [List.mem_cons, List.not_mem_nil, or_false] at hj
    rcases hj with rfl | rfl | rfl | rfl | rfl | rfl | rfl | rfl | rfl
    · exact ⟨⟨_, fun _ => exec_lea⟩, .inr ⟨_, rfl⟩⟩
    · exact ⟨⟨_, fun _ => exec_sel⟩, .inl rfl⟩
    · exact ⟨⟨_, fun _ => exec_clz⟩, .inr ⟨_, rfl⟩⟩
    · exact ⟨⟨_, fun _ => exec_ctz⟩, .inr ⟨_, rfl⟩⟩
    · exact ⟨⟨_, fun _ => exec_popc⟩, .inr ⟨_, rfl⟩⟩
    · exact ⟨⟨_, fun _ => exec_bfx⟩, .inr ⟨_, rfl⟩⟩
    · exact ⟨⟨_, fun _ => exec_bfi⟩, .inl rfl⟩
    · exact ⟨⟨_, fun _ => exec_addi⟩, .inr ⟨_, rfl⟩⟩
    · exact ⟨⟨_, fun _ => exec_andi⟩, .inr ⟨_, rfl⟩⟩

section
variable {j : Instr} {s t : State} {e : Nat} {pre post : List Nat} {x y : Elem}

/-- The ends that an instruction reads, and those that it writes with what they would receive. -/
def State.readEnds (s : State) (j : Instr) : List Nat := j.reads.filterMap s.me.endOf
def State.writeEnds (s : State) (j : Instr) : List Nat := j.writes.filterMap s.me.endOf

theorem Framed.writeEnds (h : Framed j) (s : State) : s.writeEnds j = [] ∨ ∃ f, s.writeEnds j = [f] := by
  unfold State.writeEnds
  rcases h.2 with h | ⟨f, h⟩ <;> rw [h]
  · exact .inl rfl
  · cases hf : s.me.endOf f with
    | none => exact .inl (by simp [hf])
    | some e => exact .inr ⟨e, by simp [hf]⟩

theorem examineFields_eq (j : Instr) (s : State) :
    examineFields j s = examine (s.readEnds j) ((s.writeEnds j).map (fun e => (e, dataElem))) s := rfl

/-- Its row admits an instruction, which stops where its ends do. -/
theorem Framed.stops (h : Framed j) (hrow : Allowed j s) {z : Stop}
    (he : examine (s.readEnds j) ((s.writeEnds j).map (fun e => (e, dataElem))) s = .error z) :
    exec j s = .next (s.onStop (wordOf j) z) := by
  obtain ⟨⟨body, hb⟩, -⟩ := h
  rw [hb]
  exact performRaw_error hrow (bind_error (examineFields_eq j s ▸ he))

theorem State.onStop_sleep {w : IWord} {cause : Nat} {keys : List Key} {ends : List Nat} (h : s.me.tx.active = false) :
    s.onStop w (.sleep cause keys ends) = s.sleepOn s.cur cause keys ends := by
  simp [State.onStop, h]

theorem State.onStop_awn {w : IWord} (h : s.me.tx.active = false) : s.onStop w (.awn e x) = s.meetAwn s.cur e x w := by
  simp [State.onStop, h]

/-- An awn is consumed and its handler entered, if there is one and no handler runs (R137). -/
theorem State.meetAwn_handler {w : IWord} {h : Word} (hm : s.me.hmode = false) (hh : s.me.handler[e]? = some (some h)) :
    s.meetAwn s.cur e x w = (s.endTake s.cur e).modCtx s.cur (fun y => { y with
      tokv := BitVec.ofNat 64 (e * 2 ^ 36 + x.level * 2 ^ 32 + x.code.toNat), tokpc := y.pc, hmode := true, pc := h }) := by
  have hm : (s.ctx s.cur).hmode = false := hm
  have hh : (s.ctx s.cur).handler[e]? = some (some h) := hh
  simp only [State.meetAwn, hm, hh, Bool.false_eq_true, if_false, Option.getD_some]

/-- Otherwise the strand traps (R138, R139). -/
theorem State.meetAwn_trap {w : IWord} (h : s.me.hmode = true ∨ s.me.handler[e]? = some none) :
    s.meetAwn s.cur e x w = s.takeTrap s.cur Cause.awn 0 0 w := by
  have : (if (s.ctx s.cur).hmode then none else ((s.ctx s.cur).handler[e]?).getD none) = none := by
    rcases h with h | h
    · exact if_pos h
    · rw [show (s.ctx s.cur).handler[e]? = some none from h, Option.getD_some, ite_self]
  simp only [State.meetAwn, this]

/-- Only the acting strand's wait changes. -/
def Waits (j : Instr) (s : State) (cause : Nat) (keys : List Key) : Prop :=
  ∃ t, exec j s = .next t ∧ t.ctx s.cur = { s.me with wait := .sleep cause keys } ∧ (∀ c, c ≠ s.cur → t.ctx c = s.ctx c) ∧
    ∀ p, t.byteAt p = s.byteAt p

variable (hf : Framed j) (hrow : Allowed j s) (ht : s.me.tx.active = false)
include hf hrow ht

theorem Framed.waits {cause : Nat} {keys : List Key} {ends : List Nat}
    (he : examine (s.readEnds j) ((s.writeEnds j).map (fun e => (e, dataElem))) s = .error (.sleep cause keys ends)) :
    Waits j s cause keys :=
  ⟨_, (hf.stops hrow he).trans (congrArg _ (State.onStop_sleep ht)), s.sleepOn_frame s.cur cause keys ends⟩

variable (hd : s.Directed (s.readEnds j) ((s.writeEnds j).map (fun e => (e, dataElem)))) (hn : (s.readEnds j).Nodup)
include hd hn

/-- An empty source makes an instruction wait for all of them, and for its destination where that is full (R68, R189). -/
theorem Framed.waits_empty (hsrc : s.readEnds j = pre ++ e :: post) (hp : ∀ f ∈ pre, s.HasData f)
    (he : s.endHead s.cur e 0 = .empty) (hb : ∀ f ∈ s.writeEnds j, s.tokenBlocks s.cur f = false) :
    Waits j s 2 (((s.readEnds j).filter (fun f => s.endHead s.cur f 0 = .empty) ++ (s.writeEnds j).filter s.endFull).map
      (s.endKey s.cur)) := by
  have scan := scanReads_empty ht (hsrc ▸ hn) hp he
  rw [← hsrc] at scan
  have some : (s.readEnds j).filter (fun f => s.endHead s.cur f 0 = .empty) ≠ [] :=
    List.ne_nil_of_mem (a := e) (List.mem_filter.mpr ⟨by simp [hsrc], by simp [he]⟩)
  have written : ((scanWrites s [] ((s.writeEnds j).map (fun e => (e, dataElem)))).toOption.getD []).map s.waitKey =
      ((s.writeEnds j).filter s.endFull).map (s.endKey s.cur) := by
    rcases hf.writeEnds s with h | ⟨f, h⟩ <;> rw [h] at hb ⊢
    · rfl
    · have hb := hb f (by simp)
      rw [List.map_singleton, (scanWrites_one ht hb).1]
      refine List.map_congr_left fun g hg => ?_
      obtain rfl := List.mem_singleton.mp (List.mem_of_mem_filter hg)
      exact State.waitKey_unblocked hb
  have stop := examine_empty ht hd scan some
  rw [written, ← List.map_append] at stop
  exact hf.waits hrow ht stop

/-- With every source filled it waits for room in its destination (R189). -/
theorem Framed.waits_full (hdst : s.writeEnds j = [e]) (hp : ∀ f ∈ s.readEnds j, s.HasData f)
    (hb : s.tokenBlocks s.cur e = false) (hfull : s.endFull e = true) : Waits j s 3 [s.endKey s.cur e] := by
  have write : scanWrites s [] ((s.writeEnds j).map (fun e => (e, dataElem))) = .ok [e] := by
    rw [hdst]
    exact (scanWrites_one ht hb).2 hfull
  have stop := examine_full ht hd (scanReads_all ht hn hp) write (List.cons_ne_nil e [])
  rw [List.map_singleton, State.waitKey_unblocked hb] at stop
  exact hf.waits hrow ht stop

/-- An awn that only ends with data stand before suppresses the instruction (R138). -/
theorem Framed.meets_awn (hsrc : s.readEnds j = pre ++ e :: post) (hp : ∀ f ∈ pre, s.HasData f)
    (he : s.endHead s.cur e 0 = .elem x) (hx : x.awn = true) : exec j s = .next (s.meetAwn s.cur e x (wordOf j)) := by
  have scan := scanReads_awn ht (hsrc ▸ hn) hp he hx
  rw [← hsrc] at scan
  exact (hf.stops hrow (examine_stop ht hd scan)).trans (congrArg _ (State.onStop_awn ht))

end

/-! ### One end for both sources -/

section
variable {p : (BitVec 5 → BitVec 5 → BitVec 5 → BitVec 1 → Instr) × (Word → Word → Word)} {d a : BitVec 5} {s : State} {e : Nat}
  {x y : Elem} (hp : p ∈ scalarTwo) (ha : s.me.endOf (.s a.toNat) = some e) (hd : s.me.endOf (.s d.toNat) = none)
include hp ha hd

theorem readEnds_twice : s.readEnds (p.1 d a a 0) = [e, e] ∧ s.writeEnds (p.1 d a a 0) = [] := by
  obtain ⟨hr, hw, -⟩ := fields_scalarTwo p hp d a a 0
  rw [State.readEnds, State.writeEnds, hr, hw]
  simp [ha, hd]

variable (hrow : Allowed (p.1 d a a 0) s) (ht : s.me.tx.active = false) (hdir : readEnd (s.me.getBind e) = true)

include hdir in
omit hp ha hd in
theorem directed_twice : s.Directed [e, e] [] := ⟨by simpa using hdir, by simp⟩

include hrow ht hdir

omit ht hdir in
/-- An instruction that names one end twice stops as the examination of its two elements does. -/
theorem stops_twice {z : Stop} (hz : examine [e, e] [] s = .error z) :
    exec (p.1 d a a 0) s = .next (s.onStop (wordOf (p.1 d a a 0)) z) := by
  obtain ⟨hr, hw⟩ := readEnds_twice hp ha hd
  rw [exec_scalarTwo p hp]
  refine performRaw_error hrow (bind_error ?_)
  rw [examineFields_eq, hr, hw]
  exact hz

theorem traps_twice (hs : scanReads s [] [e, e] = .error (.trap Cause.awn 0 0)) :
    exec (p.1 d a a 0) s = .next (s.takeTrap s.cur Cause.awn 0 0 (wordOf (p.1 d a a 0))) :=
  (stops_twice hp ha hd hrow (examine_stop ht (directed_twice hdir) hs)).trans (congrArg _ (State.onStop_trap ht))

/-- An awn at the first of the two elements traps (R138). -/
theorem traps_first (hx : s.endHead s.cur e 0 = .elem x) (hawn : x.awn = true) :
    exec (p.1 d a a 0) s = .next (s.takeTrap s.cur Cause.awn 0 0 (wordOf (p.1 d a a 0))) :=
  traps_twice hp ha hd hrow ht hdir (by simp [scanReads, Ctx.deqs_outside ht, earlier, hx, hawn])

/-- So does one at the second. -/
theorem traps_second (hx : s.endHead s.cur e 0 = .elem x) (hxa : x.awn = false) (hy : s.endHead s.cur e 1 = .elem y)
    (hawn : y.awn = true) : exec (p.1 d a a 0) s = .next (s.takeTrap s.cur Cause.awn 0 0 (wordOf (p.1 d a a 0))) :=
  traps_twice hp ha hd hrow ht hdir (by simp [scanReads, Ctx.deqs_outside ht, earlier, hx, hxa, hy, hawn])

/-- The instruction waits while the second is not there (R36). -/
theorem sleeps_second (hx : s.endHead s.cur e 0 = .elem x) (hxa : x.awn = false) (hy : s.endHead s.cur e 1 = .empty) :
    exec (p.1 d a a 0) s = .next (s.sleepOn s.cur 2 [s.endKey s.cur e] [e]) := by
  have scan : scanReads s [] [e, e] = .ok [e] := by simp [scanReads, emptyEnds, Ctx.deqs_outside ht, earlier, hx, hxa, hy]
  exact (stops_twice hp ha hd hrow (examine_empty ht (directed_twice hdir) scan (List.cons_ne_nil e []))).trans
    (congrArg _ (State.onStop_sleep ht))

theorem ready_twice (hx : s.endHead s.cur e 0 = .elem x) (hxa : x.awn = false) (hy : s.endHead s.cur e 1 = .elem y)
    (hya : y.awn = false) : Ready (p.1 d a a 0) s s := by
  obtain ⟨hr, hw⟩ := readEnds_twice hp ha hd
  refine ⟨hrow, ?_⟩
  rw [examineFields_eq, hr, hw]
  exact examine_ready ht (directed_twice hdir) (by simp [scanReads, Ctx.deqs_outside ht, earlier, hx, hxa, hy, hya]) rfl

end

/-- Whether a field names an end depends on the bindings alone. -/
theorem Ctx.endOf_congr {x y : Ctx} (h : y.bind = x.bind) : y.endOf = x.endOf := by
  have : y.bound = x.bound := by
    funext e
    rw [Ctx.bound, Ctx.getBind, h, Ctx.bound, Ctx.getBind]
  funext f
  cases f <;> simp only [Ctx.endOf, this]

/-- The two elements are taken one after the other, the earlier for A (R36). -/
theorem takes_twice {p : (BitVec 5 → BitVec 5 → BitVec 5 → BitVec 1 → Instr) × (Word → Word → Word)} {d a : BitVec 5} {s v : State}
    {e : Nat} {x y : Elem} (hp : p ∈ scalarTwo) (ha : s.me.endOf (.s a.toNat) = some e) (hr : Ready (p.1 d a a 0) s s)
    (ht : s.me.tx.active = false) (hx : s.endHead s.cur e 0 = .elem x) (hc : (s.endTake s.cur e).cur = s.cur)
    (hb : (s.endTake s.cur e).me.bind = s.me.bind) (hut : (s.endTake s.cur e).me.tx.active = false)
    (hy : (s.endTake s.cur e).endHead s.cur e 0 = .elem y)
    (hw : Writes d ((s.endTake s.cur e).endTake s.cur e) (p.2 (x.data.extractLsb' 0 64) (y.data.extractLsb' 0 64)) v) :
    exec (p.1 d a a 0) s = .next v.past := by
  have second : Reads a (s.endTake s.cur e) (y.data.extractLsb' 0 64) ((s.endTake s.cur e).endTake s.cur e) := by
    have := deq_outside (e := e) (x := y) hut (by rw [hc]; exact hy)
    rw [hc] at this
    exact rdS_end (by rwa [Ctx.endOf_congr hb]) this
  exact scalarTwoOperands p hp d a a 0 s s _ _ v _ _ hr (rdS_end ha (deq_outside ht hx)) second hw

/-! ### Token handlers (R139, R164) -/

section
variable {d : BitVec 5} {k : BitVec 19} {s r : State}

theorem target_eq (pc : Word) (k : BitVec 19) : target pc k = pc + BitVec.ofInt 64 (4 * k.toInt) := by
  rw [target, signExtend_eq_ofInt, Int.mul_comm, BitVec.ofInt_mul]
  rfl

theorem exec_tokh_ok (hr : Ready (.tokh d k) s r) (hb : r.me.getBind d.toNat ≠ 0)
    (hk : k = 0 ∨ (target r.me.pc k).toNat < 2 ^ 52) : exec (.tokh d k) s = .next (r.after (fun x => { x with
      handler := x.handler.setIfInBounds d.toNat (if k = 0 then none else some (target r.me.pc k)) })) := by
  have hk : ¬ (k ≠ 0 ∧ (target r.me.pc k).toNat ≥ 2 ^ 52) := by
    rintro ⟨h, h'⟩
    exact hk.elim h (Nat.not_lt.mpr h')
  refine perform_ok (f := .next) (t := r.modMe _) hr (thenNext_ok ?_)
  simp only [boundEnd, op_bind, op_ask, except_bind_ok, if_neg hb, op_pure, if_neg hk, op_upd]

theorem exec_tokh_addr (hr : Ready (.tokh d k) s r) (hb : r.me.getBind d.toNat ≠ 0) (hk : k ≠ 0)
    (hpc : 2 ^ 52 ≤ (target r.me.pc k).toNat) :
    exec (.tokh d k) s = .next (s.onStop (wordOf (.tokh d k)) (.trap Cause.addr 0 (target r.me.pc k))) := by
  have hk : k ≠ 0 ∧ (target r.me.pc k).toNat ≥ 2 ^ 52 := ⟨hk, hpc⟩
  refine perform_error hr (thenNext_error ?_)
  simp only [boundEnd, op_bind, op_ask, except_bind_ok, if_neg hb, op_pure, if_pos hk]
  rfl

theorem exec_tret_handler (hr : Ready .tret s r) (hm : r.me.hmode = true) :
    exec .tret s = .next (r.modMe (fun x => { x with hmode := false, pc := x.tokpc })) := by
  refine (perform_ok (f := .jump r.me.tokpc) (t := r.modMe (fun x => { x with hmode := false })) hr ?_).trans (congrArg _ ?_)
  · simp only [op_bind, op_ask, except_bind_ok, hm, Bool.not_true, Bool.false_eq_true, if_false, op_pure, op_upd]
  · exact (State.modMe_modMe ..).trans (State.modMe_congr rfl)

theorem exec_tret_outside (hr : Ready .tret s r) (hm : r.me.hmode = false) :
    exec .tret s = .next (s.onStop (wordOf .tret) (.trap Cause.illegal 0 0)) := by
  refine perform_error hr ?_
  simp only [op_bind, op_ask, except_bind_ok, hm, Bool.not_false, if_true]
  rfl

end

/-- Settles O31: what stops an integer instruction is what the examination of its ends comes to, before any of it is done. -/
theorem endsThatStop : Obligations.EndsThatStop := by
  unfold Obligations.EndsThatStop
  refine ⟨?stops, ?twice, ?handlers⟩
  case stops =>
    intro d a b i x sc wd k s j hj hrow ht src dst waits hn hsrc hdst empty isFull
    have framed := framed_scalarInstrs j hj
    have directed : s.Directed (s.readEnds j) ((s.writeEnds j).map (fun e => (e, dataElem))) :=
      ⟨fun e he => (hsrc e he).1, fun p hp => by
        obtain ⟨e, he, rfl⟩ := List.mem_map.mp hp
        exact hdst e he⟩
    refine ⟨fun pre e post hs hp he hb => framed.waits_empty hrow ht directed hn hs hp he hb,
      fun f hf hp hb hfull => framed.waits_full hrow ht directed hn hf hp hb hfull,
      fun pre e post y hs hp he hy => ?_⟩
    have awn := framed.meets_awn hrow ht directed hn hs hp he hy
    exact ⟨fun h hm hh => awn.trans (congrArg _ (State.meetAwn_handler hm hh)),
      fun h => awn.trans (congrArg _ (State.meetAwn_trap h))⟩
  case twice =>
    intro d a s e p hp j hrow ht ha hd hdir traps x hx
    refine ⟨traps_first hp ha hd hrow ht hdir hx, sleeps_second hp ha hd hrow ht hdir hx, fun y hxa hy =>
      ⟨traps_second hp ha hd hrow ht hdir hx hxa hy, ?_⟩⟩
    intro u hya hc hb hut huy v hw
    exact takes_twice hp ha (ready_twice hp ha hd hrow ht hdir hx hxa hy hya) ht hx hc hb hut huy hw
  case handlers =>
    intro d k s r ht
    refine ⟨fun hr hb => ?_, fun hr => ⟨exec_tret_handler hr, fun hm => ?_⟩⟩
    · have ok := exec_tokh_ok (k := k) hr hb
      have addr := exec_tokh_addr (k := k) hr hb
      rw [target_eq] at ok addr
      exact ⟨ok, addr⟩
    · exact (exec_tret_outside hr hm).trans (congrArg _ (State.onStop_trap ht))

end Sys2Proof.Machine
end

section
/-! SUPPORT. What the parts of a cycle keep (R69 to R74): time and the charges of the contexts, through an EXIT and a published result too;
and the bytes of memory, where no result is held and no EXIT waits to take effect. -/

namespace Sys2Proof.Machine

-- the lemmas are many and short, and together in flight they would take a thread each
set_option Elab.async false

/-! ### What the operations of a cycle keep -/

/-- A wait that a cycle does not begin: a sleep, or that of an EXIT. -/
def Wait.lasts : Wait → Bool
  | .sleep _ _ => true
  | .ending _ => true
  | _ => false

/-- A context goes on: it is charged nothing, it is not saved, and it does not fall asleep or come to its end. -/
def Ctx.Goes (x y : Ctx) : Prop :=
  y.cnt = x.cnt ∧ (y.life = .saved → x.life = .saved) ∧ (y.wait.lasts = true → y.wait = x.wait)

namespace Ctx.Goes
variable {x y z : Ctx}

theorem same (hc : y.cnt = x.cnt := by rfl) (hl : y.life = x.life := by rfl) (hw : y.wait = x.wait := by rfl) : x.Goes y :=
  ⟨hc, fun h => hl ▸ h, fun _ => hw⟩

/-- It waits for something else, or for nothing. -/
theorem waits (hc : y.cnt = x.cnt := by rfl) (hl : y.life = x.life := by rfl) (hw : y.wait.lasts = false := by rfl) : x.Goes y :=
  ⟨hc, fun h => hl ▸ h, fun h => nomatch hw.symm.trans h⟩

/-- It begins or ends another life. -/
theorem lives (hc : y.cnt = x.cnt := by rfl) (hl : y.life ≠ .saved := by simp) (hw : y.wait.lasts = false := by rfl) : x.Goes y :=
  ⟨hc, fun h => absurd h hl, fun h => nomatch hw.symm.trans h⟩

theorem refl (x : Ctx) : x.Goes x := .same

theorem trans (h : x.Goes y) (h' : y.Goes z) : x.Goes z := by
  obtain ⟨hc, hl, hw⟩ := h
  obtain ⟨hc', hl', hw'⟩ := h'
  exact ⟨hc'.trans hc, fun e => hl (hl' e), fun e => (hw' e).trans (hw (hw' e ▸ e))⟩

end Ctx.Goes

/-- Time has not moved: no context is chosen, no CYCLE and no rotation pointer advances, no throttle and no hold changes. -/
structure State.Timed (s₀ s : State) : Prop where
  idle : s.issue = none
  core : ∀ k, (s.core k).cycle = (s₀.core k).cycle ∧ (s.core k).rot = (s₀.core k).rot ∧ (s.core k).ran = (s₀.core k).ran
  hold : ∀ n, (s.til n).hold = (s₀.til n).hold
  throt : ∀ d, (s.die d).throt = (s₀.die d).throt

/-- Nor is any context charged. -/
structure State.Paced (s₀ s : State) : Prop where
  timed : s₀.Timed s
  ctx : ∀ c, (s₀.ctx c).Goes (s.ctx c)

/-- No byte has been written, and none is about to be: no result is held, and no EXIT waits to take effect. -/
structure State.Still (s₀ s : State) : Prop where
  mem : s.mem = s₀.mem
  soon : ∀ y ∈ s.rings, y.soon = []
  intake : ∀ n, (s.til n).intake = []
  ending : ∀ c code, (s.ctx c).wait ≠ .ending code

/-- The two things that the operations of a cycle keep. Most keep each by itself, and for the same reason. -/
inductive Aspect where
  | pace | bytes

def State.Kept (p : Aspect) (s₀ s : State) : Prop :=
  match p with
  | .pace => s₀.Paced s
  | .bytes => s₀.Still s

section
variable {p : Aspect} {s₀ s t : State}

theorem State.Still.ending_of_goes {x y : Ctx} (h : ∀ code, x.wait ≠ .ending code)
    (hg : y.wait.lasts = true → y.wait = x.wait) (code : BitVec 32) : y.wait ≠ .ending code := by
  intro e
  have lasts : y.wait.lasts = true := by rw [e]; rfl
  exact h code ((hg lasts).symm.trans e)

/-- What a context waits for is all of it that concerns bytes. -/
theorem State.Still.setCtx {c : Nat} {x : Ctx} (h : s₀.Still s) (hw : x.wait.lasts = true → x.wait = (s.ctx c).wait) :
    s₀.Still (s.setCtx c x) := by
  refine ⟨h.mem, h.soon, h.intake, fun e => ?_⟩
  by_cases he : e = c
  · subst he
    rw [State.ctx_setCtx]
    exact State.Still.ending_of_goes (h.ending e) hw
  · rw [State.ctx_setCtx_ne _ _ _ _ he]
    exact h.ending e

namespace State.Kept

/-- Other fields of the state are free. -/
theorem rest (h : s₀.Kept p s) (hc : t.ctxs = s.ctxs := by rfl) (hk : t.cores = s.cores := by rfl) (ht : t.tils = s.tils := by rfl)
    (hd : t.dies = s.dies := by rfl) (hi : t.issue = s.issue := by rfl) (hm : t.mem = s.mem := by rfl)
    (hr : t.rings = s.rings := by rfl) : s₀.Kept p t := by
  have ctx (c : Nat) : t.ctx c = s.ctx c := State.ctx_congr hc
  have til (n : Nat) : t.til n = s.til n := by rw [State.til, State.til, ht]
  cases p with
  | pace =>
    exact ⟨⟨hi.trans h.timed.idle, fun k => by rw [State.core, hk]; exact h.timed.core k, fun n => (til n) ▸ h.timed.hold n,
      fun d => by rw [State.die, hd]; exact h.timed.throt d⟩, fun c => (ctx c) ▸ h.ctx c⟩
  | bytes => exact ⟨hm.trans h.mem, hr ▸ h.soon, fun n => (til n) ▸ h.intake n, fun c => (ctx c) ▸ h.ending c⟩

theorem setCtx {c : Nat} {x : Ctx} (h : s₀.Kept p s) (hx : (s.ctx c).Goes x) : s₀.Kept p (s.setCtx c x) := by
  cases p with
  | pace =>
    refine ⟨⟨h.timed.idle, h.timed.core, h.timed.hold, h.timed.throt⟩, fun e => ?_⟩
    by_cases he : e = c
    · subst he
      rw [State.ctx_setCtx]
      exact (h.ctx e).trans hx
    · rw [State.ctx_setCtx_ne _ _ _ _ he]
      exact h.ctx e
  | bytes => exact State.Still.setCtx h hx.2.2

theorem modCtx {c : Nat} {f : Ctx → Ctx} (h : s₀.Kept p s) (hf : (s.ctx c).Goes (f (s.ctx c))) : s₀.Kept p (s.modCtx c f) :=
  .setCtx h hf

theorem mapCtxs {g : Nat × Ctx → Nat × Ctx} (h : s₀.Kept p s) (hg : ∀ p, (g p).1 = p.1)
    (hr : ∀ c, (g (c, Ctx.reset c)).2 = Ctx.reset c) (hs : ∀ p : Nat × Ctx, p.2.Goes (g p).2) : s₀.Kept p { s with ctxs := s.ctxs.map g } := by
  have ctx (c : Nat) : (s.ctx c).Goes (({ s with ctxs := s.ctxs.map g } : State).ctx c) := by
    rw [State.ctx_mapCtxs hg hr]
    exact hs (c, s.ctx c)
  cases p with
  | pace => exact ⟨⟨h.timed.idle, h.timed.core, h.timed.hold, h.timed.throt⟩, fun c => (h.ctx c).trans (ctx c)⟩
  | bytes => exact ⟨h.mem, h.soon, h.intake, fun c => State.Still.ending_of_goes (h.ending c) (ctx c).2.2⟩

theorem setCore {k : Nat} {x : Core} (h : s₀.Kept p s) (hc : x.cycle = (s.core k).cycle := by rfl) (hr : x.rot = (s.core k).rot := by rfl)
    (hn : x.ran = (s.core k).ran := by rfl) : s₀.Kept p (s.setCore k x) := by
  cases p with
  | pace =>
    refine ⟨⟨h.timed.idle, fun j => ?_, h.timed.hold, h.timed.throt⟩, h.ctx⟩
    by_cases hj : j = k
    · subst hj
      rw [State.core_setCore, hc, hr, hn]
      exact h.timed.core j
    · rw [State.core_setCore_ne _ _ _ _ hj]
      exact h.timed.core j
  | bytes => exact ⟨h.mem, h.soon, h.intake, h.ending⟩

theorem modCore {k : Nat} {f : Core → Core} (h : s₀.Kept p s) (hc : (f (s.core k)).cycle = (s.core k).cycle := by rfl)
    (hr : (f (s.core k)).rot = (s.core k).rot := by rfl) (hn : (f (s.core k)).ran = (s.core k).ran := by rfl) :
    s₀.Kept p (s.modCore k f) := .setCore h hc hr hn

theorem setTil {n : Nat} {x : Tiller} (h : s₀.Kept p s) (hh : x.hold = (s.til n).hold := by rfl)
    (hi : (s.til n).intake = [] → x.intake = [] := by exact id) : s₀.Kept p (s.setTil n x) := by
  cases p with
  | pace =>
    refine ⟨⟨h.timed.idle, h.timed.core, fun j => ?_, h.timed.throt⟩, h.ctx⟩
    by_cases hj : j = n
    · subst hj
      rw [State.til_setTil, hh]
      exact h.timed.hold j
    · rw [State.til_setTil_ne _ _ _ _ hj]
      exact h.timed.hold j
  | bytes =>
    refine ⟨h.mem, h.soon, fun j => ?_, h.ending⟩
    by_cases hj : j = n
    · subst hj
      rw [State.til_setTil]
      exact hi (h.intake j)
    · rw [State.til_setTil_ne _ _ _ _ hj]
      exact h.intake j

theorem modTil {n : Nat} {f : Tiller → Tiller} (h : s₀.Kept p s) (hh : (f (s.til n)).hold = (s.til n).hold := by rfl)
    (hi : (s.til n).intake = [] → (f (s.til n)).intake = [] := by exact id) : s₀.Kept p (s.modTil n f) := .setTil h hh hi

theorem modDie {d : Nat} {f : Die → Die} (h : s₀.Kept p s) (ht : (f (s.die d)).throt = (s.die d).throt := by rfl) :
    s₀.Kept p (s.modDie d f) := by
  cases p with
  | pace =>
    refine ⟨⟨h.timed.idle, h.timed.core, h.timed.hold, fun j => ?_⟩, h.ctx⟩
    by_cases hj : j = d
    · subst hj
      rw [State.die_modDie, ht]
      exact h.timed.throt j
    · rw [State.die_modDie_ne _ _ _ _ hj]
      exact h.timed.throt j
  | bytes => exact ⟨h.mem, h.soon, h.intake, h.ending⟩

theorem ite {c : Prop} [Decidable c] {a b : State} (ha : s₀.Kept p a) (hb : s₀.Kept p b) : s₀.Kept p (if c then a else b) := by
  split <;> assumption

theorem foldl {α : Type} {f : State → α → State} {l : List α} (hf : ∀ s x, s₀.Kept p s → s₀.Kept p (f s x))
    (h : s₀.Kept p s) : s₀.Kept p (l.foldl f s) := by
  induction l generalizing s with
  | nil => exact h
  | cons x r ih => exact ih (hf s x h)

/-! ### Messages, keys and wakes -/

theorem later {i : Instr} (h : s₀.Kept p s) : s₀.Kept p (s.later i) := .rest h
theorem laterOnce {i : Instr} (h : s₀.Kept p s) : s₀.Kept p (s.laterOnce i) := .ite h (.later h)
theorem wakeCtx {c : Nat} (h : s₀.Kept p s) : s₀.Kept p (s.wakeCtx c) := .laterOnce h
theorem tick (h : s₀.Kept p s) : s₀.Kept p s.tick := .rest h
theorem scramble {lo hi : Nat} (h : s₀.Kept p s) : s₀.Kept p (s.scramble lo hi) := .ite (.rest h) h
theorem ring {k b : Nat} (h : s₀.Kept p s) : s₀.Kept p (s.ring k b) := .foldl (fun _ _ h' => .ite (.modCtx h' .waits) h') h

theorem send {k b : Nat} {m : Msg} (h : s₀.Kept p s) : s₀.Kept p (s.send k b m) := by
  have time (x : Core) (q : List Msg) :
      (x.setBox b q).cycle = x.cycle ∧ (x.setBox b q).rot = x.rot ∧ (x.setBox b q).ran = x.ran := by
    unfold Core.setBox
    split
    · exact ⟨rfl, rfl, rfl⟩
    · split <;> exact ⟨rfl, rfl, rfl⟩
  exact .ite (.ring (.modCore h (time ..).1 (time ..).2.1 (time ..).2.2)) (.modCore h)

theorem setDirectory {d : Directory} (h : s₀.Kept p s) : s₀.Kept p (s.setDirectory d) := .rest h
theorem wakeAt {n : Nat} {key : Key} (h : s₀.Kept p s) : s₀.Kept p (s.wakeAt n key) := .foldl (fun _ _ h' => .wakeCtx h') h

theorem notify {key : Key} (h : s₀.Kept p s) : s₀.Kept p (s.notify key) := by
  unfold State.notify
  dsimp only
  split
  · exact .foldl (fun _ _ h' => .ite h' (.laterOnce h')) (.setTil h)
  · exact .foldl (fun _ _ h' => .laterOnce h') (.ite h (.setDirectory h))

theorem markAt {n : Nat} {key : Key} (h : s₀.Kept p s) : s₀.Kept p (s.markAt n key) := by
  refine .mapCtxs h (fun p => by dsimp only; split <;> rfl) (fun c => ?_) (fun p => ?_)
  · have : (Ctx.reset c).tx.active = false := rfl
    simp [this]
  · dsimp only
    split
    · exact .same
    · exact .refl _

theorem changeKey {key : Key} (h : s₀.Kept p s) : s₀.Kept p (s.changeKey key) := by
  unfold State.changeKey
  split
  · exact .notify (.wakeAt (.markAt h))
  · exact .notify h

theorem freeHeld {n : Nat} (h : s₀.Kept p s) : s₀.Kept p (s.freeHeld n) := by
  refine .foldl (fun _ _ h' => .ite h' (.laterOnce h')) (.mapCtxs h (fun p => by split <;> rfl) (fun c => by simp [Ctx.reset])
    (fun p => ?_))
  split
  · exact .waits
  · exact .refl _

theorem dropToken {c : Nat} (h : s₀.Kept p s) : s₀.Kept p (s.dropToken c) :=
  .ite (.changeKey (.freeHeld (.setTil h))) (.ite (.changeKey (.setTil h)) (.setTil h))

theorem abortTx {c cause : Nat} {acode : BitVec 16} (h : s₀.Kept p s) : s₀.Kept p (s.abortTx c cause acode) :=
  .dropToken (.modCtx h .same)

theorem freePattern {n e : Nat} (h : s₀.Kept p s) : s₀.Kept p (s.freePattern n e) := by
  unfold State.freePattern
  dsimp only
  split
  · exact h
  · exact .ite (.modTil h) (.changeKey (.modTil h))

/-! ### Fetches, translations and faults -/

theorem fillTlb {c : Nat} {fetch : Bool} {e : TlbEntry} (h : s₀.Kept p s) : s₀.Kept p (s.fillTlb c fetch e) := by
  refine .tick (.modTil (.tick (.modCore h ?_ ?_ ?_))) <;> split <;> rfl

theorem of_lookup {c : Nat} {fetch : Bool} {va : Nat} {o : Option TlbEntry} (h : s₀.Kept p s) (e : s.lookup c fetch va = (o, t)) :
    s₀.Kept p t := by
  have : s₀.Kept p (s.lookup c fetch va).2 := by
    unfold State.lookup
    dsimp only
    split
    · exact h
    · split
      · exact .fillTlb h
      · split
        · exact .fillTlb h
        · exact h
  rwa [e] at this

theorem fillCode {n pa : Nat} (h : s₀.Kept p s) : s₀.Kept p (s.fillCode n pa) := .ite h (.ite (.setTil h) (.tick (.setTil h)))

theorem codeHere {c : Nat} (h : s₀.Kept p s) : s₀.Kept p (s.codeHere c) := by
  unfold State.codeHere
  extract_lets pc s1
  have h1 : s₀.Kept p s1 := .modCtx h .waits
  split
  · exact h1
  · rename_i e
    have h2 := h1.of_lookup e
    exact .ite h2 (.fillCode h2)

theorem acquire {n scope : Nat} (h : s₀.Kept p s) : s₀.Kept p (s.acquire n scope) := .ite (.modTil h) h

theorem flush {n : Nat} {x : Flush} (h : s₀.Kept p s) : s₀.Kept p (s.flush n x) := by
  unfold State.flush
  split
  · exact h
  · exact .acquire h
  · exact .modTil h

theorem postMiss {c : Nat} {k : Acc} {lane : Nat} {va : Word} {quiet : Bool} (h : s₀.Kept p s) :
    s₀.Kept p (s.postMiss c k lane va quiet) :=
  .send (.modCtx h .waits)

theorem postFault {c : Nat} {k : Acc} {cause lane : Nat} {va : Word} (h : s₀.Kept p s) : s₀.Kept p (s.postFault c k cause lane va) :=
  .send (.modCtx h .waits)

theorem began {x : Ctx} : x.Goes x.began := by
  unfold Ctx.began
  split
  · exact ⟨rfl, (fun e => by simp at e), fun _ => rfl⟩
  · exact .refl x

theorem postFetch {c : Nat} (h : s₀.Kept p s) : s₀.Kept p (s.postFetch c) := by
  unfold State.postFetch
  refine .ite ?_ h
  split
  · exact .modCtx (.tick h) .waits
  · exact .postMiss h
  · exact .ite (.abortTx h) (.postFault (.modCtx h began))
  · exact h
  · exact h

theorem depart {c target : Nat} {recalled : Bool} (h : s₀.Kept p s) : s₀.Kept p (s.depart c target recalled) := by
  have gone (l : Life) : (if l = .killing then Life.killing else .migrated) ≠ .saved := by split <;> decide
  exact .tick (.modCtx (.modCtx (.modTil h) .lives) ⟨rfl, fun e => absurd e (gone _), fun _ => rfl⟩)

end State.Kept
end

namespace State.Kept
variable {p : Aspect} {s₀ s t : State}

/-! ### What the devices of a cycle keep -/

theorem fitRings {n : Nat} (h : s₀.Kept p s) : s₀.Kept p (s.fitRings n) := .foldl (fun _ _ h' => .ite (.changeKey (.setTil h')) h') h
theorem freePatterns {n : Nat} (h : s₀.Kept p s) : s₀.Kept p (s.freePatterns n) := .foldl (fun _ _ h' => .freePattern h') h
theorem splitTo {n l : Nat} (h : s₀.Kept p s) : s₀.Kept p (s.splitTo n l) := .freePatterns (.fitRings (.scramble (.setTil h)))

theorem swizzleTo {n : Nat} {new : BitVec 16} (h : s₀.Kept p s) : s₀.Kept p (s.swizzleTo n new) := by
  have h1 := foldl (l := (List.range 16).filter (fun j => new.getLsbD j != (s.til n).swz.getLsbD j)) (fun _ j h' => scramble
    (lo := locSpad n (65536 * j)) (hi := locSpad n (Nat.min (65536 * (j + 1)) (s.til n).spadSize)) h')
    (setTil (x := { s.til n with swz := new }) h)
  exact .ite h1 (.freePatterns h1)

theorem resize {n : Nat} (h : s₀.Kept p s) : s₀.Kept p (s.resize n) := by
  unfold State.resize
  refine .ite h ?_
  extract_lets t s1 s2
  have h1 : s₀.Kept p s1 := .setTil h
  have h2 : s₀.Kept p s2 := by
    unfold s2
    split
    · exact h1
    · exact .splitTo h1
  split
  · exact h2
  · exact .swizzleTo h2

theorem keepWord {c : Nat} (h : s₀.Kept p s) : s₀.Kept p (s.keepWord c) := by
  unfold State.keepWord
  dsimp only
  refine .ite ?_ (.ite h (.setCtx h .same))
  split
  · exact .setCtx h .same
  · exact h

theorem begins {c : Nat} (h : s₀.Kept p s) : s₀.Kept p (s.begins c) := by
  unfold State.begins
  refine .ite ?_ h
  split
  · exact .laterOnce h
  · exact .laterOnce h
  · exact h

/-- The end of a wait, but for that of an EXIT. -/
theorem endWait_of_not_ending {c : Nat} (h : s₀.Kept p s) (he : ∀ code, (s.ctx c).wait ≠ .ending code) :
    s₀.Kept p (s.endWait c) := by
  unfold State.endWait
  cases hw : (s.ctx c).wait with
  | code u => exact .ite (.codeHere h) h
  | begin_ u => exact .ite (.modCtx h .waits) h
  | drain => exact .ite (.modCtx h .waits) h
  | order loads line u flush => exact .ite h (.flush (.modCtx h .waits))
  | ending code => exact absurd hw (he code)
  | moving t => exact .ite h (.depart h)
  | _ => exact h

theorem blockDone {n : Nat} {x : HalfOf} (h : s₀.Kept p s) : s₀.Kept p (s.blockDone n x) := by
  unfold State.blockDone
  split
  · exact .modTil h
  · exact .ite (.laterOnce h) h

theorem tileMoves {n : Nat} (h : s₀.Kept p s) : s₀.Kept p (s.tileMoves n) := by
  unfold State.tileMoves
  extract_lets t next s1 s2
  have h1 : s₀.Kept p s1 := by
    unfold s1
    split
    · exact h
    · exact .ite h (.blockDone h)
  clear_value next
  have h2 : s₀.Kept p s2 := .modTil h1
  split
  · exact h2
  · rename_i what ws
    extract_lets k s3
    have h3 : s₀.Kept p s3 := by
      unfold s3
      cases what <;> exact .modTil h2
    exact .ite (.blockDone h3) h3

theorem streamMoves {n : Nat} (h : s₀.Kept p s) : s₀.Kept p (s.streamMoves n) := by
  unfold State.streamMoves
  dsimp only
  split
  · exact .modTil h
  · exact .ite (.laterOnce (.modTil (.modTil h))) (.modTil (.modTil h))

/-- Rings take each other's place, with as little that is held. -/
theorem mapRings {g : Ring → Ring} (h : s₀.Kept p s) (hg : ∀ y, y.soon = [] → (g y).soon = []) :
    s₀.Kept p { s with rings := s.rings.map g } := by
  cases p with
  | pace => exact ⟨⟨h.timed.idle, h.timed.core, h.timed.hold, h.timed.throt⟩, h.ctx⟩
  | bytes =>
    refine ⟨h.mem, fun y hy => ?_, h.intake, h.ending⟩
    obtain ⟨x, hx, rfl⟩ := List.mem_map.mp hy
    exact hg x (h.soon x hx)

theorem putOff {v : Wave} {at_ : Word} (h : s₀.Kept p s) : s₀.Kept p (s.putOff v at_) := by
  unfold State.putOff
  extract_lets s1 s2
  have h1 : s₀.Kept p s1 := .modCtx h .same
  have h2 : s₀.Kept p s2 := .rest (.mapRings h1 fun y hy => ?_)
  · exact .modTil h2 rfl fun e => by simp [e]
  · split
    · simp [hy]
    · exact hy

theorem delayWave {k : Nat} (h : s₀.Kept p s) : s₀.Kept p (s.delayWave k) := by
  unfold State.delayWave
  dsimp only
  split
  · exact h
  · exact .foldl (fun _ _ h' => .ite h' (.putOff h')) (.modCore h)

theorem answerReq {n : Nat} {ok : Bool} {who : Requester} (h : s₀.Kept p s) : s₀.Kept p (s.answerReq n ok who) := by
  unfold State.answerReq
  dsimp only
  split
  · exact .ite (.tileMoves h) (.modTil h)
  · exact .ite (.streamMoves h) (.modTil h)
  · exact .ite (.modCore h) (.delayWave h)

theorem servePorts {n : Nat} (h : s₀.Kept p s) : s₀.Kept p (s.servePorts n) :=
  .foldl (fun _ _ h' => .answerReq h') (.ite h (.modTil h))

theorem holdValues {n : Nat} (h : s₀.Kept p s) : s₀.Kept p (s.holdValues n) := by
  unfold State.holdValues
  dsimp only
  split
  · exact .ite h (.modTil h)
  · exact .ite h (.changeKey (.modTil h))

theorem clockPats {n : Nat} {cycle : Word} (h : s₀.Kept p s) : s₀.Kept p (s.clockPats n cycle) := by
  unfold State.clockPats
  dsimp only
  split
  · exact .ite (.laterOnce h) h
  · exact .ite (.laterOnce h) h

theorem clockStream {n : Nat} (h : s₀.Kept p s) : s₀.Kept p (s.clockStream n) := .ite h (.ite h (.tick (.modTil h)))

theorem clockTil {k : Nat} (h : s₀.Kept p s) : s₀.Kept p (s.clockTil k) := by
  unfold State.clockTil
  refine .ite ?_ h
  extract_lets til mine s1 s2 s3 s4 s5
  have h1 : s₀.Kept p s1 := .foldl (fun _ _ h' => .laterOnce h') h
  have h2 : s₀.Kept p s2 := .foldl (fun _ _ h' => .ite (.laterOnce (.tick h')) (.tick h')) h1
  have h3 : s₀.Kept p s3 := .resize (.clockPats (.clockStream h2))
  have h4 : s₀.Kept p s4 := .ite (.laterOnce h3) h3
  have h5 : s₀.Kept p s5 := .tick (.modTil h4)
  exact .ite (.laterOnce h5) h5

theorem clockDie {k : Nat} (h : s₀.Kept p s) : s₀.Kept p (s.clockDie k) := by
  unfold State.clockDie
  refine .ite ?_ h
  extract_lets d s1 s2 s3 s4 mine s5
  have h1 : s₀.Kept p s1 := .tick (.tick (.modDie h))
  have h2 : s₀.Kept p s2 := .ite (.laterOnce h1) h1
  have h3 : s₀.Kept p s3 := .ite (.laterOnce h2) h2
  have h4 : s₀.Kept p s4 := .ite (.foldl (fun _ _ h' => .laterOnce h') h3) h3
  have h5 : s₀.Kept p s5 := .foldl (fun _ _ h' => .laterOnce h') h4
  exact .ite (.laterOnce h5) h5

end State.Kept

/-- Time has not moved in what an enqueue gives. -/
def Put.Paced (s₀ : State) : Put → Prop
  | .done t => s₀.Kept .pace t
  | _ => True

theorem Put.Paced.ite {s₀ : State} {c : Prop} [Decidable c] {a b : Put} (ha : a.Paced s₀) (hb : b.Paced s₀) :
    (if c then a else b).Paced s₀ := by
  split <;> assumption

/-- A restarted attempt leaves a wait that lasts as it is. -/
theorem Wait.undone_of_lasts {w : Wait} (h : w.undone.lasts = true) : w.undone = w := by
  cases w with
  | miss | code | order | moving => cases h
  | _ => rfl

namespace State.Kept
variable {s₀ s t : State}

/-! ### What an EXIT and a published result keep of time -/

/-- Bytes and rings are free, where only time is spoken of. -/
theorem free (h : s₀.Kept .pace s) (hc : t.ctxs = s.ctxs := by rfl) (hk : t.cores = s.cores := by rfl) (ht : t.tils = s.tils := by rfl)
    (hd : t.dies = s.dies := by rfl) (hi : t.issue = s.issue := by rfl) : s₀.Kept .pace t :=
  ⟨⟨hi.trans h.timed.idle, fun k => by rw [State.core, hk]; exact h.timed.core k, fun n => by rw [State.til, ht]; exact h.timed.hold n,
    fun d => by rw [State.die, hd]; exact h.timed.throt d⟩, fun c => State.ctx_congr hc ▸ h.ctx c⟩

theorem mapTils {g : Nat × Tiller → Nat × Tiller} (h : s₀.Kept .pace s) (hg : ∀ p, (g p).1 = p.1)
    (hh : ∀ p, (g p).2.hold = p.2.hold) : s₀.Kept .pace { s with tils := s.tils.map g } := by
  refine ⟨⟨h.timed.idle, h.timed.core, fun n => ?_, h.timed.throt⟩, h.ctx⟩
  rw [← h.timed.hold n]
  show ((tget (s.tils.map g) n).getD Tiller.reset).hold = _
  rw [tget_map _ _ hg, State.til]
  cases tget s.tils n with
  | none => rfl
  | some x => exact hh (n, x)

theorem putBytes {a : Nat} {bs : List Byte} (h : s₀.Kept .pace s) : s₀.Kept .pace (s.putBytes a bs) := by
  induction bs generalizing s a with
  | nil => exact h
  | cons b r ih => exact ih (.free h)

theorem wr {a n x : Nat} (h : s₀.Kept .pace s) : s₀.Kept .pace (s.wr a n x) := .putBytes h
theorem withdraw {c : Nat} (h : s₀.Kept .pace s) : s₀.Kept .pace (s.withdraw c) := .modTil h

/-- None has been chosen yet, so none is withdrawn. -/
theorem withdrawIssue {c : Nat} (h : s₀.Kept .pace s) : s₀.Kept .pace (s.withdrawIssue c) := by
  unfold State.withdrawIssue
  rw [h.timed.idle, if_neg nofun]
  exact h

theorem restart {c : Nat} {f : Tx → Tx} (h : s₀.Kept .pace s) : s₀.Kept .pace (s.restart c f) :=
  .dropToken (.withdrawIssue (.modCtx h ⟨rfl, id, Wait.undone_of_lasts⟩))

theorem restartConflict {c : Nat} (h : s₀.Kept .pace s) : s₀.Kept .pace (s.restartConflict c) := .restart h

theorem conflictAt {n : Nat} {key : Key} {who : Option Nat} (h : s₀.Kept .pace s) : s₀.Kept .pace (s.conflictAt n key who) :=
  .foldl (fun _ _ h' => .ite h' (.restartConflict h')) h

theorem unstageLine {n l : Nat} (h : s₀.Kept .pace s) : s₀.Kept .pace (s.unstageLine n l) := by
  unfold State.unstageLine
  dsimp only
  refine .ite ?_ h
  split
  · exact .ite (.changeKey (.setTil h)) (.setTil h)
  · exact .setTil h

theorem changeLine {l : Nat} {who : Option Nat} (h : s₀.Kept .pace s) : s₀.Kept .pace (s.changeLine l who) := by
  unfold State.changeLine
  dsimp only
  split
  · exact .unstageLine (.foldl (fun _ _ h' => .freePattern h') (.notify (.wakeAt (.markAt (.conflictAt h)))))
  · split
    · exact .notify h
    · exact .laterOnce (.notify h)

theorem unstageAt {a n : Nat} (h : s₀.Kept .pace s) : s₀.Kept .pace (s.unstageAt a n) := by
  unfold State.unstageAt
  split
  · exact h
  · exact .foldl (fun _ _ h' => .unstageLine h') h

theorem devWr {a n x : Nat} (h : s₀.Kept .pace s) : s₀.Kept .pace (s.devWr a n x) := .unstageAt (.wr h)

theorem store {a : Nat} {bs : List Byte} {who : Option Nat} (h : s₀.Kept .pace s) : s₀.Kept .pace (s.store a bs who) :=
  .foldl (fun _ _ h' => .changeLine h') (.free (.putBytes h))

theorem globalStore {a part : Nat} {bs : List Byte} {who : Option Nat} (h : s₀.Kept .pace s) :
    s₀.Kept .pace (s.globalStore a part bs who) := .ite (.free (.store h)) (.store h)

/-! ### Rings -/

theorem setRing {x : Ring} (h : s₀.Kept .pace s) : s₀.Kept .pace (s.setRing x) := .free h
theorem changeChan {r : Nat} (h : s₀.Kept .pace s) : s₀.Kept .pace (s.changeChan r) := .changeKey h
theorem rPut {r off x : Nat} (h : s₀.Kept .pace s) : s₀.Kept .pace (s.rPut r off x) := .devWr h
theorem markSoon {r seq : Nat} (h : s₀.Kept .pace s) : s₀.Kept .pace (s.markSoon r seq) := .ite h (.setRing h)

theorem fillSlot {r k seq : Nat} {x : Elem} {grp : Nat} (h : s₀.Kept .pace s) : s₀.Kept .pace (s.fillSlot r k seq x grp) :=
  .unstageAt (.unstageAt (.wr (.wr h)))

theorem toExt {r seq idx : Nat} {x : Elem} {grp : Option Nat} (h : s₀.Kept .pace s) : s₀.Kept .pace (s.toExt r seq idx x grp) := by
  unfold State.toExt
  dsimp only
  refine .setRing ?_
  split
  · exact .globalStore h
  · exact h

theorem ringPlace {r seq : Nat} {x : Elem} {grp : Option Nat} {g : Nat} (h : s₀.Kept .pace s) :
    s₀.Kept .pace (s.ringPlace r seq x grp g) := by
  have h1 : s₀.Kept .pace (s.markSoon r seq) := .markSoon h
  unfold State.ringPlace
  dsimp only
  refine .ite ?_ (.ite (.setRing (.fillSlot h1)) (.toExt h1))
  split
  · exact .ite (.setRing (.fillSlot (.setRing h1))) (.toExt (.setRing h1))
  · exact .toExt (.setRing h1)

theorem advancePseq {r f : Nat} (h : s₀.Kept .pace s) : s₀.Kept .pace (s.advancePseq r f) := by
  induction f generalizing s with
  | zero => exact h
  | succ f ih => exact .ite (ih (.rPut h)) h

/-- A step that only some states call for. -/
theorem orLater {c : Prop} [Decidable c] {i : Instr} (h : s₀.Kept .pace s) : s₀.Kept .pace (if c then s else s.laterOnce i) :=
  .ite h (.laterOnce h)

theorem orChange {c : Prop} [Decidable c] {r : Nat} (h : s₀.Kept .pace s) : s₀.Kept .pace (if c then s else s.changeChan r) :=
  .ite h (.changeChan h)

theorem freePassed {r : Nat} (h : s₀.Kept .pace s) : s₀.Kept .pace (s.freePassed r) :=
  .changeChan (.orLater (.orLater (.ite (.setRing h) (.ite (.setRing h) (.setRing h)))))

theorem passPublished {r n : Nat} (h : s₀.Kept .pace s) : s₀.Kept .pace (s.passPublished r n) := by
  unfold State.passPublished
  extract_lets s1
  have h1 : s₀.Kept .pace s1 := .ite (.rPut h) (.advancePseq h)
  exact .ite (.freePassed h1) (.changeChan h1)

theorem publish {r seq : Nat} {x : Elem} {grp : Option Nat} {g : Nat} (h : s₀.Kept .pace s) :
    s₀.Kept .pace (s.publish r seq x grp g) := .passPublished (.ringPlace h)

theorem publishAt {r seq : Nat} {x : Elem} {grp : Option Nat} (h : s₀.Kept .pace s) : s₀.Kept .pace (s.publishAt r seq x grp) :=
  .ite (.free (.ite (.setRing h) h)) (.publish h)

theorem ringAppend {r : Nat} {x : Elem} {grp deal : Option Nat} {dealt : Bool} (h : s₀.Kept .pace s) :
    s₀.Kept .pace (s.ringAppend r x grp deal dealt) := .publishAt (.ite (.setRing (.rPut h)) (.rPut h))

theorem release7 {r : Nat} (h : s₀.Kept .pace s) : s₀.Kept .pace (s.release7 r) := by
  unfold State.release7
  dsimp only
  split
  · exact h
  · have h1 : s₀.Kept .pace (s.setRing { s.ringX r with sent7 := [], code7 := none }) := .setRing h
    have h2 : s₀.Kept .pace { s.setRing { s.ringX r with sent7 := [], code7 := none } with due := 0 } := .free h1
    exact .ite (.free (.ringAppend h2)) h

theorem afterLow {r : Nat} (h : s₀.Kept .pace s) : s₀.Kept .pace (s.afterLow r) := .release7 (.freePassed h)

theorem closeGroup {r g : Nat} (h : s₀.Kept .pace s) : s₀.Kept .pace (s.closeGroup r g) :=
  .ite h (.orLater (.orLater (.orChange (.rPut (.setRing h)))))

theorem launchCargo {r c : Nat} {x : Cargo} (h : s₀.Kept .pace s) : s₀.Kept .pace (s.launchCargo r c x) := .later (.free h)
theorem closeFor {c g : Nat} (h : s₀.Kept .pace s) : s₀.Kept .pace (s.closeFor c g) :=
  .foldl (fun _ _ h' => .ite (.launchCargo h') (.closeGroup h')) h
theorem endFor {c : Nat} (h : s₀.Kept .pace s) : s₀.Kept .pace (s.endFor c) :=
  .foldl (fun _ _ h' => .ite (.launchCargo h') (.release7 (.setRing h'))) h
theorem holdCursor {r cur : Nat} {on : Bool} (h : s₀.Kept .pace s) : s₀.Kept .pace (s.holdCursor r cur on) := .ite h (.devWr h)
theorem sendFar {c e r : Nat} {x : Cargo} (h : s₀.Kept .pace s) : s₀.Kept .pace (s.sendFar c e r x) := .ite h (.launchCargo h)
theorem toPeer {m : PeerMsg} (h : s₀.Kept .pace s) : s₀.Kept .pace (s.toPeer m) := .free h

theorem voidNumber {r : Nat} {u : Nat × Nat × Nat} (h : s₀.Kept .pace s) : s₀.Kept .pace (s.voidNumber r u) :=
  .ite (.setRing h) (.publishAt (.setRing h))
theorem voidFar {r : Nat} {u : Nat × Nat × Nat} (h : s₀.Kept .pace s) : s₀.Kept .pace (s.voidFar r u) := .sendFar (.setRing h)
theorem voidReserved {c e : Nat} (h : s₀.Kept .pace s) : s₀.Kept .pace (s.voidReserved c e) :=
  .foldl (fun _ _ h' => .foldl (fun _ _ h'' => .ite (.voidFar h'') (.voidNumber h'')) h') h

theorem returnCredits {c e : Nat} (h : s₀.Kept .pace s) : s₀.Kept .pace (s.returnCredits c e) := by
  have h1 : s₀.Kept .pace (s.modTil (tilOf c) fun t => { t with credits := t.credits.filter (fun k => !(k.cid == c && k.e == e)) }) :=
    .modTil h
  exact .foldl (fun _ _ h' => .ite (.toPeer h') (.changeChan (.orLater (.rPut h')))) (.free h1)

theorem releaseCursor {r cur : Nat} (h : s₀.Kept .pace s) : s₀.Kept .pace (s.releaseCursor r cur) :=
  .foldl (fun _ _ h' => .wakeCtx h') (.afterLow (.holdCursor h))

/-! ### Units -/

theorem setRef {r : RefBind} (h : s₀.Kept .pace s) : s₀.Kept .pace (s.setRef r) := .modTil h
theorem setStream {r : StreamBind} (h : s₀.Kept .pace s) : s₀.Kept .pace (s.setStream r) := .modTil h
theorem refDeliver {r : RefBind} (h : s₀.Kept .pace s) : s₀.Kept .pace (s.refDeliver r) :=
  .ite (.setRef h) (.ite (.setRef h) (.changeKey (.setRef h)))

theorem startQueued {n eng f : Nat} (h : s₀.Kept .pace s) : s₀.Kept .pace (s.startQueued n eng f) := by
  induction f generalizing s with
  | zero => exact h
  | succ f ih =>
    unfold State.startQueued
    dsimp only
    split
    · exact h
    · exact .ite h (ih (.later (.setRef h)))

theorem refPut {c e : Nat} {x : Elem} (h : s₀.Kept .pace s) : (s.refPut c e x).Paced s₀ := by
  unfold State.refPut
  dsimp only
  split
  · trivial
  · refine .ite trivial (.ite ?_ (.ite ?_ (.ite ?_ ?_)))
    · exact refDeliver h
    · exact refDeliver h
    · exact setRef h
    · exact later (.setRef h)

theorem mergePut {c port : Nat} {x : Elem} (h : s₀.Kept .pace s) : (s.mergePut c port x).Paced s₀ := by
  unfold State.mergePut
  dsimp only
  split
  · trivial
  · exact .ite trivial (laterOnce (.modTil h))

theorem streamPut {c e : Nat} {x : Elem} (h : s₀.Kept .pace s) : (s.streamPut c e x).Paced s₀ := by
  unfold State.streamPut
  split
  · trivial
  · exact .ite (.ite trivial h) (.ite trivial (.ite trivial (setStream h)))

theorem putUnit {c e : Nat} {x : Elem} (h : s₀.Kept .pace s) : (s.putUnit c e x).Paced s₀ := by
  unfold State.putUnit
  dsimp only
  split
  · exact refPut h
  · exact mergePut h
  · exact streamPut h

theorem takeIn {i : Intake} (h : s₀.Kept .pace s) : s₀.Kept .pace (s.takeIn i) := by
  unfold State.takeIn
  have h1 := putUnit (c := i.cid) (e := i.e) (x := i.x) (modTil (n := tilOf i.cid) (f := fun t => { t with intake := t.intake.erase i }) h
    rfl fun e => by simp [e])
  split
  · rename_i e
    rwa [e] at h1
  · exact h

theorem takeAll {c e : Nat} (h : s₀.Kept .pace s) : s₀.Kept .pace (s.takeAll c e) := .foldl (fun _ _ h' => .takeIn h') h

theorem clearEnd {c e : Nat} (h : s₀.Kept .pace s) : s₀.Kept .pace (s.modCtx c (fun x => x.clearEnd e)) := by
  refine .modCtx h ?_
  unfold Ctx.clearEnd Ctx.setS
  dsimp only
  split
  · split
    · exact .same
    · exact .same
  · exact .same

theorem unbind {c e : Nat} (h : s₀.Kept .pace s) : s₀.Kept .pace (s.unbind c e) := by
  have h1 : s₀.Kept .pace ((s.takeAll c e).modCtx c (fun x => x.clearEnd e)) := .clearEnd (.takeAll h)
  unfold State.unbind
  dsimp only
  split
  · exact h1
  · exact .ite (.returnCredits (.voidReserved h1)) (.releaseCursor (.modCtx h1 .same))
  · refine .ite ?_ (.modTil h1)
    split
    · exact h1
    · split
      · exact .startQueued (.modTil h1)
      · exact .clearEnd (.startQueued (.modTil h1))
  · split
    · exact h1
    · exact .modTil h1
  · exact .modTil h1

theorem unbindAll {c : Nat} (h : s₀.Kept .pace s) : s₀.Kept .pace (s.unbindAll c) := .foldl (fun _ _ h' => .unbind h') h
theorem endReplica {c : Nat} (h : s₀.Kept .pace s) : s₀.Kept .pace (s.endReplica c) :=
  .endFor (.modCtx (.foldl (fun _ _ h' => .closeFor h') h) .same)

/-! ### An EXIT -/

theorem dropMember {n : Nat} {m : Member} {kill : Bool} (h : s₀.Kept .pace s) : s₀.Kept .pace (s.dropMember n m kill) := by
  unfold State.dropMember
  dsimp only
  split
  · exact .modTil h
  · exact .store (.modTil h)

theorem dropMembers {c : Nat} {kill : Bool} (h : s₀.Kept .pace s) : s₀.Kept .pace (s.dropMembers c kill) :=
  .foldl (fun _ _ h' => .dropMember h') h

theorem dropLease {c : Nat} (h : s₀.Kept .pace s) : s₀.Kept .pace (s.dropLease c) := .ite (.changeKey (.setTil h)) (.setTil h)
theorem dropOwner {c : Nat} (h : s₀.Kept .pace s) : s₀.Kept .pace (s.dropOwner c) := .ite (.changeKey (.modTil h)) h
theorem freeAcc {n acc : Nat} (h : s₀.Kept .pace s) : s₀.Kept .pace (s.freeAcc n acc) := .ite (.later (.setTil h)) (.setTil h)
theorem freeTile {c : Nat} (h : s₀.Kept .pace s) : s₀.Kept .pace (s.freeTile c) :=
  .foldl (fun _ _ h' => .freeAcc h') (.dropOwner (.dropLease h))

theorem dropStream {b : StreamBind} (h : s₀.Kept .pace s) : s₀.Kept .pace (s.modTil (tilOf b.cid) (fun t => { t with
    streams := t.streams.filter (fun x => !(x.cid == b.cid && x.e == b.e)) })) := .modTil h

theorem streamStored {b : StreamBind} (h : s₀.Kept .pace s) : s₀.Kept .pace (s.streamStored b) :=
  .ite (.dropStream (.changeKey (.setStream h))) (.changeKey (.setStream h))

theorem failFaulted {c : Nat} (h : s₀.Kept .pace s) : s₀.Kept .pace (s.failFaulted c) :=
  .foldl (fun _ _ h' => .streamStored h') (.foldl (fun _ _ h' => .later (.free h')) h)
theorem endResources {c : Nat} {kill : Bool} (h : s₀.Kept .pace s) : s₀.Kept .pace (s.endResources c kill) :=
  .failFaulted (.freeTile (.dropMembers (.unbindAll (.endReplica (.modCtx (.dropToken (.withdraw h)) .same)))))

theorem letIn {n : Nat} (h : s₀.Kept .pace s) : s₀.Kept .pace (s.letIn n) := .ite h (.laterOnce h)
theorem leaveHost {c : Nat} (h : s₀.Kept .pace s) : s₀.Kept .pace (s.leaveHost c) := .letIn (.setCtx h .lives)

theorem cancelTicket {c : Nat} (h : s₀.Kept .pace s) : s₀.Kept .pace (s.cancelTicket c) := by
  unfold State.cancelTicket
  dsimp only
  split
  · exact h
  · exact .ite h (.laterOnce (.modTil h))

theorem lvPut {part o off n x : Nat} (h : s₀.Kept .pace s) : s₀.Kept .pace (s.lvPut part o off n x) := .globalStore h
theorem lvOr {part o fl : Nat} (h : s₀.Kept .pace s) : s₀.Kept .pace (s.lvOr part o fl) := .ite h (.lvPut h)

theorem lvComplete {part n f o : Nat} (h : s₀.Kept .pace s) : s₀.Kept .pace (s.lvComplete part n f o) := by
  induction f generalizing s o with
  | zero => exact h
  | succ f ih =>
    unfold State.lvComplete
    extract_lets st fl s1
    have h1 : s₀.Kept .pace s1 := .lvPut h
    refine .ite h1 ?_
    split
    · exact h1
    · extract_lets old new s2 s3
      have h2 : s₀.Kept .pace s2 := .lvPut h1
      have h3 : s₀.Kept .pace s3 := .lvOr h2
      exact .ite h2 (.ite (ih h3) h3)

theorem dropGrants {id : Nat} {f : Use → Bool} (h : s₀.Kept .pace s) : s₀.Kept .pace (s.dropGrants id f) :=
  .mapTils h (fun _ => rfl) fun _ => rfl

theorem dropRings {part : Nat} {locs : List Nat} (h : s₀.Kept .pace s) : s₀.Kept .pace (s.dropRings part locs) := by
  unfold State.dropRings
  extract_lets gone
  have h1 : s₀.Kept .pace { s with tils := s.tils.map (fun p => (p.1, { p.2 with shadow := p.2.shadow.map (fun h =>
      if h.part = part then { h with rings := h.rings.filter (fun r => !locs.contains r.ring) } else h) })) } :=
    .mapTils h (fun _ => rfl) fun _ => rfl
  exact .free h1

theorem retryShares (h : s₀.Kept .pace s) : s₀.Kept .pace s.retryShares := .foldl (fun _ _ h' => .laterOnce h') h
theorem forgetLaunches (h : s₀.Kept .pace s) : s₀.Kept .pace s.forgetLaunches := .free h

theorem freeStorage {l : Launch} (h : s₀.Kept .pace s) : s₀.Kept .pace (s.freeStorage l) := by
  unfold State.freeStorage
  extract_lets s1
  have h1 : s₀.Kept .pace s1 := .free h
  exact .forgetLaunches (.retryShares (.dropRings (.dropGrants h1)))

theorem levelsMoved (h : s₀.Kept .pace s) : s₀.Kept .pace s.levelsMoved :=
  .foldl (fun _ _ h' => .freeStorage h') (.foldl (fun _ _ h' => .laterOnce h') h)
theorem lvAdd {part n o m : Nat} (h : s₀.Kept .pace s) : s₀.Kept .pace (s.lvAdd part n o m) :=
  .levelsMoved (.ite (.lvComplete (.lvPut h)) (.lvPut h))

theorem countStrand {c : Nat} {killed nonzero : Bool} (h : s₀.Kept .pace s) : s₀.Kept .pace (s.countStrand c killed nonzero) := by
  unfold State.countStrand
  dsimp only
  refine .ite h ?_
  split
  · exact h
  · exact .lvAdd (.ite (.modCtx h .same) (.lvOr (.modCtx h .same)))

theorem exitStrand {c : Nat} {code : BitVec 32} (h : s₀.Kept .pace s) : s₀.Kept .pace (s.exitStrand c code) :=
  .countStrand (.send (.modCtx (.ite (.endResources (.cancelTicket h)) (.leaveHost (.cancelTicket h))) .lives))

/-- Time does not move with the end of a wait, an EXIT's among them. -/
theorem endWait {c : Nat} (h : s₀.Kept .pace s) : s₀.Kept .pace (s.endWait c) := by
  by_cases he : ∃ code, (s.ctx c).wait = .ending code
  · obtain ⟨code, hw⟩ := he
    unfold State.endWait
    rw [hw]
    exact .ite h (.exitStrand h)
  · exact .endWait_of_not_ending h (not_exists.mp he)

theorem openResults {n : Nat} (h : s₀.Kept .pace s) : s₀.Kept .pace (s.openResults n) :=
  .foldl (fun _ _ h' => .passPublished (.setRing h')) h

theorem fillUnits {n : Nat} (h : s₀.Kept .pace s) : s₀.Kept .pace (s.fillUnits n) := by
  have all (l : List Intake) (q : State × List (Nat × Nat)) (hq : s₀.Kept .pace q.1) : s₀.Kept .pace (l.foldl (fun q i =>
      if (s.core (n * 4)).cycle.toNat + 1 < i.due.toNat ∨ q.2.contains (i.cid, i.e) then (q.1, (i.cid, i.e) :: q.2)
      else (q.1.takeIn i, q.2)) q).1 := by
    induction l generalizing q with
    | nil => exact hq
    | cons i l ih =>
      refine ih _ ?_
      dsimp only
      split
      · exact hq
      · exact .takeIn hq
  exact all _ _ h

end State.Kept

end Sys2Proof.Machine
end

section
/-! SUPPORT. A cycle of a core: the charge of a context (R74, R75), the choice (R70, R404), readiness (R69, R72) and the time that a result
takes (R56). -/

namespace Sys2Proof.Machine

/-! ### The charge of a context (R74, R75) -/

/-- One of a context's counters advances. -/
def Ctx.charged (x : Ctx) (n : Nat) : Ctx := { x with cnt := x.cnt.setIfInBounds n ((x.cnt[n]?).getD 0 + 1) }

/-- A context is charged its cycle, unless it is saved: ISSUED, which is counter 16, where it is the one chosen. -/
def Ctx.Billed (x : Ctx) (chosen : Prop) (y : Ctx) : Prop :=
  x.life ≠ .saved → ∃ n, n < 18 ∧ (n = 16 ↔ chosen) ∧ y.cnt = (x.charged n).cnt

namespace Ctx.Billed
variable {x y z : Ctx} {chosen : Prop}

theorem goes (h : x.Billed chosen y) (hg : y.Goes z) : x.Billed chosen z := fun hl => by
  obtain ⟨n, lt, iff, e⟩ := h hl
  exact ⟨n, lt, iff, hg.1.trans e⟩

theorem of_goes (hg : x.Goes y) (h : y.Billed chosen z) : x.Billed chosen z := fun hl => by
  obtain ⟨n, lt, iff, e⟩ := h fun hs => hl (hg.2.1 hs)
  exact ⟨n, lt, iff, by rw [e, Ctx.charged, Ctx.charged, hg.1]⟩

end Ctx.Billed

/-- A counter other than ISSUED. -/
def Unissued (o : Option Nat) : Prop := ∃ n, o = some n ∧ n < 18 ∧ n ≠ 16

namespace Unissued

theorem of {n : Nat} (h : n < 18 ∧ n ≠ 16 := by decide) : Unissued (some n) := ⟨n, rfl, h⟩

theorem ite {p : Prop} [Decidable p] {a b : Option Nat} (ha : Unissued a) (hb : Unissued b) : Unissued (if p then a else b) := by
  split <;> assumption

theorem some_ite {p : Prop} [Decidable p] {a b : Nat} (ha : Unissued (some a)) (hb : Unissued (some b)) :
    Unissued (some (if p then a else b)) := by
  split <;> assumption

end Unissued

section
variable {s : State} {c : Nat}

theorem State.unissued_chargeReady : Unissued (some (s.chargeReady c)) := by
  unfold State.chargeReady
  dsimp only
  split
  · exact .some_ite (.some_ite .of .of) (.some_ite .of (.some_ite .of (.some_ite .of (.some_ite .of .of))))
  · exact .of

theorem State.charge_of_issued (hl : (s.ctx c).life ≠ .saved) (hh : (s.til (tilOf c)).hold = false) : s.charge c true = some 16 := by
  simp [State.charge, hl, hh]

/-- A cycle in which a context does not issue is charged to another counter. -/
theorem State.unissued_charge (hl : (s.ctx c).life ≠ .saved) (hs : ∀ cause keys, (s.ctx c).wait = .sleep cause keys → cause < 16) :
    Unissued (s.charge c false) := by
  unfold State.charge
  dsimp only
  rw [if_neg hl, if_neg Bool.false_ne_true]
  refine .ite .of (.ite .of ?_)
  split
  iterate 6 exact .of
  cases hw : (s.ctx c).wait with
  | sleep cause keys =>
    have lt := hs cause keys hw
    exact .of ⟨by omega, by omega⟩
  | miss k _ _ _ =>
    cases k with
    | fetch => exact .of
    | _ => exact .some_ite .of .of
  | none => exact .some_ite .of (.some_ite (.some_ite .of .of) State.unissued_chargeReady)
  | _ => exact .of

end

section
variable {p : Aspect} {s₀ s t u : State} {c k : Nat}

theorem State.Timed.refl (h : s.issue = none) : s.Timed s := ⟨h, fun _ => ⟨rfl, rfl, rfl⟩, fun _ => rfl, fun _ => rfl⟩

theorem State.Timed.trans (h : s.Timed t) (h' : t.Timed u) : s.Timed u :=
  ⟨h'.idle, fun j => ⟨(h'.core j).1.trans (h.core j).1, (h'.core j).2.1.trans (h.core j).2.1, (h'.core j).2.2.trans (h.core j).2.2⟩,
    fun n => (h'.hold n).trans (h.hold n), fun d => (h'.throt d).trans (h.throt d)⟩

theorem State.Paced.refl (h : s.issue = none) : s.Paced s := ⟨.refl h, fun _ => .refl _⟩

/-! ### The end of a tiller's cycle -/

/-- Where no result is held, none is there in the next cycle. -/
theorem State.Still.openResults_eq {n : Nat} (h : s₀.Still s) : s.openResults n = s := by
  unfold State.openResults
  extract_lets next
  rw [List.filter_eq_nil_iff.mpr fun y hy => by simp [h.soon y hy], List.foldl_nil]

theorem State.Still.fillUnits_eq {n : Nat} (h : s₀.Still s) : s.fillUnits n = s := by
  unfold State.fillUnits
  rw [h.intake n]
  rfl

theorem State.Kept.endCycle {n : Nat} (h : s₀.Kept p s) : s₀.Kept p (s.endCycle n) := by
  refine .ite h (.holdValues ?_)
  have hs : s₀.Kept p (s.servePorts n) := .servePorts h
  cases p with
  | pace => exact .fillUnits (.openResults hs)
  | bytes =>
    have he : (s.servePorts n).openResults n = s.servePorts n := State.Still.openResults_eq hs
    rw [he, State.Still.fillUnits_eq hs]
    exact hs

/-! ### A core enters its next cycle (R70, R378) -/

theorem State.enterCycle_core (s : State) (k : Nat) : let x := (s.enterCycle k).core k
    x.cycle = (if (s.core k).ran = none then (s.core k).cycle else (s.core k).cycle + 1) ∧
      x.rot = (if (s.core k).ran = some true then (s.core k).rot + 1 else (s.core k).rot) ∧
      x.ran = some (decide ((s.die (k / 1024)).throt.toNat ≤ x.cycle.toNat % 16)) := by
  simp only [State.enterCycle, State.permitted, State.core_modCore]
  refine ⟨?_, ?_, rfl⟩
  · cases (s.core k).ran <;> rfl
  · cases (s.core k).ran with
    | none => rfl
    | some b => cases b <;> rfl

/-- It changes nothing else that is spoken of. -/
theorem State.enterCycle_rest (s : State) (k : Nat) : (s.enterCycle k).ctxs = s.ctxs ∧ (s.enterCycle k).tils = s.tils ∧
    (s.enterCycle k).dies = s.dies ∧ (s.enterCycle k).issue = s.issue := ⟨rfl, rfl, rfl, rfl⟩

theorem State.Still.enterCycle (h : s₀.Still s) : s₀.Still (s.enterCycle k) := ⟨h.mem, h.soon, h.intake, h.ending⟩

/-! ### A context's cycle -/

/-- The charge of a context's cycle. -/
def State.chargeTo (s : State) (c : Nat) (issued : Bool) : State :=
  match s.charge c issued with
  | none => s
  | some n => s.modCtx c (fun x => x.charged n)

/-- What else it does keeps both. -/
theorem State.Kept.clockCtx {issued : Bool} (h : s₀.Kept p (s.chargeTo c issued))
    (hw : ∀ u, s₀.Kept p u → s₀.Kept p (u.endWait c)) : s₀.Kept p (s.clockCtx c issued) := by
  unfold State.clockCtx
  extract_lets s1 s2 x y s3 k
  have h1 : s₀.Kept p s1 := h
  have h2 : s₀.Kept p s2 := .begins (hw s1 h1)
  refine .ite ?_ (.setCtx h2 .same)
  have h3 : s₀.Kept p s3 := .setCtx h2 (by unfold y; split <;> exact .same)
  exact .ite (.laterOnce h3) h3

/-- A list of contexts has been charged, and no other. -/
structure State.Charged (l : List Nat) (chosen : Option Nat) (s t : State) : Prop where
  timed : s.Timed t
  billed : ∀ c ∈ l, (s.ctx c).Billed (chosen = some c) (t.ctx c)
  others : ∀ c, c ∉ l → (s.ctx c).Goes (t.ctx c)

/-- Every sleep has a cause, and every cause a counter. -/
def State.Sleeps (s : State) : Prop := ∀ c cause keys, (s.ctx c).wait = .sleep cause keys → cause < 16

theorem State.Sleeps.of_goes (h : s.Sleeps) (hg : ∀ c, (t.ctx c).wait.lasts = true → (t.ctx c).wait = (s.ctx c).wait) : t.Sleeps :=
  fun c cause keys e => h c cause keys ((hg c (by rw [e]; rfl)).symm.trans e)

theorem State.chargeTo_timed {issued : Bool} (h : s.issue = none) : s.Timed (s.chargeTo c issued) := by
  unfold State.chargeTo
  split
  · exact .refl h
  · exact ⟨h, fun _ => ⟨rfl, rfl, rfl⟩, fun _ => rfl, fun _ => rfl⟩

theorem State.chargeTo_other {issued : Bool} {e : Nat} (he : e ≠ c) : (s.chargeTo c issued).ctx e = s.ctx e := by
  unfold State.chargeTo
  split
  · rfl
  · exact State.ctx_modCtx_ne _ _ _ _ he

/-- The charge of one context. -/
theorem State.chargeTo_billed {chosen : Option Nat} (hs : s.Sleeps) (hh : chosen = some c → (s.til (tilOf c)).hold = false) :
    (s.ctx c).Billed (chosen = some c) ((s.chargeTo c (chosen == some c)).ctx c) := by
  intro hl
  unfold State.chargeTo
  by_cases hc : chosen = some c
  · rw [hc, beq_self_eq_true, State.charge_of_issued hl (hh hc)]
    exact ⟨16, by decide, by simp, by rw [State.ctx_modCtx]⟩
  · obtain ⟨n, e, lt, ne⟩ := State.unissued_charge hl (hs c)
    rw [beq_false_of_ne hc, e]
    exact ⟨n, lt, by simp [hc, ne], by rw [State.ctx_modCtx]⟩

theorem State.chargeTo_wait {issued : Bool} {e : Nat} : ((s.chargeTo c issued).ctx e).wait = (s.ctx e).wait := by
  unfold State.chargeTo
  split
  · rfl
  · by_cases he : e = c
    · subst he
      rw [State.ctx_modCtx]
      rfl
    · rw [State.ctx_modCtx_ne _ _ _ _ he]

/-- One context's cycle. -/
theorem State.clockCtx_paced {issued : Bool} (h : s.issue = none) : (s.chargeTo c issued).Paced (s.clockCtx c issued) :=
  State.Kept.clockCtx (p := .pace) (State.Paced.refl (State.chargeTo_timed h).idle) fun _ h' => .endWait h'

/-- The cycles of the contexts of a list. -/
theorem State.charged_foldl {chosen : Option Nat} {l : List Nat} (hl : l.Nodup) (h : s.issue = none) (hs : s.Sleeps)
    (hh : ∀ c, chosen = some c → (s.til (tilOf c)).hold = false) :
    s.Charged l chosen (l.foldl (fun s c => s.clockCtx c (chosen == some c)) s) := by
  induction l generalizing s with
  | nil => exact ⟨.refl h, by simp, fun _ _ => .refl _⟩
  | cons c l ih =>
    obtain ⟨hc, hl⟩ := List.nodup_cons.mp hl
    have hp : (s.chargeTo c (chosen == some c)).Paced (s.clockCtx c (chosen == some c)) := State.clockCtx_paced h
    have ht : s.Timed (s.clockCtx c (chosen == some c)) := (State.chargeTo_timed h).trans hp.timed
    have other {e : Nat} (he : e ≠ c) : (s.ctx e).Goes ((s.clockCtx c (chosen == some c)).ctx e) := by
      have hg := hp.ctx e
      rwa [State.chargeTo_other he] at hg
    obtain ⟨htl, hb, ho⟩ := ih hl ht.idle (hs.of_goes fun e hw => ((hp.ctx e).2.2 hw).trans State.chargeTo_wait)
      (fun e he => (ht.hold _).trans (hh e he))
    refine ⟨ht.trans htl, fun e he => ?_, fun e he => ?_⟩
    · by_cases hec : e = c
      · subst hec
        exact ((State.chargeTo_billed hs (hh e)).goes (hp.ctx e)).goes (ho e hc)
      · exact .of_goes (other hec) (hb e (List.mem_of_ne_of_mem hec he))
    · obtain ⟨hec, hel⟩ := not_or.mp (mt List.mem_cons.mpr he)
      exact (other hec).trans (ho e hel)

end

section
variable {p : Aspect} {s₀ s t u : State} {c k : Nat}

/-! ### The context that is chosen (R70, R404) -/

/-- The contexts of a core, in the order of the rotation. -/
def State.slots (s : State) (k : Nat) : List Nat := (List.range 16).map (fun j => k * 16 + ((s.core k).rot.toNat + j) % 16)

theorem State.pick_eq_find (h : s.permitted k = true) : s.pick k = (s.slots k).find? s.isReady := if_pos h
theorem State.pick_withheld (h : s.permitted k = false) : s.pick k = none := if_neg (by simp [h])

theorem State.of_pick (h : s.pick k = some c) : coreOf c = k ∧ s.isReady c = true := by
  cases hp : s.permitted k with
  | false => rw [State.pick_withheld hp] at h; cases h
  | true =>
    rw [State.pick_eq_find hp] at h
    obtain ⟨j, _, rfl⟩ := List.mem_map.mp (List.mem_of_find?_eq_some h)
    exact ⟨by unfold coreOf; omega, List.find?_some h⟩

/-- The first ready context from the pointer on. -/
theorem State.pick_first {j : Nat} (h : s.permitted k = true) (hj : j < 16) :
    let slot := fun j => k * 16 + ((s.core k).rot.toNat + j) % 16
    (∀ i, i < j → s.isReady (slot i) = false) → s.isReady (slot j) = true → s.pick k = some (slot j) := by
  intro slot hb hr
  rw [State.pick_eq_find h, List.find?_eq_some_iff_getElem]
  refine ⟨hr, j, by simpa [State.slots] using hj, by simp [State.slots, slot], fun i hi => ?_⟩
  simpa [State.slots] using hb i hi

theorem State.active_of_isReady (h : s.isReady c = true) : s.active c = true := by
  unfold State.isReady at h
  simp only [Bool.and_eq_true] at h
  obtain ⟨⟨⟨active, -⟩, -⟩, -⟩ := h
  exact active

theorem State.hold_of_active (h : s.active c = true) : (s.til (tilOf c)).hold = false := by
  unfold State.active at h
  simp only [Bool.and_eq_true, Bool.not_eq_true'] at h
  obtain ⟨⟨⟨-, hold⟩, -⟩, -⟩ := h
  exact hold

/-! ### A cycle -/

/-- A cycle of a core up to the choice: the tiller before has ended its cycle, the core has entered its own, and fetches are posted. -/
def State.upToChoice (s : State) (k : Nat) : State :=
  let s := (if k % 4 = 0 then s.endCycle ((k / 4 + 1023) % 1024) else s).enterCycle k
  let s := (List.range 16).foldl (fun s j => s.postFetch (k * 16 + j)) s
  (List.range 16).foldl (fun s j => s.keepWord (k * 16 + j)) s

/-- The devices of the core's die and tiller follow, and then every context. -/
def State.afterChoice (s : State) (k : Nat) (chosen : Option Nat) : State :=
  (List.range 16).foldl (fun s j => s.clockCtx (k * 16 + j) (chosen == some (k * 16 + j))) ((s.clockDie k).clockTil k)

/-- The chosen context issues. -/
def State.choose (s : State) (k : Nat) (chosen : Option Nat) : State :=
  match chosen with
  | none => s
  | some c => { (s.modCtx c (fun x => { x with lastIssue := some (s.core k).cycle })) with issue := some c }

theorem State.clockCycle_eq (s : State) (k : Nat) :
    let u := s.upToChoice k
    s.clockCycle k = (u.afterChoice k (u.pick k)).choose k (u.pick k) := by
  unfold State.clockCycle State.upToChoice State.afterChoice State.choose
  -- else `rfl` runs through the sixteen contexts
  generalize List.range 16 = l
  rfl

theorem State.choose_rest (s : State) (k : Nat) (chosen : Option Nat) :
    (s.choose k chosen).mem = s.mem ∧ (∀ j, (s.choose k chosen).core j = s.core j) ∧
      ∀ c, ((s.choose k chosen).ctx c).cnt = (s.ctx c).cnt := by
  cases chosen with
  | none => exact ⟨rfl, fun _ => rfl, fun _ => rfl⟩
  | some d =>
    refine ⟨rfl, fun _ => rfl, fun c => ?_⟩
    show ((s.modCtx d fun x => { x with lastIssue := some (s.core k).cycle }).ctx c).cnt = _
    by_cases hc : c = d
    · subst hc
      rw [State.ctx_modCtx]
    · rw [State.ctx_modCtx_ne _ _ _ _ hc]

theorem State.choose_issue (s : State) (k : Nat) (chosen : Option Nat) (h : s.issue = none) :
    (s.choose k chosen).issue = chosen ∧ ∀ c, chosen = some c → ((s.choose k chosen).ctx c).lastIssue = some (s.core k).cycle := by
  cases chosen with
  | none => exact ⟨h, nofun⟩
  | some d =>
    refine ⟨rfl, fun c hc => ?_⟩
    cases hc
    show ((s.modCtx d fun x => { x with lastIssue := some (s.core k).cycle }).ctx d).lastIssue = _
    rw [State.ctx_modCtx]

/-- What a cycle keeps up to the charges. -/
theorem State.Kept.fetches (h : s₀.Kept p s) : s₀.Kept p
    ((List.range 16).foldl (fun s j => s.keepWord (k * 16 + j)) ((List.range 16).foldl (fun s j => s.postFetch (k * 16 + j)) s)) :=
  .foldl (fun _ _ h' => .keepWord h') (.foldl (fun _ _ h' => .postFetch h') h)

theorem State.Still.clockCtx {issued : Bool} (h : s₀.Still s) : s₀.Still (s.clockCtx c issued) := by
  have hc : s₀.Still (s.chargeTo c issued) := by
    unfold State.chargeTo
    split
    · exact h
    · exact .setCtx h fun _ => rfl
  exact State.Kept.clockCtx (p := .bytes) hc fun _ h' => .endWait_of_not_ending h' (State.Still.ending h' c)

/-- Where nothing is held and no EXIT is to take effect, a cycle writes no byte. -/
theorem State.clockCycle_mem (hr : ∀ y ∈ s.rings, y.soon = []) (hi : ∀ n, (s.til n).intake = [])
    (he : ∀ c code, (s.ctx c).wait ≠ .ending code) : (s.clockCycle k).mem = s.mem := by
  have h0 : s.Kept .bytes s := State.Still.mk rfl hr hi he
  have h1 : s.Kept .bytes (if k % 4 = 0 then s.endCycle ((k / 4 + 1023) % 1024) else s) := .ite (.endCycle h0) h0
  have h2 : s.Kept .bytes (s.upToChoice k) := by
    unfold State.upToChoice
    exact .fetches (p := .bytes) (State.Still.enterCycle h1)
  have h3 : s.Kept .bytes (((s.upToChoice k).clockDie k).clockTil k) := .clockTil (.clockDie h2)
  have h4 (chosen : Option Nat) : s.Still ((s.upToChoice k).afterChoice k chosen) :=
    State.Kept.foldl (p := .bytes) (fun _ _ h' => State.Still.clockCtx h') h3
  rw [State.clockCycle_eq, (State.choose_rest _ k _).1]
  exact (h4 _).mem

/-- The contexts of a core. -/
theorem mem_ctxsOf : c ∈ (List.range 16).map (k * 16 + ·) ↔ coreOf c = k := by
  unfold coreOf
  rw [List.mem_map]
  constructor
  · rintro ⟨j, hj, rfl⟩
    have lt := List.mem_range.mp hj
    omega
  · intro h
    exact ⟨c % 16, List.mem_range.mpr (by omega), by omega⟩

/-- Time moves by no more than one core's entering its cycle. -/
theorem State.upToChoice_paced (h : s.issue = none) :
    ∃ u, s.Paced u ∧ (u.enterCycle k).Paced (s.upToChoice k) := by
  have h1 : s.Kept .pace (if k % 4 = 0 then s.endCycle ((k / 4 + 1023) % 1024) else s) :=
    .ite (.endCycle (State.Paced.refl h)) (State.Paced.refl h)
  refine ⟨_, h1, ?_⟩
  unfold State.upToChoice
  exact State.Kept.fetches (p := .pace) (State.Paced.refl h1.timed.idle)

/-- The charges of a cycle, by the state in which the context is chosen. -/
theorem State.afterChoice_charged (hs : s.Sleeps) (h : s.issue = none) :
    s.Charged ((List.range 16).map (k * 16 + ·)) (s.pick k) (s.afterChoice k (s.pick k)) := by
  have h1 : s.Paced ((s.clockDie k).clockTil k) := State.Kept.clockTil (p := .pace) (.clockDie (State.Paced.refl h))
  have nodup : ((List.range 16).map (k * 16 + ·)).Nodup := List.nodup_range.map fun _ _ e => Nat.add_left_cancel e
  have held (c : Nat) (hc : s.pick k = some c) : (((s.clockDie k).clockTil k).til (tilOf c)).hold = false :=
    (h1.timed.hold _).trans (State.hold_of_active (State.active_of_isReady (State.of_pick hc).2))
  obtain ⟨timed, billed, others⟩ := State.charged_foldl nodup h1.timed.idle (hs.of_goes fun c => (h1.ctx c).2.2) held
  unfold State.afterChoice
  rw [List.foldl_map] at timed billed others
  exact ⟨h1.timed.trans timed, fun c hc => .of_goes (h1.ctx c) (billed c hc), fun c hc => (h1.ctx c).trans (others c hc)⟩

end

section
variable {s : State} {k : Nat}

/-- A cycle of a core (R70, R74, R378, R404): its time, the one that issues, and the counter of every context. -/
theorem State.clockCycle_effect (sleeps : s.Sleeps) (idle : s.issue = none) : let t := s.clockCycle k
    (t.core k).cycle = (if (s.core k).ran = none then (s.core k).cycle else (s.core k).cycle + 1) ∧
    (t.core k).rot = (if (s.core k).ran = some true then (s.core k).rot + 1 else (s.core k).rot) ∧
    (t.core k).ran = some (decide ((s.die (k / 1024)).throt.toNat ≤ (t.core k).cycle.toNat % 16)) ∧
    (∀ c, coreOf c = k → (s.ctx c).Billed (t.issue = some c) (t.ctx c)) ∧
    (∀ c, t.issue = some c → coreOf c = k ∧ (t.ctx c).lastIssue = some (t.core k).cycle) ∧
    (∀ c, coreOf c ≠ k → (t.ctx c).cnt = (s.ctx c).cnt) := by
  intro t
  obtain ⟨u, hu, hw⟩ := State.upToChoice_paced (k := k) idle
  generalize ht : s.upToChoice k = w at hw
  have goes (c : Nat) : (s.ctx c).Goes (w.ctx c) := (hu.ctx c).trans (hw.ctx c)
  have charged := State.afterChoice_charged (k := k) (sleeps.of_goes fun c => (goes c).2.2) hw.timed.idle
  generalize hv : w.afterChoice k (w.pick k) = v at charged
  have et : t = v.choose k (w.pick k) := by rw [← hv, ← ht]; exact State.clockCycle_eq s k
  obtain ⟨-, core, cnt⟩ := State.choose_rest v k (w.pick k)
  obtain ⟨issue, last⟩ := State.choose_issue v k (w.pick k) charged.timed.idle
  rw [← et] at core cnt issue last
  obtain ⟨ecycle, erot, eran⟩ := State.enterCycle_core u k
  obtain ⟨cycle, rot, ran⟩ := (hw.timed.trans charged.timed).core k
  rw [← core k] at cycle rot ran last
  obtain ⟨ucycle, urot, uran⟩ := hu.timed.core k
  refine ⟨?_, ?_, ?_, fun c hc => ?_, fun c hc => ?_, fun c hc => ?_⟩
  · rw [cycle, ecycle, ucycle, uran]
  · rw [rot, erot, urot, uran]
  · rw [ran, cycle, eran, hu.timed.throt]
  · have hb := charged.billed c (mem_ctxsOf.mpr hc)
    rw [issue]
    intro hl
    obtain ⟨n, lt, iff, e⟩ := Ctx.Billed.of_goes (goes c) hb hl
    exact ⟨n, lt, iff, (cnt c).trans e⟩
  · have hp : w.pick k = some c := issue ▸ hc
    exact ⟨(State.of_pick hp).1, last c hp⟩
  · rw [cnt c, (charged.others c fun hm => hc (mem_ctxsOf.mp hm)).1, (goes c).1]

end

/-! ### The words of the two-operand instructions (R29, R56, R58) -/

theorem wordOf_of_decode {w : IWord} {i : Instr} (h : decode w = .ok i) : wordOf i = w := by
  rw [wordOf, (encodeOfDecode w i h).1]
  rfl

theorem opOf_append (op : BitVec 8) (d a b : BitVec 5) (i : BitVec 1) : opOf (op ++ d ++ a ++ b ++ 0#3 ++ i ++ 0#5) = op.toNat := by
  simp only [opOf, BitVec.extractLsb'_append_eq_of_le, BitVec.extractLsb'_eq_self, Nat.reduceLeDiff, Nat.reduceSub]

/-- The cycles from the issue of a two-operand instruction to its result (R56). -/
def scalarLatency : Instr → Word
  | .mul _ _ _ _ => 8
  | .mulh _ _ _ _ => 8
  | .mulhn _ _ _ _ => 8
  | .div _ _ _ _ => 36
  | .divn _ _ _ _ => 36
  | .rem _ _ _ _ => 36
  | .remn _ _ _ _ => 36
  | _ => 4

/-- The code of an operation whose results take so long. -/
structure ScalarOp (op : Nat) (n : Word) : Prop where
  low : op ≤ 0x1B
  latency : BitVec.ofNat 64 (if op = 0x03 ∨ op = 0x04 ∨ op = 0x05 then 8 else if 0x06 ≤ op ∧ op ≤ 0x09 then 36 else 4) = n

theorem encode_scalarTwo : ∀ p ∈ scalarTwo, ∀ (d a b : BitVec 5) (i : BitVec 1), (p.1 d a b i).wellFormed = true ∧
    ∃ op : BitVec 8, encode (p.1 d a b i) = [op ++ d ++ a ++ b ++ 0#3 ++ i ++ 0#5] ∧
      ScalarOp op.toNat (scalarLatency (p.1 d a b i)) := by
  simp only [scalarTwo, List.forall_mem_cons]
  and_intros
  on_goal 25 => exact List.forall_mem_nil _
  all_goals exact fun d a b i => ⟨rfl, _, rfl, by decide, rfl⟩

/-- No unit or port keeps one of them, and none drives the tile unit. -/
theorem units_scalarTwo : ∀ p ∈ scalarTwo, ∀ (d a b : BitVec 5) (i : BitVec 1), let j := p.1 d a b i
    touchBody j = none ∧ ∀ (s : State) (c : Nat), s.tileWaits c j = false := by
  simp only [scalarTwo, List.forall_mem_cons]
  and_intros
  on_goal 25 => exact List.forall_mem_nil _
  all_goals exact fun d a b i => ⟨rfl, fun _ _ => rfl⟩

/-- Nor does one leave more to wait for than what it writes, where it reaches no unit and sets no flags (R56, R206, R278). -/
theorem duesOf_scalarTwo : ∀ p ∈ scalarTwo, ∀ (d a b : BitVec 5) (i : BitVec 1) (s : State) (c : Nat) (w : IWord) (t : Tiller),
    setsFlags w = false → s.duesOf c w (p.1 d a b i) none t = ((s.ctx c).wordWrites w).map (fun k =>
      { reg := k, at_ := (s.core (coreOf c)).cycle + BitVec.ofNat 64 (issueDistance w)
        plain := (s.core (coreOf c)).cycle + BitVec.ofNat 64 (issueDistance w) }) := by
  simp only [scalarTwo, List.forall_mem_cons]
  and_intros
  on_goal 25 => exact List.forall_mem_nil _
  all_goals exact fun d a b i s c w t h => by simp [State.duesOf, h, resultCycles]

section
variable {s : State} {c : Nat} {w : IWord} {n : Word}

/-! ### What a low operation code excludes -/

theorem ScalarOp.excludes (h : ScalarOp (opOf w) n) : maskReads w = [] ∧ pairReg w = [] ∧ setsFlags w = false ∧ opOf w ≠ 0x5A ∧
    BitVec.ofNat 64 (issueDistance w) = n := by
  obtain ⟨low, rfl⟩ := h
  refine ⟨?_, ?_, ?_, by omega, congrArg _ ?_⟩
  · unfold maskReads
    extract_lets op
    rw [if_neg (by omega), if_neg (by omega), if_neg (by omega), if_neg (by omega)]
  · rw [pairReg, if_neg (by omega)]
  · unfold setsFlags
    extract_lets op fp code width
    rw [Bool.eq_false_iff]
    intro h
    simp only [Bool.or_eq_true, Bool.and_eq_true, decide_eq_true_eq] at h
    omega
  · unfold issueDistance
    extract_lets op fp code
    refine ite_congr rfl (fun _ => rfl) fun _ => ite_congr rfl (fun _ => rfl) fun _ => ?_
    rw [if_neg (by omega), if_pos (by omega)]

/-- What the words of the two-operand instructions are (R29, R58). -/
structure IsScalar (w : IWord) (j : Instr) (d a b : BitVec 5) (i : BitVec 1) : Prop where
  decodes : decode w = .ok j
  op : ScalarOp (opOf w) (scalarLatency j)
  reads : j.reads = [.s a.toNat] ++ (if i = 0 then [.s b.toNat] else [])
  writes : j.writes = [.s d.toNat]
  both : j.readsAndWrites = []
  touch : touchBody j = none
  tile : ∀ (s : State) (c : Nat), s.tileWaits c j = false

theorem isScalar_wordOf {p} (hp : p ∈ scalarTwo) (d a b : BitVec 5) (i : BitVec 1) :
    IsScalar (wordOf (p.1 d a b i)) (p.1 d a b i) d a b i := by
  obtain ⟨reads, writes, both⟩ := fields_scalarTwo p hp d a b i
  obtain ⟨touch, tile⟩ := units_scalarTwo p hp d a b i
  obtain ⟨wf, op, he, hop⟩ := encode_scalarTwo p hp d a b i
  have hw : wordOf (p.1 d a b i) = op ++ d ++ a ++ b ++ 0#3 ++ i ++ 0#5 := by rw [wordOf, he]; rfl
  refine ⟨decodeOfEncode _ _ wf (by rw [hw, he]), ?_, reads, writes, both, touch, tile⟩
  rwa [hw, opOf_append]

theorem isScalar_of_decode {p} (hp : p ∈ scalarTwo) {d a b : BitVec 5} {i : BitVec 1} (h : decode w = .ok (p.1 d a b i)) :
    IsScalar w (p.1 d a b i) d a b i := by
  have hs := isScalar_wordOf hp d a b i
  rwa [wordOf_of_decode h] at hs

variable {j : Instr} {d a b : BitVec 5} {i : BitVec 1} (h : IsScalar w j d a b i) {x : Ctx}
include h

theorem IsScalar.wordReads : x.wordReads w = x.regsOf j.reads := by
  obtain ⟨mask, pair, -⟩ := h.op.excludes
  rw [Ctx.wordReads, h.decodes, mask, pair]
  simp [h.both]

theorem IsScalar.wordWrites : x.wordWrites w = x.regsOf [.s d.toNat] := by
  obtain ⟨-, pair, -⟩ := h.op.excludes
  have low := h.op.low
  rw [Ctx.wordWrites, h.decodes, pair, if_neg (by omega), if_neg (by omega)]
  simp [h.both, h.writes]

/-- A register that it waits for is one of its fields. -/
theorem IsScalar.field {k : Nat} (hk : k ∈ x.wordReads w ++ x.wordWrites w) :
    ∃ f ∈ [Fld.s d.toNat, .s a.toNat, .s b.toNat], x.endOf f = none ∧ k = Fld.reg f := by
  have named : k ∈ x.regsOf [Fld.s d.toNat, .s a.toNat, .s b.toNat] := by
    rw [h.wordReads, h.wordWrites, h.reads] at hk
    simp only [Ctx.regsOf, ← List.map_append, ← List.filter_append] at hk ⊢
    refine List.map_subset _ (List.filter_subset _ ?_) hk
    split <;> simp
  obtain ⟨f, hf, rfl⟩ := List.mem_map.mp named
  obtain ⟨hm, he⟩ := List.mem_filter.mp hf
  exact ⟨f, hm, Option.isNone_iff_eq_none.mp he, rfl⟩

/-- No unit or port keeps it from issuing. -/
theorem IsScalar.not_refused : s.refused c w = false := by
  have touch : s.touchOf c j = none := by rw [State.touchOf, h.touch]; rfl
  simp [State.refused, h.decodes, State.mustWait, State.unitBusy, State.splitting, touch, h.tile]

end

/-! ### Readiness (R56, R69, R72) -/

section
variable {s : State} {c : Nat} {x : Ctx} {w : IWord} {cycle : Word}

theorem Ctx.spaced_iff : x.spaced cycle = true ↔ ∀ n, x.lastIssue = some n → n.toNat + 4 ≤ cycle.toNat := by
  unfold Ctx.spaced
  split <;> simp [*]

theorem Ctx.latched_iff : x.latched = true ↔ ∃ v, x.word = some (x.pc, v) := by
  unfold Ctx.latched
  rw [Option.any_eq_true]
  constructor
  · rintro ⟨⟨pc, v⟩, hw, hp⟩
    exact ⟨v, by rw [hw, ← eq_of_beq hp]⟩
  · rintro ⟨v, hw⟩
    exact ⟨_, hw, beq_self_eq_true _⟩

theorem State.isReady_word (h : s.nextWord c = .word w) : s.isReady c = true ↔
    s.active c = true ∧ (s.ctx c).spaced (s.core (coreOf c)).cycle = true ∧ s.inCapture c = false ∧
      ((s.ctx c).latched = true ∨ (s.ctx c).blocking (s.core (coreOf c)).cycle w = []) ∧ s.refused c w = false := by
  simp only [State.isReady, h, Bool.and_eq_true, Bool.or_eq_true, Bool.not_eq_true', List.isEmpty_iff]
  tauto

theorem Ctx.not_blocked (h : x.blocking cycle w = []) {d : Due} (hd : d ∈ x.ready) (hr : d.reg ∈ x.wordReads w ++ x.wordWrites w) :
    d.at_.toNat ≤ cycle.toNat := by
  have hn := List.filter_eq_nil_iff.mp h d (List.mem_append_left _ hd)
  simp only [Bool.and_eq_true, decide_eq_true_eq, not_and, not_lt] at hn
  exact hn (List.contains_iff_mem.mpr (List.mem_cons_of_mem _ hr))

theorem Ctx.blocking_of_past (hop : opOf w ≠ 0x5A) (h : ∀ d ∈ x.ready, d.at_.toNat ≤ cycle.toNat) : x.blocking cycle w = [] := by
  refine List.filter_eq_nil_iff.mpr fun d hd => ?_
  rw [if_neg hop, List.append_nil] at hd
  simp [Nat.not_lt.mpr (h d hd)]

end

/-! ### What an instruction leaves to wait for (R56) -/

section
variable {s t : State} {c : Nat} {j : Instr} {r : Option Reach}

theorem State.completed_due : s.completed { t with due := 0 } c = s.completed t c := rfl

theorem State.settle_of_not_completed (h : s.completed t c = false) : s.settle t c j r = { t with due := 0 } :=
  if_pos (by rw [State.completed_due, h]; rfl)

theorem State.settle_ready (h : s.completed t c = true) : ((s.settle t c j r).ctx c).ready =
    (t.ctx c).ready.filter (fun d => (t.core (coreOf c)).cycle.toNat < d.at_.toNat) ++ s.duesOf c (wordOf j) j r (t.til (tilOf c)) := by
  rw [State.settle, State.completed_due, h, if_neg (by decide), State.ctx_modCore, State.ctx_modCtx]
  rfl

/-- A two-operand instruction leaves its D, if that is a register. -/
theorem State.settle_scalarTwo {p} (hp : p ∈ scalarTwo) (d a b : BitVec 5) (i : BitVec 1) (h : s.completed t c = true) :
    ((s.settle t c (p.1 d a b i) none).ctx c).ready =
      (t.ctx c).ready.filter (fun d => (t.core (coreOf c)).cycle.toNat < d.at_.toNat) ++ ((s.ctx c).regsOf [.s d.toNat]).map (fun k =>
        { reg := k, at_ := (s.core (coreOf c)).cycle + scalarLatency (p.1 d a b i)
          plain := (s.core (coreOf c)).cycle + scalarLatency (p.1 d a b i) }) := by
  have hs := isScalar_wordOf hp d a b i
  obtain ⟨-, -, flags, -, distance⟩ := hs.op.excludes
  rw [State.settle_ready h, duesOf_scalarTwo p hp d a b i _ _ _ _ flags, hs.wordWrites, distance]

theorem Ctx.regsOf_register {x : Ctx} {n : Nat} (h : x.endOf (.s n) = none) : x.regsOf [.s n] = [n] := by simp [Ctx.regsOf, h, Fld.reg]
theorem Ctx.regsOf_end {x : Ctx} {n : Nat} (h : x.endOf (.s n) ≠ none) : x.regsOf [.s n] = [] := by
  simp [Ctx.regsOf, h]

end

/-! ### The statement -/

/-- Settles O58, by what every part of a cycle keeps: none moves time but a core's entry into its cycle, none charges a context but
its own cycle, and none writes a byte but a held result and an EXIT. -/
theorem clockCycle : Obligations.ClockCycle := by
  intro s k hk
  refine ⟨fun sleeps idle => ?_, ⟨fun hp => ?_, fun j hp hj => ?_⟩, fun c w => ?_,
    fun t c p hp d a b i => ⟨fun h hd => ?_, fun h hd e he => ?_, fun r h => ?_⟩⟩
  · obtain ⟨cycle, rot, ran, billed, issue, others⟩ := State.clockCycle_effect (k := k) sleeps idle
    refine ⟨_, by rw [exec, execCoreClockCycle, Nat.mod_eq_of_lt hk], cycle, rot, ran, billed, issue, others, ?_⟩
    exact State.clockCycle_mem
  · exact State.pick_withheld (decide_eq_false hp)
  · exact State.pick_first (decide_eq_true hp) hj
  · extract_lets now spaced kept
    refine ⟨fun hw hr => ?_, fun p hp d a b i hd n hn => (isScalar_of_decode hp hd).field hn,
      fun p hp d a b i hw hd hf ha hs hk => ?_⟩
    · obtain ⟨active, sp, -, free, -⟩ := (State.isReady_word hw).mp hr
      exact ⟨active, Ctx.spaced_iff.mp sp, free.imp Ctx.latched_iff.mp fun hb d hd => Ctx.not_blocked hb hd⟩
    · have hi := isScalar_of_decode hp hd
      obtain ⟨-, -, -, notTxe, -⟩ := hi.op.excludes
      exact (State.isReady_word hw).mpr ⟨ha, Ctx.spaced_iff.mpr hs, by simp [State.inCapture, hf],
        hk.imp Ctx.latched_iff.mpr (Ctx.blocking_of_past notTxe), hi.not_refused⟩
  · rw [State.settle_scalarTwo hp d a b i h, Ctx.regsOf_register hd]
    exact List.mem_append_right _ (List.mem_singleton_self _)
  · rw [State.settle_scalarTwo hp d a b i h, Ctx.regsOf_end hd, List.map_nil, List.append_nil] at he
    exact .inr (List.mem_of_mem_filter he)
  · exact State.settle_of_not_completed h

end Sys2Proof.Machine
end

section
/-! SUPPORT. Compare-branches and jumps (R80 to R83). -/

namespace Sys2Proof.Machine

/-- A body goes on where its first part has completed. -/
theorem bind_ok {α β : Type} {m : Op α} {f : α → Op β} {s t : State} {x : α} (h : m s = .ok (x, t)) : (m >>= f) s = f x t := by
  rw [op_bind, h, except_bind_ok]

/-! ### Targets -/

theorem checkTarget_ok {t : Word} {s : State} (h : t.toNat < 2 ^ 52) : checkTarget t s = .ok ((), s) := by
  rw [checkTarget, if_neg (not_le.mpr h), op_pure]

theorem checkTarget_error {t : Word} {s : State} (h : 2 ^ 52 ≤ t.toNat) : checkTarget t s = .error (.trap Cause.addr 0 t) := by
  rw [checkTarget, if_pos h, raiseAt, op_stop]

/-- An offset counts words (R33). -/
theorem wordOffset_eq {n : Nat} (k : BitVec n) : k.signExtend 64 * 4 = BitVec.ofInt 64 (4 * k.toInt) := by
  rw [signExtend_eq_ofInt, BitVec.ofInt_mul, BitVec.mul_comm]
  rfl

/-- The low bits of a word address are zero. -/
theorem lowBits_eq_zero (t : Word) : t.extractLsb' 0 2 = 0 ↔ t.toNat % 4 = 0 := by
  rw [field_eq_zero_iff, BitVec.extractLsb'_toNat, Nat.shiftRight_zero]

/-! ### Branches -/

section
variable {s r t u v : State} {x y dest : Word} {d a b : BitVec 5}

/-- Each of the compare-branches is the one that they share, with its condition. -/
theorem exec_branchTable : ∀ p ∈ branchTable, ∀ (a b : BitVec 5) (k : BitVec 14) (s : State),
    exec (p.1 a b k) s = branch (p.1 a b k) a b k p.2 s := by
  have run {j : Instr} {a b : BitVec 5} {k : BitVec 14} {f g : Word → Word → Bool} (s : State) (h : ∀ x y, f x y = g x y) :
      branch j a b k f s = branch j a b k g s := by
    rw [show f = g from funext fun x => funext (h x)]
  simp only [branchTable, List.forall_mem_cons]
  refine ⟨fun _ _ _ _ => rfl, fun _ _ _ s => run s fun x y => ?ne, fun _ _ _ _ => rfl, fun _ _ _ s => run s fun x y => ?ge,
    fun _ _ _ _ => rfl, fun _ _ _ s => run s fun x y => ?gen, List.forall_mem_nil _⟩
  case ne => rw [Bool.eq_iff_iff, bne_iff_ne, decide_eq_true_iff]
  case ge => rw [BitVec.slt, ← decide_not, decide_eq_decide, not_lt]
  case gen => rw [BitVec.ult, ← decide_not, decide_eq_decide, not_lt]

/-- A transfer is its target, checked, and then what follows the check (R83). -/
theorem perform_checked {i : Instr} {body m : Op Flow} (hr : Ready i s r) (hb : body r = (checkTarget dest >>= fun _ => m) t) :
    (dest.toNat < 2 ^ 52 → ∀ v, m t = .ok (.jump dest, v) → perform i body s = .next (v.modMe (fun c => { c with pc := dest }))) ∧
    (2 ^ 52 ≤ dest.toNat → perform i body s = .next (s.onStop (wordOf i) (.trap Cause.addr 0 dest))) :=
  ⟨fun h _ hm => perform_ok (f := .jump dest) hr (by rw [hb, bind_ok (checkTarget_ok h), hm]),
    fun h => perform_error hr (by rw [hb, bind_error (checkTarget_error h)])⟩

theorem branch_effect {i : Instr} {k : BitVec 14} {cond : Word → Word → Bool} (hr : Ready i s r) (ha : Reads a r x t)
    (hb : Reads b t y u) (hd : dest = if cond x y then u.me.pc + BitVec.ofInt 64 (4 * k.toInt) else u.me.pc + 4) :
    (dest.toNat < 2 ^ 52 → branch i a b k cond s = .next (u.modMe (fun c => { c with pc := dest }))) ∧
    (2 ^ 52 ≤ dest.toNat → branch i a b k cond s = .next (s.onStop (wordOf i) (.trap Cause.addr 0 dest))) := by
  refine (perform_checked (m := pure (.jump dest)) hr ?_).imp_left fun goes h => goes h u rfl
  rw [bind_ok ha, bind_ok hb, bind_ok (op_ask _ u), wordOffset_eq, ← hd]

/-! ### Jumps -/

theorem exec_jal_effect {k : BitVec 19} (hr : Ready (.jal d k) s r) (hd : dest = r.me.pc + BitVec.ofInt 64 (4 * k.toInt)) :
    (dest.toNat < 2 ^ 52 → Writes d r (r.me.pc + 4) v → exec (.jal d k) s = .next (v.modMe (fun c => { c with pc := dest }))) ∧
    (2 ^ 52 ≤ dest.toNat → exec (.jal d k) s = .next (s.onStop (wordOf (.jal d k)) (.trap Cause.addr 0 dest))) := by
  refine (perform_checked (m := wrS d (r.me.pc + 4) >>= fun _ => pure (.jump dest)) hr ?_).imp_left
    fun goes h hw => goes h v (bind_ok hw)
  rw [bind_ok (op_ask _ r), target, wordOffset_eq, ← hd]

section
variable {k : BitVec 14} (hr : Ready (.jalr d a k) s r) (ha : Reads a r x t) (hd : dest = x + BitVec.ofInt 64 k.toInt)
include hr ha hd

theorem exec_jalr_misaligned (ht : dest.toNat % 4 ≠ 0) :
    exec (.jalr d a k) s = .next (s.onStop (wordOf (.jalr d a k)) (.trap Cause.align 0 dest)) := by
  refine perform_error hr ?_
  rw [bind_ok (op_ask _ r), bind_ok ha]
  dsimp only
  rw [signExtend_eq_ofInt, ← hd, if_pos (mt (lowBits_eq_zero dest).mp ht)]
  exact bind_error (op_stop _ t)

theorem exec_jalr_effect (ht : dest.toNat % 4 = 0) :
    (dest.toNat < 2 ^ 52 → Writes d t (r.me.pc + 4) v → exec (.jalr d a k) s = .next (v.modMe (fun c => { c with pc := dest }))) ∧
    (2 ^ 52 ≤ dest.toNat → exec (.jalr d a k) s = .next (s.onStop (wordOf (.jalr d a k)) (.trap Cause.addr 0 dest))) := by
  refine (perform_checked (m := wrS d (r.me.pc + 4) >>= fun _ => pure (.jump dest)) hr ?_).imp_left
    fun goes h hw => goes h v (bind_ok hw)
  rw [bind_ok (op_ask _ r), bind_ok ha]
  dsimp only
  rw [signExtend_eq_ofInt, ← hd, if_neg (not_not.mpr ((lowBits_eq_zero dest).mpr ht))]

end
end

/-- Settles O14: every transfer is its target, checked, and then its link. -/
theorem controlTransfers : Obligations.ControlTransfers := by
  refine ⟨fun p hp a b k s r t u x y hr ha hb => ?_, fun d a s r t v x => ⟨fun k hr => ?_, fun k hr ha => ?_⟩⟩
  · rw [exec_branchTable p hp]
    exact branch_effect hr ha hb rfl
  · exact exec_jal_effect hr rfl
  · exact ⟨fun ht => (exec_jalr_effect hr ha rfl ht).1, exec_jalr_misaligned hr ha rfl,
      fun ht => (exec_jalr_effect (v := v) hr ha rfl ht).2⟩

end Sys2Proof.Machine
end

section
/-! SUPPORT. SPAWN (R84 to R88): what it does with a well-formed block, and the strand that it starts. -/

namespace Sys2Proof.Machine

/-! ### The steward's instructions -/

theorem performRaw_ok {i : Instr} {body : Op Flow} {s t : State} {f : Flow} (h : Allowed i s) (hb : body s = .ok (f, t)) :
    performRaw i body s = .next (t.onDone f) := by
  simp only [performRaw, op_bind, show rowCheck i s = .ok ((), s) from h, except_bind_ok, hb]

theorem stewardOnly_ok {s : State} (h : ctxNo s.cur = 0) : stewardOnly s = .ok ((), s) := by
  rw [stewardOnly, bind_ok (op_ask _ s), if_neg (not_not.mpr h), op_pure]

/-- In context 0 an instruction of the steward completes where its effect does (R79). -/
theorem steward_ok {i : Instr} {m : Op Unit} {s r t : State} (hr : Ready i s r) (hc : ctxNo s.cur = 0) (hm : m r = .ok ((), t)) :
    performRaw i (thenNext (stewardOnly >>= fun _ => examineFields i >>= fun _ => m)) s = .next t.past :=
  performRaw_ok hr.1 (thenNext_ok ((bind_ok (stewardOnly_ok hc)).trans ((bind_ok hr.2).trans hm)))

/-! ### The strand that is started -/

/-- SPAWN of a block that binds no end sets the context alone: the strand starts there with the block's values (R86, R87). -/
theorem State.startStrand_ctx (s : State) (cid : Nat) {b : Block} (tile mig : Bool) (h : b.bind = []) :
    ∃ x : Ctx, (∀ c, (s.startStrand cid b tile mig).ctx c = (s.setCtx cid x).ctx c) ∧
      x.wait = .begin_ ((s.core (coreOf cid)).cycle + 8) ∧ x.life = .starting ∧ x.pc = BitVec.ofNat 64 b.entry ∧
      x.gen = (s.ctx cid).gen + 1 ∧ x.fmt = BitVec.ofNat 64 b.fmt ∧ x.mig = mig ∧ x.tile = tile ∧
      x.s = (((Vector.replicate 32 0).setIfInBounds 1 (BitVec.ofNat 64 b.lrec)).setIfInBounds 2 (BitVec.ofNat 64 b.arg)).setIfInBounds 3
        (BitVec.ofNat 64 b.pos) := by
  unfold State.startStrand
  extract_lets old y s1 s2
  refine ⟨?x, fun c => ?ctx, ?facts⟩
  case ctx =>
    have bound : s2 = s1 := by simp only [s2, h, bindOrder, List.filter_nil, List.append_nil, List.foldl_nil]
    rw [bound]
    split <;> rfl
  case facts => exact ⟨rfl, rfl, rfl, rfl, rfl, rfl, rfl, rfl⟩

/-- A started strand's scalar registers: s1 to s3 are its launch record, argument and position, and the others are zero (R86). -/
theorem startRegs_get {x : Ctx} {l a p : Word}
    (h : x.s = (((Vector.replicate 32 0).setIfInBounds 1 l).setIfInBounds 2 a).setIfInBounds 3 p) :
    x.getS 1 = l ∧ x.getS 2 = a ∧ x.getS 3 = p ∧ ∀ m, 4 ≤ m → x.getS m = 0 := by
  refine ⟨by simp [Ctx.getS, h], by simp [Ctx.getS, h], by simp [Ctx.getS, h], fun m hm => ?_⟩
  rw [Ctx.getS, if_neg (by omega), h, Vector.getElem?_setIfInBounds_ne (by omega), Vector.getElem?_setIfInBounds_ne (by omega),
    Vector.getElem?_setIfInBounds_ne (by omega), Vector.getElem?_replicate]
  split <;> rfl

/-! ### The instruction -/

/-- Settles O16: SPAWN passes each of its checks, and a block that binds no end sets the started context alone. -/
theorem spawnStarts : Obligations.SpawnStarts := by
  intro d a b i t g s r u v w va n off hr hc ha hb _ hp aligned fits h1 h14 l cid blk free clean good unowned bound z
  refine ⟨fun hw => steward_ok hr hc ?completes, fun hbind => ?started⟩
  case completes =>
    have user : ¬(n = 0 ∨ 14 < n.toNat) := by rw [field_eq_zero_iff]; omega
    have tileFree : ¬(t = 1 ∧ (v.til v.myTil).owner.isSome) := fun h => by simp [unowned h.1] at h
    have ends : ¬blk.bind.any (fun p => bindKind p.2 != 1 && v.bindPoison cid p.2) = true := by simpa using bound
    rw [bind_ok ha, bind_ok hb, bind_ok (op_get v)]
    dsimp only
    rw [hp]
    dsimp only
    rw [if_neg (not_not.mpr rfl), if_neg (not_not.mpr aligned), if_neg (not_lt.mpr fits), if_neg user, if_neg (not_not.mpr free), clean,
      if_neg Bool.false_ne_true, good, if_neg Bool.false_ne_true, if_neg tileFree, if_neg ends, bind_ok (op_upd _ v), bind_ok (op_ask _ _)]
    exact hw
  case started =>
    obtain ⟨x, ctx, wait, life, pc, gen, fmt, mig, tile, regs⟩ := State.startStrand_ctx v cid (t = 1) (g = 1) hbind
    obtain ⟨lrec, arg, pos, zero⟩ := startRegs_get regs
    have started : z.ctx cid = x := (ctx cid).trans (State.ctx_setCtx v cid x)
    rw [started]
    exact ⟨wait, life, pc, gen, lrec, arg, pos, zero, fmt, mig, tile, fun c hne => (ctx c).trans (State.ctx_setCtx_ne v cid c x hne)⟩

end Sys2Proof.Machine
end

section
/-! SUPPORT. What the release of a strand's resources leaves of every strand (R89 to R91). -/

namespace Sys2Proof.Machine

-- the lemmas are many and short, and together in flight they would take a thread each
set_option Elab.async false

/-! ### The strand that a context has -/

/-- A context has the strand that it had: in the same state of life, and counted in the same launch object. -/
structure Ctx.Stays (x y : Ctx) : Prop where
  life : y.life = x.life
  lobj : y.lobj = x.lobj

theorem Ctx.Stays.trans {x y z : Ctx} (h : x.Stays y) (h' : y.Stays z) : x.Stays z := ⟨h'.life.trans h.life, h'.lobj.trans h.lobj⟩

theorem Ctx.Stirred.stays {x y : Ctx} (h : x.Stirred y) : x.Stays y := by
  obtain ⟨_, _, rfl, -⟩ := h
  exact ⟨rfl, rfl⟩

/-- Every context has the strand that it had. -/
def State.Stays (s₀ s : State) : Prop := ∀ c, (s₀.ctx c).Stays (s.ctx c)

/-- So it does in what an enqueue gives. -/
def Put.Stays (s₀ : State) : Put → Prop
  | .done t => s₀.Stays t
  | _ => True

theorem Put.Stays.ite {s₀ : State} {c : Prop} [Decidable c] {a b : Put} (ha : a.Stays s₀) (hb : b.Stays s₀) :
    (if c then a else b).Stays s₀ := by
  split <;> assumption

namespace State.Stays
variable {s₀ s t : State}

theorem refl (s : State) : s.Stays s := fun _ => ⟨rfl, rfl⟩

/-- What is not a context is free. -/
theorem rest (h : s₀.Stays s) (hc : t.ctxs = s.ctxs := by rfl) : s₀.Stays t := fun c => State.ctx_congr hc ▸ h c

theorem of_calm (h : s₀.Stays s) (hc : s.Calm t) : s₀.Stays t := fun c => (h c).trans (hc.ctx c).stays

theorem modCtx {c : Nat} {f : Ctx → Ctx} (h : s₀.Stays s) (hf : (s.ctx c).Stays (f (s.ctx c)) := by exact ⟨rfl, rfl⟩) :
    s₀.Stays (s.modCtx c f) := by
  intro e
  by_cases he : e = c
  · subst he
    rw [State.ctx_modCtx]
    exact (h e).trans hf
  · rw [State.ctx_modCtx_ne _ _ _ _ he]
    exact h e

theorem ite {c : Prop} [Decidable c] {a b : State} (ha : s₀.Stays a) (hb : s₀.Stays b) : s₀.Stays (if c then a else b) := by
  split <;> assumption

theorem foldl {α : Type} {f : State → α → State} {l : List α} (hf : ∀ s x, s₀.Stays s → s₀.Stays (f s x)) (h : s₀.Stays s) :
    s₀.Stays (l.foldl f s) := by
  induction l generalizing s with
  | nil => exact h
  | cons x r ih => exact ih (hf s x h)

/-! ### Keys, tokens and device steps -/

theorem setTil {n : Nat} {x : Tiller} (h : s₀.Stays s) : s₀.Stays (s.setTil n x) := .rest h
theorem modTil {n : Nat} {f : Tiller → Tiller} (h : s₀.Stays s) : s₀.Stays (s.modTil n f) := .rest h
theorem setRing {x : Ring} (h : s₀.Stays s) : s₀.Stays (s.setRing x) := .rest h
theorem later {i : Instr} (h : s₀.Stays s) : s₀.Stays (s.later i) := .rest h
theorem laterOnce {i : Instr} (h : s₀.Stays s) : s₀.Stays (s.laterOnce i) := .of_calm h .laterOnce
theorem notify {key : Key} (h : s₀.Stays s) : s₀.Stays (s.notify key) := .of_calm h .notify
theorem changeKey {key : Key} (h : s₀.Stays s) : s₀.Stays (s.changeKey key) := .of_calm h .changeKey
theorem changeChan {r : Nat} (h : s₀.Stays s) : s₀.Stays (s.changeChan r) := .changeKey h
theorem dropToken {c : Nat} (h : s₀.Stays s) : s₀.Stays (s.dropToken c) := .of_calm h .dropToken

theorem freePattern {n e : Nat} (h : s₀.Stays s) : s₀.Stays (s.freePattern n e) := by
  unfold State.freePattern
  dsimp only
  split
  · exact h
  · exact .ite (.modTil h) (.changeKey (.modTil h))

/-! ### Stores -/

theorem putBytes {a : Nat} {bs : List Byte} (h : s₀.Stays s) : s₀.Stays (s.putBytes a bs) := by
  induction bs generalizing s a with
  | nil => exact h
  | cons b r ih => exact ih (.rest h)

theorem wr {a n x : Nat} (h : s₀.Stays s) : s₀.Stays (s.wr a n x) := .putBytes h

theorem withdrawIssue {c : Nat} (h : s₀.Stays s) : s₀.Stays (s.withdrawIssue c) := by
  rw [State.withdrawIssue_eq]
  split
  · have h1 : s₀.Stays (s.modCtx c Ctx.unissued) := .modCtx h
    exact .rest h1
  · exact h

theorem restart {c : Nat} {f : Tx → Tx} (h : s₀.Stays s) : s₀.Stays (s.restart c f) := .dropToken (.withdrawIssue (.modCtx h))

theorem conflictAt {n : Nat} {key : Key} {who : Option Nat} (h : s₀.Stays s) : s₀.Stays (s.conflictAt n key who) :=
  .foldl (fun _ _ h' => .ite h' (.restart h')) h

theorem unstageLine {n l : Nat} (h : s₀.Stays s) : s₀.Stays (s.unstageLine n l) := by
  unfold State.unstageLine
  dsimp only
  refine .ite ?_ h
  split
  · exact .ite (.changeKey (.setTil h)) (.setTil h)
  · exact .setTil h

theorem changeLine {l : Nat} {who : Option Nat} (h : s₀.Stays s) : s₀.Stays (s.changeLine l who) := by
  unfold State.changeLine
  dsimp only
  split
  · exact .unstageLine (.foldl (fun _ _ h' => .freePattern h') (.notify (.of_calm (.of_calm (.conflictAt h) .markAt) .wakeAt)))
  · split
    · exact .notify h
    · exact .laterOnce (.notify h)

theorem unstageAt {a n : Nat} (h : s₀.Stays s) : s₀.Stays (s.unstageAt a n) := by
  unfold State.unstageAt
  split
  · exact h
  · exact .foldl (fun _ _ h' => .unstageLine h') h

theorem devWr {a n x : Nat} (h : s₀.Stays s) : s₀.Stays (s.devWr a n x) := .unstageAt (.wr h)

theorem store {a : Nat} {bs : List Byte} {who : Option Nat} (h : s₀.Stays s) : s₀.Stays (s.store a bs who) :=
  .foldl (fun _ _ h' => .changeLine h') (.rest (.putBytes h))

theorem globalStore {a part : Nat} {bs : List Byte} {who : Option Nat} (h : s₀.Stays s) : s₀.Stays (s.globalStore a part bs who) :=
  .ite (.rest (.store h)) (.store h)

/-! ### Rings -/

theorem rPut {r off x : Nat} (h : s₀.Stays s) : s₀.Stays (s.rPut r off x) := .devWr h
theorem markSoon {r seq : Nat} (h : s₀.Stays s) : s₀.Stays (s.markSoon r seq) := .ite h (.setRing h)

theorem fillSlot {r k seq : Nat} {x : Elem} {grp : Nat} (h : s₀.Stays s) : s₀.Stays (s.fillSlot r k seq x grp) :=
  .unstageAt (.unstageAt (.wr (.wr h)))

theorem toExt {r seq idx : Nat} {x : Elem} {grp : Option Nat} (h : s₀.Stays s) : s₀.Stays (s.toExt r seq idx x grp) := by
  unfold State.toExt
  dsimp only
  refine .setRing ?_
  split
  · exact .globalStore h
  · exact h

theorem ringPlace {r seq : Nat} {x : Elem} {grp : Option Nat} {g : Nat} (h : s₀.Stays s) : s₀.Stays (s.ringPlace r seq x grp g) := by
  have h1 : s₀.Stays (s.markSoon r seq) := .markSoon h
  unfold State.ringPlace
  dsimp only
  refine .ite ?_ (.ite (.setRing (.fillSlot h1)) (.toExt h1))
  split
  · exact .ite (.setRing (.fillSlot (.setRing h1))) (.toExt (.setRing h1))
  · exact .toExt (.setRing h1)

theorem advancePseq {r f : Nat} (h : s₀.Stays s) : s₀.Stays (s.advancePseq r f) := by
  induction f generalizing s with
  | zero => exact h
  | succ f ih => exact .ite (ih (.rPut h)) h

/-- A step that only some states call for. -/
theorem orLater {c : Prop} [Decidable c] {i : Instr} (h : s₀.Stays s) : s₀.Stays (if c then s else s.laterOnce i) :=
  .ite h (.laterOnce h)

theorem freePassed {r : Nat} (h : s₀.Stays s) : s₀.Stays (s.freePassed r) :=
  .changeChan (.orLater (.orLater (.ite (.setRing h) (.ite (.setRing h) (.setRing h)))))

theorem passPublished {r n : Nat} (h : s₀.Stays s) : s₀.Stays (s.passPublished r n) := by
  unfold State.passPublished
  extract_lets s1
  have h1 : s₀.Stays s1 := .ite (.rPut h) (.advancePseq h)
  exact .ite (.freePassed h1) (.changeChan h1)

theorem publish {r seq : Nat} {x : Elem} {grp : Option Nat} {g : Nat} (h : s₀.Stays s) : s₀.Stays (s.publish r seq x grp g) :=
  .passPublished (.ringPlace h)

theorem publishAt {r seq : Nat} {x : Elem} {grp : Option Nat} (h : s₀.Stays s) : s₀.Stays (s.publishAt r seq x grp) :=
  .ite (.rest (.ite (.setRing h) h)) (.publish h)

theorem ringAppend {r : Nat} {x : Elem} {grp deal : Option Nat} {dealt : Bool} (h : s₀.Stays s) :
    s₀.Stays (s.ringAppend r x grp deal dealt) := .publishAt (.ite (.setRing (.rPut h)) (.rPut h))

theorem release7 {r : Nat} (h : s₀.Stays s) : s₀.Stays (s.release7 r) := by
  unfold State.release7
  dsimp only
  split
  · exact h
  · have h1 : s₀.Stays { s.setRing { s.ringX r with sent7 := [], code7 := none } with due := 0 } := .rest h
    exact .ite (.rest (.ringAppend h1)) h

theorem closeGroup {r g : Nat} (h : s₀.Stays s) : s₀.Stays (s.closeGroup r g) :=
  .ite h (.orLater (.orLater (.ite (.rPut (.setRing h)) (.changeChan (.rPut (.setRing h))))))

theorem launchCargo {r c : Nat} {x : Cargo} (h : s₀.Stays s) : s₀.Stays (s.launchCargo r c x) := .rest h

theorem endReplica {c : Nat} (h : s₀.Stays s) : s₀.Stays (s.endReplica c) := by
  have close (s : State) (g : Nat) (h : s₀.Stays s) : s₀.Stays (s.closeFor c g) :=
    .foldl (fun _ _ h' => .ite (.launchCargo h') (.closeGroup h')) h
  have closed (t : State) (h : s₀.Stays t) : s₀.Stays (t.endFor c) :=
    .foldl (fun _ _ h' => .ite (.launchCargo h') (.release7 (.setRing h'))) h
  exact closed _ (.modCtx (.foldl close h))

theorem voidNumber {r : Nat} {u : Nat × Nat × Nat} (h : s₀.Stays s) : s₀.Stays (s.voidNumber r u) :=
  .ite (.setRing h) (.publishAt (.setRing h))
theorem voidFar {r : Nat} {u : Nat × Nat × Nat} (h : s₀.Stays s) : s₀.Stays (s.voidFar r u) :=
  .ite (.setRing h) (.launchCargo (.setRing h))
theorem voidReserved {c e : Nat} (h : s₀.Stays s) : s₀.Stays (s.voidReserved c e) :=
  .foldl (fun _ _ h' => .foldl (fun _ _ h'' => .ite (.voidFar h'') (.voidNumber h'')) h') h

theorem returnCredits {c e : Nat} (h : s₀.Stays s) : s₀.Stays (s.returnCredits c e) := by
  have peer {s : State} {m : PeerMsg} (h : s₀.Stays s) : s₀.Stays (s.toPeer m) := .rest h
  have h1 : s₀.Stays (s.modTil (tilOf c) fun t => { t with credits := t.credits.filter (fun k => !(k.cid == c && k.e == e)) }) :=
    .modTil h
  exact .foldl (fun _ _ h' => .ite (peer h') (.changeChan (.orLater (.rPut h')))) (.rest h1)

theorem releaseCursor {r cur : Nat} (h : s₀.Stays s) : s₀.Stays (s.releaseCursor r cur) := by
  have held : s₀.Stays (s.holdCursor r cur false) := .ite h (.devWr h)
  exact .foldl (fun _ _ h' => .of_calm h' .wakeCtx) (.release7 (.freePassed held))

/-! ### Units -/

theorem refDeliver {r : RefBind} (h : s₀.Stays s) : s₀.Stays (s.refDeliver r) :=
  .ite (.modTil h) (.ite (.modTil h) (.changeKey (.modTil h)))

theorem startQueued {n eng f : Nat} (h : s₀.Stays s) : s₀.Stays (s.startQueued n eng f) := by
  induction f generalizing s with
  | zero => exact h
  | succ f ih =>
    unfold State.startQueued
    dsimp only
    split
    · exact h
    · exact .ite h (ih (.later (.modTil h)))

theorem refPut {c e : Nat} {x : Elem} (h : s₀.Stays s) : (s.refPut c e x).Stays s₀ := by
  unfold State.refPut
  dsimp only
  split
  · trivial
  · refine .ite trivial (.ite ?_ (.ite ?_ (.ite ?_ ?_)))
    · exact refDeliver h
    · exact refDeliver h
    · exact modTil h
    · exact later (.modTil h)

theorem mergePut {c port : Nat} {x : Elem} (h : s₀.Stays s) : (s.mergePut c port x).Stays s₀ := by
  unfold State.mergePut
  dsimp only
  split
  · trivial
  · exact .ite trivial (laterOnce (.modTil h))

theorem streamPut {c e : Nat} {x : Elem} (h : s₀.Stays s) : (s.streamPut c e x).Stays s₀ := by
  unfold State.streamPut
  split
  · trivial
  · exact .ite (.ite trivial h) (.ite trivial (.ite trivial (modTil h)))

theorem takeIn {i : Intake} (h : s₀.Stays s) : s₀.Stays (s.takeIn i) := by
  have put (t : State) (ht : s₀.Stays t) : (t.putUnit i.cid i.e i.x).Stays s₀ := by
    unfold State.putUnit
    dsimp only
    split
    · exact refPut ht
    · exact mergePut ht
    · exact streamPut ht
  unfold State.takeIn
  have h1 := put _ (modTil (n := tilOf i.cid) (f := fun t => { t with intake := t.intake.erase i }) h)
  split
  · rename_i e
    rwa [e] at h1
  · exact h

theorem clearEnd {c e : Nat} (h : s₀.Stays s) : s₀.Stays (s.modCtx c (fun x => x.clearEnd e)) := by
  refine .modCtx h ?_
  unfold Ctx.clearEnd
  split
  · obtain ⟨l, hl⟩ := Ctx.setS_eq { s.ctx c with bind := (s.ctx c).bind.setIfInBounds e 0 } (24 + e) 0
    rw [hl]
    exact ⟨rfl, rfl⟩
  · exact ⟨rfl, rfl⟩

theorem unbind {c e : Nat} (h : s₀.Stays s) : s₀.Stays (s.unbind c e) := by
  have h1 : s₀.Stays ((s.takeAll c e).modCtx c (fun x => x.clearEnd e)) := .clearEnd (.foldl (fun _ _ h' => .takeIn h') h)
  unfold State.unbind
  dsimp only
  split
  · exact h1
  · exact .ite (.returnCredits (.voidReserved h1)) (.releaseCursor (.modCtx h1))
  · refine .ite ?_ (.modTil h1)
    split
    · exact h1
    · split
      · exact .startQueued (.modTil h1)
      · exact .clearEnd (.startQueued (.modTil h1))
  · split
    · exact h1
    · exact .modTil h1
  · exact .modTil h1

/-! ### The resources of a strand that ends (R91) -/

theorem dropMember {n : Nat} {m : Member} {kill : Bool} (h : s₀.Stays s) : s₀.Stays (s.dropMember n m kill) := by
  unfold State.dropMember
  dsimp only
  split
  · exact .modTil h
  · exact .store (.modTil h)

theorem freeTile {c : Nat} (h : s₀.Stays s) : s₀.Stays (s.freeTile c) := by
  have lease : s₀.Stays (s.dropLease c) := .ite (.changeKey (.setTil h)) (.setTil h)
  have owner : s₀.Stays ((s.dropLease c).dropOwner c) := .ite (.changeKey (.modTil lease)) lease
  exact .foldl (fun _ _ h' => .ite (.later (.setTil h')) (.setTil h')) owner

theorem streamStored {b : StreamBind} (h : s₀.Stays s) : s₀.Stays (s.streamStored b) :=
  .ite (.modTil (.changeKey (.modTil h))) (.changeKey (.modTil h))

theorem failFaulted {c : Nat} (h : s₀.Stays s) : s₀.Stays (s.failFaulted c) :=
  .foldl (fun _ _ h' => .streamStored h') (.foldl (fun _ _ h' => .later (.rest h')) h)

theorem endResources {c : Nat} {kill : Bool} (h : s₀.Stays s) : s₀.Stays (s.endResources c kill) :=
  .failFaulted (.freeTile (.foldl (fun _ _ h' => .dropMember h') (.foldl (fun _ _ h' => .unbind h')
    (.endReplica (.modCtx (.dropToken (.of_calm h .withdraw)))))))

theorem cancelTicket {c : Nat} (h : s₀.Stays s) : s₀.Stays (s.cancelTicket c) := by
  unfold State.cancelTicket
  dsimp only
  split
  · exact h
  · exact .ite h (.laterOnce (.modTil h))

theorem dropGrants {id : Nat} {f : Use → Bool} (h : s₀.Stays s) : s₀.Stays (s.dropGrants id f) := .rest h
theorem retryShares (h : s₀.Stays s) : s₀.Stays s.retryShares := .foldl (fun _ _ h' => .laterOnce h') h
theorem forgetLaunches (h : s₀.Stays s) : s₀.Stays s.forgetLaunches := .rest h

theorem replicaGone {part c : Nat} (h : s₀.Stays s) : s₀.Stays (s.replicaGone part c) := by
  unfold State.replicaGone
  dsimp only
  split
  · exact h
  · exact .forgetLaunches (.retryShares (.dropGrants (.rest h)))

theorem freed {c : Nat} (h : s₀.Stays s) : s₀.Stays (s.freed c) := .ite h (.laterOnce h)

end State.Stays

end Sys2Proof.Machine
end

section
/-! SUPPORT. REAP and EXIT (R89 to R91). -/

namespace Sys2Proof.Machine

/-- A body that takes its operand from A or from the immediate goes on with the operand. -/
theorem operand_bind {α : Type} {f : Word → Op α} {a b : BitVec 5} {i : BitVec 1} {r u : State} {n : Word}
    (hn : if i = 1 then n = b.setWidth 64 ∧ u = r else Reads a r n u) :
    (if i = 1 then pure (b.setWidth 64) >>= f else rdS a >>= f) r = f n u := by
  split at hn
  next hi =>
    obtain ⟨rfl, rfl⟩ := hn
    rw [if_pos hi]
    rfl
  next hi => rw [if_neg hi, bind_ok hn]

/-! ### REAP -/

/-- What REAP of a strand at home leaves, and what it yields, by the state of its context (R90). -/
def State.reapedAs (s : State) (cid : Nat) : Life → State × Word
  | .free => (s, BitVec.allOnes 64)
  | .exited => (((s.modCtx cid (fun x => { x with life := .free })).replicaGone (s.partOf (tilOf cid)) cid).freed cid, (s.ctx cid).status)
  | .migrated => ((s.modCtx cid (fun x => { x with life := .killing })).later (.migrantKill cid), BitVec.ofNat 64 (2 ^ 62))
  | .killing => (s, BitVec.ofNat 64 (2 ^ 62))
  | .starting | .running | .stopped | .saved => (s.killStrand cid 16, killedStatus)

section
variable {d a b : BitVec 5} {i : BitVec 1} {s r u v : State} {n : Word} (hr : Ready (.reap d a b i) s r) (hc : ctxNo s.cur = 0)
  (hn : if i = 1 then n = b.setWidth 64 ∧ u = r else Reads a r n u)
include hr hc hn

theorem exec_reap_none (other : n.toNat = 0 ∨ 14 < n.toNat) (hw : Writes d u (BitVec.allOnes 64) v) :
    exec (.reap d a b i) s = .next v.past := by
  refine steward_ok hr hc ((operand_bind hn).trans ((bind_ok (op_get u)).trans ?_))
  exact (congrFun (if_pos (by rwa [field_eq_zero_iff])) u).trans hw

theorem exec_reap_user {cid : Nat} {l : Life} (hcid : cid = u.myCore * 16 + n.toNat) (h1 : 1 ≤ n.toNat) (h14 : n.toNat ≤ 14)
    (home : (u.ctx cid).home = none) (hl : (u.ctx cid).life = l) (hw : Writes d (u.reapedAs cid l).1 (u.reapedAs cid l).2 v) :
    exec (.reap d a b i) s = .next v.past := by
  subst hcid
  have user : ¬(n = 0 ∨ 14 < n.toNat) := by rw [field_eq_zero_iff]; omega
  refine steward_ok hr hc ((operand_bind hn).trans ((bind_ok (op_get u)).trans ?_))
  rw [if_neg user, home, if_neg (by decide), hl]
  cases l <;> exact hw

end

/-- A strand that is killed leaves its context FREE (R90). -/
theorem State.killStrand_life {s : State} {c cause : Nat} (h : (s.ctx c).life ≠ .saved) : ((s.killStrand c cause).ctx c).life = .free := by
  have stays {t : State} {f : Ctx → Ctx} {part : Nat} (ht : ((t.modCtx c f).ctx c).life = .free) :
      ((((t.modCtx c f).replicaGone part c).freed c).ctx c).life = .free :=
    (State.Stays.freed (.replicaGone (.refl _)) c).life.trans ht
  unfold State.killStrand
  rw [if_neg (by simpa using h)]
  exact stays (by rw [State.ctx_modCtx])

/-! ### EXIT -/

/-- The accesses of a context for which its EXIT waits (R89, R215, R264). -/
theorem State.outstanding_iff (s : State) (c : Nat) :
    (s.core (coreOf c)).outstanding c (s.core (coreOf c)).cycle.toNat false none = true ↔ s.Outstanding c := by
  simp [Core.outstanding, State.Outstanding]

theorem exec_exit {a b : BitVec 5} {i : BitVec 1} {s r u : State} {n : Word} (hr : Ready (.exit a b i) s r) (hc : ctxNo s.cur ≠ 0)
    (hn : if i = 1 then n = b.setWidth 64 ∧ u = r else Reads a r n u) :
    exec (.exit a b i) s = .next (u.exitStep u.cur (n.extractLsb' 0 32)) := by
  refine performRaw_ok (f := .stay) hr.1 ?_
  rw [bind_ok (op_ask _ s), if_neg hc]
  exact (bind_ok hr.2).trans (operand_bind hn)

/-- A strand that counts in no launch object is not counted as it ends (R104). -/
theorem State.countStrand_none {s : State} {c : Nat} {killed nonzero : Bool} (h : (s.ctx c).lobj = 0) :
    s.countStrand c killed nonzero = s := if_pos h

/-- The context of a strand that has exited (R89). -/
def Ctx.exited (x : Ctx) (code : BitVec 32) : Ctx :=
  { x with life := .exited, status := code.setWidth 64, wait := .none, away := none, ticket := 0, refused := none }

theorem Ctx.exited_lobj (x : Ctx) (code : BitVec 32) : (x.exited code).lobj = x.lobj := rfl

/-- An EXIT at home: the resources are released, the context is EXITED, the steward is told, and the exit is counted (R89). -/
theorem State.exitStrand_home {s : State} {c : Nat} {code : BitVec 32} (home : (s.ctx c).home = none) : s.exitStrand c code =
    ((((s.cancelTicket c).endResources c false).modCtx c (·.exited code)).exitMsg c 0 0 (code.setWidth 64) (s.ctx c).pc).countStrand
      c false (code ≠ 0) := by
  have atHome : s.homeOf c = c := by rw [State.homeOf, home]; rfl
  unfold State.exitStrand
  rw [atHome]
  dsimp only
  rw [if_pos rfl]
  rfl

/-- An exit message leaves the contexts that do not wait at the steward's box. -/
theorem State.ctx_exitMsg {s : State} {c e kind cause : Nat} {status pc : Word} (h : (s.ctx e).wait ≠ .box 0) :
    (s.exitMsg c kind cause status pc).ctx e = s.ctx e := State.ctx_send h

/-- A strand at home that counts in no launch object leaves its context EXITED, with its status (R89). -/
theorem State.exitStrand_ctx {s : State} {c : Nat} {code : BitVec 32} (home : (s.ctx c).home = none) (lobj : (s.ctx c).lobj = 0) :
    ((s.exitStrand c code).ctx c).life = .exited ∧ ((s.exitStrand c code).ctx c).status = code.setWidth 64 := by
  have released : s.Stays ((s.cancelTicket c).endResources c false) := .endResources (.cancelTicket (.refl s))
  have told : ((((s.cancelTicket c).endResources c false).modCtx c (·.exited code)).exitMsg c 0 0 (code.setWidth 64) (s.ctx c).pc).ctx c =
      (((s.cancelTicket c).endResources c false).ctx c).exited code := by
    rw [State.ctx_exitMsg (by rw [State.ctx_modCtx]; simp [Ctx.exited]), State.ctx_modCtx]
  rw [State.exitStrand_home home, State.countStrand_none (by rw [told, Ctx.exited_lobj, (released c).lobj, lobj]), told]
  exact ⟨rfl, rfl⟩

/-- The wait of an EXIT goes on while an access of the strand is outstanding at the next cycle (R89). -/
theorem State.endWait_ending {s : State} {c : Nat} {code : BitVec 32} (h : (s.ctx c).wait = .ending code) : s.endWait c =
    if (s.core (coreOf c)).outstanding c ((s.core (coreOf c)).cycle.toNat + 1) false none then s else s.exitStrand c code := by
  rw [State.endWait, h]

/-- Settles O17: REAP does what the state of the context asks, and EXIT is made at once or as its wait ends. -/
theorem strandEnds : Obligations.StrandEnds := by
  refine ⟨fun d a b i s r u v n hr hc hn => ?reap, fun a b i s r u n hr hc hn => ?exit,
    fun s c code => ⟨State.exitStrand_ctx, fun hw => ⟨fun wave => ?waits, fun noReqs noWaves => ?ends⟩⟩⟩
  case reap =>
    intro cid x
    refine ⟨exec_reap_none hr hc hn, fun h1 h14 home => ?_⟩
    have user {l : Life} (hl : x.life = l) (hw : Writes d (u.reapedAs cid l).1 (u.reapedAs cid l).2 v) :
        exec (.reap d a b i) s = .next v.past := exec_reap_user hr hc hn rfl h1 h14 home hl hw
    refine ⟨fun hl hw => user hl hw, fun hl hw => user hl hw, fun hl hw => user hl hw, fun hl hw => user hl hw, fun hl hw => ?_,
      fun hl => State.killStrand_life fun saved => ?_⟩
    · rcases hl with hl | hl | hl | hl <;> exact user hl hw
    · rcases hl with hl | hl | hl <;> exact nomatch hl.symm.trans saved
  case exit =>
    intro code
    rw [exec_exit hr hc hn]
    exact ⟨fun none => congrArg _ (if_neg (mt (State.outstanding_iff u u.cur).mp none)),
      fun some => congrArg _ (if_pos ((State.outstanding_iff u u.cur).mpr some))⟩
  case waits =>
    rw [State.endWait_ending hw, if_pos (by simp [Core.outstanding, wave])]
  case ends =>
    rw [State.endWait_ending hw, if_neg (by simp [Core.outstanding, noReqs, noWaves])]

end Sys2Proof.Machine
end

section
/-! SUPPORT. LAUNCH, DONE, CANCEL, LCNT, LWAIT and PLACE (R115 to R121): what each does as its checks pass. -/

namespace Sys2Proof.Machine

section
variable {d a b : BitVec 5} {i : BitVec 1} {j : Instr} {s r t u v w z : State} {va n : Word} {l : Lane}

theorem globalAddr_ok (h52 : va.toNat < 2 ^ 52) (h64 : va.toNat % 64 = 0) : globalAddr va s = .ok ((), s) := by
  rw [globalAddr, if_neg (not_le.mpr h52), if_neg (not_not.mpr h64)]
  rfl

/-! ### LAUNCH -/

/-- A work queue of the partition that acts (R93, R116). -/
def State.OwnQueue (u : State) (q : Nat) : Prop :=
  q < 131072 ∧ u.rd (queueDesc q + 10) 1 = u.partOf u.myTil ∧ u.queueOwner q = some (u.partOf u.myTil)

theorem State.OwnQueue.not_foreign {q : Nat} (h : u.OwnQueue q) : ¬(131072 ≤ q ∨ u.rd (queueDesc q + 10) 1 ≠ u.partOf u.myTil ∨
    (u.queueOwner q).any (· ≠ u.partOf u.myTil) = true) := by
  obtain ⟨lt, byte, owner⟩ := h
  simp [owner, byte, lt]

/-- An own queue takes no entry of a user where it is not enabled for them, or malformed (R94). -/
theorem State.OwnQueue.closed_iff {q : Nat} (h : u.OwnQueue q) : (u.qMode (queueDesc q) % 2 = 0 ∨ u.descBad (queueDesc q) = true ∨
    (u.queueOwner q).isNone = true ∨ u.qMode (queueDesc q) / 2 % 2 = 0) ↔
      u.qMode (queueDesc q) % 4 ≠ 3 ∨ u.descBad (queueDesc q) = true := by
  obtain ⟨-, -, owner⟩ := h
  have mode : u.qMode (queueDesc q) % 4 ≠ 3 ↔ u.qMode (queueDesc q) % 2 = 0 ∨ u.qMode (queueDesc q) / 2 % 2 = 0 := by omega
  simp only [owner, Option.isNone_some, Bool.false_eq_true, false_or, mode]
  tauto

section
variable (hr : Ready (.launch d a b) s r) (ha : Reads a r va t) (hb : Reads b t n u) (h52 : va.toNat < 2 ^ 52)
  (h64 : va.toNat % 64 = 0)
include ha hb h52 h64

/-- The record's address and the queue's number are read, and the address is checked, before LAUNCH looks at the queue. -/
theorem recordAndQueue_bind (f : Word → Word → State → Op Unit) :
    (rdS a >>= fun p => rdS b >>= fun q => globalAddr p >>= fun _ => get >>= f p q) r = f va n u u := by
  rw [bind_ok ha, bind_ok hb, bind_ok (globalAddr_ok h52 h64), bind_ok (op_get u)]

include hr

theorem exec_launch_foreign (h : 131072 ≤ n.toNat ∨ u.rd (queueDesc n.toNat + 10) 1 ≠ u.partOf u.myTil)
    (hw : Writes d u (failCode 3) z) : exec (.launch d a b) s = .next z.past := by
  refine perform_ok hr (thenNext_ok ((recordAndQueue_bind ha hb h52 h64 _).trans ?_))
  rw [if_pos (h.imp_right .inl)]
  exact hw

theorem exec_launch_closed (mine : u.OwnQueue n.toNat)
    (h : u.qMode (queueDesc n.toNat) % 4 ≠ 3 ∨ u.descBad (queueDesc n.toNat) = true) (hw : Writes d u (failCode 2) z) :
    exec (.launch d a b) s = .next z.past := by
  refine perform_ok hr (thenNext_ok ((recordAndQueue_bind ha hb h52 h64 _).trans ?_))
  rw [if_neg mine.not_foreign, if_pos (mine.closed_iff.mpr h)]
  exact hw

section
variable (mine : u.OwnQueue n.toNat) (mode : u.qMode (queueDesc n.toNat) % 4 = 3) (good : u.descBad (queueDesc n.toNat) = false)
include mine mode good

theorem exec_launch_full (full : 2 ^ u.qLog (queueDesc n.toNat) ≤ u.qLen (queueDesc n.toNat)) (hw : Writes d u (failCode 1) z) :
    exec (.launch d a b) s = .next z.past := by
  refine perform_ok hr (thenNext_ok ((recordAndQueue_bind ha hb h52 h64 _).trans ?_))
  rw [if_neg mine.not_foreign, if_neg (mt mine.closed_iff.mp (by simp [mode, good])), if_pos full]
  exact hw

theorem exec_launch_append {slot : Nat} (room : u.qLen (queueDesc n.toNat) < 2 ^ u.qLog (queueDesc n.toNat))
    (hs : slot = u.qSlot (queueDesc n.toNat) (u.qTail (queueDesc n.toNat))) (hlt : slot < 2 ^ 52)
    (hl : translateLanes .store 8 [(0, BitVec.ofNat 64 slot, .global slot)] u = .ok ([l], v))
    (hst : strandStore false l (bytesOfNat 8 va.toNat) v = .ok ((), w))
    (hw : Writes d (w.qPut (queueDesc n.toNat) (u.partOf u.myTil) 16 8 ((w.qTail (queueDesc n.toNat) + 1) % 2 ^ 64)) 0 z) :
    exec (.launch d a b) s = .next z.past := by
  refine perform_ok hr (thenNext_ok ((recordAndQueue_bind ha hb h52 h64 _).trans ?_))
  have slotNat : (BitVec.ofNat 64 slot).toNat = slot := by rw [BitVec.toNat_ofNat]; omega
  have stored : [l].forM (fun l => strandStore false l (bytesOfNat 8 va.toNat)) v = .ok ((), w) := bind_ok hst
  rw [if_neg mine.not_foreign, if_neg (mt mine.closed_iff.mp (by simp [mode, good])), if_neg (not_le.mpr room)]
  dsimp only
  rw [← hs, slotNat, if_neg (not_le.mpr hlt), bind_ok hl, bind_ok stored, bind_ok (op_upd _ w)]
  exact hw

end
end

/-! ### DONE and CANCEL -/

section
variable (hr : Ready (.done d a b i) s r) (ha : Reads a r va t) (hb : ReadsB i b t n u) (hl : objectLane .atomic va u = .ok (l, v))
  (hp : v.poisoned l.loc 64 = false)
include ha hb hl

/-- The object's address and the number to add are read, and the object is found, before DONE looks at it. -/
theorem objectAndNumber_bind (f : Word → Word → Lane → State → Op Unit) :
    (rdS a >>= fun x => rdB i b >>= fun y => objectLane .atomic x >>= fun l => get >>= f x y l) r = f va n l v v := by
  rw [bind_ok ha, bind_ok hb, bind_ok hl, bind_ok (op_get v)]

include hr hp

theorem exec_done_malformed (bad : v.lvBad l.loc = true) (hw : Writes d v (failCode 2) z) :
    exec (.done d a b i) s = .next z.past := by
  refine perform_ok hr (thenNext_ok ((objectAndNumber_bind ha hb hl _).trans ?_))
  rw [hp, if_neg Bool.false_ne_true, if_pos bad]
  exact hw

theorem exec_done_launch (good : v.lvBad l.loc = false) (level : v.lvLevel l.loc = 1) (hw : Writes d v (failCode 3) z) :
    exec (.done d a b i) s = .next z.past := by
  refine perform_ok hr (thenNext_ok ((objectAndNumber_bind ha hb hl _).trans ?_))
  rw [hp, if_neg Bool.false_ne_true, good, if_neg Bool.false_ne_true, if_pos level]
  exact hw

theorem exec_done_adds {added : State} (good : v.lvBad l.loc = false) (level : v.lvLevel l.loc ≠ 1)
    (hadd : added = if n = 0 then v else v.lvAdd (v.partOf v.myTil) v.myTil l.loc n.toNat)
    (hw : Writes d (added.acquire added.myTil 4) (BitVec.ofNat 64 (v.lvCompleted l.loc + n.toNat)) z) :
    exec (.done d a b i) s = .next z.past := by
  refine perform_ok hr (thenNext_ok ((objectAndNumber_bind ha hb hl _).trans ?_))
  rw [hp, if_neg Bool.false_ne_true, good, if_neg Bool.false_ne_true, if_neg level]
  have sum : BitVec.ofNat 64 ((v.lvCompleted l.loc + n.toNat) % 2 ^ 64) = BitVec.ofNat 64 (v.lvCompleted l.loc + n.toNat) :=
    BitVec.eq_of_toNat_eq (by simp)
  dsimp only
  rw [sum]
  split
  next hn =>
    rw [if_neg hn] at hadd
    subst hadd
    rw [bind_ok (op_upd _ v)]
    exact (bind_ok (op_upd _ _)).trans hw
  next hn =>
    rw [if_pos (not_not.mp hn)] at hadd
    subst hadd
    exact (bind_ok (op_upd _ _)).trans hw

end

section
variable (hr : Ready (.cancel d a) s r) (ha : Reads a r va t) (hl : objectLane .atomic va t = .ok (l, v))
  (hp : v.poisoned l.loc 64 = false)
include hr ha hl hp

/-- The answer of CANCEL by what the object is (R118). -/
theorem exec_cancel_answer {x : Word} {v' : State} (hw : Writes d v' x z)
    (h : v.lvBad l.loc = true ∧ v' = v ∧ x = failCode 2 ∨
      v.lvBad l.loc = false ∧ (v.lvTerminal l.loc = true ∧ v' = v ∧ x = 2 ∨
        v.lvTerminal l.loc = false ∧ (v.lvCancelled l.loc = true ∧ v' = v ∧ x = 1 ∨
          v.lvCancelled l.loc = false ∧
            v' = (v.lvOr (v.partOf v.myTil) l.loc 1).noticeCancel (v.partOf v.myTil) l.loc ∧ x = 0))) :
    exec (.cancel d a) s = .next z.past := by
  refine perform_ok hr (thenNext_ok ?_)
  rw [bind_ok ha, bind_ok hl, bind_ok (op_get v), hp, if_neg Bool.false_ne_true]
  rcases h with ⟨bad, rfl, rfl⟩ | ⟨good, ⟨ended, rfl, rfl⟩ | ⟨going, ⟨set, rfl, rfl⟩ | ⟨unset, rfl, rfl⟩⟩⟩
  · rw [if_pos bad]
    exact hw
  · rw [good, if_neg Bool.false_ne_true, if_pos ended]
    exact hw
  · rw [good, if_neg Bool.false_ne_true, going, if_neg Bool.false_ne_true, if_pos set]
    exact hw
  · rw [good, if_neg Bool.false_ne_true, going, if_neg Bool.false_ne_true, unset, if_neg Bool.false_ne_true]
    exact (bind_ok (op_upd _ v)).trans hw

end

/-! ### LCNT, LWAIT and PLACE -/

/-- LCNT answers a field of the object, or that it is malformed (R119). -/
theorem lcnt_ok {o : Option (List Byte)} {f : List Byte → Word} (hr : Ready j s r) (ha : Reads a r va t)
    (ho : readObject va t = .ok ((l, o), v)) (hw : Writes d v (o.elim (failCode 2) f) z) : lcnt j d a f s = .next z.past := by
  refine perform_ok hr (thenNext_ok ?_)
  rw [bind_ok ha, bind_ok ho]
  cases o <;> exact hw

section
variable {o : List Byte} (hr : Ready (.lwait d a b i) s r) (ha : Reads a r va t) (hb : ReadsB i b t n u)
  (ho : readObject va u = .ok ((l, some o), v))
include ha hb ho

theorem waitedObject_bind (f : Word → Word → Lane × Option (List Byte) → Op Unit) :
    (rdS a >>= fun x => rdB i b >>= fun y => readObject x >>= f x y) r = f va n (l, some o) v := by
  rw [bind_ok ha, bind_ok hb, bind_ok ho]

include hr

theorem exec_lwait_reached (h : terminal (numAt o 25 1) = true ∨ (n ≠ 0 ∧ n.toNat ≤ numAt o 8 8)) (hw : Writes d v (lvStatus o) z) :
    exec (.lwait d a b i) s = .next z.past := by
  refine perform_ok hr (thenNext_ok ((waitedObject_bind ha hb ho _).trans ?_))
  exact (congrFun (if_pos h) v).trans hw

theorem exec_lwait_sleeps (going : terminal (numAt o 25 1) = false) (short : n = 0 ∨ numAt o 8 8 < n.toNat)
    (ht : s.me.tx.active = false) : exec (.lwait d a b i) s = .next (s.sleepOn s.cur 5 [.line (l.loc / 64)] []) := by
  refine (perform_error (x := .sleep 5 [.line (l.loc / 64)] []) hr (thenNext_error ((waitedObject_bind ha hb ho _).trans ?_))).trans
    (congrArg _ (State.onStop_sleep ht))
  have early : ¬(terminal (numAt o 25 1) = true ∨ (n ≠ 0 ∧ n.toNat ≤ numAt o 8 8)) := by
    rw [going]
    rintro (h | ⟨nonzero, reached⟩)
    · exact Bool.false_ne_true h
    · exact short.elim nonzero (not_lt.mpr reached)
  exact (congrFun (if_neg early) v).trans (op_stop _ v)

end

theorem exec_place_ok {u' : State} {x : Word} (hr : Ready (.place d a b) s r) (hc : ctxNo s.cur = 0) (ha : Reads a r va t)
    (hb : Reads b t n u) (hw : Writes d u' x z)
    (h : u.placed (u.partOf u.myTil) (va.toNat % 2 ^ 32) = none ∧ u' = u ∧ x = failCode 1 ∨
      ∃ l y, u.placed (u.partOf u.myTil) (va.toNat % 2 ^ 32) = some (l, y) ∧ u' = u.acknowledge l y (n.getLsbD 63) ∧ x = 0) :
    exec (.place d a b) s = .next z.past := by
  refine steward_ok hr hc ?_
  rw [bind_ok ha, bind_ok hb, bind_ok (op_get u), show (va.extractLsb' 0 32).toNat = va.toNat % 2 ^ 32 by simp]
  rcases h with ⟨none, rfl, rfl⟩ | ⟨l, y, some, rfl, rfl⟩
  · rw [none]
    exact hw
  · rw [some]
    exact (bind_ok (op_upd _ u)).trans hw

end

/-- Settles O54: each instruction passes its checks up to the one that decides its answer. -/
theorem launches : Obligations.Launches := by
  refine ⟨fun d a b i s r t u v w z va n l ha => ⟨fun hr hb h52 h64 => ?launch, fun hr hb hl hp => ?done, fun hr hl hp => ?cancel⟩,
    fun d a b i s r t u v z va n l o ha => ⟨fun ho => ?lcnt, fun ho hw => ?malformed, fun hr hb ho => ?lwait, fun hr hc hb => ?place⟩⟩
  case launch =>
    exact ⟨exec_launch_foreign hr ha hb h52 h64, exec_launch_closed hr ha hb h52 h64, exec_launch_full hr ha hb h52 h64,
      fun mine mode good room => exec_launch_append hr ha hb h52 h64 mine mode good room rfl⟩
  case done =>
    exact ⟨exec_done_malformed hr ha hb hl hp, exec_done_launch hr ha hb hl hp,
      fun good level => exec_done_adds hr ha hb hl hp good level rfl⟩
  case cancel =>
    exact ⟨fun bad hw => exec_cancel_answer hr ha hl hp hw (.inl ⟨bad, rfl, rfl⟩),
      fun good going unset hw => exec_cancel_answer hr ha hl hp hw (.inr ⟨good, .inr ⟨going, .inr ⟨unset, rfl, rfl⟩⟩⟩),
      fun good going set hw => exec_cancel_answer hr ha hl hp hw (.inr ⟨good, .inr ⟨going, .inl ⟨set, rfl, rfl⟩⟩⟩),
      fun good ended hw => exec_cancel_answer hr ha hl hp hw (.inr ⟨good, .inl ⟨ended, rfl, rfl⟩⟩)⟩
  case lcnt => exact ⟨fun hr hw => lcnt_ok hr ha ho hw, fun hr hw => lcnt_ok hr ha ho hw, fun hr hw => lcnt_ok hr ha ho hw⟩
  case malformed => exact ⟨fun hr => lcnt_ok hr ha ho hw, fun hr => lcnt_ok hr ha ho hw, fun hr => lcnt_ok hr ha ho hw⟩
  case lwait => exact ⟨exec_lwait_reached hr ha hb ho, exec_lwait_sleeps hr ha hb ho⟩
  case place =>
    exact ⟨fun none hw => exec_place_ok hr hc ha hb hw (.inl ⟨none, rfl, rfl⟩),
      fun x y some hw => exec_place_ok hr hc ha hb hw (.inr ⟨x, y, some, rfl, rfl⟩)⟩

end Sys2Proof.Machine
end

section
/-! SUPPORT. What queued device steps, changes of lines and writes leave (R102, R176, R195, R382): launches, messages and bytes. -/

namespace Sys2Proof.Machine

variable {s t u : State}

/-! ### Device steps that are queued -/

/-- Device steps are queued, and nothing else changes. -/
def State.Queues (s t : State) : Prop := ∃ l, t = { s with agenda := s.agenda ++ l }

namespace State.Queues

theorem refl (s : State) : s.Queues s := ⟨[], by rw [List.append_nil]⟩

theorem trans (h : s.Queues t) (h' : t.Queues u) : s.Queues u := by
  obtain ⟨l, rfl⟩ := h
  obtain ⟨r, rfl⟩ := h'
  exact ⟨l ++ r, by rw [List.append_assoc]⟩

theorem later {i : Instr} : s.Queues (s.later i) := ⟨[i], rfl⟩

theorem ite {c : Prop} [Decidable c] (ht : s.Queues t) (hu : s.Queues u) : s.Queues (if c then t else u) := by
  split <;> assumption

theorem laterOnce {i : Instr} : s.Queues (s.laterOnce i) := .ite (.refl s) .later

theorem foldl {α : Type} {f : State → α → State} {l : List α} (hf : ∀ (s : State) x, s.Queues (f s x)) : s.Queues (l.foldl f s) :=
  List.foldlRecOn l f (.refl s) fun _ h x _ => h.trans (hf _ x)

theorem retryShares : s.Queues s.retryShares := .foldl fun _ _ => .laterOnce

theorem wakeQueues {die : Nat} : s.Queues (s.wakeQueues die) := .foldl fun _ _ => .foldl fun s _ => .ite .laterOnce (.refl s)

theorem freed {c : Nat} : s.Queues (s.freed c) := .ite (.refl s) .laterOnce

section
variable (h : s.Queues t)
include h
theorem launches : t.launches = s.launches := by obtain ⟨_, rfl⟩ := h; rfl
theorem til (n : Nat) : t.til n = s.til n := by obtain ⟨_, rfl⟩ := h; rfl
theorem mem_agenda {i : Instr} (hi : i ∈ s.agenda) : i ∈ t.agenda := by obtain ⟨_, rfl⟩ := h; exact List.mem_append_left _ hi
theorem aside : s.Aside t := by obtain ⟨_, rfl⟩ := h; exact ⟨rfl, rfl, rfl⟩
end

end State.Queues

theorem State.mem_agenda_laterOnce (s : State) (i : Instr) : i ∈ (s.laterOnce i).agenda := by
  unfold State.laterOnce
  split
  · assumption
  · exact List.mem_append_right _ (List.mem_singleton_self i)

/-! ### The change of a line -/

/-- Messages and launches are as they were. -/
structure State.Spares (s t : State) : Prop where
  cores : t.cores = s.cores
  launches : t.launches = s.launches

/-- So they are, and so is every byte. -/
structure State.Notifies (s t : State) : Prop extends s.Spares t where
  mem : t.mem = s.mem
  unspec : t.unspec = s.unspec

namespace State.Notifies

/-- What is neither a core, a launch nor a byte is free. -/
theorem rest (h : s.Notifies t) (cores : u.cores = t.cores := by rfl) (launches : u.launches = t.launches := by rfl)
    (mem : u.mem = t.mem := by rfl) (unspec : u.unspec = t.unspec := by rfl) : s.Notifies u :=
  ⟨⟨cores.trans h.cores, launches.trans h.launches⟩, mem.trans h.mem, unspec.trans h.unspec⟩

theorem refl (s : State) : s.Notifies s := ⟨⟨rfl, rfl⟩, rfl, rfl⟩

theorem ite {c : Prop} [Decidable c] (ht : s.Notifies t) (hu : s.Notifies u) : s.Notifies (if c then t else u) := by
  split <;> assumption

theorem foldl {α : Type} {f : State → α → State} {l : List α} (hf : ∀ t x, s.Notifies t → s.Notifies (f t x)) (h : s.Notifies t) :
    s.Notifies (l.foldl f t) :=
  List.foldlRecOn l f h fun t h x _ => hf t x h

section
variable (h : s.Notifies t)
include h
theorem setTil {n : Nat} {x : Tiller} : s.Notifies (t.setTil n x) := h.rest
theorem modTil {n : Nat} {f : Tiller → Tiller} : s.Notifies (t.modTil n f) := h.rest
theorem modCtx {c : Nat} {f : Ctx → Ctx} : s.Notifies (t.modCtx c f) := h.rest
theorem laterOnce {i : Instr} : s.Notifies (t.laterOnce i) := .ite h h.rest
theorem markAt {n : Nat} {key : Key} : s.Notifies (t.markAt n key) := h.rest
theorem wakeAt {n : Nat} {key : Key} : s.Notifies (t.wakeAt n key) := .foldl (fun _ _ h => .laterOnce h) h

theorem notify {key : Key} : s.Notifies (t.notify key) := by
  unfold State.notify
  split
  · exact .foldl (fun _ _ h => .ite h (.laterOnce h)) (.setTil h)
  · exact .foldl (fun _ _ h => .laterOnce h) (.ite h h.rest)

theorem changeKey {key : Key} : s.Notifies (t.changeKey key) := by
  unfold State.changeKey
  split
  · exact .notify (.wakeAt (.markAt h))
  · exact .notify h

theorem freeHeld {n : Nat} : s.Notifies (t.freeHeld n) := .foldl (fun _ _ h => .ite h (.laterOnce h)) h.rest

theorem dropToken {c : Nat} : s.Notifies (t.dropToken c) :=
  .ite (.changeKey (.freeHeld (.setTil h))) (.ite (.changeKey (.setTil h)) (.setTil h))

theorem withdrawIssue {c : Nat} : s.Notifies (t.withdrawIssue c) := .ite h.rest h

theorem restart {c : Nat} {f : Tx → Tx} : s.Notifies (t.restart c f) := .dropToken (.withdrawIssue (.modCtx h))

theorem conflictAt {n : Nat} {key : Key} {who : Option Nat} : s.Notifies (t.conflictAt n key who) :=
  .foldl (fun _ _ h => .ite h (.restart h)) h

theorem freePattern {n e : Nat} : s.Notifies (t.freePattern n e) := by
  unfold State.freePattern
  dsimp only
  split
  · exact h
  · exact .ite (.modTil h) (.changeKey (.modTil h))

theorem unstageLine {n l : Nat} : s.Notifies (t.unstageLine n l) := by
  unfold State.unstageLine
  dsimp only
  refine .ite ?_ h
  split
  · exact .ite (.changeKey (.setTil h)) (.setTil h)
  · exact .setTil h

/-- A change of a line is told to those who watch it, and restarts attempts. -/
theorem changeLine {l : Nat} {who : Option Nat} : s.Notifies (t.changeLine l who) := by
  unfold State.changeLine
  dsimp only
  split
  · exact .unstageLine (.foldl (fun _ _ h => .freePattern h) (.notify (.wakeAt (.markAt (.conflictAt h)))))
  · split
    · exact .notify h
    · exact .laterOnce (.notify h)

theorem byteAt (a : Nat) : t.byteAt a = s.byteAt a := by rw [State.byteAt, State.byteAt, h.mem, h.unspec]

end
end State.Notifies

/-! ### Writes -/

/-- A write is its bytes and the changes of their lines. -/
theorem State.store_notifies (s : State) (a : Nat) (bs : List Byte) (who : Option Nat) :
    (s.putBytes a bs).Notifies (s.store a bs who) :=
  .foldl (fun _ _ h => .changeLine h) (.rest (.refl _))

/-- A field of a level object that changes is its bytes and the changes of their lines. -/
theorem State.lvPut_notifies (s : State) (part o off n x : Nat) : (s.wr (o + off) n x).Notifies (s.lvPut part o off n x) :=
  .ite (.rest (s.store_notifies (o + off) (bytesOfNat n x) none)) (s.store_notifies (o + off) (bytesOfNat n x) none)

namespace State.Spares

theorem refl (s : State) : s.Spares s := ⟨rfl, rfl⟩

theorem trans (h : s.Spares t) (h' : t.Spares u) : s.Spares u := ⟨h'.cores.trans h.cores, h'.launches.trans h.launches⟩

theorem foldl {α : Type} {f : State → α → State} {l : List α} (hf : ∀ t x, s.Spares t → s.Spares (f t x)) (h : s.Spares t) :
    s.Spares (l.foldl f t) :=
  List.foldlRecOn l f h fun t h x _ => hf t x h

theorem putBytes {a : Nat} {bs : List Byte} (h : s.Spares t) : s.Spares (t.putBytes a bs) := by
  induction bs generalizing t a with
  | nil => exact h
  | cons b r ih => exact ih (h.trans ⟨rfl, rfl⟩)

section
variable (h : s.Spares t)
include h
theorem store {a : Nat} {bs : List Byte} {who : Option Nat} : s.Spares (t.store a bs who) :=
  h.putBytes.trans (t.store_notifies a bs who).toSpares

theorem lvPut {part o off n x : Nat} : s.Spares (t.lvPut part o off n x) := h.putBytes.trans (t.lvPut_notifies part o off n x).toSpares

theorem setRing {x : Ring} : s.Spares (t.setRing x) := h.trans ⟨rfl, rfl⟩

theorem buildChan {l : Launch} {c : Chan} : s.Spares (t.buildChan l c) := by
  unfold State.buildChan
  split
  · exact h
  · exact .setRing (.store (.store h))

theorem buildBlock {l : Launch} {b : PBlock} : s.Spares (t.buildBlock l b) := by
  unfold State.buildBlock
  split
  · exact h
  · exact .store h
end

end State.Spares

/-! ### Messages for the steward's box (R382) -/

theorem State.mail_congr (h : t.cores = s.cores) (k : Nat) : t.mail k = s.mail k := by
  rw [State.mail, State.mail, State.core, State.core, h]

theorem Core.held_setBox (k : Core) (b : Nat) (q : List Msg) : (k.setBox b q).held = k.held := by
  unfold Core.setBox
  split
  · rfl
  · split <;> rfl

/-- A message comes behind those that are in the box, or held for it. -/
theorem State.mail_send (s : State) (k j : Nat) (m : Msg) : (s.send k 0 m).mail j = s.mail j ++ (if k = j then [m] else []) := by
  split
  next e =>
    subst e
    unfold State.send
    split
    next room =>
      have none_held : (s.core k).held.filter (fun h => h.1 == 0) = [] := by
        simpa [State.boxRoom] using (Bool.and_eq_true_iff.mp room).2
      rw [State.mail, State.mail, State.core_ring, State.core_modCore, Core.box_setBox, Core.held_setBox, none_held]
      simp
    next => simp [State.mail, Core.box]
  next ne => rw [State.mail, State.mail, State.core_send_ne (Ne.symm ne), List.append_nil]

theorem State.send_launches (s : State) (k b : Nat) (m : Msg) : (s.send k b m).launches = s.launches := by
  obtain ⟨l, x, e⟩ := s.send_eq k b m
  rw [e]

/-- A message leaves each context but for its wait. -/
theorem State.ctx_ring_eq (s : State) (k b c : Nat) : ∃ w, (s.ring k b).ctx c = { s.ctx c with wait := w } := by
  refine List.foldlRecOn (motive := fun t : State => ∃ w, t.ctx c = { s.ctx c with wait := w }) _ _ ⟨_, rfl⟩ fun t h j _ => ?_
  obtain ⟨w, hw⟩ := h
  split
  · by_cases e : c = k * 16 + j
    · subst e
      exact ⟨.none, by rw [State.ctx_modCtx, hw]⟩
    · exact ⟨w, (State.ctx_modCtx_ne _ _ _ _ e).trans hw⟩
  · exact ⟨w, hw⟩

theorem State.ctx_send_eq (s : State) (k b c : Nat) (m : Msg) : ∃ w, (s.send k b m).ctx c = { s.ctx c with wait := w } := by
  unfold State.send
  split
  · exact State.ctx_ring_eq _ k b c
  · exact ⟨_, rfl⟩

/-- The letters of one step after another stand in their order. -/
theorem State.mail_foldl {α : Type} {P : State → Prop} {f : State → α → State} {g : α → Option Msg} {k : Nat}
    (step : ∀ t x, P t → P (f t x) ∧ (f t x).mail k = t.mail k ++ (g x).toList) (l : List α) (h : P s) :
    (l.foldl f s).mail k = s.mail k ++ l.filterMap g := by
  induction l generalizing s with
  | nil => exact (List.append_nil _).symm
  | cons x r ih =>
    obtain ⟨hp, hm⟩ := step s x h
    rw [List.foldl_cons, ih hp, hm, List.append_assoc, List.filterMap_cons]
    cases g x <;> rfl

end Sys2Proof.Machine
end

section
/-! SUPPORT. Placement messages, spawn blocks and kill requests (R85, R110, R113, R384). -/

namespace Sys2Proof.Machine

variable {s t u : State} {l : Launch}

/-! ### One launch among those that the distributors hold -/

/-- A launch that changes under its number is found again as it has become. -/
theorem State.find_modLaunch {f : Launch → Launch} (hf : ∀ m, (f m).id = m.id)
    (h : s.launches.find? (fun m => m.id == l.id) = some l) :
    (s.modLaunch l.id f).launches.find? (fun m => m.id == l.id) = some (f l) := by
  have same : (fun m : Launch => m.id == l.id) ∘ (fun m => if m.id = l.id then f m else m) = fun m => m.id == l.id := by
    funext m
    dsimp only [Function.comp]
    split
    · rw [hf]
    · rfl
  show (s.launches.map fun m => if m.id = l.id then f m else m).find? _ = _
  rw [List.find?_map, same, h, Option.map_some, if_pos rfl]

/-! ### Placement messages (R110) -/

/-- The placement message of a replica. -/
def Launch.placement (l : Launch) (r : Replica) (c : Nat) : Msg :=
  { header := header 3 32 0x3FF 0 0
    body := bodyOf [(0, 4, l.pid r), (4, 1, ctxNo c), (5, 1, bitsIf (l.record.tiled r.stage) 0),
      (8, 8, (nearAddr (tilOf c) r.block).toNat)] }

theorem State.placeReplica_launches (s : State) (l : Launch) (r : Replica) : (s.placeReplica l r).launches = s.launches := by
  unfold State.placeReplica
  split
  · rfl
  · exact (State.send_launches ..).trans (State.Spares.store (.refl s)).launches

theorem State.placeReplica_mail (s : State) (l : Launch) (r : Replica) (k : Nat) :
    (s.placeReplica l r).mail k = s.mail k ++ (r.cid.bind fun c => if coreOf c = k then some (l.placement r c) else none).toList := by
  unfold State.placeReplica
  split
  next none => rw [none]; exact (List.append_nil _).symm
  next c some =>
    rw [some, State.mail_send, State.mail_congr (State.Spares.store (.refl s)).cores, Option.bind_some]
    split <;> rfl

/-- A reservation that is complete sets its object and builds its channels, then places its replicas. -/
theorem State.completeLaunch_eq (h : s.launches.find? (fun m => m.id == l.id) = some l) : ∃ t, s.Spares t ∧ s.completeLaunch l.id =
    (l.reps.foldl (fun s r => s.placeReplica l r) t).modLaunch l.id (fun l => { l with
      at_ := .complete, reps := l.reps.map (fun r => { r with sent := true }) }) := by
  unfold State.completeLaunch
  rw [h]
  refine ⟨_, .foldl (fun _ _ h => .buildBlock h) (.foldl (fun _ _ h => .buildChan h) ?_), rfl⟩
  split
  · exact .refl s
  · exact .lvPut (.lvPut (.lvPut (.refl s)))

section
variable (h : s.launches.find? (fun m => m.id == l.id) = some l)
include h

theorem State.completeLaunch_find : (s.completeLaunch l.id).launches.find? (fun m => m.id == l.id) =
    some { l with at_ := .complete, reps := l.reps.map (fun r => { r with sent := true }) } := by
  obtain ⟨t, spares, e⟩ := State.completeLaunch_eq h
  have placed : (l.reps.foldl (fun s r => s.placeReplica l r) t).launches = s.launches :=
    List.foldlRecOn (motive := fun u : State => u.launches = s.launches) l.reps _ spares.launches
      fun u hu r _ => (u.placeReplica_launches l r).trans hu
  rw [e]
  exact State.find_modLaunch (fun _ => rfl) (placed ▸ h)

theorem State.completeLaunch_mail (k : Nat) :
    (s.completeLaunch l.id).mail k = s.mail k ++ l.letters k (fun r c => some (l.placement r c)) := by
  obtain ⟨t, spares, e⟩ := State.completeLaunch_eq h
  rw [e, ← State.mail_congr spares.cores]
  exact State.mail_foldl (P := fun _ => True) (fun u r _ => ⟨trivial, u.placeReplica_mail l r k⟩) l.reps trivial

end

/-! ### Spawn blocks (R85, R110) -/

theorem natOfBytes_bytesOfNat (n x : Nat) : natOfBytes (bytesOfNat n x) = x % 256 ^ n := by
  induction n generalizing x with
  | zero => rw [Nat.pow_zero, Nat.mod_one]; rfl
  | succ n ih =>
    rw [bytesOfNat, natOfBytes, ih, Nat.pow_succ', Nat.mod_mul, BitVec.toNat_ofNat]
    omega

/-- The words of a block stand one behind the other. -/
theorem numAt_words (xs : List Nat) (r : List Byte) (j : Nat) (hj : j < xs.length) :
    numAt (xs.flatMap (bytesOfNat 8) ++ r) (8 * j) 8 = xs[j] % 2 ^ 64 := by
  induction xs generalizing j with
  | nil => exact absurd hj (Nat.not_lt_zero j)
  | cons x xs ih =>
    rw [List.flatMap_cons, List.append_assoc]
    cases j with
    | zero =>
      rw [numAt, Nat.mul_zero, List.drop_zero, List.take_left' (bytesOfNat_length 8 x), natOfBytes_bytesOfNat]
      rfl
    | succ j =>
      rw [numAt, show 8 * (j + 1) = (bytesOfNat 8 x).length + 8 * j by rw [bytesOfNat_length]; omega, List.drop_length_add_append]
      exact ih j (Nat.lt_of_succ_lt_succ hj)

theorem flatMap_bytes_length {α : Type} (l : List α) (n : Nat) (f : α → Nat) :
    (l.flatMap fun x => bytesOfNat n (f x)).length = n * l.length := by
  simp [List.length_flatMap, bytesOfNat_length, Nat.mul_comm]

/-- A spawn block holds its eight words, the binding entries, and zeros. -/
theorem Launch.spawnBlock_eq {r : Replica} {g : Stage} (h : l.record.stages[r.stage]? = some g) : ∃ pos binds,
    binds.length = 96 ∧ l.spawnBlock r = [g.entry.toNat, l.lrec, if l.record.arg ≠ 0 then l.record.arg.toNat else if g.spad = 0 then 0
      else 0xF0 * 2 ^ 56 + 2 ^ 42 + r.run, pos, g.fmt.toNat, g.scla.toNat, g.sclb.toNat, 0].flatMap (bytesOfNat 8) ++
        (binds ++ List.replicate 96 0) := by
  unfold Launch.spawnBlock
  rw [h]
  exact ⟨_, _, flatMap_bytes_length (List.range 12) 8 _, List.append_assoc ..⟩

theorem Launch.spawnBlock_fields {r : Replica} {g : Stage} (h : l.record.stages[r.stage]? = some g) : let b := l.spawnBlock r
    b.length = 256 ∧ numAt b 0 8 = g.entry.toNat ∧ numAt b 8 8 = l.lrec % 2 ^ 64 ∧
      (l.record.arg ≠ 0 → numAt b 16 8 = l.record.arg.toNat) ∧ (l.record.arg = 0 → g.spad = 0 → numAt b 16 8 = 0) ∧
      numAt b 32 8 = g.fmt.toNat ∧ numAt b 40 8 = g.scla.toNat ∧ numAt b 48 8 = g.sclb.toNat := by
  obtain ⟨pos, binds, len, e⟩ := l.spawnBlock_eq h
  have word {w : Word} : w.toNat % 2 ^ 64 = w.toNat := Nat.mod_eq_of_lt w.isLt
  intro b
  rw [show b = _ from e]
  refine ⟨?length, (numAt_words _ _ 0 (by simp)).trans word, numAt_words _ _ 1 (by simp),
    fun arg => (numAt_words _ _ 2 (by simp)).trans ?given, fun arg spad => (numAt_words _ _ 2 (by simp)).trans ?none,
    (numAt_words _ _ 4 (by simp)).trans word, (numAt_words _ _ 5 (by simp)).trans word, (numAt_words _ _ 6 (by simp)).trans word⟩
  case length =>
    rw [List.length_append, flatMap_bytes_length _ 8 fun x => x, List.length_append, len, List.length_replicate]
    rfl
  case given =>
    show (if l.record.arg ≠ 0 then _ else _) % 2 ^ 64 = _
    rw [if_pos arg, word]
  case none =>
    show (if l.record.arg ≠ 0 then _ else if g.spad = 0 then _ else _) % 2 ^ 64 = _
    rw [if_neg (not_not.mpr arg), if_pos spad, Nat.zero_mod]

/-! ### Kill requests (R113) -/

/-- The kill request for a replica of a launch, by its context as the partition has it. -/
def State.killRequest (s : State) (l : Launch) (r : Replica) (c : Nat) : Option Msg :=
  let x := s.ctxIn l.part c
  let gen := if x.life = .free then x.gen + 1 else x.gen
  if r.gone then none else some
    { header := header 4 32 0x3FF 0 0
      body := bodyOf [(0, 4, l.part * 2 ^ 28 + c * 2 ^ 12 + gen.toNat), (8, 8, l.record.obj)] }

theorem State.ctxIn_send (s : State) (part c k b : Nat) (m : Msg) :
    ∃ w, (s.send k b m).ctxIn part c = { s.ctxIn part c with wait := w } := by
  obtain ⟨w, hw⟩ := s.ctx_send_eq k b c m
  obtain ⟨cs, x, e⟩ := s.send_eq k b m
  have til : (s.send k b m).til (tilOf c) = s.til (tilOf c) := by rw [e]; rfl
  unfold State.ctxIn
  rw [til]
  split
  · exact ⟨w, hw⟩
  · cases (((s.til (tilOf c)).shadow.filter fun h => h.part == part).bind fun h => tget h.ctxs c) with
    | none => exact ⟨w, hw⟩
    | some x => exact ⟨x.wait, rfl⟩

theorem State.killRequest_send (s : State) (k : Nat) (m : Msg) (l : Launch) (r : Replica) (c : Nat) :
    (s.send k 0 m).killRequest l r c = s.killRequest l r c := by
  obtain ⟨w, hw⟩ := s.ctxIn_send l.part c k 0 m
  rw [State.killRequest, State.killRequest, hw]

theorem State.killReplicas_mail (h : l.doomed = false) (k : Nat) :
    (s.killReplicas l).mail k = s.mail k ++ l.letters k (s.killRequest l) := by
  unfold State.killReplicas
  rw [h, if_neg Bool.false_ne_true]
  refine State.mail_foldl (P := fun t => ∀ r c, t.killRequest l r c = s.killRequest l r c) (fun t r same => ?_) l.reps (fun _ _ => rfl)
  dsimp only
  cases hc : r.cid with
  | none => exact ⟨same, (List.append_nil _).symm⟩
  | some c =>
    have request := same r c
    rw [Option.bind_some, ← request, State.killRequest]
    cases r.gone with
    | true => exact ⟨same, by simp⟩
    | false =>
      refine ⟨fun r c => (t.killRequest_send _ _ l r c).trans (same r c), (State.mail_send ..).trans ?_⟩
      split <;> rfl

end Sys2Proof.Machine
end

section
/-! SUPPORT. What a distributor takes, readies and dispatches (R95, R105, R107 to R109, R112, R114). -/

namespace Sys2Proof.Machine

variable {s t u : State} {l : Launch} {ls : List Launch}

/-! ### Entries, readiness and shares -/

/-- The entry at HEAD of a queue that is enabled, well formed and not empty is taken where it can be read (R95). -/
theorem State.takeEntry_eq {moved : State} {q p pa e : Nat} {ent : Word} (owner : s.queueOwner q = some p) (mode : s.qMode (queueDesc q) % 2 = 1)
    (part : s.rd (queueDesc q + 10) 1 = p) (good : s.descBad (queueDesc q) = false) (held : 0 < s.qLen (queueDesc q))
    (fits : s.qLen (queueDesc q) ≤ 2 ^ s.qLog (queueDesc q)) (room : s.pooled (q / 2 ^ 15) < 4096)
    (mapped : s.devXlate p (distTil (q / 2 ^ 15)) (s.qSlot (queueDesc q) (s.qHead (queueDesc q))) .load = .ok (pa, ent))
    (clean : s.poisoned pa 8 = false) (entry : s.rd pa 8 = e)
    (move : s.qPut (queueDesc q) p 24 8 ((s.qHead (queueDesc q) + 1) % 2 ^ 64) = moved) :
    s.takeEntry q = (moved.entryRecord p (distTil (q / 2 ^ 15)) e).elim ((moved.qErr (queueDesc q) p).qPut (queueDesc q) p 40 8 e)
      fun x => moved.enterPool p q e x.2 x.1 := by
  have open_ : ¬(s.qMode (queueDesc q) % 2 = 0 ∨ s.rd (queueDesc q + 10) 1 ≠ p ∨ s.descBad (queueDesc q) = true ∨
      s.qLen (queueDesc q) = 0) := by
    rw [good, part]
    simp only [ne_eq, not_true_eq_false, Bool.false_eq_true, false_or]
    omega
  unfold State.takeEntry
  rw [owner]
  dsimp only
  rw [if_neg open_, if_neg (not_lt.mpr fits), if_neg (not_le.mpr room), mapped]
  dsimp only
  rw [clean, if_neg Bool.false_ne_true, entry, move]
  rcases moved.entryRecord p (distTil (q / 2 ^ 15)) e with _ | ⟨bs, o⟩
  · rw [Option.elim_none]
  · rw [Option.elim_some]

section
variable (found : s.launches.find? (fun m => m.id == l.id) = some l)
include found

theorem State.makeReady_eq (pool : l.at_ = .pool) (met : s.depsMet l = true) (live : s.chainCancelled l.part l.til l.record = false) :
    s.makeReady l.id =
      (s.modLaunch l.id (fun l => { l with at_ := .bank, since := s.dieCycle (l.queue / 2 ^ 15) })).giveWay l := by
  unfold State.makeReady
  rw [found]
  dsimp only
  rw [if_neg (by simp [pool, met]), if_neg (by simp [live])]

section
variable {die : Nat} {rest : List Nat} (slot : l.at_ = .slot) (shares : l.shares = die :: rest)
include slot shares

/-- The next share of a reservation is that of the first die of its list (R109, R113, R114). -/
theorem State.reserveShare_eq : s.reserveShare l.id =
    if l.spanning = true ∧ (!s.eligible l die) = true ∧ s.age l < agedAt then s
    else (s.takeShare l die).elim s fun t =>
      if t.chainCancelled l.part l.til l.record then t.cancelLaunch l
      else if rest.isEmpty then t.completeLaunch l.id else t.laterOnce (.shareReserve l.id) := by
  unfold State.reserveShare
  rw [found]
  dsimp only
  rw [slot, shares]
  dsimp only
  cases s.takeShare l die <;> rfl

/-- A share of a spanning launch waits for the die's energy until the launch has aged (R114). -/
theorem State.reserveShare_withheld (spanning : l.spanning = true) (short : s.eligible l die = false) (young : s.age l < 65536) :
    s.reserveShare l.id = s := by
  rw [s.reserveShare_eq found slot shares, if_pos ⟨spanning, by rw [short]; rfl, young⟩]

section
variable (may : l.spanning = false ∨ s.eligible l die = true ∨ 65536 ≤ s.age l)
include may

theorem State.reserveShare_of_may : s.reserveShare l.id = (s.takeShare l die).elim s fun t =>
    if t.chainCancelled l.part l.til l.record then t.cancelLaunch l
    else if rest.isEmpty then t.completeLaunch l.id else t.laterOnce (.shareReserve l.id) := by
  have free : ¬(l.spanning = true ∧ (!s.eligible l die) = true ∧ s.age l < agedAt) := by
    rintro ⟨spanning, short, young⟩
    rcases may with local_ | eligible | aged
    · exact Bool.false_ne_true (local_.symm.trans spanning)
    · rw [eligible] at short
      exact Bool.false_ne_true short
    · exact absurd young (not_lt.mpr aged)
  rw [s.reserveShare_eq found slot shares, if_neg free]

theorem State.reserveShare_none (take : s.takeShare l die = none) : s.reserveShare l.id = s := by
  rw [s.reserveShare_of_may found slot shares may, take, Option.elim_none]

theorem State.reserveShare_some (take : s.takeShare l die = some t) : s.reserveShare l.id =
    if t.chainCancelled l.part l.til l.record then t.cancelLaunch l
    else if rest.isEmpty then t.completeLaunch l.id else t.laterOnce (.shareReserve l.id) := by
  rw [s.reserveShare_of_may found slot shares may, take, Option.elim_some]

end
end
end

/-! ### The launch that goes first (R105, R107, R112) -/

/-- Priority before age, as one number. -/
def State.score (s : State) (l : Launch) : Nat := l.record.prio * 2 ^ 64 + s.age l

theorem State.before_iff (s : State) (a b : Launch) : s.Before a b ↔ s.score b < s.score a := by
  have ha : s.age a < 2 ^ 64 := BitVec.isLt _
  have hb : s.age b < 2 ^ 64 := BitVec.isLt _
  unfold State.Before State.score
  omega

theorem State.outranks_iff (s : State) (a b : Launch) : s.outranks a b = true ↔ s.score b < s.score a := by
  rw [← s.before_iff, State.Before, State.outranks, eq_comm (a := b.record.prio)]
  simp

/-- The first of those that no other one exceeds. -/
theorem foldl_eq_argmax {α : Type} {f : α → Nat} {g : Option α → α → Option α} (first : ∀ x, g none x = some x)
    (next : ∀ x y, g (some y) x = if f y < f x then some x else some y) (l : List α) : l.foldl g none = l.argmax f := by
  have same : g = List.argAux fun b c => f c < f b := by
    funext m x
    cases m with
    | none => exact first x
    | some y => exact next x y
  rw [same]
  rfl

theorem State.best_eq_argmax (s : State) (ls : List Launch) : s.best ls = ls.argmax s.score :=
  foldl_eq_argmax (fun _ => rfl) (fun x y => if_congr (s.outranks_iff x y) rfl rfl) ls

theorem State.oldest_eq_argmax (s : State) (ls : List Launch) :
    s.oldest ls = (ls.filter fun l => agedAt ≤ s.age l).argmax s.age :=
  foldl_eq_argmax (fun _ => rfl) (fun _ _ => rfl) _

/-- What exceeds all others is the first. -/
theorem argmax_of_forall_lt {α : Type} {f : α → Nat} {l : List α} {x : α} (hx : x ∈ l) (h : ∀ y ∈ l, y ≠ x → f y < f x) :
    l.argmax f = some x := by
  cases e : l.argmax f with
  | none => exact absurd (List.argmax_eq_none.mp e ▸ hx) List.not_mem_nil
  | some y =>
    by_contra ne
    have lt := h y (List.argmax_mem e) fun eq => ne (congrArg _ eq)
    exact absurd (List.le_of_mem_argmax hx e) (not_le.mpr lt)

theorem State.oldest_of_aged (hl : l ∈ ls) (aged : 65536 ≤ s.age l) (h : ∀ m ∈ ls, m ≠ l → s.age m < s.age l) :
    s.oldest ls = some l := by
  rw [s.oldest_eq_argmax]
  exact argmax_of_forall_lt (List.mem_filter.mpr ⟨hl, decide_eq_true aged⟩) fun m hm => h m (List.mem_of_mem_filter hm)

theorem State.oldest_of_young (h : ∀ m ∈ ls, s.age m < 65536) : s.oldest ls = none := by
  rw [s.oldest_eq_argmax, List.argmax_eq_none, List.filter_eq_nil_iff]
  exact fun m hm => by rw [decide_eq_true_iff]; exact not_le.mpr (h m hm)

/-- The head of a bank is the first of those that were put there, if any were, and else the first of all (R112). -/
theorem State.head_spec (s : State) (ls : List Launch) : (ls ≠ [] → ∃ h, s.head ls = some h) ∧ ∀ h, s.head ls = some h →
    h ∈ ls ∧ ((∃ m ∈ ls, m.front = true) → h.front = true) ∧ ∀ m ∈ ls, (h.front = true → m.front = true) → ¬s.Before m h := by
  unfold State.head
  rw [s.best_eq_argmax]
  split
  next front =>
    obtain ⟨x, hx, fx⟩ := List.any_eq_true.mp front
    refine ⟨fun _ => Option.ne_none_iff_exists'.mp fun none => ?_, fun h e => ?_⟩
    · exact List.filter_eq_nil_iff.mp (List.argmax_eq_none.mp none) x hx fx
    · obtain ⟨mem, hf⟩ := List.mem_filter.mp (List.argmax_mem e)
      refine ⟨mem, fun _ => hf, fun m hm same before => ?_⟩
      exact not_lt.mpr (List.le_of_mem_argmax (List.mem_filter.mpr ⟨hm, same hf⟩) e) ((s.before_iff m h).mp before)
  next back =>
    refine ⟨fun some => Option.ne_none_iff_exists'.mp (mt List.argmax_eq_none.mp some), fun h e => ?_⟩
    refine ⟨List.argmax_mem e, fun ⟨m, hm, fm⟩ => absurd (List.any_eq_true.mpr ⟨m, hm, fm⟩) back, fun m hm _ before => ?_⟩
    exact not_lt.mpr (List.le_of_mem_argmax hm e) ((s.before_iff m h).mp before)

/-! ### An attempt (R107, R108, R114) -/

/-- The launches that an attempt on a die may dispatch. -/
def State.waiting (s : State) (die : Nat) : List Launch :=
  s.launches.filter (fun l => l.at_ == .bank && l.queue / 2 ^ 15 == die && !s.slotTaken l)

/-- The heads that an attempt looks at and that are eligible. -/
def State.eligibleHeads (s : State) (die : Nat) : List Launch := (s.sampled (s.waiting die)).filter fun l => s.eligible l die

/-- The state after two banks have been drawn, and heads that are not eligible have been counted as withheld. -/
def State.drawn (s : State) (die : Nat) : State :=
  if (s.eligibleHeads die).length < (s.sampled (s.waiting die)).length then
    s.tick.tick.modDie die (fun d => { d with withheld := d.withheld + 1 })
  else s.tick.tick

theorem State.attempt_eq (s : State) (die : Nat) : s.attempt die = let u := s.retryShares
    match u.oldest (u.waiting die) with
    | some l => u.dispatch l
    | none => match (u.drawn die).best (u.eligibleHeads die) with
      | none => u.drawn die
      | some l => (u.drawn die).dispatch l := rfl

theorem State.attempt_aged {die : Nat} (hl : l ∈ s.retryShares.waiting die) (aged : 65536 ≤ s.retryShares.age l)
    (h : ∀ m ∈ s.retryShares.waiting die, m ≠ l → s.retryShares.age m < s.retryShares.age l) :
    s.attempt die = s.retryShares.dispatch l := by
  rw [s.attempt_eq]
  dsimp only
  rw [State.oldest_of_aged hl aged h]

theorem State.best_drawn (s : State) (die : Nat) (ls : List Launch) : (s.drawn die).best ls = ls.argmax s.score := by
  have age (l : Launch) : (s.drawn die).age l = s.age l := by
    unfold State.drawn
    split <;> rfl
  rw [State.best_eq_argmax]
  congr 1
  funext l
  rw [State.score, State.score, age]

theorem State.attempt_young {die : Nat} (young : ∀ m ∈ s.retryShares.waiting die, s.retryShares.age m < 65536) :
    s.attempt die = match (s.retryShares.eligibleHeads die).argmax s.retryShares.score with
      | none => s.retryShares.drawn die
      | some l => (s.retryShares.drawn die).dispatch l := by
  rw [← State.best_drawn _ die, s.attempt_eq]
  dsimp only
  rw [State.oldest_of_young young]

theorem State.attempt_none {die : Nat} (young : ∀ m ∈ s.retryShares.waiting die, s.retryShares.age m < 65536)
    (barred : s.retryShares.eligibleHeads die = []) : s.attempt die = s.retryShares.drawn die := by
  rw [State.attempt_young young, barred, List.argmax_nil]

theorem State.attempt_head {die : Nat} (young : ∀ m ∈ s.retryShares.waiting die, s.retryShares.age m < 65536)
    (hl : l ∈ s.retryShares.eligibleHeads die) (h : ∀ m ∈ s.retryShares.eligibleHeads die, m ≠ l → s.retryShares.Before l m) :
    s.attempt die = (s.retryShares.drawn die).dispatch l := by
  rw [State.attempt_young young, argmax_of_forall_lt hl fun m hm ne => (State.before_iff _ l m).mp (h m hm ne)]

/-! ### Dispatch (R108, R109) -/

/-- Replicas that are numbered stage by stage stand as they are numbered. -/
theorem map_replica_stages {gs : List Stage} {needed : Bool} {die : Nat} {n : Stage → Nat} {key idx : Stage × Nat → Nat → Nat}
    (h : ∀ g ∈ gs.zipIdx, ∀ j < n g.1, key g j % 16 = idx g j) :
    ((gs.zipIdx.flatMap fun g => (List.range (n g.1)).map fun j => ({ stage := g.2, key := key g j, dies := g.1.dies } : Todo)).map
      fun t => t.replica needed die).map (fun r => (r.stage, r.idx, r.needed)) =
    gs.zipIdx.flatMap fun g => (List.range (n g.1)).map fun j => (g.2, idx g j, needed) := by
  rw [List.map_map, List.map_flatMap]
  refine List.flatMap_congr fun g hg => ?_
  rw [List.map_map]
  refine List.map_congr_left fun j hj => ?_
  simp only [Function.comp, Todo.replica, h g hg j (List.mem_range.mp hj)]

/-- The replicas of a local launch: those that it needs, and those that it may have beyond. -/
def Launch.localReplicas (l : Launch) : List Replica :=
  l.record.needed.map (fun t => t.replica true (l.queue / 2 ^ 15)) ++ l.record.further.map (fun t => t.replica false (l.queue / 2 ^ 15))

theorem Launch.localReplicas_unplaced {r : Replica} (h : r ∈ l.localReplicas) :
    (r.cid = none ∧ r.sent = false) ∧ r.die = l.queue / 2 ^ 15 := by
  rcases List.mem_append.mp h with h | h <;> obtain ⟨t, -, rfl⟩ := List.mem_map.mp h <;> exact ⟨⟨rfl, rfl⟩, rfl⟩

theorem Launch.localReplicas_order (limits : ∀ g ∈ l.record.stages, g.minrep ≤ g.maxrep ∧ g.maxrep ≤ 16) :
    l.localReplicas.map (fun r => (r.stage, r.idx, r.needed)) =
      l.record.stages.zipIdx.flatMap (fun g => (List.range g.1.minrep).map (fun j => (g.2, j, true))) ++
      l.record.stages.zipIdx.flatMap (fun g => (List.range (g.1.maxrep - g.1.minrep)).map (fun j => (g.2, g.1.minrep + j, false))) := by
  refine List.map_append.trans (congrArg₂ _ (map_replica_stages fun g hg j hj => ?_)
    (map_replica_stages (n := fun g => g.maxrep - g.minrep) (key := fun g j => g.2 * 16 + g.1.minrep + j) fun g hg j hj => ?_)) <;>
    obtain ⟨hmin, h16⟩ := limits g.1 (List.fst_mem_of_mem_zipIdx hg) <;> omega

/-- The shares of a spanning launch: the dies of its replicas in order. -/
def sharesOf (reps : List Replica) : List Nat := [0, 1, 2, 3].filter fun d => reps.any fun r => r.die == d

theorem sharesOf_sorted (reps : List Replica) : (sharesOf reps).Pairwise (· < ·) := .filter _ (by decide)

theorem mem_sharesOf {reps : List Replica} {d : Nat} : d ∈ sharesOf reps ↔ d < 4 ∧ ∃ r ∈ reps, r.die = d := by
  have dies : d ∈ [0, 1, 2, 3] ↔ d < 4 := by simp; omega
  exact List.mem_filter.trans (and_congr dies (by simp))

/-- What a launch becomes as it takes its slot with replicas. -/
def Launch.slotted (l : Launch) (spanning : Bool) (shares : List Nat) (reps : List Replica) : Launch :=
  { l with at_ := .slot, front := false, spanning := spanning, shares := shares, reps := reps }

section
variable (found : s.launches.find? (fun m => m.id == l.id) = some l)
include found

/-- A launch that takes its slot is found there, and its first share is due. -/
theorem State.slotted_find {f : Launch → Launch} (die : Nat) (hf : ∀ m, (f m).id = m.id) :
    let t := ((s.modLaunch l.id f).laterOnce (.shareReserve l.id)).wakeQueues die
    t.launches.find? (fun m => m.id == l.id) = some (f l) ∧ .shareReserve l.id ∈ t.agenda := by
  refine ⟨?_, State.Queues.wakeQueues.mem_agenda (State.mem_agenda_laterOnce ..)⟩
  rw [State.Queues.wakeQueues.launches, State.Queues.laterOnce.launches]
  exact State.find_modLaunch hf found

variable (live : s.chainCancelled l.part l.til l.record = false)
include live

theorem State.dispatch_local (h : l.isLocal = true) :
    (s.dispatch l).launches.find? (fun m => m.id == l.id) = some (l.slotted false [l.queue / 2 ^ 15] l.localReplicas) ∧
      .shareReserve l.id ∈ (s.dispatch l).agenda := by
  unfold State.dispatch
  dsimp only
  rw [live, if_neg Bool.false_ne_true, if_pos h]
  exact State.slotted_find found _ fun _ => rfl

theorem State.dispatch_spanning (h : l.isLocal = false) : ∃ reps, (∀ r ∈ reps, r.cid = none ∧ r.sent = false) ∧
    (s.dispatch l).launches.find? (fun m => m.id == l.id) = some (l.slotted true (sharesOf reps) reps) ∧
      .shareReserve l.id ∈ (s.dispatch l).agenda := by
  unfold State.dispatch
  dsimp only
  rw [live, if_neg Bool.false_ne_true, if_neg (by rw [h]; exact Bool.false_ne_true)]
  refine ⟨_, fun r hr => ?_, State.slotted_find found _ fun _ => rfl⟩
  obtain ⟨p, -, rfl⟩ := List.mem_map.mp hr
  exact ⟨rfl, rfl⟩

end

end Sys2Proof.Machine
end

section
/-! SUPPORT. What a cancel makes of the launches that it meets (R113). -/

namespace Sys2Proof.Machine

variable {s t u : State} {l : Launch}

/-! ### Cancel notices -/

/-- A cancel meets a launch, if it is held still. -/
def State.meetCancel (s : State) (l : Launch) : State :=
  match s.launches.find? (fun m => m.id == l.id) with
  | none => s
  | some l => s.cancelLaunch l

theorem State.meetCancel_one (s : State) (l : Launch) : CancelOne l s (s.meetCancel l) := by
  unfold CancelOne State.meetCancel
  refine ⟨fun gone => by rw [gone], fun m held => ?_⟩
  rw [held]
  dsimp only [State.cancelLaunch]
  refine ⟨fun away => by rw [away], fun o reached => ?_⟩
  rw [reached]
  dsimp only
  refine ⟨fun complete ended => ?_, fun complete going => ?_, fun incomplete => ?_⟩
  · rw [complete]
    exact if_pos ended
  · rw [complete]
    exact if_neg (by rw [going]; exact Bool.false_ne_true)
  · cases phase : m.at_ with
    | complete => exact absurd phase incomplete
    | _ => rfl

theorem State.meetCancel_all (s : State) (ls : List Launch) : CancelAll ls s (ls.foldl State.meetCancel s) := by
  induction ls generalizing s with
  | nil => rfl
  | cons l r ih => exact ⟨s.meetCancel l, s.meetCancel_one l, ih _⟩

/-! ### What a launch that leaves gives back -/

theorem State.dropGrants_spad (s : State) (id : Nat) (f : Use → Bool) (n : Nat) :
    ((s.dropGrants id f).til n).spad = (s.til n).spad.filter fun g => !(g.launch == id && f g.use) := by
  unfold State.dropGrants State.til
  dsimp only
  rw [tget_map]
  · cases tget s.tils n <;> rfl
  · exact fun _ => rfl

/-- What is released is released at once, and then device steps are queued. -/
theorem State.releaseShares_queues (s : State) (id : Nat) :
    ((s.modLaunch id (fun l => { l with reps := [], shares := [], chans := [], blocks := [] })).dropGrants id
      (fun _ => true)).Queues (s.releaseShares id) :=
  .trans .retryShares (.foldl fun _ _ => .freed)

theorem State.dropLaunch_launches (s : State) (l : Launch) : ∀ m ∈ (s.dropLaunch l).launches, m.id ≠ l.id := by
  unfold State.dropLaunch
  dsimp only
  rw [State.Queues.wakeQueues.launches]
  exact fun m hm => of_decide_eq_true (List.mem_filter.mp hm).2

theorem State.dropLaunch_spad (s : State) (l : Launch) (n : Nat) : ∀ g ∈ ((s.dropLaunch l).til n).spad, g.launch ≠ l.id := by
  have til : (s.dropLaunch l).til n = (s.releaseShares l.id).til n := State.Queues.wakeQueues.til n
  rw [til, (s.releaseShares_queues l.id).til, State.dropGrants_spad]
  exact fun g hg => by simpa using (List.mem_filter.mp hg).2

/-! ### Level objects after a write (R100, R102) -/

section
variable {part o off n x : Nat} (h : s.memOk)
include h

theorem State.lvPut_memOk : (s.lvPut part o off n x).memOk :=
  memOk_of_mem (s.lvPut_notifies part o off n x).mem (State.wr_memOk _ _ _ h)

theorem State.rd_lvPut : (s.lvPut part o off n x).rd (o + off) n = x % 256 ^ n :=
  (State.rd_congr _ _ fun e _ _ => (s.lvPut_notifies part o off n x).byteAt e).trans (State.rd_wr _ _ _ h)

theorem State.rd_lvPut_apart {b m : Nat} (apart : b + m ≤ o + off ∨ o + off + n ≤ b) :
    (s.lvPut part o off n x).rd b m = s.rd b m :=
  (State.rd_congr _ _ fun e _ _ => (s.lvPut_notifies part o off n x).byteAt e).trans (State.rd_wr_apart _ _ _ _ _ h apart)

/-- Setting flags changes no other field of the object. -/
theorem State.rd_lvOr_apart {fl b m : Nat} (apart : b + m ≤ o + 26 ∨ o + 27 ≤ b) : (s.lvOr part o fl).rd b m = s.rd b m := by
  unfold State.lvOr
  split
  · rfl
  · exact State.rd_lvPut_apart h apart

theorem State.lvOr_memOk {fl : Nat} : (s.lvOr part o fl).memOk := by
  unfold State.lvOr
  split
  · exact h
  · exact State.lvPut_memOk h

theorem State.lvFlags_lvOr {fl : Nat} (small : fl < 256) : (s.lvOr part o fl).lvFlags o = s.lvFlags o ||| fl := by
  have byte : s.lvFlags o < 2 ^ 8 := by
    show (s.byteAt (o + 26)).toNat + 256 * 0 < 2 ^ 8
    exact (s.byteAt (o + 26)).isLt
  unfold State.lvOr
  split
  next set => exact set.symm
  next => exact (State.rd_lvPut h).trans (Nat.mod_eq_of_lt (Nat.or_lt_two_pow byte small))

theorem State.lvCancelled_lvOr : (s.lvOr part o 1).lvCancelled o = true := by
  unfold State.lvCancelled
  rw [State.lvFlags_lvOr h (by decide)]
  simp [fld]

/-- An object without a parent that completes changes alone. -/
theorem State.lvComplete_root {til f : Nat} (root : s.lvParent o = 0) : s.lvComplete part til (f + 1) o =
    s.lvPut part o 25 1 (if s.lvState o = 5 then 5 else if s.lvCancelled o then 4 else 3) := by
  unfold State.lvComplete
  exact if_pos ((State.rd_lvPut_apart h (.inl (by omega))).trans root)

end

theorem State.freeStorage_aside : s.Aside (s.freeStorage l) := by
  unfold State.freeStorage
  extract_lets t
  have returned : s.Aside ((t.dropGrants l.id Use.isChannel).dropRings l.part (l.chans.map (·.loc))) := ⟨rfl, rfl, rfl⟩
  exact returned.trans (.trans State.Queues.retryShares.aside ⟨rfl, rfl, rfl⟩)

/-- What follows a change of level objects changes none. -/
theorem State.levelsMoved_aside : s.Aside s.levelsMoved :=
  .trans (.foldl fun _ _ => .laterOnce) (.foldl fun _ _ => State.freeStorage_aside)

/-- A launch object without a parent that has not ended ends CANCELLED. -/
theorem State.cancelObj_state {part til o : Nat} (h : s.memOk) (going : s.lvTerminal o = false) (root : s.lvParent o = 0) :
    (s.cancelObj part til o).lvState o = 4 := by
  obtain ⟨f, fuel⟩ : ∃ f, maxObjects = f + 1 := ⟨2 ^ 34 - 1, rfl⟩
  have state : (s.lvOr part o 1).lvState o ≠ 5 := by
    rw [State.lvState, State.rd_lvOr_apart h (.inl (by omega))]
    intro rejected
    rw [State.lvTerminal, State.lvState, rejected] at going
    exact Bool.false_ne_true going.symm
  have parent : (s.lvOr part o 1).lvParent o = 0 := (State.rd_lvOr_apart h (.inl (by omega))).trans root
  have ended : (s.cancelObj part til o) = ((s.lvOr part o 1).lvPut part o 25 1 4).levelsMoved := by
    rw [State.cancelObj, if_neg (by rw [going]; exact Bool.false_ne_true), fuel,
      State.lvComplete_root (State.lvOr_memOk h) parent, if_neg state, if_pos (State.lvCancelled_lvOr h)]
  rw [ended]
  exact (State.rd_congr _ _ fun e _ _ => State.levelsMoved_aside.byteAt e).trans (State.rd_lvPut (State.lvOr_memOk h))

end Sys2Proof.Machine
end

section
/-! SUPPORT. The steps of a distributor (R94, R95, R105, R107 to R110, R112 to R114). -/

namespace Sys2Proof.Machine

/-- Settles O55: each step of a distributor passes its checks, and what it sends and writes leaves the rest. -/
theorem distributorSteps : Obligations.DistributorSteps := by
  intro s t q p e pa die ent l
  refine ⟨?entry, fun found => ⟨fun pool met live => ?ready, fun rest slot shares => ⟨fun spanning short young => ?withheld,
    fun may => ⟨fun take => ?wait, fun take => ⟨fun cancelled => ?cancelled, fun live => ?taken⟩⟩⟩⟩, ?attempt, s.head_spec,
    fun found live limits => ?dispatch, fun found => ⟨⟨_, State.completeLaunch_find found, rfl, rfl⟩, State.completeLaunch_mail found⟩,
    fun r g => Launch.spawnBlock_fields, ⟨_, rfl, s.meetCancel_all _⟩, ⟨s.dropLaunch_launches l, s.dropLaunch_spad l⟩,
    State.cancelObj_state, State.killReplicas_mail⟩
  case entry =>
    intro d moved owner mode part good held fits room mapped clean entry
    have take := State.takeEntry_eq owner mode part good held fits room mapped clean entry (moved := moved) rfl
    refine ⟨fun discarded => congrArg _ (take.trans ?_), fun bs o found => congrArg _ (take.trans ?_)⟩
    · rw [discarded, Option.elim_none]
    · rw [found, Option.elim_some]
  case ready => exact congrArg _ (State.makeReady_eq found pool met live)
  case withheld => exact congrArg _ (State.reserveShare_withheld found slot shares spanning short young)
  case wait => exact congrArg _ (State.reserveShare_none found slot shares may take)
  case cancelled =>
    exact congrArg _ ((State.reserveShare_some found slot shares may take).trans (if_pos cancelled))
  case taken =>
    exact congrArg _ ((State.reserveShare_some found slot shares may take).trans (if_neg (by rw [live]; exact Bool.false_ne_true)))
  case attempt =>
    intro u ls banks drawn heads good v
    exact ⟨fun l hl aged first => congrArg _ (State.attempt_aged hl aged first), fun young =>
      ⟨fun barred => congrArg _ (State.attempt_none young barred), fun l hl first => congrArg _ (State.attempt_head young hl first)⟩⟩
  case dispatch =>
    cases kind : l.isLocal with
    | true =>
      obtain ⟨slotted, due⟩ := State.dispatch_local found live kind
      exact ⟨_, slotted, rfl, rfl, rfl, due, fun r hr => (l.localReplicas_unplaced hr).1, fun _ => ⟨rfl, rfl,
        fun r hr => (l.localReplicas_unplaced hr).2, l.localReplicas_order limits⟩, nofun⟩
    | false =>
      obtain ⟨reps, unplaced, slotted, due⟩ := State.dispatch_spanning found live kind
      exact ⟨_, slotted, rfl, rfl, rfl, due, unplaced, nofun, fun _ => ⟨rfl, sharesOf_sorted reps, fun d => mem_sharesOf⟩⟩

end Sys2Proof.Machine
end

section
/-! SUPPORT. QTRY, QPEEK, QAWN and QEND (R156, R159, R160). -/

namespace Sys2Proof.Machine

/-! ### Looking at the head of an end (R159) -/

/-- What QTRY and QPEEK write of a data element (R156). -/
def Ctx.setData (a d : BitVec 5) (v : VReg) (x : Ctx) : Ctx :=
  if a.toNat ≤ 7 then x.setS d.toNat (v.extractLsb' 0 64) else x.setV d.toNat v

theorem Ctx.setS_bind (x : Ctx) (n : Nat) (w : Word) : (x.setS n w).bind = x.bind := by
  unfold Ctx.setS
  split <;> rfl

theorem Ctx.setData_bind (a d : BitVec 5) (v : VReg) (x : Ctx) : (x.setData a d v).bind = x.bind := by
  unfold Ctx.setData
  split
  · exact Ctx.setS_bind x _ _
  · rfl

section
variable {a d b : BitVec 5} {s t : State} {v : VReg}

theorem wrData_plain (h : s.me.endOf (dataFld a d) = none) : wrData a d v s = .ok ((), s.modMe (fun x => x.setData a d v)) := by
  unfold wrData Ctx.setData
  unfold dataFld at h
  split <;> rename_i hd
  · rw [if_pos hd] at h
    exact wrS_plain h
  · rw [if_neg hd] at h
    exact wrV_plain h

/-- The status and the flags, behind what has been written before them. -/
theorem status_ok {f : Ctx → Ctx} (st : Word) (af ef : Bool) (hf : (f t.me).bind = t.me.bind)
    (h : t.me.endOf (.s b.toNat) = none) : (wrS b st >>= fun _ => setEmpty af ef) (t.modMe f) =
      .ok ((), t.modMe (fun x => { ((f x).setS b.toNat st) with af := af, ef := ef })) := by
  have hb : (t.modMe f).me.endOf (.s b.toNat) = none := by rwa [State.me_modMe, Ctx.endOf_congr hf]
  rw [op_bind, wrS_plain hb, except_bind_ok, State.modMe_modMe]
  exact congrArg (fun u => Except.ok ((), u)) (State.modMe_modMe t _ _)

/-- The same with nothing written before them. -/
theorem status_alone (st : Word) (af ef : Bool) (h : t.me.endOf (.s b.toNat) = none) :
    (wrS b st >>= fun _ => setEmpty af ef) t = .ok ((), t.modMe (fun x => { (x.setS b.toNat st) with af := af, ef := ef })) := by
  rw [op_bind, wrS_plain h, except_bind_ok]
  exact congrArg (fun u => Except.ok ((), u)) (State.modMe_modMe t (fun x => x.setS b.toNat st) fun x => { x with af := af, ef := ef })

end

/-- What comes of the head that an end has: the part of QTRY and QPEEK behind the checks of their ends. -/
def atHead (take : Bool) (d a b : BitVec 5) : Head → Op Unit
  | .over => if take then raise Cause.bounds else (do
      wrS b (BitVec.allOnes 64)
      setEmpty false true)
  | .empty => do
      wrS b (BitVec.allOnes 64)
      setEmpty false true
  | .elem y =>
    if y.awn then do
      if take then let _ ← deq a.toNat
      wrS b (awnStatus a.toNat y)
      setEmpty true false
    else do
      if take then let _ ← deq a.toNat
      wrData a d y.data
      wrS b 0
      setEmpty false false

section
variable {i : Instr} {a d b : BitVec 5} {s : State} {take : Bool} {y : Elem}

/-- Outside an attempt, where neither field names an end, the head decides. -/
theorem tryHead_eq (ht : s.me.tx.active = false) (hb : s.me.getBind a.toNat ≠ 0) (hr : readEnd (s.me.getBind a.toNat) = true)
    (hd : s.me.endOf (dataFld a d) = none) (hst : s.me.endOf (.s b.toNat) = none) (hi : i.writes = [dataFld a d, .s b.toNat]) :
    tryHead i take d a b s = thenNext (atHead take d a b (s.endHead s.cur a.toNat 0)) s := by
  have ends : i.writes.filterMap s.me.endOf = [] := filterMap_endOf_nil (by simp [hi, hd, hst])
  simp only [tryHead, thenNext, boundEnd, op_bind, op_ask, op_pure, except_bind_ok, if_neg hb, hr, Bool.not_true, Bool.false_eq_true,
    if_false, ht, ends, List.map_nil, examine_nil, Ctx.deqs_outside ht]
  rfl

variable {st : Word}

theorem atHead_empty (h : s.me.endOf (.s b.toNat) = none) : atHead take d a b .empty s =
    .ok ((), s.modMe (fun x => { (x.setS b.toNat (BitVec.allOnes 64)) with af := false, ef := true })) :=
  status_alone _ _ _ h

theorem atHead_peek_over (h : s.me.endOf (.s b.toNat) = none) : atHead false d a b .over s =
    .ok ((), s.modMe (fun x => { (x.setS b.toNat (BitVec.allOnes 64)) with af := false, ef := true })) :=
  status_alone _ _ _ h

theorem atHead_peek_awn (h : s.me.endOf (.s b.toNat) = none) (hy : y.awn = true) : atHead false d a b (.elem y) s =
    .ok ((), s.modMe (fun x => { (x.setS b.toNat (awnStatus a.toNat y)) with af := true, ef := false })) := by
  rw [atHead, if_pos hy]
  exact status_alone _ _ _ h

theorem atHead_peek_data (hd : s.me.endOf (dataFld a d) = none) (h : s.me.endOf (.s b.toNat) = none) (hy : y.awn = false) :
    atHead false d a b (.elem y) s =
      .ok ((), s.modMe (fun x => { ((x.setData a d y.data).setS b.toNat 0) with af := false, ef := false })) := by
  rw [atHead, if_neg (by simp [hy])]
  show (wrData a d y.data >>= fun _ => wrS b 0 >>= fun _ => setEmpty false false) s = _
  rw [op_bind, wrData_plain hd]
  exact status_ok _ _ _ (Ctx.setData_bind ..) h

/-- QTRY of an element is QPEEK of it from the state without it. -/
theorem atHead_try {u : State} {v : VReg} (hx : deq a.toNat s = .ok (v, u)) :
    atHead true d a b (.elem y) s = atHead false d a b (.elem y) u := by
  by_cases hy : y.awn = true
  · rw [atHead, atHead, if_pos hy, if_pos hy]
    exact bind_ok hx
  · rw [atHead, atHead, if_neg hy, if_neg hy]
    exact bind_ok hx

end

/-! ### Enqueues of awns (R160) -/

section
variable {i : Instr} {a d : BitVec 5} {s u : State} {level : Nat}

/-- Outside an attempt an awn goes into a write end with room, with the low bits of a register as its code. -/
theorem putAwn_ok (ht : s.me.tx.active = false) (hb : s.me.getBind d.toNat ≠ 0) (hr : readEnd (s.me.getBind d.toNat) = false)
    (ha : s.me.endOf (.s a.toNat) = none) (hi : i.reads = [.s a.toNat])
    (he : examine [] [(d.toNat, awnElem level 0)] s = .ok ((), s))
    (hp : s.endPut s.cur d.toNat (awnElem level ((s.me.getS a.toNat).extractLsb' 0 32)) = .done u) :
    putAwn i d a level s = .ok (.next, u) := by
  have ends : i.reads.filterMap s.me.endOf = [] := filterMap_endOf_nil (by simp [hi, ha])
  refine thenNext_ok ?_
  simp only [boundEnd, op_bind, op_ask, op_pure, except_bind_ok, if_neg hb, hr, Bool.false_eq_true, if_false, ends, he, rdS_plain ha,
    enq_outside ht hp]

end

/-! ### The statement -/

/-- Settles O29: behind the checks of its ends an instruction at them does what the head that it finds, or the room, calls for. -/
theorem endTransfers : Obligations.EndTransfers := by
  unfold Obligations.EndTransfers
  refine ⟨?heads, ?awns⟩
  case heads =>
    intro d a b s ht hb hr hd hst done data taken
    have peek {f : Ctx → Ctx} (h : atHead false d a b (s.endHead s.cur a.toNat 0) s = .ok ((), s.modMe f))
        (hrow : rowCheck (.qpeek d a b) s = .ok ((), s)) : exec (.qpeek d a b) s = .next (s.modMe f).past :=
      performRaw_ok hrow ((tryHead_eq ht hb hr hd hst rfl).trans (thenNext_ok h))
    have try_ {t : State} (h : atHead true d a b (s.endHead s.cur a.toNat 0) s = .ok ((), t))
        (hrow : rowCheck (.qtry d a b) s = .ok ((), s)) : exec (.qtry d a b) s = .next t.past :=
      performRaw_ok hrow ((tryHead_eq ht hb hr hd hst rfl).trans (thenNext_ok h))
    refine ⟨fun y hy hawn => ⟨peek ?_, fun hrow hbind _ => try_ ?_ hrow⟩, fun y hy hawn => ⟨peek ?_, fun hrow hbind _ => try_ ?_ hrow⟩,
      fun hy => ⟨peek ?_, try_ ?_⟩, fun hy => ⟨peek ?_, fun hrow => ?_⟩⟩
    · rw [hy]
      exact atHead_peek_data hd hst hawn
    · rw [hy, atHead_try (deq_outside ht hy)]
      exact atHead_peek_data (by rwa [Ctx.endOf_congr hbind]) (by rwa [Ctx.endOf_congr hbind]) hawn
    · rw [hy]
      exact atHead_peek_awn hst hawn
    · rw [hy, atHead_try (deq_outside ht hy)]
      exact atHead_peek_awn (by rwa [Ctx.endOf_congr hbind]) hawn
    · rw [hy]
      exact atHead_empty hst
    · rw [hy]
      exact atHead_empty hst
    · rw [hy]
      exact atHead_peek_over hst
    · refine performRaw_trap hrow ht ((tryHead_eq ht hb hr hd hst rfl).trans (thenNext_error ?_))
      rw [hy]
      rfl
  case awns =>
    rintro d a b s u x hb hr ht ha rfl
    exact ⟨fun hrow he hp => performRaw_ok hrow (putAwn_ok ht hb hr ha rfl he hp),
      fun hrow he hp => performRaw_ok hrow (putAwn_ok ht hb hr ha rfl he hp)⟩

end Sys2Proof.Machine
end

section
/-! SUPPORT. QLEN, RCUR, RRES and RPUB (R143, R154, R161 to R163). -/

namespace Sys2Proof.Machine

/-! ### The hidden state of a ring, read back -/

theorem State.ringX_ring (s : State) (r : Nat) : (s.ringX r).ring = r := by
  unfold State.ringX
  cases h : s.rings.find? (fun x => x.ring == r) with
  | none => rfl
  | some x => exact eq_of_beq (List.find?_some h :)

theorem State.ringX_setRing (s : State) (x : Ring) : (s.setRing x).ringX x.ring = x := by
  unfold State.setRing State.ringX
  have mapped (l : List Ring) : (l.map (fun y => if y.ring = x.ring then x else y)).find? (fun y => y.ring == x.ring) =
      if l.any (fun y => y.ring == x.ring) then some x else none := by
    induction l with
    | nil => rfl
    | cons y l ih => by_cases h : y.ring = x.ring <;> simp [h, ih]
  by_cases h : s.rings.any (fun y => y.ring == x.ring)
  · simp only [h, if_true]
    rw [mapped, if_pos h]
    rfl
  · have none : s.rings.find? (fun y => y.ring == x.ring) = none := by simpa using h
    simp [h, List.find?_append, none]

/-- The record of a ring is what has been set of it last. -/
theorem State.ringX_setRing_of {s : State} {x : Ring} {r : Nat} (h : x.ring = r) : (s.setRing x).ringX r = x := by
  subst h
  exact s.ringX_setRing x

/-! ### Instructions at ends that name none in a field -/

section
variable {i : Instr} {a : BitVec 5} {s r t : State}

theorem boundEnd_ok (h : s.me.getBind a.toNat ≠ 0) : boundEnd a s = .ok (s.me.getBind a.toNat, s) := by
  simp only [boundEnd, op_bind, op_ask, except_bind_ok, if_neg h, op_pure]

/-- An instruction that is ready completes past the effect that it has. -/
theorem perform_next {m : Op Unit} (h : Ready i s r) (hm : m r = .ok ((), t)) : perform i (thenNext m) s = .next t.past :=
  perform_ok h (thenNext_ok hm)

/-- One that is ready stops where its effect does. -/
theorem perform_stop {m : Op Unit} {e : Stop} (h : Ready i s r) (hm : m r = .error e) :
    perform i (thenNext m) s = .next (s.onStop (wordOf i) e) :=
  perform_error h (thenNext_error hm)

end

theorem ne_zero_of_bindKind {w : Word} {k : Nat} (h : bindKind w = k + 1) : w ≠ 0 := by
  rintro rfl
  exact absurd h (by simp [bindKind])

/-! ### QLEN and RCUR (R161, R163) -/

section
variable {d a b : BitVec 5} {s r t u v : State} {n : Word}

/-- Outside an attempt the count is the end's. -/
theorem State.countAfter_outside {c e : Nat} (h : (s.ctx c).tx.active = false) : s.countAfter c e = s.endCount c e := by
  simp [State.countAfter, h, State.runOps]

theorem exec_qlen (hr : Ready (.qlen d a) s r) (hb : r.me.getBind a.toNat ≠ 0) (ht : r.me.tx.active = false)
    (hw : Writes d (r.polled r.cur a.toNat) (BitVec.ofNat 64 (r.endCount r.cur a.toNat)) u) : exec (.qlen d a) s = .next u.past := by
  refine perform_next hr ?_
  rw [bind_ok (boundEnd_ok hb), bind_ok (op_ask _ r)]
  simp only [ht, Bool.false_eq_true, if_false]
  rw [bind_ok (op_ask _ r), bind_ok (op_upd _ r), State.countAfter_outside (s := r) ht]
  exact hw

/-- Outside an attempt RCUR.get gives the count behind the end's last element or number. -/
theorem exec_rcurGet (hr : Ready (.rcurGet d a) s r) (ht : r.me.tx.active = false) (hk : bindKind (r.me.getBind a.toNat) = 1)
    (hp : bindWr (r.me.getBind a.toNat) = true → bindPort (r.me.getBind a.toNat) = 0) {k : Nat}
    (hn : k = if bindWr (r.me.getBind a.toNat) then r.rRseq (bindLoc r.cur (r.me.getBind a.toNat))
      else r.rCur (bindLoc r.cur (r.me.getBind a.toNat)) (bindPort (r.me.getBind a.toNat)))
    (hw : Writes d r (BitVec.ofNat 64 (k % 2 ^ 32)) u) : exec (.rcurGet d a) s = .next u.past := by
  have legal : ¬ (bindKind (r.me.getBind a.toNat) ≠ 1 ∨
      (bindWr (r.me.getBind a.toNat) ∧ bindPort (r.me.getBind a.toNat) = 1)) := by
    rintro (h | ⟨h, h'⟩)
    · exact h hk
    · rw [hp h] at h'
      exact absurd h' (by decide)
  refine perform_next hr ?_
  rw [bind_ok (boundEnd_ok (ne_zero_of_bindKind hk)), bind_ok (op_get r)]
  simp only [if_neg legal, ht, Bool.false_eq_true, if_false, Ctx.enqs_outside ht, Ctx.deqs_outside ht, List.filter_nil, List.length_nil,
    Nat.add_zero, ← hn]
  exact hw

theorem exec_rcurSkip (hr : Ready (.rcurSkip d a b) s r) (hn : Reads b r n t) (hb : r.me.getBind a.toNat ≠ 0)
    (ht : t.me.tx.active = false) (hk : bindKind (r.me.getBind a.toNat) = 1) (hwr : bindWr (r.me.getBind a.toNat) = false) {k : Nat}
    (hs : k = t.skippable (bindLoc t.cur (r.me.getBind a.toNat)) (bindPort (r.me.getBind a.toNat))
      (Nat.min n.toNat (t.rDepth (bindLoc t.cur (r.me.getBind a.toNat)))) 0)
    (hd : ((List.replicate k ()).forM (fun _ => (do let _ ← deq a.toNat : Op Unit)) : Op Unit) t = .ok ((), u))
    (hw : Writes d u (BitVec.ofNat 64 k) v) : exec (.rcurSkip d a b) s = .next v.past := by
  refine perform_next hr ?_
  rw [bind_ok (boundEnd_ok hb), bind_ok hn, bind_ok (op_get t)]
  simp only [hk, hwr, ne_eq, not_true_eq_false, Bool.false_eq_true, or_self, if_false, ht, Ctx.deqs_outside ht, ← hs]
  rw [bind_ok hd]
  exact hw

end

/-! ### Where numbers are reserved (R162) -/

section
variable {t : State} {e : Nat}

theorem State.reserveRing_other {c : Nat} (h : bindKind ((t.ctx c).getBind e) ≠ 1 ∨ bindWr ((t.ctx c).getBind e) = false) :
    t.reserveRing c e = none :=
  if_pos (h.imp_right (by simp [·]))

section
variable {c : Nat} (hk : bindKind ((t.ctx c).getBind e) = 1) (hw : bindWr ((t.ctx c).getBind e) = true)
include hk hw

theorem State.reserveRing_own (hp : bindPort ((t.ctx c).getBind e) = 0) :
    t.reserveRing c e = some (bindLoc c ((t.ctx c).getBind e)) := by
  simp [State.reserveRing, hk, hw, hp]

theorem State.reserveRing_deal (hp : bindPort ((t.ctx c).getBind e) ≠ 0)
    (hd : t.pDeal (bindLoc c ((t.ctx c).getBind e)) = true) : t.reserveRing c e = none := by
  simp [State.reserveRing, hk, hw, hp, hd]

end

/-- Outside XORD rings a reservation is noted, and no more. -/
theorem State.ringX_reserve {c ring seq k : Nat} (h : t.rXord ring = false) : (t.reserve c e ring seq k).ringX ring =
    { t.ringX ring with resv := (t.ringX ring).resv ++ (List.range k).map (fun j => (c, e, (seq + j) % 2 ^ 32)) } := by
  simp only [State.reserve, h, Bool.false_eq_true, false_and, if_false, List.map_map]
  exact State.ringX_setRing_of (t.ringX_ring ring)

end

/-! ### RRES (R162) -/

section
variable {d a b : BitVec 5} {i : BitVec 1} {s r t u : State} {n : Word} {ring : Nat}

theorem exec_rres_illegal (hr : Ready (.rres d a b i) s r) (hb : r.me.getBind a.toNat ≠ 0)
    (hn : r.reserveRing r.cur a.toNat = none) :
    exec (.rres d a b i) s = .next (s.onStop (wordOf (.rres d a b i)) (.trap Cause.illegal 0 0)) := by
  refine perform_stop hr ?_
  rw [bind_ok (boundEnd_ok hb), bind_ok (op_ask _ r), hn]
  rfl

/-- The numbers that a ring has in all: the size of one of another module is that module's (log 54). -/
def State.numbers (q : State) (ring : Nat) : Nat := if isXring ring then Config.peerCap ring else q.rDepth ring + q.rXsize ring

/-- No end can be given so many numbers of a ring at once (R162). -/
def State.Excessive (q : State) (ring : Nat) (n : Word) : Prop := n = 0 ∨ 64 < n.toNat ∨ q.numbers ring < n.toNat

theorem State.excessive_iff {q : State} : q.Excessive ring n ↔ n.toNat = 0 ∨ 64 < n.toNat ∨ q.numbers ring < n.toNat := by
  rw [State.Excessive, field_eq_zero_iff]

theorem State.not_excessive {q : State} (h : 1 ≤ n.toNat) (h64 : n.toNat ≤ 64) (hq : n.toNat ≤ q.numbers ring) :
    ¬ q.Excessive ring n := by
  rw [State.excessive_iff]
  omega

section
variable (hr : Ready (.rres d a b i) s r) (hb : r.me.getBind a.toNat ≠ 0) (hring : r.reserveRing r.cur a.toNat = some ring)
  (hn : ReadsB i b r n t)
include hr hb hring hn

theorem exec_rres_excessive (he : (t.adopt ring).Excessive ring n) (hw : Writes d (t.adopt ring) (failCode 1) u) :
    exec (.rres d a b i) s = .next u.past := by
  refine perform_next hr ?_
  rw [bind_ok (boundEnd_ok hb), bind_ok (op_ask _ r), hring]
  show (rdB i b >>= _) r = _
  rw [bind_ok hn, bind_ok (op_upd _ t), bind_ok (op_get _)]
  exact (congrFun (if_pos he) _).trans hw

variable (hx : isXring ring = false) (he : ¬ (t.adopt ring).Excessive ring n)
include hx he

/-- A ring whose block is rejected has none to give (R4, log 27). -/
theorem exec_rres_rejected (hg : ((t.adopt ring).ringX ring).geo = none) : exec (.rres d a b i) s =
    .next (s.onStop (wordOf (.rres d a b i)) (.sleep 3 [(t.adopt ring).waitKey a.toNat] [a.toNat])) := by
  refine perform_stop hr ?_
  rw [bind_ok (boundEnd_ok hb), bind_ok (op_ask _ r), hring]
  show (rdB i b >>= _) r = _
  rw [bind_ok hn, bind_ok (op_upd _ t), bind_ok (op_get _)]
  refine (congrFun (if_neg he) _).trans ?_
  simp only [hx, Bool.false_eq_true, if_false, hg, Option.isNone_none, true_or, if_true, op_stop]

/-- One with room for all of them, that would accept them as it stands, gives its next ones (R143, R162). -/
theorem exec_rres_given {y : State} (hy : y = (t.adopt ring).useCredits (t.adopt ring).cur a.toNat ring n.toNat)
    (hg : ((t.adopt ring).ringX ring).geo ≠ none) (hk : (t.adopt ring).tokenBlocks (t.adopt ring).cur a.toNat = false)
    (hf : (n.toNat : Int) ≤ y.rFree ring) (ha : y.xordAccepts ring (t.adopt ring).me.group n.toNat = true)
    (hw : Writes d ((y.reserve (t.adopt ring).cur a.toNat ring ((t.adopt ring).rRseq ring) n.toNat).rPut ring 12
      ((t.adopt ring).rRseq ring + n.toNat)) (BitVec.ofNat 64 ((t.adopt ring).rRseq ring)) u) :
    exec (.rres d a b i) s = .next u.past := by
  subst hy
  have geo : ((t.adopt ring).ringX ring).geo.isNone = false := Option.isNone_eq_false_iff.mpr (Option.isSome_iff_ne_none.mpr hg)
  refine perform_next hr ?_
  rw [bind_ok (boundEnd_ok hb), bind_ok (op_ask _ r), hring]
  show (rdB i b >>= _) r = _
  rw [bind_ok hn, bind_ok (op_upd _ t), bind_ok (op_get _)]
  refine (congrFun (if_neg he) _).trans ?_
  simp only [hx, Bool.false_eq_true, if_false, geo, hk, State.hasFree, hf, ha, decide_true, Bool.and_self, Bool.not_true, or_self]
  rw [bind_ok (op_upd _ _)]
  exact hw

end
end

/-! ### RPUB (R143, R154, R162) -/

section
variable {d a b : BitVec 5} {w : BitVec 1} {s r t u : State} {q : Word} {x : VReg} {ring : Nat}

/-- The number that RPUB names: the low bits of its operand. -/
theorem toNat_number (q : Word) : (q.extractLsb' 0 32).toNat = q.toNat % 2 ^ 32 := by
  rw [BitVec.extractLsb'_toNat, Nat.shiftRight_zero]

/-- The element that RPUB publishes. -/
def rpubElem (w : BitVec 1) (x : VReg) : Elem :=
  if w = 1 then awnElem (x.extractLsb' 32 3).toNat (x.extractLsb' 0 32) else { awn := false, data := x }

variable (hr : Ready (.rpub d a b w) s r) (hb : r.me.getBind d.toNat ≠ 0) (hd : readEnd (r.me.getBind d.toNat) = false)
  (hx : rdData d a r = .ok (x, t)) (hq : Reads b t q u)
include hr hb hd hx hq

/-- An end that reserves no numbers has none to publish. -/
theorem exec_rpub_none (hn : u.reserveRing u.cur d.toNat = none) :
    exec (.rpub d a b w) s = .next (s.onStop (wordOf (.rpub d a b w)) (.trap Cause.bounds 0 0)) := by
  refine perform_stop hr ?_
  rw [bind_ok (boundEnd_ok hb), if_neg (by simp [hd])]
  show (rdData d a >>= _) r = _
  rw [bind_ok hx, bind_ok hq, bind_ok (op_get u), hn]
  rfl

variable (hring : u.reserveRing u.cur d.toNat = some ring)
include hring

theorem exec_rpub_unreserved (hn : (u.ringX ring).resv.contains (u.cur, d.toNat, q.toNat % 2 ^ 32) = false) :
    exec (.rpub d a b w) s = .next (s.onStop (wordOf (.rpub d a b w)) (.trap Cause.bounds 0 0)) := by
  refine perform_stop hr ?_
  rw [bind_ok (boundEnd_ok hb), if_neg (by simp [hd])]
  show (rdData d a >>= _) r = _
  rw [bind_ok hx, bind_ok hq, bind_ok (op_get u), hring]
  simp only [toNat_number, hn, Bool.not_false, if_true]
  rfl

variable (hn : (u.ringX ring).resv.contains (u.cur, d.toNat, q.toNat % 2 ^ 32) = true)
include hn

/-- A number whose ring would not take its element now waits (R143, R154). -/
theorem exec_rpub_waits (ht : u.takesOwn ring u.me.group = false) : exec (.rpub d a b w) s =
    .next (s.onStop (wordOf (.rpub d a b w)) (.sleep 3 [u.endKey u.cur d.toNat] [d.toNat])) := by
  refine perform_stop hr ?_
  rw [bind_ok (boundEnd_ok hb), if_neg (by simp [hd])]
  show (rdData d a >>= _) r = _
  rw [bind_ok hx, bind_ok hq, bind_ok (op_get u), hring]
  simp only [toNat_number, hn, ht, Bool.not_true, Bool.false_eq_true, if_false, Bool.not_false, if_true]
  rfl

theorem exec_rpub_published (ht : u.takesOwn ring u.me.group = true) : exec (.rpub d a b w) s = .next ((u.setRing
    { u.ringX ring with resv := (u.ringX ring).resv.filter (· ≠ (u.cur, d.toNat, q.toNat % 2 ^ 32)) }).publishOwn u.cur d.toNat ring
      (q.toNat % 2 ^ 32) (rpubElem w x)).past := by
  refine perform_next hr ?_
  rw [bind_ok (boundEnd_ok hb), if_neg (by simp [hd])]
  show (rdData d a >>= _) r = _
  rw [bind_ok hx, bind_ok hq, bind_ok (op_get u), hring]
  simp only [toNat_number, hn, ht, Bool.not_true, Bool.false_eq_true, if_false]
  rfl

end

/-- Settles O30: each instruction checks the end that it names, and then asks its ring. -/
theorem ringNumbers : Obligations.RingNumbers := by
  unfold Obligations.RingNumbers
  refine ⟨?counts, ?reserves, ?publishes⟩
  case counts =>
    intro d a b s r t u v n
    refine ⟨exec_qlen, ?get, ?skip⟩
    · intro hr ht w ring hk
      refine ⟨fun hw h => ?_, fun hw hp h => ?_⟩
      · exact exec_rcurGet hr ht hk (fun h => nomatch hw.symm.trans h) (if_neg (Bool.eq_false_iff.mp hw)).symm h
      · exact exec_rcurGet hr ht hk (fun _ => hp) (if_pos hw).symm h
    · intro hr hn hb ht w k hk hw hd h
      exact exec_rcurSkip hr hn hb ht hk hw rfl hd h
  case reserves =>
    intro d a b i s r t u n ring hr hb
    refine ⟨exec_rres_illegal hr hb, ?taken, fun seq k hx => State.ringX_reserve hx, ?where_⟩
    · intro hring hn q room y
      refine ⟨fun he => ?_, fun hx h1 h64 hq => ?_, fun hx h1 h64 hq hg hk hf ha => ?_⟩
      · exact exec_rres_excessive hr hb hring hn (State.excessive_iff.mpr he)
      · exact exec_rres_rejected hr hb hring hn hx (State.not_excessive h1 h64 hq)
      · exact exec_rres_given hr hb hring hn hx (State.not_excessive h1 h64 hq) rfl hg hk hf ha
    · intro e _ w
      exact ⟨State.reserveRing_other, State.reserveRing_own, State.reserveRing_deal⟩
  case publishes =>
    intro d a b w s r t u q x hr hb hd hx hq seq bounds
    refine ⟨exec_rpub_none hr hb hd hx hq, ?_⟩
    intro ring hring y
    refine ⟨exec_rpub_unreserved hr hb hd hx hq hring, ?_⟩
    intro accepts
    refine ⟨fun hn ha => ?_, fun hn ha => ?_⟩
    · exact exec_rpub_waits hr hb hd hx hq hring hn (Bool.eq_false_iff.mpr fun h => ha (by simpa [State.takesOwn] using h))
    · intro el z
      have takes : u.takesOwn ring u.me.group = true := by
        obtain ⟨ha, hroom⟩ := ha
        simp [State.takesOwn, ha, hroom]
      refine (exec_rpub_published hr hb hd hx hq hring hn takes).trans ?_
      by_cases hx : isXring ring <;> simp only [State.publishOwn, hx, if_true] <;> rfl

end Sys2Proof.Machine
end

section
/-! SUPPORT. What is told of a change: beside contexts and device steps, a change of a key or a write by a device touches of the
tillers the tables of those who watch, and what is staged (R195, R317). -/

namespace Sys2Proof.Machine

/-- A tiller is as it was but for its wake table and what it has staged. -/
def Tiller.Told (x y : Tiller) : Prop := ∃ w a b v, y = { x with wake := w, stageA := a, stageB := b, stageV := v }

namespace Tiller.Told
variable {x y z : Tiller}

theorem refl (x : Tiller) : x.Told x := ⟨x.wake, x.stageA, x.stageB, x.stageV, rfl⟩

theorem trans (h : x.Told y) (h' : y.Told z) : x.Told z := by
  obtain ⟨_, _, _, _, rfl⟩ := h
  obtain ⟨w, a, b, v, rfl⟩ := h'
  exact ⟨w, a, b, v, rfl⟩

section
variable (h : x.Told y)
include h
theorem refs : y.refs = x.refs := by obtain ⟨_, _, _, _, rfl⟩ := h; rfl
theorem merge : y.merge = x.merge := by obtain ⟨_, _, _, _, rfl⟩ := h; rfl
theorem pats : y.pats = x.pats := by obtain ⟨_, _, _, _, rfl⟩ := h; rfl
end
end Tiller.Told

/-- Bytes, rings and the cycle of a result are as they were, and so are the tillers but for who watches and what is staged. -/
structure State.Told (s t : State) : Prop where
  mem : t.mem = s.mem
  unspec : t.unspec = s.unspec
  rings : t.rings = s.rings
  due : t.due = s.due
  til : ∀ n, (s.til n).Told (t.til n)

namespace State.Told
variable {s t u : State}

theorem refl (s : State) : s.Told s := ⟨rfl, rfl, rfl, rfl, fun _ => .refl _⟩

theorem trans (h : s.Told t) (h' : t.Told u) : s.Told u :=
  ⟨h'.mem.trans h.mem, h'.unspec.trans h.unspec, h'.rings.trans h.rings, h'.due.trans h.due, fun n => (h.til n).trans (h'.til n)⟩

theorem ite {c : Prop} [Decidable c] (ht : s.Told t) (hu : s.Told u) : s.Told (if c then t else u) := by
  split <;> assumption

theorem foldl {α : Type} {f : State → α → State} {l : List α} (hf : ∀ (s : State) x, s.Told (f s x)) : s.Told (l.foldl f s) :=
  List.foldlRecOn l f (.refl s) fun _ h x _ => h.trans (hf _ x)

/-- What is no byte, ring or tiller is free. -/
theorem rest (hm : t.mem = s.mem := by rfl) (hu : t.unspec = s.unspec := by rfl) (hr : t.rings = s.rings := by rfl)
    (hd : t.due = s.due := by rfl) (ht : t.tils = s.tils := by rfl) : s.Told t :=
  ⟨hm, hu, hr, hd, fun n => (show t.til n = s.til n by rw [State.til, State.til, ht]) ▸ .refl _⟩

theorem setTil {n : Nat} {x : Tiller} (h : (s.til n).Told x) : s.Told (s.setTil n x) := by
  refine ⟨rfl, rfl, rfl, rfl, fun m => ?_⟩
  by_cases e : m = n
  · rw [e, State.til_setTil]
    exact h
  · rw [State.til_setTil_ne _ _ _ _ e]
    exact .refl _

theorem laterOnce {i : Instr} : s.Told (s.laterOnce i) := .ite (.refl s) .rest
theorem wakeAt {n : Nat} {key : Key} : s.Told (s.wakeAt n key) := .foldl fun _ _ => .laterOnce
theorem markAt {n : Nat} {key : Key} : s.Told (s.markAt n key) := .rest

theorem notify {key : Key} : s.Told (s.notify key) := by
  unfold State.notify
  split
  · exact .trans (.setTil ⟨_, _, _, _, rfl⟩) (.foldl fun _ _ => .ite (.refl _) .laterOnce)
  · exact .trans (.ite (.refl s) .rest) (.foldl fun _ _ => .laterOnce)

theorem changeKey {key : Key} : s.Told (s.changeKey key) := by
  unfold State.changeKey
  split
  · exact .trans (.trans .markAt .wakeAt) .notify
  · exact .notify

theorem unstageLine {n l : Nat} : s.Told (s.unstageLine n l) := by
  unfold State.unstageLine
  dsimp only
  refine .ite ?_ (.refl s)
  split
  · exact .ite (.trans (.setTil ⟨_, _, _, _, rfl⟩) .changeKey) (.setTil ⟨_, _, _, _, rfl⟩)
  · exact .setTil ⟨_, _, _, _, rfl⟩

theorem unstageAt {a n : Nat} : s.Told (s.unstageAt a n) := by
  unfold State.unstageAt
  split
  · exact .refl s
  · exact .foldl fun _ _ => .unstageLine

/-- A write by a device is its bytes, and what is told of them. -/
theorem devWr {a n x : Nat} : (s.wr a n x).Told (s.devWr a n x) := .unstageAt

theorem byteAt (h : s.Told t) (a : Nat) : t.byteAt a = s.byteAt a := by rw [State.byteAt, State.byteAt, h.mem, h.unspec]

theorem rd (h : s.Told t) (a n : Nat) : t.rd a n = s.rd a n := State.rd_congr a n fun e _ _ => h.byteAt e

theorem ringX (h : s.Told t) (r : Nat) : t.ringX r = s.ringX r := by rw [State.ringX, State.ringX, h.rings]

theorem memOk (h : s.Told t) (hs : s.memOk) : t.memOk := memOk_of_mem h.mem hs

end State.Told

end Sys2Proof.Machine
end

section
/-! SUPPORT. What rings and units leave of the ends and registers of every strand (R129 to R136, R142, R145 to R154). -/

namespace Sys2Proof.Machine

/-- A context has the bindings and the registers, scalar and vector, that it had. -/
structure Ctx.KeepsEnds (x y : Ctx) : Prop where
  bind : y.bind = x.bind
  s : y.s = x.s
  v : y.v = x.v

theorem Ctx.KeepsEnds.trans {x y z : Ctx} (h : x.KeepsEnds y) (h' : y.KeepsEnds z) : x.KeepsEnds z :=
  ⟨h'.bind.trans h.bind, h'.s.trans h.s, h'.v.trans h.v⟩

theorem Ctx.Stirred.keepsEnds {x y : Ctx} (h : x.Stirred y) : x.KeepsEnds y := by
  obtain ⟨_, _, rfl, -⟩ := h
  exact ⟨rfl, rfl, rfl⟩

/-- Every context has. -/
def State.KeepsEnds (s₀ s : State) : Prop := ∀ c, (s₀.ctx c).KeepsEnds (s.ctx c)

/-- So it has in what an enqueue gives. -/
def Put.KeepsEnds (s₀ : State) : Put → Prop
  | .done t => s₀.KeepsEnds t
  | _ => True

theorem Put.KeepsEnds.ite {s₀ : State} {c : Prop} [Decidable c] {a b : Put} (ha : a.KeepsEnds s₀) (hb : b.KeepsEnds s₀) :
    (if c then a else b).KeepsEnds s₀ := by
  split <;> assumption

namespace State.KeepsEnds
variable {s₀ s t : State}

theorem refl (s : State) : s.KeepsEnds s := fun _ => ⟨rfl, rfl, rfl⟩

/-- What is not a context is free. -/
theorem rest (h : s₀.KeepsEnds s) (hc : t.ctxs = s.ctxs := by rfl) : s₀.KeepsEnds t := fun c => State.ctx_congr hc ▸ h c

theorem of_calm (h : s₀.KeepsEnds s) (hc : s.Calm t) : s₀.KeepsEnds t := fun c => (h c).trans (hc.ctx c).keepsEnds

theorem modCtx {c : Nat} {f : Ctx → Ctx} (h : s₀.KeepsEnds s) (hf : (s.ctx c).KeepsEnds (f (s.ctx c)) := by exact ⟨rfl, rfl, rfl⟩) :
    s₀.KeepsEnds (s.modCtx c f) := by
  intro e
  by_cases he : e = c
  · subst he
    rw [State.ctx_modCtx]
    exact (h e).trans hf
  · rw [State.ctx_modCtx_ne _ _ _ _ he]
    exact h e

theorem ite {c : Prop} [Decidable c] {a b : State} (ha : s₀.KeepsEnds a) (hb : s₀.KeepsEnds b) : s₀.KeepsEnds (if c then a else b) := by
  split <;> assumption

theorem foldl {α : Type} {f : State → α → State} {l : List α} (hf : ∀ s x, s₀.KeepsEnds s → s₀.KeepsEnds (f s x))
    (h : s₀.KeepsEnds s) : s₀.KeepsEnds (l.foldl f s) :=
  List.foldlRecOn l f h fun _ h x _ => hf _ x h

section
variable (h : s₀.KeepsEnds s)
include h

/-! ### Changes and writes -/

theorem laterOnce {i : Instr} : s₀.KeepsEnds (s.laterOnce i) := .of_calm h .laterOnce
theorem changeKey {key : Key} : s₀.KeepsEnds (s.changeKey key) := .of_calm h .changeKey
theorem changeChan {r : Nat} : s₀.KeepsEnds (s.changeChan r) := changeKey h
theorem setTil {n : Nat} {x : Tiller} : s₀.KeepsEnds (s.setTil n x) := .rest h
theorem modTil {n : Nat} {f : Tiller → Tiller} : s₀.KeepsEnds (s.modTil n f) := .rest h
theorem setRing {x : Ring} : s₀.KeepsEnds (s.setRing x) := .rest h

omit h in
theorem putBytes {a : Nat} {bs : List Byte} (h : s₀.KeepsEnds s) : s₀.KeepsEnds (s.putBytes a bs) := by
  induction bs generalizing s a with
  | nil => exact h
  | cons b r ih => exact ih (.rest h)

theorem wr {a n x : Nat} : s₀.KeepsEnds (s.wr a n x) := putBytes h

theorem scramble {lo hi : Nat} : s₀.KeepsEnds (s.scramble lo hi) := .ite (.rest h) h

theorem withdrawIssue {c : Nat} : s₀.KeepsEnds (s.withdrawIssue c) := by
  rw [State.withdrawIssue_eq]
  exact .ite (.rest (s := s.modCtx c Ctx.unissued) (.modCtx h)) h

theorem restart {c : Nat} {f : Tx → Tx} : s₀.KeepsEnds (s.restart c f) := .of_calm (withdrawIssue (.modCtx h)) .dropToken

theorem unstageLine {n l : Nat} : s₀.KeepsEnds (s.unstageLine n l) := by
  unfold State.unstageLine
  dsimp only
  refine .ite ?_ h
  split
  · exact .ite (changeKey (setTil h)) (setTil h)
  · exact setTil h

theorem freePattern {n e : Nat} : s₀.KeepsEnds (s.freePattern n e) := by
  unfold State.freePattern
  dsimp only
  split
  · exact h
  · exact .ite (modTil h) (changeKey (modTil h))

theorem changeLine {l : Nat} {who : Option Nat} : s₀.KeepsEnds (s.changeLine l who) := by
  unfold State.changeLine
  dsimp only
  split
  · exact unstageLine (.foldl (fun _ _ h => freePattern h) (.of_calm (.of_calm (.of_calm
      (.foldl (fun _ _ h => .ite h (restart h)) h) .markAt) .wakeAt) .notify))
  · split
    · exact .of_calm h .notify
    · exact laterOnce (.of_calm h .notify)

theorem unstageAt {a n : Nat} : s₀.KeepsEnds (s.unstageAt a n) := by
  unfold State.unstageAt
  split
  · exact h
  · exact .foldl (fun _ _ h => unstageLine h) h

theorem devWr {a n x : Nat} : s₀.KeepsEnds (s.devWr a n x) := unstageAt (wr h)

theorem globalStore {a part : Nat} {bs : List Byte} {who : Option Nat} : s₀.KeepsEnds (s.globalStore a part bs who) := by
  have stored : s₀.KeepsEnds (s.store a bs who) := .foldl (fun _ _ h => changeLine h) (.rest (putBytes h))
  exact .ite (.rest stored) stored

/-! ### Rings -/

theorem rPut {r off x : Nat} : s₀.KeepsEnds (s.rPut r off x) := devWr h
theorem holdCursor {r cur : Nat} {on : Bool} : s₀.KeepsEnds (s.holdCursor r cur on) := .ite h (devWr h)

/-- A step that only some states call for. -/
theorem orLater {c : Prop} [Decidable c] {i : Instr} : s₀.KeepsEnds (if c then s else s.laterOnce i) := .ite h (laterOnce h)

theorem adopt {r : Nat} : s₀.KeepsEnds (s.adopt r) := .ite h (.ite (orLater (setRing h)) (scramble (scramble (orLater (setRing h)))))

theorem fillSlot {r k seq : Nat} {x : Elem} {grp : Nat} : s₀.KeepsEnds (s.fillSlot r k seq x grp) := unstageAt (unstageAt (wr (wr h)))

theorem toExt {r seq idx : Nat} {x : Elem} {grp : Option Nat} : s₀.KeepsEnds (s.toExt r seq idx x grp) := by
  unfold State.toExt
  dsimp only
  refine setRing ?_
  split
  · exact globalStore h
  · exact h

theorem ringPlace {r seq : Nat} {x : Elem} {grp : Option Nat} {g : Nat} : s₀.KeepsEnds (s.ringPlace r seq x grp g) := by
  have h1 : s₀.KeepsEnds (s.markSoon r seq) := .ite h (setRing h)
  unfold State.ringPlace
  dsimp only
  refine .ite ?_ (.ite (setRing (fillSlot h1)) (toExt h1))
  split
  · exact .ite (setRing (fillSlot (setRing h1))) (toExt (setRing h1))
  · exact toExt (setRing h1)

omit h in
theorem advancePseq {r f : Nat} (h : s₀.KeepsEnds s) : s₀.KeepsEnds (s.advancePseq r f) := by
  induction f generalizing s with
  | zero => exact h
  | succ f ih => exact .ite (ih (rPut h)) h

theorem freePassed {r : Nat} : s₀.KeepsEnds (s.freePassed r) :=
  changeChan (orLater (orLater (.ite (setRing h) (.ite (setRing h) (setRing h)))))

theorem passPublished {r n : Nat} : s₀.KeepsEnds (s.passPublished r n) := by
  unfold State.passPublished
  extract_lets s1
  have h1 : s₀.KeepsEnds s1 := .ite (rPut h) (advancePseq h)
  exact .ite (freePassed h1) (changeChan h1)

theorem publishAt {r seq : Nat} {x : Elem} {grp : Option Nat} : s₀.KeepsEnds (s.publishAt r seq x grp) :=
  .ite (.rest (.ite (setRing h) h)) (passPublished (ringPlace h))

theorem ringAppend {r : Nat} {x : Elem} {grp deal : Option Nat} {dealt : Bool} : s₀.KeepsEnds (s.ringAppend r x grp deal dealt) :=
  publishAt (.ite (setRing (rPut h)) (rPut h))

theorem release7 {r : Nat} : s₀.KeepsEnds (s.release7 r) := by
  unfold State.release7
  dsimp only
  split
  · exact h
  · have h1 : s₀.KeepsEnds { s.setRing { s.ringX r with sent7 := [], code7 := none } with due := 0 } := .rest h
    exact .ite (.rest (ringAppend h1)) h

theorem voidNumber {r : Nat} {u : Nat × Nat × Nat} : s₀.KeepsEnds (s.voidNumber r u) := .ite (setRing h) (publishAt (setRing h))
theorem voidFar {r : Nat} {u : Nat × Nat × Nat} : s₀.KeepsEnds (s.voidFar r u) := .ite (setRing h) (.rest h)
theorem voidReserved {c e : Nat} : s₀.KeepsEnds (s.voidReserved c e) :=
  .foldl (fun _ _ h => .foldl (fun _ _ h => .ite (voidFar h) (voidNumber h)) h) h

theorem returnCredits {c e : Nat} : s₀.KeepsEnds (s.returnCredits c e) := by
  have peer {s : State} {m : PeerMsg} (h : s₀.KeepsEnds s) : s₀.KeepsEnds (s.toPeer m) := .rest h
  have returned : s₀.KeepsEnds (s.modTil (tilOf c) fun t => { t with credits := t.credits.filter (fun k => !(k.cid == c && k.e == e)) }) :=
    modTil h
  exact .foldl (fun _ _ h => .ite (peer h) (changeChan (orLater (rPut h)))) (.rest returned)

theorem releaseCursor {r cur : Nat} : s₀.KeepsEnds (s.releaseCursor r cur) :=
  .foldl (fun _ _ h => laterOnce h) (release7 (freePassed (holdCursor h)))

/-! ### Units -/

theorem refDeliver {r : RefBind} : s₀.KeepsEnds (s.refDeliver r) := .ite (modTil h) (.ite (modTil h) (changeKey (modTil h)))

omit h in
theorem startQueued {n eng f : Nat} (h : s₀.KeepsEnds s) : s₀.KeepsEnds (s.startQueued n eng f) := by
  induction f generalizing s with
  | zero => exact h
  | succ f ih =>
    unfold State.startQueued
    dsimp only
    split
    · exact h
    · exact .ite h (ih (.rest h))

theorem refPut {c e : Nat} {x : Elem} : (s.refPut c e x).KeepsEnds s₀ := by
  unfold State.refPut
  dsimp only
  split
  · trivial
  · refine .ite trivial (.ite ?_ (.ite ?_ (.ite ?_ ?_)))
    · exact refDeliver h
    · exact refDeliver h
    · exact modTil h
    · exact rest h

theorem mergePut {c port : Nat} {x : Elem} : (s.mergePut c port x).KeepsEnds s₀ := by
  unfold State.mergePut
  dsimp only
  split
  · trivial
  · exact .ite trivial (laterOnce (modTil h))

theorem streamPut {c e : Nat} {x : Elem} : (s.streamPut c e x).KeepsEnds s₀ := by
  unfold State.streamPut
  split
  · trivial
  · exact .ite (.ite trivial h) (.ite trivial (.ite trivial (modTil h)))

theorem putUnit {c e : Nat} {x : Elem} : (s.putUnit c e x).KeepsEnds s₀ := by
  unfold State.putUnit
  dsimp only
  split
  · exact refPut h
  · exact mergePut h
  · exact streamPut h

theorem takeIn {i : Intake} : s₀.KeepsEnds (s.takeIn i) := by
  have put := putUnit (c := i.cid) (e := i.e) (x := i.x) (modTil (n := tilOf i.cid) (f := fun t => { t with intake := t.intake.erase i }) h)
  unfold State.takeIn
  split
  · rename_i e
    rwa [e] at put
  · exact h

theorem takeAll {c e : Nat} : s₀.KeepsEnds (s.takeAll c e) := .foldl (fun _ _ h => takeIn h) h

end
end State.KeepsEnds

end Sys2Proof.Machine
end

section
/-! SUPPORT. QBIND and QUNB (R152, R157, R158): their codes, and what they leave of every end. -/

namespace Sys2Proof.Machine

/-! ### The ends of a context -/

/-- A vector of words read with zeros beyond it: what it is after one of them is set to zero. -/
theorem getD_setIfInBounds_zero {n w : Nat} (v : Vector (BitVec w) n) (i j : Nat) :
    ((v.setIfInBounds i 0)[j]?).getD 0 = if j = i then 0 else (v[j]?).getD 0 := by
  rw [Vector.getElem?_setIfInBounds]
  by_cases h : i = j
  · subst h
    by_cases hb : i < n <;> simp [hb]
  · simp [h, Ne.symm h]

section
variable {x y : Ctx} {e f : Nat} {w : Word}

theorem Ctx.clearEnd_bind (x : Ctx) (e : Nat) : (x.clearEnd e).bind = x.bind.setIfInBounds e 0 := by
  unfold Ctx.clearEnd
  dsimp only
  split
  · exact Ctx.setS_bind _ _ _
  · rfl

theorem Ctx.clearEnd_s (x : Ctx) (e : Nat) : (x.clearEnd e).s = if e < 8 then x.s.setIfInBounds (24 + e) 0 else x.s := by
  unfold Ctx.clearEnd Ctx.setS
  split
  · rw [if_neg (by omega)]
  · rfl

theorem Ctx.clearEnd_v (x : Ctx) (e : Nat) : (x.clearEnd e).v = if e < 8 then x.v else x.v.setIfInBounds (e + 4) 0 := by
  unfold Ctx.clearEnd Ctx.setS
  split
  · rw [if_neg (by omega)]
  · rfl

theorem Ctx.getBind_clearEnd (x : Ctx) (e f : Nat) : (x.clearEnd e).getBind f = if f = e then 0 else x.getBind f := by
  rw [Ctx.getBind, Ctx.clearEnd_bind, getD_setIfInBounds_zero]
  rfl

theorem Ctx.getS_clearEnd (x : Ctx) (e : Nat) {n : Nat} (hn : n ≠ 0) :
    (x.clearEnd e).getS n = if e < 8 ∧ n = 24 + e then 0 else x.getS n := by
  rw [Ctx.getS, Ctx.getS, if_neg hn, if_neg hn, Ctx.clearEnd_s]
  by_cases he : e < 8
  · rw [if_pos he, getD_setIfInBounds_zero]
    simp only [he, true_and]
  · simp only [he, false_and, if_false]

theorem Ctx.getV_clearEnd (x : Ctx) (e n : Nat) : (x.clearEnd e).getV n = if 8 ≤ e ∧ n = e + 4 then 0 else x.getV n := by
  rw [Ctx.getV, Ctx.getV, Ctx.clearEnd_v]
  by_cases he : e < 8
  · simp only [he, if_true, not_le.mpr he, false_and, if_false]
  · rw [if_neg he, getD_setIfInBounds_zero]
    simp only [not_lt.mp he, true_and]

/-- An end is unbound, and the register that it aliases is zero (R158). -/
def Ctx.EndGone (x : Ctx) (e : Nat) : Prop :=
  x.getBind e = 0 ∧ (e < 8 → x.getS (24 + e) = 0) ∧ (8 ≤ e → x.getV (e + 4) = 0)

theorem Ctx.endGone_clearEnd (x : Ctx) (e : Nat) : (x.clearEnd e).EndGone e := by
  refine ⟨?_, fun he => ?_, fun he => ?_⟩
  · rw [Ctx.getBind_clearEnd, if_pos rfl]
  · rw [Ctx.getS_clearEnd x e (by omega), if_pos ⟨he, rfl⟩]
  · rw [Ctx.getV_clearEnd, if_pos ⟨he, rfl⟩]

/-- What is gone stays so as another end goes. -/
theorem Ctx.EndGone.clearEnd (h : x.EndGone e) (f : Nat) : (x.clearEnd f).EndGone e := by
  obtain ⟨hb, hs, hv⟩ := h
  refine ⟨?_, fun he => ?_, fun he => ?_⟩
  · rw [Ctx.getBind_clearEnd, hb, ite_self]
  · rw [Ctx.getS_clearEnd x f (by omega), hs he, ite_self]
  · rw [Ctx.getV_clearEnd, hv he, ite_self]

theorem Ctx.KeepsEnds.getBind (h : x.KeepsEnds y) (e : Nat) : y.getBind e = x.getBind e := by rw [Ctx.getBind, Ctx.getBind, h.bind]

theorem Ctx.KeepsEnds.endGone (h : x.KeepsEnds y) (hx : x.EndGone e) : y.EndGone e := by
  rw [Ctx.EndGone, h.getBind, Ctx.getS, Ctx.getV, h.s, h.v]
  exact hx

theorem Ctx.KeepsEnds.clearEnd (h : x.KeepsEnds y) (e : Nat) : (x.clearEnd e).KeepsEnds (y.clearEnd e) :=
  ⟨by rw [Ctx.clearEnd_bind, Ctx.clearEnd_bind, h.bind], by rw [Ctx.clearEnd_s, Ctx.clearEnd_s, h.s],
    by rw [Ctx.clearEnd_v, Ctx.clearEnd_v, h.v]⟩

theorem Ctx.getBind_set (x : Ctx) (e f : Nat) (w : Word) (n : Vector Nat 12) :
    ({ x with bind := x.bind.setIfInBounds e w, boundAt := n } : Ctx).getBind f = if f = e ∧ e < 12 then w else x.getBind f := by
  rw [Ctx.getBind, Ctx.getBind, Vector.getElem?_setIfInBounds]
  by_cases h : e = f
  · subst h
    by_cases hb : e < 12 <;> simp [hb]
  · simp [h, Ne.symm h]

end

/-! ### Binding -/

section
variable {s : State} {c e : Nat} {b : Word}

/-- Binding sets the end's entry, and no other entry or register of any strand. -/
theorem State.doBind_keepsEnds : (s.modCtx c (fun x => { x with
    bind := x.bind.setIfInBounds e b, boundAt := x.boundAt.setIfInBounds e s.port.failures.length })).KeepsEnds (s.doBind c e b) := by
  unfold State.doBind
  extract_lets loc s1 s2
  have h1 : s1.KeepsEnds s2 := .ite (.adopt (.refl s1)) (.refl s1)
  show s1.KeepsEnds _
  split
  · exact .ite h1 (.holdCursor (.rPut h1))
  · refine .ite (.modTil h1) ?_
    split
    · exact h1
    · exact .refDeliver h1
  · exact .laterOnce (.modTil h1)
  · exact .modTil h1

theorem State.getBind_doBind (s : State) (c e f : Nat) (b : Word) :
    ((s.doBind c e b).ctx c).getBind f = if f = e ∧ e < 12 then b else (s.ctx c).getBind f := by
  rw [(State.doBind_keepsEnds c).getBind, State.ctx_modCtx]
  exact Ctx.getBind_set _ e f b _

end

/-! ### The result end of a request end (R145, R158) -/

/-- The result end that is bound to the reference whose request end is `e`. -/
def Tiller.resultEnd (t : Tiller) (c e : Nat) : Option Nat := (t.refs.find? (fun q => q.cid == c && q.idx == e)).bind (·.res)

theorem Tiller.Told.resultEnd {x y : Tiller} (h : x.Told y) (c e : Nat) : y.resultEnd c e = x.resultEnd c e := by
  rw [Tiller.resultEnd, Tiller.resultEnd, h.refs]

/-- Two bindings of a reference engine belong to the same request end, and to the same result end. -/
structure RefBind.SameEnds (r q : RefBind) : Prop where
  cid : q.cid = r.cid
  idx : q.idx = r.idx
  res : q.res = r.res

theorem RefBind.SameEnds.trans {r q p : RefBind} (h : r.SameEnds q) (h' : q.SameEnds p) : r.SameEnds p :=
  ⟨h'.cid.trans h.cid, h'.idx.trans h.idx, h'.res.trans h.res⟩

theorem RefBind.SameEnds.ite {r p q : RefBind} {c : Prop} [Decidable c] (hp : r.SameEnds p) (hq : r.SameEnds q) :
    r.SameEnds (if c then p else q) := by
  split <;> assumption

theorem RefBind.flush_sameEnds (r : RefBind) : r.SameEnds r.flush := by
  unfold RefBind.flush
  split <;> exact ⟨rfl, rfl, rfl⟩

/-- What is added behind what has been delivered is no end. -/
theorem RefBind.SameEnds.push {r q : RefBind} (h : r.SameEnds q) (p : Elem × Nat) : r.SameEnds { q with out := q.out ++ [p] } :=
  ⟨h.cid, h.idx, h.res⟩

theorem RefBind.deliver_sameEnds (r : RefBind) (l : List Fetch) : r.SameEnds (r.deliver l) := by
  induction l generalizing r with
  | nil => exact ⟨rfl, rfl, rfl⟩
  | cons f fs ih =>
    cases f with
    | mark x => exact (r.flush_sameEnds.push (x, 0)).trans (ih _)
    | done x =>
      unfold RefBind.deliver
      dsimp only
      split
      · exact (r.flush_sameEnds.push (x, 1)).trans (ih _)
      · split
        · have packed : r.SameEnds { r with pack := r.pack ++ [x.data.extractLsb' 0 64] } := ⟨rfl, rfl, rfl⟩
          exact .trans (.ite (packed.trans (RefBind.flush_sameEnds _)) packed) (ih _)
        · exact (RefBind.SameEnds.push ⟨rfl, rfl, rfl⟩ (x, 1)).trans (ih _)
    | _ => exact ⟨rfl, rfl, rfl⟩

section
variable {s t : State} {c e : Nat} {r q : RefBind}

/-- The binding that an end finds is that of its request end, if it is its request end. -/
theorem State.refOf_idx (h : s.refOf c e = some r) (he : r.idx = e) :
    (s.til (tilOf c)).refs.find? (fun q => q.cid == c && q.idx == e) = some r := by
  unfold State.refOf at h
  rw [List.find?_eq_some_iff_append] at h ⊢
  obtain ⟨hp, l, l', hl, hn⟩ := h
  have hc : r.cid = c := by
    simp only [Bool.and_eq_true, beq_iff_eq] at hp
    exact hp.1
  refine ⟨by simp [hc, he], l, l', hl, fun p hp => ?_⟩
  have := hn p hp
  simp only [Bool.not_eq_true', Bool.and_eq_false_iff, Bool.or_eq_false_iff] at this ⊢
  tauto

theorem State.refOf_cid (h : s.refOf c e = some r) : r.cid = c := by
  have := List.find?_some h
  simp only [Bool.and_eq_true, beq_iff_eq] at this
  exact this.1

/-- To set the binding that an end finds leaves the result end of the end, if it is its request end, as it is. -/
theorem State.resultEnd_setRef (h : s.refOf c e = some r) (hq : r.SameEnds q) :
    ((s.setRef q).til (tilOf c)).resultEnd c e = (s.til (tilOf c)).resultEnd c e := by
  obtain ⟨hcid, hidx, hres⟩ := hq
  obtain rfl := State.refOf_cid h
  have same : ((fun p : RefBind => p.cid == r.cid && p.idx == e) ∘ fun p : RefBind =>
      if p.cid = r.cid ∧ p.idx = q.idx then q else p) = fun p => p.cid == r.cid && p.idx == e := by
    funext p
    simp only [Function.comp]
    split
    · rename_i hp
      rw [hp.1, hp.2, hcid]
    · rfl
  rw [State.setRef, hcid, State.til_modTil, Tiller.resultEnd, List.find?_map, same, Tiller.resultEnd]
  cases found : (s.til (tilOf r.cid)).refs.find? (fun p => p.cid == r.cid && p.idx == e) with
  | none => rfl
  | some p =>
    simp only [Option.map_some, Option.bind_some]
    split
    · rename_i hp
      have hp' : r.idx = e := by
        have := List.find?_some found
        simp only [Bool.and_eq_true, beq_iff_eq] at this
        rw [← hidx, ← hp.2, this.2]
      rw [State.refOf_idx h hp'] at found
      rw [hres, Option.some.inj found]
    · rfl

/-- What an end's unit takes over that end leaves the end's result end as it is. -/
def Put.KeepsResult (s : State) (c e : Nat) : Put → Prop
  | .done t => (t.til (tilOf c)).resultEnd c e = (s.til (tilOf c)).resultEnd c e
  | _ => True

theorem Put.KeepsResult.ite {p : Prop} [Decidable p] {a b : Put} (ha : a.KeepsResult s c e) (hb : b.KeepsResult s c e) :
    (if p then a else b).KeepsResult s c e := by
  split <;> assumption

theorem State.refDeliver_keepsResult (h : s.refOf c e = some r) (hq : r.SameEnds q) :
    (Put.done (s.refDeliver q)).KeepsResult s c e := by
  have delivered := State.resultEnd_setRef h (hq.trans (q.deliver_sameEnds q.fetches))
  show ((s.refDeliver q).til (tilOf c)).resultEnd c e = _
  unfold State.refDeliver
  dsimp only
  split
  · exact State.resultEnd_setRef h hq
  · split
    · exact delivered
    · exact ((State.Told.til .changeKey _).resultEnd c e).trans delivered

theorem State.refPut_keepsResult {x : Elem} : (s.refPut c e x).KeepsResult s c e := by
  unfold State.refPut
  dsimp only
  split
  · trivial
  · rename_i r h
    refine .ite trivial (.ite ?_ (.ite ?_ (.ite ?_ ?_)))
    · exact State.refDeliver_keepsResult h ⟨rfl, rfl, rfl⟩
    · exact State.refDeliver_keepsResult h ⟨rfl, rfl, rfl⟩
    · exact State.resultEnd_setRef h ⟨rfl, rfl, rfl⟩
    · exact State.resultEnd_setRef h ⟨rfl, rfl, rfl⟩

/-- To change what is no reference of a tiller keeps every result end. -/
theorem State.resultEnd_modTil {n : Nat} {f : Tiller → Tiller} (hf : ∀ x, (f x).refs = x.refs) :
    ((s.modTil n f).til (tilOf c)).resultEnd c e = (s.til (tilOf c)).resultEnd c e := by
  by_cases h : tilOf c = n
  · rw [h, State.til_modTil, Tiller.resultEnd, hf, Tiller.resultEnd]
  · rw [State.til_modTil_ne _ _ _ _ h]

theorem State.putUnit_keepsResult {x : Elem} : (s.putUnit c e x).KeepsResult s c e := by
  unfold State.putUnit
  dsimp only
  split
  · exact State.refPut_keepsResult
  · unfold State.mergePut
    dsimp only
    split
    · trivial
    · exact .ite trivial (((State.Told.til .laterOnce _).resultEnd c e).trans (State.resultEnd_modTil fun _ => rfl))
  · unfold State.streamPut
    split
    · trivial
    · exact .ite (.ite trivial rfl) (.ite trivial (.ite trivial (State.resultEnd_modTil fun _ => rfl)))

theorem State.resultEnd_takeIn {i : Intake} (hc : i.cid = c) (he : i.e = e) :
    ((s.takeIn i).til (tilOf c)).resultEnd c e = (s.til (tilOf c)).resultEnd c e := by
  subst hc he
  have put := State.putUnit_keepsResult (s := s.modTil (tilOf i.cid) (fun t => { t with intake := t.intake.erase i })) (c := i.cid)
    (e := i.e) (x := i.x)
  unfold State.takeIn
  split
  · rename_i h
    rw [h] at put
    exact Eq.trans put (State.resultEnd_modTil fun _ => rfl)
  · rfl

theorem State.resultEnd_takeAll (s : State) (c e : Nat) :
    ((s.takeAll c e).til (tilOf c)).resultEnd c e = (s.til (tilOf c)).resultEnd c e := by
  unfold State.takeAll
  refine List.foldlRecOn (motive := fun t : State => (t.til (tilOf c)).resultEnd c e = (s.til (tilOf c)).resultEnd c e) _ _ rfl ?_
  intro t ht i hi
  have mine := (List.mem_filter.mp hi).2
  simp only [Bool.and_eq_true, beq_iff_eq] at mine
  exact (State.resultEnd_takeIn mine.1 mine.2).trans ht

end

/-! ### Unbinding (R158) -/

section
variable {s : State} {c e : Nat}

/-- The end that is unbound with an end: the result end of the reference whose request end it is. -/
def State.alsoUnbound (s : State) (c e : Nat) : Option Nat :=
  if bindKind ((s.ctx c).getBind e) = 2 ∧ bindPort ((s.ctx c).getBind e) = 0 then (s.til (tilOf c)).resultEnd c e else none

/-- A context as the unbinding of one of its ends leaves its ends. -/
def State.unbound (s : State) (c e : Nat) : Ctx :=
  (s.alsoUnbound c e).elim ((s.ctx c).clearEnd e) ((s.ctx c).clearEnd e).clearEnd

theorem State.unbind_keepsEnds (s : State) (c e : Nat) : (s.unbound c e).KeepsEnds ((s.unbind c e).ctx c) := by
  unfold State.unbind State.unbound State.alsoUnbound
  extract_lets b loc z
  have cleared : ((s.ctx c).clearEnd e).KeepsEnds (z.ctx c) := by
    rw [State.ctx_modCtx]
    exact (State.KeepsEnds.takeAll (.refl s) c).clearEnd e
  have refl := State.KeepsEnds.refl z
  generalize also : (if bindKind b = 2 ∧ bindPort b = 0 then (s.til (tilOf c)).resultEnd c e else none) = res
  have kept {t : State} (hk : bindKind b = 2 → bindPort b ≠ 0) (h : z.KeepsEnds t) :
      (res.elim ((s.ctx c).clearEnd e) ((s.ctx c).clearEnd e).clearEnd).KeepsEnds (t.ctx c) := by
    rw [if_neg (fun h => hk h.1 h.2)] at also
    rw [← also]
    exact cleared.trans (h c)
  split
  case h_1 hk => exact kept (by omega) refl
  case h_2 hk => exact kept (by omega) (.ite (.returnCredits (.voidReserved refl)) (.releaseCursor (refl.modCtx ⟨rfl, rfl, rfl⟩)))
  case h_3 hk =>
    by_cases hp : bindPort b = 0
    · have found : (z.til (tilOf c)).resultEnd c e = res := by rw [← also, if_pos ⟨hk, hp⟩]; exact s.resultEnd_takeAll c e
      rw [if_pos hp, ← found, Tiller.resultEnd]
      split
      · rename_i h
        rw [h]
        exact cleared
      · rename_i r h
        have freed : z.KeepsEnds ((z.modTil (tilOf c) fun t => { t with
            refs := t.refs.filter (fun q => !(q.cid == c && q.idx == e)) }).startQueued (tilOf c) r.eng 256) := .startQueued (.modTil refl)
        rw [h, Option.bind_some]
        cases r.res with
        | none => exact cleared.trans (freed c)
        | some f =>
          dsimp only [Option.elim_some]
          rw [State.ctx_modCtx]
          exact (cleared.trans (freed c)).clearEnd f
    · rw [if_neg hp]
      exact kept (fun _ => hp) (.modTil refl)
  case h_4 hk =>
    refine kept (by omega) ?_
    split
    · exact refl
    · exact .modTil refl
  case h_5 hk _ => exact kept (fun h => absurd h hk) (.modTil refl)

theorem State.endGone_unbind (s : State) (c e : Nat) : ((s.unbind c e).ctx c).EndGone e := by
  refine (s.unbind_keepsEnds c e).endGone ?_
  unfold State.unbound
  cases s.alsoUnbound c e with
  | none => exact Ctx.endGone_clearEnd _ e
  | some f => exact (Ctx.endGone_clearEnd _ e).clearEnd f

theorem State.endGone_unbind_result {f : Nat} (h : s.alsoUnbound c e = some f) : ((s.unbind c e).ctx c).EndGone f := by
  refine (s.unbind_keepsEnds c e).endGone ?_
  rw [State.unbound, h]
  exact Ctx.endGone_clearEnd _ f

theorem State.getBind_unbind {f : Nat} (hf : f ≠ e) (h : s.alsoUnbound c e ≠ some f) :
    ((s.unbind c e).ctx c).getBind f = (s.ctx c).getBind f := by
  rw [(s.unbind_keepsEnds c e).getBind, State.unbound]
  cases hr : s.alsoUnbound c e with
  | none => rw [Option.elim_none, Ctx.getBind_clearEnd, if_neg hf]
  | some g =>
    have hg : f ≠ g := fun he => h (he ▸ hr)
    rw [Option.elim_some, Ctx.getBind_clearEnd, if_neg hg, Ctx.getBind_clearEnd, if_neg hf]

/-- The end that goes with a request end, as the statement writes it. -/
theorem State.alsoUnbound_iff {f : Nat} : s.alsoUnbound c e = some f ↔ bindKind ((s.ctx c).getBind e) = 2 ∧
    bindPort ((s.ctx c).getBind e) = 0 ∧ (s.til (tilOf c)).resultEnd c e = some f := by
  rw [State.alsoUnbound, ite_eq_iff]
  simp [and_assoc]

end

/-! ### The instructions (R152, R157, R158) -/

section
variable {d a b k : BitVec 5} {s r t u : State} {w : Word}

section
variable (hr : Ready (.qbind d a b k) s r) (hb : Reads b r w t)
include hr hb

theorem exec_qbind_bound (hw : Writes d t (failCode 1) u) (h : t.me.getBind a.toNat ≠ 0) : exec (.qbind d a b k) s = .next u.past := by
  refine perform_next hr ?_
  rw [bind_ok hb, bind_ok (op_get t), if_pos h]
  exact hw

variable (h0 : t.me.getBind a.toNat = 0)
include h0

theorem exec_qbind_wrong (hw : Writes d t (failCode 2) u) (h : bindKind w ≠ k.toNat ∨ t.entryOk t.cur a.toNat w = false) :
    exec (.qbind d a b k) s = .next u.past := by
  refine perform_next hr ?_
  rw [bind_ok hb, bind_ok (op_get t), if_neg (not_not.mpr h0), if_pos (by simpa using h)]
  exact hw

variable (hk : bindKind w = k.toNat) (he : t.entryOk t.cur a.toNat w = true)
include hk he

/-- A descriptor that holds poison raises POISON before what is wrong with it gives a code (R152). -/
theorem exec_qbind_poison (h : bindKind w ≠ 1 ∧ t.bindPoison t.cur w = true) :
    exec (.qbind d a b k) s = .next (s.onStop (wordOf (.qbind d a b k)) (.trap Cause.poison 0 0)) := by
  refine perform_stop hr ?_
  rw [bind_ok hb, bind_ok (op_get t), if_neg (not_not.mpr h0), if_neg (by simp [hk, he]), if_pos h]
  rfl

variable (hp : ¬ (bindKind w ≠ 1 ∧ t.bindPoison t.cur w = true))
include hp

theorem exec_qbind_code {why : Nat} (hwhy : t.bindWhy t.cur a.toNat w (t.otherEnds t.cur a.toNat) false = why) (h : why ≠ 0)
    (hw : Writes d t (failCode why) u) : exec (.qbind d a b k) s = .next u.past := by
  refine perform_next hr ?_
  rw [bind_ok hb, bind_ok (op_get t), if_neg (not_not.mpr h0), if_neg (by simp [hk, he]), if_neg hp, hwhy, if_pos h]
  exact hw

theorem exec_qbind_ok (hwhy : t.bindWhy t.cur a.toNat w (t.otherEnds t.cur a.toNat) false = 0) (hw : Writes d t 0 u) :
    exec (.qbind d a b k) s = .next (u.doBind u.cur a.toNat w).past := by
  refine perform_next hr ?_
  rw [bind_ok hb, bind_ok (op_get t), if_neg (not_not.mpr h0), if_neg (by simp [hk, he]), if_neg hp, hwhy, if_neg (not_not.mpr rfl)]
  exact bind_ok hw

end

theorem exec_qunb_unbound (hr : Ready (.qunb d a) s r) (h : r.me.getBind a.toNat = 0) (hw : Writes d r (failCode 1) u) :
    exec (.qunb d a) s = .next u.past := by
  refine perform_next hr ?_
  rw [bind_ok (op_ask _ r), if_pos h]
  exact hw

theorem exec_qunb_bound (hr : Ready (.qunb d a) s r) (h : r.me.getBind a.toNat ≠ 0) (hw : Writes d r 0 u) :
    exec (.qunb d a) s = .next (u.unbind u.cur a.toNat).past := by
  refine perform_next hr ?_
  rw [bind_ok (op_ask _ r), if_neg h]
  exact bind_ok hw

end

/-- Settles O28: QBIND checks in order and sets one entry, and QUNB clears an end and the result end that goes with it. -/
theorem endBindings : Obligations.EndBindings := by
  unfold Obligations.EndBindings
  refine ⟨?binds, ?unbinds⟩
  case binds =>
    intro d a b k s r t u w hr hb fails ok poison why
    refine ⟨fun h hw => exec_qbind_bound hr hb hw h, fun h0 h hw => exec_qbind_wrong hr hb h0 hw h, ?_, ?_, ?_⟩
    · rintro ⟨h0, hk, he⟩ hp
      exact exec_qbind_poison hr hb h0 hk he hp
    · rintro ⟨h0, hk, he⟩ hp hwhy hw
      exact exec_qbind_code hr hb h0 hk he hp rfl hwhy hw
    · rintro ⟨h0, hk, he⟩ hp hwhy hw
      refine ⟨exec_qbind_ok hr hb h0 hk he hp hwhy hw, fun ha => ?_, fun e ha => ?_⟩
      · rw [State.getBind_doBind, if_pos ⟨rfl, ha⟩]
      · rw [State.getBind_doBind, if_neg (fun h => ha h.1)]
        rfl
  case unbinds =>
    intro d a s r u hr
    refine ⟨exec_qunb_unbound hr, ?_⟩
    intro hb hw z gone own w result
    have also {e : Nat} : result e ↔ u.alsoUnbound u.cur a.toNat = some e := State.alsoUnbound_iff.symm
    refine ⟨exec_qunb_bound hr hb hw, fun _ => u.endGone_unbind u.cur a.toNat, fun e _ h => ?_, fun e he h => ?_⟩
    · exact State.endGone_unbind_result (also.mp h)
    · exact State.getBind_unbind he (mt also.mpr h)

end Sys2Proof.Machine
end

section
/-! SUPPORT. What a ring's logic does as something reaches it, and what sets out to another module (R129, R135, R142, R413,
R414). -/

namespace Sys2Proof.Machine

theorem State.putBytes_due (s : State) (a : Nat) (bs : List Byte) : (s.putBytes a bs).due = s.due := by
  induction bs generalizing s a with
  | nil => rfl
  | cons b bs ih => exact ih (s.setByte a b) (a + 1)

theorem State.wr_due (s : State) (a n x : Nat) : (s.wr a n x).due = s.due := s.putBytes_due a _

theorem State.devWr_due (s : State) (a n x : Nat) : (s.devWr a n x).due = s.due :=
  State.Told.devWr.due.trans (s.wr_due a n x)

/-- A unit's write into a control block leaves the cycle of a result. -/
theorem State.rPut_due (s : State) (r off x : Nat) : (s.rPut r off x).due = s.due := s.devWr_due _ _ _

section
variable {s : State} {ring c : Nat}

/-- Where no other module asks anything of the ring, the arrival is of what is on its way. -/
theorem exec_elementArrival (h : s.Unasked ring) : exec (.elementArrival ring) s = .next (s.arrive ring) := by
  change execElementArrival ring s = _
  unfold execElementArrival
  split
  case h_1 m ref seq x rest hq => rw [if_neg (h _ _ hq)]
  case h_2 => rfl

theorem State.Unasked.peerAsks (h : s.Unasked ring) : s.peerAsks ring = s := by
  unfold State.peerAsks
  dsimp only
  split
  case h_1 hq => exact if_neg (h _ _ hq)
  case h_2 hq => exact if_neg (h _ _ hq)
  case h_3 hq => exact if_neg (h _ _ hq)
  case h_4 => rfl

section
variable {x : Elem} {g deal seq : Option Nat} {dealt : Bool} {due : Word} {rest : List Flight}

section
variable (hf : s.flights.find? (fun f => f.ring == ring) = some ⟨ring, c, .elem x g deal dealt seq, due⟩)
include hf

theorem arrive_over (hx : isXring ring = true) : s.arrive ring = if s.portDown (xringModule ring) then s else
    State.toPeer { s with flights := s.flights.erase ⟨ring, c, .elem x g deal dealt seq, due⟩ } (.elem ring seq x) := by
  simp only [State.arrive, hf, hx, if_true]

theorem arrive_waits (hx : isXring ring = false) (h : s.spillFits ring = false) : s.arrive ring = s := by
  have full : State.spillFits { s with flights := s.flights.erase ⟨ring, c, .elem x g deal dealt seq, due⟩ } ring = false := h
  simp only [State.arrive, hf, hx, full, Bool.not_false, Bool.false_eq_true, if_true, if_false]

/-- It takes up the place that was granted for it (R135). -/
theorem arrive_enqueues (hx : isXring ring = false) (hd : s.diverted ring = false) (hs : seq = none) : s.arrive ring =
    let t := { s with flights := s.flights.erase ⟨ring, c, .elem x g deal dealt seq, due⟩ }
    { (({ t.rPut ring 44 (t.rGrant ring - 1) with due := due } : State).ringEnqueue ring c x g deal dealt) with due := s.due } := by
  have fits : State.spillFits { s with flights := s.flights.erase ⟨ring, c, .elem x g deal dealt seq, due⟩ } ring = true := by
    change s.spillFits ring = true
    simp [State.spillFits, hd]
  subst hs
  simp only [State.arrive, hf, hx, fits, Bool.not_true, Bool.false_eq_true, if_false]

end

/-- R135, R154, R413, R414. What the first element on its way to a ring comes to. -/
theorem elementArrival_first (h : s.Unasked ring) (hf : s.flights = ⟨ring, c, .elem x g deal dealt seq, due⟩ :: rest) :
    let t := { s with flights := rest }
    (isXring ring = false → s.diverted ring = true → s.spillCap (s.partOf (ringTil ring)) <
      s.spillUsed (s.partOf (ringTil ring)) + (if s.rVector ring then 72 else 16) → exec (.elementArrival ring) s = .next s) ∧
    (isXring ring = false → s.diverted ring = false → seq = none → exec (.elementArrival ring) s =
      .next { (({ t.rPut ring 44 (t.rGrant ring - 1) with due := due } : State).ringEnqueue ring c x g deal dealt) with
        due := s.due }) ∧
    (isXring ring = true → s.portDown (xringModule ring) = true → exec (.elementArrival ring) s = .next s) ∧
    (isXring ring = true → s.portDown (xringModule ring) = false →
      exec (.elementArrival ring) s =
        .next (t.modPort (fun p => { p with peerOut := p.peerOut ++ [.elem ring seq x] }))) := by
  intro t
  have first : s.flights.find? (fun f => f.ring == ring) = some ⟨ring, c, .elem x g deal dealt seq, due⟩ := by simp [hf]
  have others : s.flights.erase ⟨ring, c, .elem x g deal dealt seq, due⟩ = rest := by rw [hf, List.erase_cons_head]
  rw [exec_elementArrival h]
  refine ⟨fun hx hd hc => ?_, fun hx hd hs => ?_, fun hx hp => ?_, fun hx hp => ?_⟩
  · rw [arrive_waits first hx]
    simp only [State.spillFits, State.spillBytes, hd, Bool.not_true, Bool.false_or]
    exact decide_eq_false (Nat.not_le.mpr hc)
  · rw [arrive_enqueues first hx hd hs, others]
  · rw [arrive_over first hx, if_pos hp]
  · rw [arrive_over first hx, if_neg (by simp [hp]), others]
    rfl

end

theorem State.setDue_self {s : State} {d : Word} (h : s.due = d) : { s with due := d } = s := by subst h; rfl

/-- R129, R413. An element that a peer sends reaches its ring as one of this module does. -/
theorem elementArrival_peer {m ref : Nat} {x : Elem} {rest : List Request}
    (hq : s.port.inbox = .peerElement m ref none x :: rest) (hr : refRing ref = ring) (hp : s.portDown m = false)
    (hf : ∀ f ∈ s.flights, f.ring ≠ ring) (hd : s.diverted ring = false) (hx : isXring ring = false) :
    let t := (s.modPort (fun p => { p with inbox := rest })).later (.elementArrival ring)
    exec (.elementArrival ring) s =
      .next { (t.rPut ring 44 (t.rGrant ring - 1)).ringEnqueue ring (peerCid m) x none none false with due := s.due } := by
  intro t
  change execElementArrival ring s = _
  let u : State := { t with flights := s.flights ++ [⟨ring, peerCid m, .elem x none none false none, s.due⟩] }
  have taken : s.fromPeer m (fun t => t.launchCargo ring (peerCid m) (.elem x none none false none)) = u := by
    unfold State.fromPeer
    rw [hq]
    exact if_neg (show ¬s.portDown m = true by simp [hp])
  have absent : s.flights.find? (fun f => f.ring == ring) = none := by simpa using hf
  have fresh : (⟨ring, peerCid m, .elem x none none false none, s.due⟩ : Flight) ∉ s.flights := fun h => hf _ h rfl
  have last : { u with flights := u.flights.erase ⟨ring, peerCid m, .elem x none none false none, s.due⟩ } = t := by
    simp only [u, List.erase_append_right _ fresh, List.erase_cons_head, List.append_nil]
    rfl
  have next : u.flights.find? (fun f => f.ring == ring) = some ⟨ring, peerCid m, .elem x none none false none, s.due⟩ := by
    simp [u, absent]
  unfold execElementArrival
  rw [hq]
  dsimp only
  rw [if_pos hr, taken, arrive_enqueues next hx hd rfl]
  dsimp only
  have keeps : { t.rPut ring 44 (t.rGrant ring - 1) with due := s.due } = t.rPut ring 44 (t.rGrant ring - 1) :=
    State.setDue_self (t.rPut_due _ _ _)
  rw [last, keeps]
  rfl

/-- R414. What a producer end sends to another module sets out unless the end is cut off from it. -/
theorem sendFar_iff {e : Nat} (x : Cargo) (hx : isXring ring = true) :
    let cut := ∃ p ∈ s.port.failures.drop ((s.ctx c).boundAt.toList.getD e 0), ∃ q ∈ s.port.peers,
      q.1 = xringModule ring ∧ q.2.1 = p
    (cut → s.sendFar c e ring x = s) ∧ (¬cut → s.sendFar c e ring x = s.launchCargo ring c x) := by
  intro cut
  have iff : s.isCut c e ring = true ↔ cut := by
    simp only [State.isCut, hx, Bool.true_and, List.any_eq_true, Bool.and_eq_true, beq_iff_eq, cut]
  exact ⟨fun h => if_pos (iff.mpr h), fun h => if_neg fun hc => h (iff.mp hc)⟩

end

end Sys2Proof.Machine
end

section
/-! SUPPORT. Reads of a part of a number, and the window slot that an element is written to (R126, R127). -/

namespace Sys2Proof.Machine

theorem State.rd_lt (s : State) (a n : Nat) : s.rd a n < 256 ^ n := by
  induction n generalizing a with
  | zero => exact Nat.one_pos
  | succ n ih =>
    have low := (s.byteAt a).isLt
    have high := ih (a + 1)
    rw [State.rd, Nat.pow_succ']
    omega

theorem State.rd_add (s : State) (a n m : Nat) : s.rd a (n + m) = s.rd a n + 256 ^ n * s.rd (a + n) m := by
  induction n generalizing a with
  | zero => simp [State.rd]
  | succ n ih =>
    rw [Nat.add_right_comm, State.rd, State.rd, ih, Nat.pow_succ', Nat.mul_add, Nat.mul_assoc, Nat.add_assoc a, Nat.add_comm 1 n,
      Nat.add_assoc]

/-- A part of a number is read where it lies. -/
theorem State.rd_part (s : State) (a i m k : Nat) : s.rd (a + i) m = s.rd a (i + (m + k)) / 256 ^ i % 256 ^ m := by
  rw [State.rd_add, State.rd_add s (a + i), Nat.add_mul_div_left _ _ (Nat.pow_pos (by decide)), Nat.div_eq_of_lt (s.rd_lt a i),
    Nat.zero_add, Nat.add_mul_mod_self_left, Nat.mod_eq_of_lt (s.rd_lt _ m)]

section
variable {s : State} {r k seq grp : Nat} {x : Elem}

theorem State.fillSlot_told : ((s.wr (s.slotLoc r k) (s.rWidth r) x.data.toNat).wr (s.tagLoc r k) 8
    (seq + 2 ^ 32 + (if x.awn then 2 ^ 33 else 0) + grp % 2 ^ 16 * 2 ^ 48)).Told (s.fillSlot r k seq x grp) :=
  .trans .unstageAt .unstageAt

/-- A window slot lies before the tags. -/
theorem State.slot_before_tag (hk : k < s.rDepth r) : s.slotLoc r k + s.rWidth r ≤ s.tagLoc r k := by
  have := Nat.mul_le_mul_left (s.rWidth r) (Nat.succ_le_of_lt hk)
  rw [Nat.mul_succ] at this
  unfold State.slotLoc State.tagLoc
  omega

theorem State.rd_slot_fillSlot (hk : k < s.rDepth r) (h : s.memOk) :
    (s.fillSlot r k seq x grp).rd (s.slotLoc r k) (s.rWidth r) = x.data.toNat % 2 ^ (8 * s.rWidth r) := by
  rw [State.fillSlot_told.rd, State.rd_wr_apart _ _ _ _ _ (State.wr_memOk _ _ _ h) (.inl (State.slot_before_tag hk)),
    State.rd_wr _ _ _ h, Nat.pow_mul]

theorem State.rd_tag_fillSlot (h : s.memOk) : (s.fillSlot r k seq x grp).rd (s.tagLoc r k) 8 =
    (seq + 2 ^ 32 + (if x.awn then 2 ^ 33 else 0) + grp % 2 ^ 16 * 2 ^ 48) % 256 ^ 8 := by
  rw [State.fillSlot_told.rd, State.rd_wr _ _ _ (State.wr_memOk _ _ _ h)]

end

theorem State.rd_setRing (s : State) (y : Ring) (a n : Nat) : (s.setRing y).rd a n = s.rd a n :=
  State.rd_congr a n fun _ _ _ => rfl

/-- R126, R127. An element written to a slot, and kept as published there, has moved to it. -/
theorem movesTo_fillSlot {s : State} {r k grp : Nat} {e : ExtElem} {y : Ring} (hk : k < s.rDepth r) (h : s.memOk)
    (hs : e.seq < 2 ^ 32) (hr : y.ring = r) (hx : y.ext = (s.ringX r).ext.filter (fun f => f.seq ≠ e.seq))
    (hp : y.pubd = (s.ringX r).pubd ++ [e.seq]) : MovesTo s ((s.fillSlot r k e.seq e.x grp).setRing y) r k grp e := by
  let t := (s.fillSlot r k e.seq e.x grp).setRing y
  have tag : t.rd (s.tagLoc r k) 8 = _ := (State.rd_setRing _ _ _ _).trans (State.rd_tag_fillSlot h)
  have part (i m j : Nat) (hj : i + (m + j) = 8) := hj ▸ t.rd_part (s.tagLoc r k) i m j
  have small : grp % 2 ^ 16 < 2 ^ 16 := Nat.mod_lt _ (by decide)
  refine ⟨?_, ?_, (State.rd_setRing _ _ _ _).trans (State.rd_slot_fillSlot hk h), ?_, ?_, ?_⟩
  · rw [State.ringX_setRing_of hr, hx]
  · rw [State.ringX_setRing_of hr, hp]
  · refine (part 0 4 4 rfl).trans ?_
    rw [tag]
    split <;> omega
  · refine (part 4 1 3 rfl).trans ?_
    rw [tag]
    split <;> omega
  · refine (part 6 2 0 rfl).trans ?_
    rw [tag]
    split <;> omega

end Sys2Proof.Machine
end

section
/-! SUPPORT. Moves of elements from a ring's extension into its window (R130, R144). -/

namespace Sys2Proof.Machine

/-- The record of a ring with an element of its extension published in the window. -/
def Ring.movedIn (y : Ring) (e : ExtElem) : Ring :=
  { y with pubd := y.pubd ++ [e.seq], ext := y.ext.filter (fun f => f.seq ≠ e.seq) }

section
variable {s t : State} {ring : Nat}

theorem MovesIn.moveAll {n : Nat} (h : MovesIn ring n s t) : s.moveAll ring n = t := by
  induction n generalizing s with
  | zero => exact h.symm
  | succ n ih =>
    rw [State.moveAll]
    rcases h with ⟨hn, rfl⟩ | ⟨u, hu, h⟩
    · rw [hn]
    · rw [hu]
      exact ih h

/-- R130. The step of the extension moves what may move, and tells of it where anything has. -/
theorem extensionMove_of_movesIn (h : MovesIn ring (s.ringX ring).ext.length s t) :
    ((t.ringX ring).ext.length ≠ (s.ringX ring).ext.length → exec (.extensionMove ring) s = .next (t.changeChan ring)) ∧
    ((t.ringX ring).ext.length = (s.ringX ring).ext.length → exec (.extensionMove ring) s = .next s) := by
  change (_ → execExtensionMove ring s = _) ∧ (_ → execExtensionMove ring s = _)
  unfold execExtensionMove
  rw [h.moveAll]
  exact ⟨fun hn => congrArg _ (if_neg hn), fun he => congrArg _ (if_pos he)⟩

/-- R130. On a ring in order of numbers, the first element moves whose number falls into the window. -/
theorem moveOne_inOrder (hx : s.rXord ring = false) :
    let falls := fun (f : ExtElem) => sdiff f.seq (s.rLow ring) < s.rDepth ring
    ((∀ f ∈ (s.ringX ring).ext, ¬falls f) → s.moveOne ring = none) ∧
    (∀ a f b, (s.ringX ring).ext = a ++ f :: b → (∀ g ∈ a, ¬falls g) → falls f → 0 < s.rDepth ring → s.memOk →
      f.seq < 2 ^ 32 → ∃ t, s.moveOne ring = some t ∧ MovesTo s t ring (f.seq % s.rDepth ring) 0 f ∧
        (t.ringX ring).slots = (s.ringX ring).slots) := by
  intro falls
  refine ⟨fun hn => ?_, fun a f b he ha hf hd hm hs => ?_⟩
  · have none : (s.ringX ring).ext.find? (fun e => sdiff e.seq (s.rLow ring) < s.rDepth ring) = none := by
      simpa [falls] using hn
    simp only [State.moveOne, hx, none, Bool.false_eq_true, if_false]
  · have first : (s.ringX ring).ext.find? (fun e => sdiff e.seq (s.rLow ring) < s.rDepth ring) = some f := by
      have early : a.find? (fun e => sdiff e.seq (s.rLow ring) < s.rDepth ring) = none := by simpa [falls] using ha
      rw [he, List.find?_append, early, Option.none_or, List.find?_cons_of_pos (by exact decide_eq_true hf)]
    refine ⟨(s.fillSlot ring (f.seq % s.rDepth ring) f.seq f.x 0).setRing ((s.ringX ring).movedIn f), ?_,
      movesTo_fillSlot (Nat.mod_lt _ hd) hm hs (s.ringX_ring ring) rfl rfl, ?_⟩
    · simp only [State.moveOne, hx, first, Bool.false_eq_true, if_false]
      rfl
    · rw [State.ringX_setRing_of (x := (s.ringX ring).movedIn f) (s.ringX_ring ring)]
      rfl

end

/-! ### The order of an XORD ring (R144) -/

theorem firstFree_none {n : Nat} {l : List Nat} (h : ∀ k, k < n → k ∈ l) : firstFree n l = none := by
  simpa [firstFree] using h

theorem firstFree_some {n k : Nat} {l : List Nat} (hk : k < n) (hf : k ∉ l) (h : ∀ j, j < k → j ∈ l) : firstFree n l = some k := by
  rw [firstFree, List.find?_range_eq_some]
  exact ⟨by simpa using hf, List.mem_range.mpr hk, by simpa using h⟩

theorem find?_seq {l : List ExtElem} {e : ExtElem} (hn : (l.map (·.seq)).Nodup) (he : e ∈ l) :
    l.find? (fun f => f.seq == e.seq) = some e := by
  cases h : l.find? (fun f => f.seq == e.seq) with
  | none => exact absurd (List.find?_eq_none.mp h e he) (by simp)
  | some f =>
    have same : f.seq = e.seq := by simpa using List.find?_some h
    rw [List.inj_on_of_nodup_map hn (List.mem_of_find?_eq_some h) he same]

theorem sdiff_neg_of_pos {a b : Nat} (h : 0 < sdiff a b) : sdiff b a < 0 := by
  unfold sdiff at *
  have swap : BitVec.ofNat 32 b - BitVec.ofNat 32 a = -(BitVec.ofNat 32 a - BitVec.ofNat 32 b) := by
    rw [BitVec.neg_sub, BitVec.sub_eq_add_neg, BitVec.add_comm]
  rw [swap]
  generalize BitVec.ofNat 32 a - BitVec.ofNat 32 b = d at h
  rw [BitVec.toInt_neg]
  have := BitVec.toInt_lt (x := d)
  rw [Int.bmod_def]
  omega

/-- The element with the lower of two numbers. -/
def lowerSeq (best : Option ExtElem) (e : ExtElem) : Option ExtElem :=
  match best with
  | none => some e
  | some b => if sdiff e.seq b.seq < 0 then some e else some b

theorem lowerSeq_foldl_of_best {l : List ExtElem} {e : ExtElem} (h : ∀ f ∈ l, f ≠ e → 0 < sdiff f.seq e.seq) :
    l.foldl lowerSeq (some e) = some e := by
  induction l with
  | nil => rfl
  | cons f l ih =>
    have keep : lowerSeq (some e) f = some e := by
      by_cases hf : f = e
      · simp [lowerSeq, hf]
      · exact if_neg (not_lt.mpr (h f (.head _) hf).le)
    rw [List.foldl_cons, keep, ih fun g hg => h g (.tail _ hg)]

theorem lowerSeq_foldl {l : List ExtElem} {e : ExtElem} {best : Option ExtElem} (he : e ∈ l)
    (h : ∀ f ∈ l, f ≠ e → 0 < sdiff f.seq e.seq) (hb : ∀ f ∈ best, f ≠ e → 0 < sdiff f.seq e.seq) :
    l.foldl lowerSeq best = some e := by
  induction l generalizing best with
  | nil => cases he
  | cons f l ih =>
    rw [List.foldl_cons]
    have later : ∀ g ∈ l, g ≠ e → 0 < sdiff g.seq e.seq := fun g hg => h g (.tail _ hg)
    by_cases hf : f = e
    · subst hf
      have found : lowerSeq best f = some f := by
        cases best with
        | none => rfl
        | some b =>
          by_cases hbf : b = f
          · simp [lowerSeq, hbf]
          · exact if_pos (sdiff_neg_of_pos (hb b rfl hbf))
      rw [found, lowerSeq_foldl_of_best later]
    · refine ih ((List.mem_cons.mp he).resolve_left (Ne.symm hf)) later fun g hg => ?_
      have one : g = f ∨ g ∈ best := by
        cases best with
        | none => exact .inl (Option.some.inj hg).symm
        | some b =>
          simp only [lowerSeq] at hg
          split at hg
          · exact .inl (Option.some.inj hg).symm
          · exact .inr hg
      rcases one with rfl | hg
      · exact h g (.head _)
      · exact hb g hg

/-- The element that an XORD ring takes from its extension next. -/
def Ring.nextOut (y : Ring) (depth : Nat) : Option ExtElem :=
  match y.order.findSome? (fun q => y.ext.find? (fun e => e.seq == q)) with
  | some e => some e
  | none => if y.looseInWindow ≤ (depth + 1) / 2 - 1 then y.ext.foldl lowerSeq none else none

theorem findSome?_unplaced {y : Ring} {a : List Nat} (h : ∀ f ∈ y.ext, f.seq ∉ a) :
    a.findSome? (fun q => y.ext.find? (fun e => e.seq == q)) = none := by
  simp only [List.findSome?_eq_none_iff, List.find?_eq_none, beq_iff_eq]
  rintro q hq f hf rfl
  exact h f hf hq

theorem ComesFirst.nextOut {y : Ring} {depth : Nat} {e : ExtElem} (h : ComesFirst y depth e) (he : e ∈ y.ext)
    (hn : (y.ext.map (·.seq)).Nodup) : y.nextOut depth = some e := by
  unfold Ring.nextOut
  rcases h with ⟨a, b, ho, ha⟩ | ⟨ho, hl, hlow⟩
  · rw [ho, List.findSome?_append, findSome?_unplaced ha, Option.none_or, List.findSome?_cons, find?_seq hn he]
  · rw [findSome?_unplaced ho]
    dsimp only
    rw [if_pos (by omega), lowerSeq_foldl he hlow (by simp)]

section
variable {s : State} {ring : Nat}

theorem moveOne_xord (hx : s.rXord ring = true) : s.moveOne ring =
    (firstFree (s.rDepth ring) ((s.ringX ring).slots.map (·.1))).bind fun k =>
      ((s.ringX ring).nextOut (s.rDepth ring)).map fun e =>
        (s.fillSlot ring k e.seq e.x (e.grp.getD 0)).setRing
          { (s.ringX ring).movedIn e with slots := (s.ringX ring).slots ++ [(k, e.seq)] } := by
  unfold State.moveOne
  dsimp only
  rw [if_pos hx]
  cases firstFree (s.rDepth ring) ((s.ringX ring).slots.map (·.1)) with
  | none => rfl
  | some k =>
    change (match (s.ringX ring).nextOut (s.rDepth ring) with | none => _ | some e => _) = _
    cases (s.ringX ring).nextOut (s.rDepth ring) <;> rfl

/-- R144. On an XORD ring, the element that comes first moves into the lowest free slot. -/
theorem moveOne_inDelivery (hx : s.rXord ring = true) :
    let y := s.ringX ring
    let taken := fun k => ∃ p ∈ y.slots, p.1 = k
    ((∀ k, k < s.rDepth ring → taken k) → s.moveOne ring = none) ∧
    ((∀ f ∈ y.ext, f.seq ∉ y.order) → (s.rDepth ring + 1) / 2 ≤ y.looseInWindow → s.moveOne ring = none) ∧
    (∀ k f, k < s.rDepth ring → ¬taken k → (∀ j, j < k → taken j) → f ∈ y.ext → (y.ext.map (·.seq)).Nodup →
      ComesFirst y (s.rDepth ring) f → s.memOk → f.seq < 2 ^ 32 →
      ∃ t, s.moveOne ring = some t ∧ MovesTo s t ring k (f.grp.getD 0) f ∧
        (t.ringX ring).slots = y.slots ++ [(k, f.seq)]) := by
  intro y taken
  have mem : ∀ k, k ∈ y.slots.map (·.1) ↔ taken k := fun k => by simp [taken]
  rw [moveOne_xord hx]
  refine ⟨fun h => ?_, fun ho hl => ?_, fun k f hk ht hj hf hn hc hm hs => ?_⟩
  · rw [firstFree_none fun k hk => (mem k).mpr (h k hk)]
    rfl
  · rcases Nat.eq_zero_or_pos (s.rDepth ring) with hd | hd
    · rw [hd]
      rfl
    · have stays : y.nextOut (s.rDepth ring) = none := by
        unfold Ring.nextOut
        rw [findSome?_unplaced ho]
        exact if_neg (by omega)
      rw [stays]
      cases firstFree (s.rDepth ring) ((s.ringX ring).slots.map (·.1)) <;> rfl
  · rw [firstFree_some hk (fun h => ht ((mem k).mp h)) fun j h => (mem j).mpr (hj j h), hc.nextOut hf hn]
    refine ⟨_, rfl, movesTo_fillSlot hk hm hs (s.ringX_ring ring) rfl rfl, ?_⟩
    rw [State.ringX_setRing_of (x := { y.movedIn f with slots := y.slots ++ [(k, f.seq)] }) (s.ringX_ring ring)]

end

end Sys2Proof.Machine
end

section
/-! SUPPORT. A grant to one end that waits (R129), the return of a fetch and an answer to one (R146, R147, R387), and the next
element of a stream (R150, R151). -/

namespace Sys2Proof.Machine

/-! ### Grants (R129) -/

section
variable {s u : State} {ring c e : Nat}

theorem State.adopt_taken (h : (s.ringX ring).geo ≠ none) : s.adopt ring = s :=
  if_pos (.inl (Option.isSome_iff_ne_none.mpr h))

/-- Where no end sleeps, what is left of the free places stays. -/
theorem State.grantMore_nil (keep n : Nat) : s.grantMore ring [] keep n = s := by
  cases n with
  | zero => rfl
  | succ n =>
    unfold State.grantMore
    simp [State.grantEach]

theorem State.xordAccepts_of_not_xord {g : Option Nat} {n : Nat} (h : s.rXord ring = false) : s.xordAccepts ring g n = true := by
  simp [State.xordAccepts, h]

/-- An end of this module that waits gets one credit, where there is a place and nothing keeps it out. -/
theorem grantTo_free (ht : s.tokenOn c ring = false) (hf : 0 < s.rFree ring) (hx : s.rXord ring = false) (hp : isPeer c = false) :
    s.grantTo ring (c, e) = some ((s.setCredit c e ring (s.credit c e ring + 1)).rPut ring 44 (s.rGrant ring + 1)) := by
  unfold State.grantTo
  dsimp only
  rw [ht, if_neg Bool.false_ne_true, if_pos ⟨hf, State.xordAccepts_of_not_xord hx⟩, State.giveCredit]
  simp [hp]

/-- R129. The grant of a ring to the one end that waits for it. -/
theorem creditGrant_one (hw : (s.ringX ring).waiters = [(c, e)]) (hd : (s.ringX ring).dry = [(c, e)]) (hx : isXring ring = false)
    (hf : 0 < s.rFree ring) (ho : s.rXord ring = false) (ht : s.tokenOn c ring = false) (hc : c < 2 ^ 16)
    (hq : s.Unasked ring) (hg : (s.ringX ring).geo ≠ none) :
    let t := (s.setCredit c e ring (s.credit c e ring + 1)).rPut ring 44 (s.rGrant ring + 1)
    let u := t.changeChan (t.endLoc c e)
    (u.ctx c).asleep = false → u.rXord ring = false → u.diverted ring = false →
    (u.ringX ring).waiters = [(c, e)] → (u.ringX ring).dry = [(c, e)] →
    u.credit c e ring ≠ 0 → exec (.creditGrant ring) s = .next (u.setRing { u.ringX ring with waiters := [], dry := [] }) := by
  intro t u hs hxu hdu hwu hyu hcu
  have here : isPeer c = false := decide_eq_false (by omega)
  have first : s.grantEach ring [(c, e)] = u := by
    rw [State.grantEach, grantTo_free ht hf ho here]
    dsimp only
    rw [here]
    rfl
  have takes : u.takes ring (u.ctx c).group = true := by
    simp [State.takes, State.xordAccepts_of_not_xord hxu, State.spillRoom, hdu]
  change execCreditGrant ring s = _
  unfold execCreditGrant
  rw [hx, hq.peerAsks]
  unfold State.grant
  simp only [Bool.false_eq_true, if_false]
  rw [State.adopt_taken hg, if_neg (by simpa using hg)]
  simp [hw, hd, first, hs, State.grantMore_nil, hwu, hyu, hcu, takes]

end

/-! ### Reference engines (R146, R147, R387) -/

section
variable {s : State} {c e til : Nat} {r : RefBind} {va : Word} {rest : List Fetch}

/-- The first fetch of a binding returns the value at its address. -/
theorem engineFetchComplete_value {pa : Nat} {ent : Word}
    (hr : (s.til (tilOf c)).refs.find? (fun r => r.cid == c && r.idx == e) = some r) (hf : r.fetches = .pending va :: rest)
    (hx : s.devXlate (s.partOf (tilOf c)) (tilOf c) va.toNat .load = .ok (pa, ent)) :
    let n := if r.rsize = 0 then 4 else if r.rsize = 1 then 8 else 64
    s.poisoned pa n = false → exec (.engineFetchComplete c e) s = .next ((s.refDeliver { r with
      fetches := .done { awn := false, data := BitVec.ofNat 512 (s.rd pa n) } :: rest }).startQueued (tilOf c) r.eng 1) := by
  intro n hp
  have back : s.fetchBack c e = s.refDeliver { r with
      fetches := .done { awn := false, data := BitVec.ofNat 512 (s.rd pa n) } :: rest } := by
    simp only [State.fetchBack, hr, hf, List.findSome?_cons, hx, answerFirst]
    exact if_neg (by rw [hp]; exact Bool.false_ne_true)
  change Host.Outcome.next (s.fetchReturn c e) = _
  rw [State.fetchReturn, hr]
  dsimp only
  rw [back]

/-- An answer to the first fetch of a binding, which has faulted: it is fetched again, or it fails. -/
theorem engineReply_answers {body : Body} (hl : s.sidLive (BitVec.ofNat 32 (Body.field body 0 4)) = true)
    (hc : cidOfSid (BitVec.ofNat 32 (Body.field body 0 4)) = c) (he : Body.field body 5 1 ≤ 1) (hd : Body.field body 6 2 < 2 ^ 14)
    (hz : Body.field body 8 8 = 0)
    (hr : (s.til til).refs.find? (fun r => r.cid == c && r.desc == Body.field body 6 2 * 64 && r.eng == Body.field body 5 1) =
      some r) (hf : r.fetches = .faulted va :: rest) :
    (Body.field body 4 1 = 0 → exec (.engineReply til body) s =
      .next ((s.refDeliver { r with fetches := .pending va :: rest }).later (.engineFetchComplete r.cid r.idx))) ∧
    (Body.field body 4 1 = 1 →
      exec (.engineReply til body) s =
        .next ((s.refDeliver { r with fetches := .done fetchFail :: rest }).startQueued til r.eng 1)) := by
  subst hc
  have eng : r.eng = Body.field body 5 1 := by
    have := List.find?_some hr
    simp only [Bool.and_eq_true, beq_iff_eq] at this
    exact this.2
  have whole (h : Body.field body 4 1 ≤ 1) : ¬(1 < Body.field body 4 1 ∨ 1 < Body.field body 5 1 ∨ 2 ^ 14 ≤ Body.field body 6 2 ∨
      Body.field body 8 8 ≠ 0 ∨ (!s.sidLive (BitVec.ofNat 32 (Body.field body 0 4))) = true) := by
    rw [hl]
    simp
    omega
  change (_ → execEngineReply til body s = _) ∧ (_ → execEngineReply til body s = _)
  unfold execEngineReply
  dsimp only
  refine ⟨fun ha => ?_, fun ha => ?_⟩
  · rw [if_neg (whole (by omega)), hr]
    simp [hf, answerFault, ha]
  · rw [if_neg (whole (by omega)), hr]
    simp [hf, answerFault, ha, eng]

end

/-! ### Streams (R150, R151) -/

section
variable {s : State} {c e loc : Nat} {b : StreamBind} {ent : Word}

/-- The port reads the next element of a read stream. -/
theorem streamReadElement_value (hb : s.streamOf c e = some b) (hs : b.stalled = false) (hw : b.write = false)
    (he : b.ended = false) (hl : b.buf.length < 8) :
    let n := if 8 ≤ e then 64 else 8
    s.spot (tilOf c) (b.addr b.pos) n .load = .at_ loc ent → s.poisoned loc n = false →
      exec (.streamReadElement c e) s = .next (s.streamDeliver b { awn := false, data := BitVec.ofNat 512 (s.rd loc n) }) := by
  intro n hp hg
  have goes : ¬(b.write = true ∨ b.ended = true ∨ b.stalled = true ∨ readAhead ≤ b.buf.length) := by
    simp [hw, he, hs, readAhead, hl]
  change Host.Outcome.next (s.streamRead c e) = _
  rw [State.streamRead, hb]
  dsimp only
  rw [if_neg goes, hp]
  dsimp only
  rw [if_neg (by rw [hg]; exact Bool.false_ne_true)]

/-- The port stores the next element of a store stream. -/
theorem streamStoreElement_value {x : Elem} {rest : List Elem} (hb : s.streamOf c e = some b) (hs : b.stalled = false)
    (hw : b.write = true) (he : e < 16) (hx : b.buf = x :: rest) :
    let n := if 8 ≤ e then 64 else 8
    s.spot (tilOf c) (b.addr b.pos) n .store = .at_ loc ent →
      exec (.streamStoreElement c e) s =
        .next ((s.devStore loc (s.partOf (tilOf c)) (bytesOfNat n x.data.toNat)).streamStored b) := by
  intro n hp
  change Host.Outcome.next (s.streamStore c e) = _
  rw [State.streamStore, hb]
  dsimp only
  rw [if_neg (by simp [hw, hs]), hx, Nat.mod_eq_of_lt he]
  dsimp only
  rw [hp]

end

end Sys2Proof.Machine
end

section
/-! SUPPORT. The merge unit's step and its counters (R351, R353). -/

namespace Sys2Proof.Machine

theorem State.putBytes_til (s : State) (a n : Nat) (bs : List Byte) : (s.putBytes a bs).til n = s.til n := by
  induction bs generalizing s a with
  | nil => rfl
  | cons b bs ih => exact ih (s.setByte a b) (a + 1)

/-- Bytes that a unit of the device writes leave a tiller as it was but for who watches and what is staged. -/
theorem State.devWr_til_told (s : State) (a n x m : Nat) : (s.til m).Told ((s.devWr a n x).til m) :=
  s.putBytes_til a m (bytesOfNat n x) ▸ (State.Told.devWr (s := s) (a := a) (n := n) (x := x)).til m

/-- A counter advances by one, if something is to be counted. -/
def State.counted (s : State) (a : Nat) (on : Bool) : State := if on then s.devWr a 4 (s.rd a 4 + 1) else s

section
variable {s : State} {a : Nat} {on : Bool}

theorem State.counted_til_told (s : State) (a n : Nat) (on : Bool) : (s.til n).Told ((s.counted a on).til n) := by
  cases on with
  | true => exact s.devWr_til_told _ _ _ n
  | false => exact .refl _

theorem State.counted_memOk (h : s.memOk) : (s.counted a on).memOk := by
  cases on with
  | true => exact State.Told.devWr.memOk (State.wr_memOk _ _ _ h)
  | false => exact h

theorem State.rd_counted (h : s.memOk) : (s.counted a on).rd a 4 = (s.rd a 4 + if on then 1 else 0) % 2 ^ 32 := by
  cases on with
  | true => exact (State.Told.devWr.rd _ _).trans (State.rd_wr _ _ _ h)
  | false => exact (Nat.mod_eq_of_lt (s.rd_lt a 4)).symm

theorem State.rd_counted_apart {b : Nat} (h : s.memOk) (hd : b + 4 ≤ a ∨ a + 4 ≤ b) : (s.counted a on).rd b 4 = s.rd b 4 := by
  cases on with
  | true => exact (State.Told.devWr.rd _ _).trans (State.rd_wr_apart _ _ _ _ _ h hd)
  | false => rfl

end

section
variable {s : State} {til : Nat} {m : Merge} {x y : Elem} {xs ys : List Elem}

/-- The unit past the step that it makes from its two heads. -/
def Merge.stepped (m : Merge) (x y : Elem) (xs ys : List Elem) : Merge :=
  let p := m.decide x y
  { m with
    bufa := if p.takeA then xs else m.bufa, bufb := if p.takeB then ys else m.bufb
    bufo := m.bufo ++ p.emit.toList
    lasta := lastAfter p.takeA x m.lasta p.err, lastb := lastAfter p.takeB y m.lastb p.err }

/-- R351. With its ends bound, a head of each input and room, the unit makes its step, counts, and tells of it. -/
theorem exec_mergeEmit (hm : (s.til til).merge = some m) (ha : m.bufa = x :: xs) (hb : m.bufb = y :: ys) (hia : m.ina ≠ none)
    (hib : m.inb ≠ none) (ho : m.out ≠ none) (hr : m.bufo.length < 32) :
    let d := locSpad til m.desc
    exec (.mergeEmit til) s = .next (((((s.modTil til (fun t => { t with merge := some (m.stepped x y xs ys) })).counted (d + 4)
      (m.decide x y).emit.isSome).counted (d + 8) (m.decide x y).err).changeKey (.chan (lineOf d))).laterOnce (.mergeEmit til)) := by
  intro d
  have goes : ¬(m.ina.isNone = true ∨ m.inb.isNone = true ∨ m.out.isNone = true ∨ 32 ≤ m.bufo.length) := by
    simp [hia, hib, ho, hr]
  change Host.Outcome.next (s.mergeStep til) = _
  simp only [State.mergeStep, hm]
  rw [ha, hb]
  dsimp only
  rw [if_neg goes]
  simp only [State.counted, Merge.stepped, ha, hb]
  rfl

theorem lastAfter_eq (took err : Bool) (x : Elem) (old : Option Nat) : lastAfter took x old err =
    if took = false then old else if x.awn then none else if err then old else some x.index := by
  cases took <;> rfl

/-- R351. The step of the unit takes, emits and counts as its two heads decide. -/
theorem mergeEmit_step (hm : (s.til til).merge = some m) (ha : m.bufa = x :: xs) (hb : m.bufb = y :: ys) (hia : m.ina ≠ none)
    (hib : m.inb ≠ none) (ho : m.out ≠ none) (hr : m.bufo.length < 32) :
    let p := m.decide x y
    let d := locSpad til m.desc
    let last := fun (took : Bool) (q : Elem) (old : Option Nat) =>
      if took = false then old else if q.awn then none else if p.err then old else some q.index
    ∃ t m', exec (.mergeEmit til) s = .next t ∧ (t.til til).merge = some m' ∧ m'.bufo = m.bufo ++ p.emit.toList ∧
      m'.bufa = (if p.takeA then xs else m.bufa) ∧ m'.bufb = (if p.takeB then ys else m.bufb) ∧
      m'.lasta = last p.takeA x m.lasta ∧ m'.lastb = last p.takeB y m.lastb ∧
      (s.memOk → t.rd (d + 4) 4 = (s.rd (d + 4) 4 + if p.emit.isSome then 1 else 0) % 2 ^ 32 ∧
        t.rd (d + 8) 4 = (s.rd (d + 8) 4 + if p.err then 1 else 0) % 2 ^ 32) := by
  intro p d last
  let s₁ := s.modTil til (fun t => { t with merge := some (m.stepped x y xs ys) })
  let s₂ := s₁.counted (d + 4) p.emit.isSome
  let s₃ := s₂.counted (d + 8) p.err
  let t := (s₃.changeKey (.chan (lineOf d))).laterOnce (.mergeEmit til)
  have told : s₃.Told t := .trans .changeKey .laterOnce
  have unit : (t.til til).merge = some (m.stepped x y xs ys) := by
    rw [(told.til til).merge, (s₂.counted_til_told _ _ _).merge, (s₁.counted_til_told _ _ _).merge, State.til_modTil]
  refine ⟨t, m.stepped x y xs ys, exec_mergeEmit hm ha hb hia hib ho hr, unit, rfl, rfl, rfl, lastAfter_eq .., lastAfter_eq .., ?_⟩
  intro hk
  have first : s₁.memOk := hk
  have same (a : Nat) : s₁.rd a 4 = s.rd a 4 := State.rd_congr a 4 fun _ _ _ => rfl
  rw [told.rd, told.rd]
  refine ⟨?_, ?_⟩
  · rw [State.rd_counted_apart (State.counted_memOk first) (.inl (by omega)), State.rd_counted first, same]
  · rw [State.rd_counted (State.counted_memOk first), State.rd_counted_apart first (.inr (by omega)), same]

end

section
variable {d a : BitVec 5} {s r v : State}

/-- R353. MRGC gives, and clears if asked to, the counters of the descriptor that its end names. -/
theorem mergeCounters_ok (clear : Bool) (hk : bindKind (r.me.getBind a.toNat) = 3)
    (hw : Writes d (if clear then r.devWr (bindLoc r.cur (r.me.getBind a.toNat) + 4) 8 0 else r)
      (BitVec.ofNat 64 (r.rd (bindLoc r.cur (r.me.getBind a.toNat) + 8) 4 * 2 ^ 32 +
        r.rd (bindLoc r.cur (r.me.getBind a.toNat) + 4) 4)) v) {i : Instr} (hr : Ready i s r) :
    perform i (mergeCounters d a clear) s = .next v.past := by
  refine perform_next hr ?_
  rw [bind_ok (boundEnd_ok (ne_zero_of_bindKind hk))]
  simp only [hk, ne_eq, not_true_eq_false, if_false]
  rw [bind_ok (op_get r)]
  cases clear with
  | false => exact hw
  | true =>
    rw [if_pos rfl, bind_ok (op_upd _ r)]
    exact hw

end

end Sys2Proof.Machine
end

section
/-! SUPPORT. What the merge unit decides from its two heads (R351, R352), and that a sum or product of FP32 is a word of 32 bits
(R271). -/

namespace Sys2Proof.Machine

/-! ### Results of FP32 are words (R271) -/

theorem ite_succ_le {c : Prop} [Decidable c] {q n : Nat} (h : q < n) : (if c then q + 1 else q) ≤ n := by
  split <;> omega

/-- A shift that leaves a fraction and its leading bit rounds to at most one more than these hold. -/
theorem roundShift_le {num m : Nat} {k : Int} (mode : Nat) (neg sticky : Bool) (h : (Nat.log2 num : Int) ≤ m + k) :
    (roundShift mode neg num k sticky).1 ≤ 2 ^ (m + 1) := by
  have top : num < 2 ^ (Nat.log2 num + 1) := Nat.lt_log2_self
  have one : 1 ≤ 2 ^ (m + 1) := Nat.one_le_two_pow
  unfold roundShift
  split
  · next left =>
    calc num * 2 ^ (-k).toNat ≤ 2 ^ (Nat.log2 num + 1) * 2 ^ (-k).toNat := Nat.mul_le_mul_right _ top.le
      _ = 2 ^ (Nat.log2 num + 1 + (-k).toNat) := (Nat.pow_add ..).symm
      _ ≤ 2 ^ (m + 1) := Nat.pow_le_pow_right (by decide) (by omega)
  split
  · dsimp only
    split <;> omega
  · have below : num / 2 ^ k.toNat < 2 ^ (m + 1) := by
      rw [Nat.div_lt_iff_lt_mul (by positivity), ← Nat.pow_add]
      exact top.trans_le (Nat.pow_le_pow_right (by decide) (by omega))
    exact ite_succ_le below

theorem sign_FP32 (neg : Bool) : FP32.sign neg ≤ 2 ^ 31 := by cases neg <;> decide

theorem round_FP32_lt (mode : Nat) (neg : Bool) (num : Nat) (exp : Int) (sticky : Bool) :
    (FP32.round mode neg num exp sticky).1 < 2 ^ 32 := by
  have sign := sign_FP32 neg
  unfold Fmt.round
  split
  · exact sign.trans_lt (by decide)
  have fits := roundShift_le (m := 23) (num := num) (k := max ((Nat.log2 num : Int) + exp) FP32.emin - FP32.m - exp) mode neg sticky
    (by simp only [FP32]; omega)
  dsimp only
  generalize (roundShift mode neg num (max ((Nat.log2 num : Int) + exp) FP32.emin - FP32.m - exp) sticky).1 = r at fits ⊢
  generalize (if 2 ^ (FP32.m + 1) ≤ r then max ((Nat.log2 num : Int) + exp) FP32.emin + 1 else max ((Nat.log2 num : Int) + exp)
    FP32.emin) = e
  have frac : (if 2 ^ (FP32.m + 1) ≤ r then r / 2 else r) < 2 ^ 24 := by
    by_cases up : 2 ^ (FP32.m + 1) ≤ r
    · rw [if_pos up]
      omega
    · rw [if_neg up]
      exact not_le.mp up
  generalize (if 2 ^ (FP32.m + 1) ≤ r then r / 2 else r) = q at frac
  split
  · unfold Fmt.overflow
    rw [if_neg (show ¬FP32.g8 = true from Bool.false_ne_true)]
    dsimp only
    split <;> cases neg <;> decide
  · next range =>
    have top : e ≤ 127 := not_lt.mp fun h => range (.inl h)
    split
    · dsimp only
      omega
    · simp only [FP32] at sign ⊢
      omega

theorem roundInt_FP32_lt (mode : Nat) (zneg : Bool) (x exp : Int) : (FP32.roundInt mode zneg x exp).1 < 2 ^ 32 := by
  unfold Fmt.roundInt
  split
  · exact (sign_FP32 _).trans_lt (by decide)
  · exact round_FP32_lt ..

theorem roundInf_FP32_lt (neg : Bool) : (FP32.roundInf neg).1 < 2 ^ 32 := by cases neg <;> decide

theorem nanRule_FP32_lt {vs : List Val} {r : Nat × Flags} (h : r.1 < 2 ^ 32) : (FP32.nanRule vs r).1 < 2 ^ 32 := by
  unfold Fmt.nanRule
  split
  · decide
  split
  · decide
  · exact h

theorem sum_FP32_lt (mode : Nat) (x y : Val) : (FP32.sum mode x y).1 < 2 ^ 32 := by
  unfold Fmt.sum
  split
  case h_1 => decide
  case h_2 => decide
  case h_3 a b =>
    split
    · exact roundInf_FP32_lt a
    · decide
  case h_4 a _ _ _ => exact roundInf_FP32_lt a
  case h_5 b => exact roundInf_FP32_lt b
  case h_6 => exact roundInt_FP32_lt ..

theorem add_FP32_lt (mode x y : Nat) : (FP32.add mode x y).1 < 2 ^ 32 := nanRule_FP32_lt (sum_FP32_lt ..)

theorem ofVal_FP32_lt (mode : Nat) (v : Val) : (FP32.ofVal mode v).1 < 2 ^ 32 := by
  cases v with
  | nan s => exact (by decide : FP32.nan < 2 ^ 32)
  | inf n => exact roundInf_FP32_lt n
  | fin n m e => exact round_FP32_lt ..

theorem mul_FP32_lt (mode x y : Nat) : (FP32.mul mode x y).1 < 2 ^ 32 := by
  refine nanRule_FP32_lt ?_
  split
  · decide
  · exact ofVal_FP32_lt ..

/-! ### The elements of the unit (R351) -/

theorem Elem.index_eq (x : Elem) : x.index = x.data.toNat / 2 ^ 32 % 2 ^ 32 := by
  simp [Elem.index, Nat.shiftRight_eq_div_pow]

theorem Elem.value_eq (x : Elem) : x.value = x.data.toNat % 2 ^ 32 := by
  simp [Elem.value]

theorem pairElem_eq {i v : Nat} (h : v < 2 ^ 32) : pairElem i v = { awn := false, data := BitVec.ofNat 512 (i * 2 ^ 32 + v) } := by
  rw [pairElem, Nat.mod_eq_of_lt h]

theorem awnElem_toNat (n : Nat) (c : BitVec 32) : (awnElem n c).data.toNat = c.toNat + n % 8 * 2 ^ 32 := by
  have small : c.toNat + n % 8 * 2 ^ 32 < 2 ^ 36 := by omega
  rw [awnElem, BitVec.toNat_ofNat, Nat.mod_eq_of_lt (small.trans (Nat.pow_lt_pow_right one_lt_two (by omega)))]

theorem awnElem_level {n : Nat} (c : BitVec 32) (h : n < 8) : (awnElem n c).level = n := by
  rw [Elem.level, BitVec.extractLsb'_toNat, awnElem_toNat, Nat.shiftRight_eq_div_pow]
  omega

theorem awnElem_code (n : Nat) (c : BitVec 32) : (awnElem n c).code = c := by
  apply BitVec.eq_of_toNat_eq
  rw [Elem.code, BitVec.extractLsb'_toNat, awnElem_toNat, Nat.shiftRight_eq_div_pow]
  omega

theorem notAbove_iff (x : Elem) (last : Option Nat) :
    notAbove x last = true ↔ x.awn = false ∧ ∃ n, last = some n ∧ x.index ≤ n := by
  cases last <;> simp [notAbove]

/-! ### The step (R351, R352) -/

section
variable {m : Merge} {a b : Elem}

theorem Merge.compute_int (x y : Elem) (h : m.isInt = true) : (m.compute x.value y.value).1 < 2 ^ 32 ∧
    intOf 0 (m.compute x.value y.value).1 = min (2 ^ 31 - 1) (max (-2 ^ 31)
      (if m.mode = 0 then intOf 0 x.value + intOf 0 y.value else intOf 0 x.value * intOf 0 y.value)) := by
  have word (z : Elem) : laneInt 0 z.value = intOf 0 z.value := laneInt_eq_intOf (t := 0) (z.data.extractLsb' 0 32).isLt
  simp only [Merge.compute, h, if_true, word]
  obtain ⟨lt, value, -⟩ := (saturates_iff 0 _ _).mp (saturates_satLane 0
    (if m.mode = 0 then intOf 0 x.value + intOf 0 y.value else intOf 0 x.value * intOf 0 y.value))
  exact ⟨lt, value⟩

theorem Merge.compute_float (x y : Nat) (h : m.isInt = false) : (m.compute x y).1 < 2 ^ 32 ∧
    (m.compute x y).1 = (if m.mode = 0 then laneAdd 2 0 x y else laneMul 2 0 x y).1 := by
  simp only [Merge.compute, h, Bool.false_eq_true, if_false]
  split
  · exact ⟨add_FP32_lt .., rfl⟩
  · exact ⟨mul_FP32_lt .., rfl⟩

theorem Merge.compute_lt (x y : Elem) : (m.compute x.value y.value).1 < 2 ^ 32 := by
  cases h : m.isInt with
  | true => exact (Merge.compute_int x y h).1
  | false => exact (Merge.compute_float _ _ h).1

theorem Merge.compute_drops (x y : Nat) : (m.compute x y).2 = true ↔
    m.dropz = true ∧ ((m.compute x y).1 = 0 ∨ m.isInt = false ∧ (m.compute x y).1 = 2 ^ 31) := by
  simp only [Merge.compute, Bool.and_eq_true, Bool.or_eq_true, decide_eq_true_eq, Bool.not_eq_true']

theorem decide_lowA (h : notAbove a m.lasta = true) :
    m.decide a b = { takeA := true, takeB := false, emit := none, err := true } := if_pos h

section
variable (ha : ¬notAbove a m.lasta = true)
include ha

theorem decide_lowB (hb : notAbove b m.lastb = true) :
    m.decide a b = { takeA := false, takeB := true, emit := none, err := true } := (if_neg ha).trans (if_pos hb)

variable (hb : ¬notAbove b m.lastb = true)
include hb

theorem decide_awns (h : a.awn = true) (h' : b.awn = true) : m.decide a b =
    if a.level = b.level then { takeA := true, takeB := true, emit := some (awnElem a.level a.code), err := false }
    else { takeA := a.level < b.level, takeB := b.level < a.level, emit := none, err := true } :=
  (if_neg ha).trans ((if_neg hb).trans (if_pos ⟨h, h'⟩))

theorem decide_passA (h : a.awn = false) (h' : b.awn = true ∨ a.index < b.index) :
    m.decide a b = { takeA := true, takeB := false, emit := m.pass a 1, err := false } := by
  refine (if_neg ha).trans ((if_neg hb).trans ((if_neg (by simp [h])).trans (if_pos ?_)))
  simpa [h] using h'

theorem decide_passB (h : b.awn = false) (h' : a.awn = true ∨ b.index < a.index) :
    m.decide a b = { takeA := false, takeB := true, emit := m.pass b 2, err := false } := by
  refine (if_neg ha).trans ((if_neg hb).trans ((if_neg (by simp [h])).trans ((if_neg ?_).trans (if_pos h'))))
  rintro (k | ⟨k, lt⟩)
  · simp [h] at k
  · rcases h' with h' | h'
    · simp [h'] at k
    · omega

theorem decide_match (h : a.awn = false) (h' : b.awn = false) (he : a.index = b.index) : m.decide a b =
    { takeA := true, takeB := true, err := false
      emit := if m.mode = 2 then some (pairElem a.index 3) else if (m.compute a.value b.value).2 then none
        else some (pairElem a.index (m.compute a.value b.value).1) } := by
  refine (if_neg ha).trans ((if_neg hb).trans ((if_neg (by simp [h])).trans ((if_neg (by simp [h', he])).trans
    ((if_neg (by simp [h, he])).trans ?_))))
  split <;> rfl

end

/-- R351. An element without its match. -/
theorem Merge.pass_eq (m : Merge) (x : Elem) {flag : Nat} (h : flag < 2 ^ 32) : m.pass x flag =
    if m.mode = 0 then some x else if m.mode = 1 then none
    else some { awn := false, data := BitVec.ofNat 512 (x.index * 2 ^ 32 + flag) } := by
  rw [Merge.pass, pairElem_eq h]

/-- R351, R352. What the unit does with two heads. -/
theorem mergeDecide (m : Merge) (a b : Elem) :
    let i := fun (x : Elem) => x.data.toNat / 2 ^ 32 % 2 ^ 32
    let v := fun (x : Elem) => x.data.toNat % 2 ^ 32
    let pair := fun (n w : Nat) => ({ awn := false, data := BitVec.ofNat 512 (n * 2 ^ 32 + w) } : Elem)
    let mode := m.mmode.toNat % 4
    let low := fun (x : Elem) (last : Option Nat) => x.awn = false ∧ ∃ n, last = some n ∧ i x ≤ n
    let passed := fun (x : Elem) (flag : Nat) => if mode = 0 then some x else if mode = 1 then none else some (pair (i x) flag)
    (low a m.lasta → m.decide a b = { takeA := true, takeB := false, emit := none, err := true }) ∧
    (¬low a m.lasta → low b m.lastb → m.decide a b = { takeA := false, takeB := true, emit := none, err := true }) ∧
    (¬low a m.lasta → ¬low b m.lastb → mode ≤ 2 →
      (a.awn = true → b.awn = true → a.level = b.level → ∃ x : Elem, x.awn = true ∧ x.level = a.level ∧ x.code = a.code ∧
        m.decide a b = { takeA := true, takeB := true, emit := some x, err := false }) ∧
      (a.awn = true → b.awn = true → a.level ≠ b.level → m.decide a b =
        { takeA := decide (a.level < b.level), takeB := decide (b.level < a.level), emit := none, err := true }) ∧
      (a.awn = false → b.awn = true ∨ i a < i b → m.decide a b =
        { takeA := true, takeB := false, emit := passed a 1, err := false }) ∧
      (b.awn = false → a.awn = true ∨ i b < i a → m.decide a b =
        { takeA := false, takeB := true, emit := passed b 2, err := false }) ∧
      (a.awn = false → b.awn = false → i a = i b → ∃ e, m.decide a b = { takeA := true, takeB := true, emit := e, err := false } ∧
        (mode = 2 → e = some (pair (i a) 3)) ∧
        (mode < 2 → ∃ w, (m.mmode.getLsbD 3 = true → w < 2 ^ 32 ∧ intOf 0 w = min (2 ^ 31 - 1) (max (-2 ^ 31)
            (if mode = 0 then intOf 0 (v a) + intOf 0 (v b) else intOf 0 (v a) * intOf 0 (v b)))) ∧
          (m.mmode.getLsbD 3 = false → w = (if mode = 0 then laneAdd 2 0 (v a) (v b) else laneMul 2 0 (v a) (v b)).1) ∧
          let zero := m.mmode.getLsbD 2 = true ∧ (w = 0 ∨ m.mmode.getLsbD 3 = false ∧ w = 2 ^ 31)
          (zero → e = none) ∧ (¬zero → e = some (pair (i a) w))))) := by
  intro i v pair mode low passed
  have lowIff (x : Elem) (last : Option Nat) : low x last ↔ notAbove x last = true := by
    rw [notAbove_iff, Elem.index_eq]
  have index (x : Elem) : i x = x.index := x.index_eq.symm
  have value (x : Elem) : v x = x.value := x.value_eq.symm
  rw [lowIff, lowIff]
  refine ⟨decide_lowA, decide_lowB, fun ha hb hm => ⟨fun h h' he => ?_, fun h h' he => ?_, fun h h' => ?_, fun h h' => ?_,
    fun h h' he => ?_⟩⟩
  · refine ⟨awnElem a.level a.code, rfl, awnElem_level _ (a.data.extractLsb' 32 3).isLt, awnElem_code _ _, ?_⟩
    rw [decide_awns ha hb h h', if_pos he]
  · rw [decide_awns ha hb h h', if_neg he]
  · rw [index, index] at h'
    rw [decide_passA ha hb h h', m.pass_eq a (by decide), ← index]
    rfl
  · rw [index, index] at h'
    rw [decide_passB ha hb h h', m.pass_eq b (by decide), ← index]
    rfl
  · rw [index, index] at he
    refine ⟨_, decide_match ha hb h h' he, fun two => ?_, fun two => ⟨(m.compute a.value b.value).1, fun hi => ?_, fun hi => ?_, ?_⟩⟩
    · rw [if_pos (show m.mode = 2 from two), pairElem_eq (by decide), index]
    · rw [value, value]
      exact Merge.compute_int a b hi
    · rw [value, value]
      exact (Merge.compute_float _ _ hi).2
    · have other : ¬m.mode = 2 := by
        change ¬mode = 2
        omega
      rw [if_neg other]
      intro zero
      have drops : (m.compute a.value b.value).2 = true ↔ zero := Merge.compute_drops _ _
      refine ⟨fun hz => if_pos (drops.mpr hz), fun hz => ?_⟩
      rw [if_neg fun hd => hz (drops.mp hd), pairElem_eq (Merge.compute_lt a b), index]

end

end Sys2Proof.Machine
end

section
/-! SUPPORT. Compilations of patterns (R332, R334, R335) and the staging of a multiply's operands (R317). -/

namespace Sys2Proof.Machine

/-! ### Coordinates (R332) -/

theorem evenBits_lt (z n : Nat) : evenBits z n < 2 ^ n := by
  induction n generalizing z with
  | zero => exact Nat.one_pos
  | succ n ih =>
    have := ih (z / 4)
    rw [evenBits, Nat.pow_succ]
    omega

theorem testBit_evenBits {n k : Nat} (z : Nat) (h : k < n) : (evenBits z n).testBit k = z.testBit (2 * k) := by
  induction n generalizing z k with
  | zero => omega
  | succ n ih =>
    rw [evenBits]
    cases k with
    | zero =>
      rw [Nat.testBit_zero, Nat.testBit_zero]
      congr 1
      simp
    | succ k =>
      rw [Nat.testBit_succ, show (z % 2 + 2 * evenBits (z / 4) n) / 2 = evenBits (z / 4) n by omega, ih _ (by omega),
        show (4 : Nat) = 2 ^ 2 from rfl, Nat.testBit_div_two_pow, Nat.mul_succ]

theorem rising_iff (l : List Nat) : rising l = true ↔ l.IsChain (· < ·) := by
  induction l with
  | nil => simp [rising]
  | cons a l ih =>
    cases l with
    | nil => simp [rising]
    | cons b l => simp [rising, ih]

theorem rising_map_range (z : Nat → Nat) (n : Nat) :
    rising ((List.range n).map z) = true ↔ ∀ j, j + 1 < n → z j < z (j + 1) := by
  rw [rising_iff, List.isChain_iff_getElem]
  simp

/-! ### Compilations (R332, R334, R335) -/

section
variable {s : State} {til base index co : Nat}

theorem ownNear_none {va : Word} (h : ∀ o, s.place til va ≠ some (.near til o)) : s.ownNear til va = none := by
  unfold State.ownNear
  split
  · next t o ho => exact if_neg fun e => h o (by rw [ho, e])
  · rfl

theorem ownNear_some {va : Word} (h : s.place til va = some (.near til co)) : s.ownNear til va = some co := by
  unfold State.ownNear
  rw [h]
  exact if_pos rfl

/-- The coordinates of a tile, in their order in memory. -/
def State.coordsAt (s : State) (til lo nnz : Nat) : List Nat :=
  (List.range nnz).map (fun j => s.rd (locSpad til (lo + 2 * j)) 2)

/-- Is a tile's metadata, with its coordinates at an offset, not as it must be, poison apart (R332, R334)? -/
def State.Malformed (s : State) (til base index co : Nat) : Prop :=
  let r := s.tileRef til base index
  let lo := co + 2 * r.off
  let z := fun j => s.rd (locSpad til (lo + 2 * j)) 2
  s.rd (locSpad til (base + 64 + 16 * index) + 6) 2 ≠ 0 ∨ co % 2 ≠ 0 ∨ 0 < r.nnz ∧ (s.til til).spadSize < lo + 2 * r.nnz ∨
    1024 < r.nnz ∨ (∃ j, j < r.nnz ∧ 1024 ≤ z j) ∨ ∃ j, j + 1 < r.nnz ∧ z (j + 1) ≤ z j

theorem entry_loc (til base index : Nat) : locSpad til base + 64 + 16 * index = locSpad til (base + 64 + 16 * index) := by
  unfold locSpad
  omega

theorem tileRef_nnz (s : State) (til base index : Nat) :
    (s.tileRef til base index).nnz = s.rd (locSpad til (base + 64 + 16 * index) + 4) 2 := by rw [← entry_loc]; rfl

theorem tileRef_off (s : State) (til base index : Nat) :
    (s.tileRef til base index).off = s.rd (locSpad til (base + 64 + 16 * index) + 8) 4 := by rw [← entry_loc]; rfl

theorem coords_bad_iff (s : State) (til lo nnz : Nat) :
    ((s.coordsAt til lo nnz).any (1024 ≤ ·) = true ∨ (!rising (s.coordsAt til lo nnz)) = true) ↔
      (∃ j, j < nnz ∧ 1024 ≤ s.rd (locSpad til (lo + 2 * j)) 2) ∨
      ∃ j, j + 1 < nnz ∧ s.rd (locSpad til (lo + 2 * (j + 1))) 2 ≤ s.rd (locSpad til (lo + 2 * j)) 2 := by
  have order := rising_map_range (fun j => s.rd (locSpad til (lo + 2 * j)) 2) nnz
  rw [Bool.not_eq_true', ← Bool.not_eq_true, State.coordsAt, order]
  simp

section
variable (hc : s.ownNear til (s.tileRef til base index).coord = some co)
include hc

/-- Metadata that is not as it must be gives BAD. -/
theorem compile_bad (hw : s.Malformed til base index co) : (s.compile til base index).1 = .bad := by
  simp only [State.compile, hc]
  split
  · rfl
  · next fine =>
    rw [if_pos]
    refine (coords_bad_iff s til _ _).mpr ?_
    simp only [not_or] at fine
    obtain ⟨zero, even, room, most, -⟩ := fine
    rcases hw with h | h | h | h | h
    · exact absurd h (by simpa [State.zeros] using zero)
    · exact absurd h even
    · exact absurd h room
    · exact absurd h most
    · exact h

/-- Other metadata without poison gives the entries of its coordinates. -/
theorem compile_good (hw : ¬s.Malformed til base index co)
    (hb : s.poisoned (locSpad til base) 64 = false) (he : s.poisoned (locSpad til (base + 64 + 16 * index)) 16 = false)
    (hl : 0 < (s.tileRef til base index).nnz → s.poisoned (locSpad til (co + 2 * (s.tileRef til base index).off))
      (2 * (s.tileRef til base index).nnz) = false) :
    (s.compile til base index).1 = (if (s.tileRef til base index).nnz ≤ 256 then .sparse else .dense) ∧
    (s.compile til base index).2.1 = (s.coordsAt til (co + 2 * (s.tileRef til base index).off)
      (s.tileRef til base index).nnz).mapIdx (fun j z => entryOf z ((s.tileRef til base index).off + j)) := by
  simp only [State.Malformed, not_or] at hw
  obtain ⟨zero, even, room, most, small, order⟩ := hw
  simp only [State.compile, hc]
  rw [if_neg, if_neg fun h => ?_]
  · exact ⟨rfl, rfl⟩
  · rcases (coords_bad_iff s til _ _).mp h with h | h
    · exact small h
    · exact order h
  · rintro (h | h | h | h | h | h | ⟨h, h'⟩)
    · exact zero (by simpa [State.zeros] using h)
    · exact even h
    · exact room h
    · exact most h
    · simp [hb] at h
    · simp [he] at h
    · simp [hl h] at h'

end

/-- R332, R334, R335. What a compilation comes to. -/
theorem compile_outcome (s : State) (til base index co : Nat) :
    let entry := locSpad til (base + 64 + 16 * index)
    let coord : Word := BitVec.ofNat 64 (s.rd (locSpad til base) 8)
    let nnz := s.rd (entry + 4) 2
    let off := s.rd (entry + 8) 4
    let lo := co + 2 * off
    let z := fun j => s.rd (locSpad til (lo + 2 * j)) 2
    let got := (s.compile til base index).1
    ((∀ o, s.place til coord ≠ some (.near til o)) → got = .bad) ∧
    (s.place til coord = some (.near til co) →
      s.poisoned (locSpad til base) 64 = false → s.poisoned entry 16 = false →
      (0 < nnz → s.poisoned (locSpad til lo) (2 * nnz) = false) →
      let wrong := s.rd (entry + 6) 2 ≠ 0 ∨ co % 2 ≠ 0 ∨ 0 < nnz ∧ (s.til til).spadSize < lo + 2 * nnz ∨ 1024 < nnz ∨
        (∃ j, j < nnz ∧ 1024 ≤ z j) ∨ ∃ j, j + 1 < nnz ∧ z (j + 1) ≤ z j
      (wrong → got = .bad) ∧
      (¬wrong → got = (if nnz ≤ 256 then .sparse else .dense) ∧ (s.compile til base index).2.1.length = nnz ∧
        ∀ j q, (s.compile til base index).2.1[j]? = some q → q.1 < 32 ∧ q.2.1 < 32 ∧ q.2.2 = off + j ∧
          ∀ n, n < 5 → (z j).testBit (2 * n) = q.2.1.testBit n ∧ (z j).testBit (2 * n + 1) = q.1.testBit n)) := by
  intro entry coord nnz off lo z got
  have hn : (s.tileRef til base index).nnz = nnz := tileRef_nnz ..
  have ho : (s.tileRef til base index).off = off := tileRef_off ..
  refine ⟨fun h => ?_, fun h hb he hl => ?_⟩
  · have away : s.ownNear til (s.tileRef til base index).coord = none := ownNear_none h
    simp only [got, State.compile, away]
  intro wrong
  have mal : s.Malformed til base index co ↔ wrong := by simp only [State.Malformed, hn, ho, wrong, lo, z, entry]
  rw [← mal]
  refine ⟨fun hw => compile_bad (ownNear_some h) hw, fun hw => ?_⟩
  have fine := compile_good (ownNear_some h) hw hb he (by rw [hn, ho]; exact hl)
  rw [hn, ho] at fine
  obtain ⟨state, prog⟩ := fine
  refine ⟨state, by simp [prog, State.coordsAt], fun j q hq => ?_⟩
  obtain ⟨-, rfl⟩ : j < nnz ∧ entryOf (z j) (off + j) = q := by
    simpa [prog, State.coordsAt, List.getElem?_eq_some_iff] using hq
  refine ⟨evenBits_lt _ 5, evenBits_lt _ 5, rfl, fun n hn => ⟨(testBit_evenBits (z j) hn).symm, ?_⟩⟩
  rw [entryOf, testBit_evenBits _ hn, Nat.testBit_div_two]

end

/-! ### The pattern compiler (R335) -/

section
variable {s : State} {til : Nat} {p : Pattern}

theorem patternCompileStart_takes (hi : (s.til til).pats.any (fun p => p.state == .compiling) = false)
    (hn : (s.til til).nextQueued = some p) :
    ∃ t, exec (.patternCompileStart til) s = .next t ∧ (t.til til).pccomp = (s.til til).pccomp + 1 ∧
      ∀ q ∈ (t.til til).pats, q.ent = p.ent → q.state = .compiling ∧ q.result = (s.compile til p.base p.index).1 := by
  refine ⟨s.startCompile til, rfl, ?_, ?_⟩
  · simp only [State.startCompile, hi, hn, Bool.false_eq_true, if_false, State.til_setTil]
  · simp only [State.startCompile, hi, hn, Bool.false_eq_true, if_false, State.til_setTil]
    intro q hq he
    obtain ⟨old, -, rfl⟩ := List.mem_map.mp hq
    by_cases same : old.ent = p.ent
    · rw [if_pos same]
      exact ⟨rfl, rfl⟩
    · rw [if_neg same] at he
      exact absurd he same

theorem patternCompileEnd_ends (hf : (s.til til).pats.find? (fun p => p.state == .compiling &&
      p.due.toNat ≤ (s.core (til * 4)).cycle.toNat) = some p) :
    ∃ t, exec (.patternCompileEnd til) s = .next t ∧ ∀ q ∈ (t.til til).pats, q.ent = p.ent → q.state = p.result := by
  let t₁ := s.setTil til { s.til til with
    pats := (s.til til).pats.map (fun q => if q.ent = p.ent then { q with state := p.result, reads := [] } else q) }
  have told : t₁.Told ((t₁.changeKey (.pat til p.ent)).laterOnce (.patternCompileStart til)) := .trans .changeKey .laterOnce
  have ended : s.endCompile til = (t₁.changeKey (.pat til p.ent)).laterOnce (.patternCompileStart til) := by
    simp only [State.endCompile, hf, t₁]
  refine ⟨s.endCompile til, rfl, ?_⟩
  rw [ended, (told.til til).pats, State.til_setTil]
  intro q hq he
  obtain ⟨old, -, rfl⟩ := List.mem_map.mp hq
  by_cases same : old.ent = p.ent
  · rw [if_pos same]
  · rw [if_neg same] at he
    exact absurd he same

end

/-! ### Staging (R317) -/

section
variable {s : State} {c : Nat} {ra rb : BitVec 4} {acc : BitVec 3} {f : BitVec 4} {fm : MulFmt}

theorem slotBuffer_ring (s : State) (til n : Nat) (o : Option Staged) : (s.slotBuffer til n o).ring = n := by
  unfold State.slotBuffer
  dsimp only
  split
  · split
    · next same => exact same.1
    · rfl
  · rfl

/-- The blocks of a multiply that waits for nothing else are wanted, those of A first. -/
theorem mulWants_ready (hl : (s.til (tilOf c)).leased c = true) (ha : ((s.til (tilOf c)).heldBy c).contains acc.toNat = true)
    (hf : (s.ctx c).formatOf f = some fm) (hra : (s.til (tilOf c)).headSeq ra.toNat ≠ (s.til (tilOf c)).tailSeq ra.toNat)
    (hrb : (s.til (tilOf c)).headSeq rb.toNat ≠ (s.til (tilOf c)).tailSeq rb.toNat)
    (hea : ringEn ((s.til (tilOf c)).ring ra.toNat) = true) (heb : ringEn ((s.til (tilOf c)).ring rb.toNat) = true)
    (hsa : slotShort fm fm.a (s.ctx c).scla ((s.til (tilOf c)).ring ra.toNat) = false)
    (hsb : slotShort fm fm.b (s.ctx c).sclb ((s.til (tilOf c)).ring rb.toNat) = false) :
    s.mulWants c ra rb acc.toNat f =
      (s.slotBuffer (tilOf c) ra.toNat (s.til (tilOf c)).stageA).wants 0 (needOf fm fm.a (s.ctx c).scla) ++
      (s.slotBuffer (tilOf c) rb.toNat (s.til (tilOf c)).stageB).wants 1 (needOf fm fm.b (s.ctx c).sclb) := by
  have plan : s.mulPlan c ra rb acc.toNat f = some fm := by
    unfold State.mulPlan
    dsimp only
    rw [hf, Option.filter_some, hl, ha, hea, heb, hsa, hsb]
    simp [hra, hrb]
  rw [State.mulWants, plan]

theorem wants_multiply {w : BitVec 32} {cnt : BitVec 5} {y x : BitVec 1} (ha : s.active c = true) (hw : s.nextWord c = .word w)
    (hd : decode w = .ok (.tmma ra rb acc cnt f y x) ∨ decode w = .ok (.tmmt ra rb acc cnt f y x)) :
    s.wants c = s.mulWants c ra rb acc.toNat f := by
  unfold State.wants
  rw [ha, if_neg (by decide), hw]
  dsimp only
  rcases hd with hd | hd <;> rw [hd]

/-- The unit stages the first block that is wanted: of A, then of B. -/
theorem tileStaging_of_wants {needA needB : List Nat} (hw : s.wants c =
      (s.slotBuffer (tilOf c) ra.toNat (s.til (tilOf c)).stageA).wants 0 needA ++
      (s.slotBuffer (tilOf c) rb.toNat (s.til (tilOf c)).stageB).wants 1 needB) :
    let t := s.til (tilOf c)
    let left := fun (o : Option Staged) (n : BitVec 4) (need : List Nat) =>
      need.filter (fun k => !((s.slotBuffer (tilOf c) n.toNat o).held).contains k)
    (∀ j rest, left t.stageA ra needA = j :: rest → exec (.tileStaging c) s = .next (s.setTil (tilOf c) { t with
      stageA := some (s.stageSlot (tilOf c) ra.toNat t.stageA [j]) })) ∧
    (∀ j rest, left t.stageA ra needA = [] → left t.stageB rb needB = j :: rest →
      exec (.tileStaging c) s = .next (s.setTil (tilOf c) { t with
        stageB := some (s.stageSlot (tilOf c) rb.toNat t.stageB [j]) })) ∧
    (left t.stageA ra needA = [] → left t.stageB rb needB = [] → exec (.tileStaging c) s = .next s) := by
  intro t left
  change (∀ j rest, _ → execTileStaging c s = _) ∧ (∀ j rest, _ → _ → execTileStaging c s = _) ∧ (_ → _ → execTileStaging c s = _)
  unfold execTileStaging
  rw [hw]
  unfold Staged.wants
  rw [slotBuffer_ring, slotBuffer_ring]
  refine ⟨fun j rest ha => ?_, fun j rest ha hb => ?_, fun ha hb => ?_⟩
  · rw [show needA.filter _ = j :: rest from ha]
    rfl
  · rw [show needA.filter _ = [] from ha, show needB.filter _ = j :: rest from hb]
    rfl
  · rw [show needA.filter _ = [] from ha, show needB.filter _ = [] from hb]
    rfl

end

end Sys2Proof.Machine
end

section
/-! SUPPORT. The steps of the units at channel ends, together (R129, R130, R135, R142, R144, R146, R147, R150, R151, R317, R332 to
R335, R351 to R353, R387). -/

namespace Sys2Proof.Machine

/-- Settles O57: each unit's step is the step that its rule gives, an element that moves is read back from its slot, and what a
change tells leaves a unit's own record as it was. -/
theorem unitSteps : Obligations.UnitSteps := by
  unfold Obligations.UnitSteps
  refine ⟨fun s c e til ring => ⟨?_, ?_, fun x hx => sendFar_iff x hx, fun t h => extensionMove_of_movesIn h,
    moveOne_inOrder, moveOne_inDelivery, ?_, ?_, ?_, ?_, ?_, ?_⟩, mergeDecide, compile_outcome, fun s c til p => ⟨?_, ?_, ?_⟩⟩
  case refine_1 => exact fun x g deal dealt seq due rest h hf => elementArrival_first h hf
  case refine_2 => exact fun m ref x rest hq hr hp hf hd hx => elementArrival_peer hq hr hp hf hd hx
  case refine_3 => exact fun hw hd hx hf ho ht hc hq hg => creditGrant_one hw hd hx hf ho ht hc hq hg
  case refine_4 => exact fun r va rest pa ent hr hf hx => engineFetchComplete_value hr hf hx
  case refine_5 => exact fun r va rest body hl hc he hd hz hr hf => engineReply_answers hl hc he hd hz hr hf
  case refine_6 =>
    intro b loc ent hb hs n
    exact ⟨fun hw he hl => streamReadElement_value hb hs hw he hl,
      fun x rest hw he hx => streamStoreElement_value hb hs hw he hx⟩
  case refine_7 => exact fun m x xs y ys hm ha hb hia hib ho hr => mergeEmit_step hm ha hb hia hib ho hr
  case refine_8 =>
    intro d a r v w loc counts hw hk
    exact ⟨fun hr hv => mergeCounters_ok false hk hv hr, fun hr hv => mergeCounters_ok true hk hv hr⟩
  case refine_9 =>
    intro w ra rb acc cnt f y x fm j rest t held left needA needB ha hl hh hw hd hf hra hrb hea heb hsa hsb
    have wanted := (wants_multiply ha hw hd).trans (mulWants_ready hl hh hf hra hrb hea heb hsa hsb)
    obtain ⟨ofA, ofB, done⟩ := tileStaging_of_wants wanted
    exact ⟨ofA j rest, ofB j rest, done⟩
  case refine_10 => exact patternCompileStart_takes
  case refine_11 => exact patternCompileEnd_ends

end Sys2Proof.Machine
end

section
/-! SUPPORT. What gives up a token, ends an attempt or puts a strand to sleep leaves of the rest of the device (R170, R180, R193). -/

namespace Sys2Proof.Machine

variable {s t u : State}

/-! ### The books of the device -/

/-- Nothing differs but what is listed of contexts, tillers and watch directories, and the device steps that are due. -/
def State.Books (s t : State) : Prop :=
  ∃ ctxs tils dirs agenda, t = { s with ctxs := ctxs, tils := tils, dirs := dirs, agenda := agenda }

namespace State.Books

theorem refl (s : State) : s.Books s := ⟨_, _, _, _, rfl⟩

theorem trans (h : s.Books t) (h' : t.Books u) : s.Books u := by
  obtain ⟨_, _, _, _, rfl⟩ := h
  obtain ⟨_, _, _, _, rfl⟩ := h'
  exact ⟨_, _, _, _, rfl⟩

theorem ite {c : Prop} [Decidable c] (ht : s.Books t) (hu : s.Books u) : s.Books (if c then t else u) := by
  split <;> assumption

theorem foldl {α : Type} {f : State → α → State} {l : List α} (hf : ∀ (s : State) x, s.Books (f s x)) : s.Books (l.foldl f s) :=
  List.foldlRecOn l f (.refl s) fun _ h x _ => h.trans (hf _ x)

theorem setCtx {c : Nat} {x : Ctx} : s.Books (s.setCtx c x) := ⟨_, _, _, _, rfl⟩
theorem modCtx {c : Nat} {f : Ctx → Ctx} : s.Books (s.modCtx c f) := setCtx
theorem modMe {f : Ctx → Ctx} : s.Books (s.modMe f) := setCtx
theorem setTil {n : Nat} {x : Tiller} : s.Books (s.setTil n x) := ⟨_, _, _, _, rfl⟩
theorem modTil {n : Nat} {f : Tiller → Tiller} : s.Books (s.modTil n f) := setTil
theorem setDirectory {d : Directory} : s.Books (s.setDirectory d) := ⟨_, _, _, _, rfl⟩
theorem laterOnce {i : Instr} : s.Books (s.laterOnce i) := .ite (.refl s) ⟨_, _, _, _, rfl⟩
theorem wakeCtx {c : Nat} : s.Books (s.wakeCtx c) := laterOnce
theorem wakeAt {n : Nat} {key : Key} : s.Books (s.wakeAt n key) := .foldl fun _ _ => .wakeCtx
theorem markAt {n : Nat} {key : Key} : s.Books (s.markAt n key) := ⟨_, _, _, _, rfl⟩

theorem registerOwner {key : Key} {n : Nat} : s.Books (s.registerOwner key n) := by
  unfold State.registerOwner
  split
  · exact .ite (.refl s) .modTil
  · exact .setDirectory

theorem register {c : Nat} {key : Key} : s.Books (s.register c key) := .trans .modTil .registerOwner

theorem notify {key : Key} : s.Books (s.notify key) := by
  unfold State.notify
  split
  · exact .trans .setTil (.foldl fun _ _ => .ite (.refl _) .laterOnce)
  · exact .trans (.ite (.refl s) .setDirectory) (.foldl fun _ _ => .laterOnce)

theorem changeKey {key : Key} : s.Books (s.changeKey key) := by
  unfold State.changeKey
  split
  · exact .trans (.trans .markAt .wakeAt) .notify
  · exact .notify

theorem freeHeld {n : Nat} : s.Books (s.freeHeld n) :=
  .trans (t := { s with ctxs := s.ctxs.map _ }) ⟨_, _, _, _, rfl⟩ (.foldl fun _ _ => .ite (.refl _) .laterOnce)

theorem dropToken {c : Nat} : s.Books (s.dropToken c) :=
  .ite (.trans (.trans .setTil .freeHeld) .changeKey) (.ite (.trans .setTil .changeKey) .setTil)

section
variable (h : s.Books t)
include h
theorem cur : t.cur = s.cur := by obtain ⟨_, _, _, _, rfl⟩ := h; rfl
theorem mem : t.mem = s.mem := by obtain ⟨_, _, _, _, rfl⟩ := h; rfl
theorem rings : t.rings = s.rings := by obtain ⟨_, _, _, _, rfl⟩ := h; rfl
theorem byteAt (a : Nat) : t.byteAt a = s.byteAt a := by obtain ⟨_, _, _, _, rfl⟩ := h; rfl
theorem me : t.me = t.ctx s.cur := by rw [State.me, h.cur]
end

end State.Books

/-! ### The token (R180) -/

/-- That its holder's waiters go on changes nothing that a tiller keeps. -/
theorem State.Told.freeHeld {n : Nat} : s.Told (s.freeHeld n) :=
  .trans (t := { s with ctxs := s.ctxs.map _ }) .rest (.foldl fun _ _ => .ite (.refl _) .laterOnce)

theorem Tiller.Told.token {x y : Tiller} (h : x.Told y) : y.token = x.token := by obtain ⟨_, _, _, _, rfl⟩ := h; rfl

/-- A strand that holds its tiller's token gives it up. -/
theorem State.dropToken_holder {c : Nat} (h : (s.til (tilOf c)).token.holder = some c) :
    ((s.dropToken c).til (tilOf c)).token.holder = none := by
  have drop : s.dropToken c = ((s.setTil (tilOf c) { s.til (tilOf c) with
      token := { (s.til (tilOf c)).token with holder := none } }).freeHeld (tilOf c)).changeKey (.token (tilOf c)) := if_pos h
  rw [drop, ((State.Told.freeHeld.trans .changeKey).til (tilOf c)).token, State.til_setTil]

/-! ### A strand that leaves its attempt (R170) -/

theorem State.til_withdrawIssue (s : State) (c n : Nat) : (s.withdrawIssue c).til n = s.til n := by
  rw [State.withdrawIssue_eq]
  split <;> rfl

/-- A context whose attempt has been aborted. -/
def Ctx.aborted (x : Ctx) (cause : Nat) (acode : BitVec 16) : Ctx :=
  { x with
    tx := { x.tx.undo cause with acode := if cause = 7 then acode else x.tx.acode, nconf := 0, rst := false }
    pc := x.tx.fail }

theorem State.abortTx_eq (s : State) (c cause : Nat) (acode : BitVec 16) :
    s.abortTx c cause acode = (s.modCtx c (fun x => x.aborted cause acode)).dropToken c := rfl

theorem State.abortTx_books (s : State) (c cause : Nat) (acode : BitVec 16) : s.Books (s.abortTx c cause acode) :=
  .trans .modCtx .dropToken

/-- An abort leaves of its strand what `Ctx.aborted` says, up to what the release of the token stirs. -/
theorem State.abortTx_stirred (s : State) (c cause : Nat) (acode : BitVec 16) :
    ((s.ctx c).aborted cause acode).Stirred ((s.abortTx c cause acode).ctx c) := by
  have h := State.Calm.ctx (State.Calm.dropToken (s := s.modCtx c (fun x => x.aborted cause acode)) (c := c)) c
  rwa [State.ctx_modCtx, ← State.abortTx_eq] at h

/-- A context whose attempt has been restarted with CONFLICT at a cycle. -/
def Ctx.restarted (x : Ctx) (cycle : Word) : Ctx :=
  { x with
    tx := { ({ x.tx.undo 1 with nconf := Nat.min 4 (x.tx.nconf + 1) } : Tx) with rst := true }
    pc := x.tx.txbpc, wait := x.wait.undone, lastIssue := some cycle }

theorem State.restartConflict_eq (s : State) (c : Nat) : s.restartConflict c =
    ((s.modCtx c (fun x => x.restarted (s.core (coreOf c)).cycle)).withdrawIssue c).dropToken c := rfl

/-- A restart leaves of its strand what `Ctx.restarted` says, but for the counters, which take back the choice to issue. -/
theorem State.restartConflict_stirred (s : State) (c : Nat) : ∃ cnt, Ctx.Stirred
    { (s.ctx c).restarted (s.core (coreOf c)).cycle with cnt := cnt } ((s.restartConflict c).ctx c) := by
  obtain ⟨cnt, hcnt⟩ := State.ctx_withdrawIssue (s.modCtx c (fun x => x.restarted (s.core (coreOf c)).cycle)) c
  rw [State.ctx_modCtx] at hcnt
  exact ⟨cnt, hcnt ▸ State.restartConflict_eq s c ▸ State.Calm.ctx .dropToken c⟩

theorem State.abortTx_holder {c : Nat} (cause : Nat) (acode : BitVec 16) (h : (s.til (tilOf c)).token.holder = some c) :
    ((s.abortTx c cause acode).til (tilOf c)).token.holder = none := State.dropToken_holder h

theorem State.restartConflict_holder {c : Nat} (h : (s.til (tilOf c)).token.holder = some c) :
    ((s.restartConflict c).til (tilOf c)).token.holder = none := by
  refine State.dropToken_holder ?_
  rw [State.til_withdrawIssue]
  exact h

end Sys2Proof.Machine
end

section
/-! SUPPORT. The transaction class (R182 to R187): TXB, TXO, TXA, TXE, TXR and WATCH. -/

namespace Sys2Proof.Machine

variable {s : State}

/-! ### What the instructions share -/

theorem inAttempt_ok (h : s.me.tx.active = true) : inAttempt s = .ok ((), s) := by
  simp [inAttempt, op_bind, op_ask, except_bind_ok, h, op_pure]

/-- Where control goes next does not depend on an attempt or a wait. -/
theorem Ctx.advance_with (x : Ctx) (w : Wait) (t : Tx) :
    ({ x with wait := w, tx := t } : Ctx).advance = { x.advance with wait := w, tx := t } := by
  unfold Ctx.advance Ctx.framed
  dsimp only
  split <;> rfl

theorem Ctx.advance_regs (x : Ctx) : x.advance.s = x.s := by
  obtain ⟨_, _, e⟩ := x.advance_eq
  rw [e]

/-! ### TXB, TXO and TXA (R182, R183, R186) -/

section
variable {k : BitVec 19}

/-- The transaction buffer as TXB leaves it for an attempt at a pc, with its fail target and count of conflicts. -/
def Tx.begun (t : Tx) (pc fail : Word) (n : Nat) : Tx :=
  { t with nconf := n, rst := false, fail := fail, txbpc := pc, alts := [], point := .empty, reads := []
           writes := [], rcnt := 0, wcnt := 0, active := true, sole := n = 4, marked := false }

/-- The count of conflicts that TXB goes by: a restart keeps it. -/
def Tx.conflicts (t : Tx) : Nat := if t.rst then t.nconf else 0

theorem Tx.conflicts_ne_four {t : Tx} (h : t.rst = true → t.nconf ≠ 4) : t.conflicts ≠ 4 := by
  unfold Tx.conflicts
  split
  · exact h ‹_›
  · decide

theorem exec_txb_begins (h : Allowed (.txb k) s) (ht : (target s.me.pc k).toNat < 2 ^ 52) (hn : s.me.tx.conflicts ≠ 4) :
    exec (.txb k) s = .next (s.after (fun x => { x with tx := x.tx.begun x.pc (target s.me.pc k) s.me.tx.conflicts })) := by
  refine performRaw_ok (f := .next) (t := s.modMe _) h ?_
  rw [Tx.conflicts] at hn ⊢
  simp only [op_bind, op_get, except_bind_ok, ge_iff_le, if_neg (not_le.mpr ht), op_pure, if_neg hn, op_upd]
  rfl

theorem exec_txo_opens (h : Allowed (.txo k) s) (ha : s.me.tx.active = true) (ht : (target s.me.pc k).toNat < 2 ^ 52)
    (hl : s.me.tx.alts.length < 4) : exec (.txo k) s = .next (s.after (fun x =>
      { x with tx := { x.tx with alts := (target s.me.pc k, x.tx.point) :: x.tx.alts } })) := by
  refine performRaw_ok (f := .next) (t := s.modMe _) h (thenNext_ok ?_)
  rw [bind_ok (inAttempt_ok ha)]
  simp only [op_bind, op_ask, except_bind_ok, ge_iff_le, if_neg (not_le.mpr ht), if_neg hl.ne, op_upd]

end

theorem exec_txa_aborts {code : BitVec 16} (h : Allowed (.txa code) s) (ha : s.me.tx.active = true) :
    exec (.txa code) s = .next (s.abortTx s.cur 7 code) :=
  performRaw_ok (f := .stay) h (bind_ok (inAttempt_ok ha))

/-! ### TXE (R184) -/

section
variable {c : Nat}

theorem State.meetsHolder_of_empty (h : (s.ctx c).tx.point = .empty) : s.meetsHolder c = false := by
  unfold State.meetsHolder
  rw [h]
  cases (s.til (tilOf c)).token.holder <;> simp [TxPoint.empty, enqsOf]

theorem State.commitMembers_of_empty (h : (s.ctx c).tx.point = .empty) : s.commitMembers c = (s.til (tilOf c)).members := by
  rw [State.commitMembers, h]
  rfl

/-- No bytes, no change. -/
theorem State.commitCells_nil (s : State) (c : Nat) : s.commitCells c [] [] = s := by
  have incomplete : (List.range 8).all (fun _ => false) = false := rfl
  simp [State.commitCells, tget, List.eraseDups, incomplete]

/-- The transaction buffer after a commit: TXST keeps CAUSE, RCNT and WCNT. -/
def Tx.committed (t : Tx) : Tx :=
  { t with active := false, sole := false, marked := false, alts := [], point := .empty, reads := [], writes := [], nconf := 0 }

/-- What a commit without changes leaves before it gives up the token. -/
def State.closeAttempt (s : State) : State :=
  (s.modTil s.myTil (fun x => { x with members := (s.til s.myTil).members })).modMe (fun x => { x with tx := x.tx.committed })

theorem commitTx_of_empty (h : s.me.tx.point = .empty) (hm : (s.til s.myTil).members.length ≤ 256) :
    commitTx s = .ok ((), s.closeAttempt.dropToken s.cur) := by
  have kept : s.commitMembers s.cur = (s.til s.myTil).members := State.commitMembers_of_empty h
  simp only [commitTx, op_bind, op_get, except_bind_ok, State.meetsHolder_of_empty h, kept, h, Bool.false_eq_true, if_false,
    if_neg (not_lt.mpr hm)]
  exact congrArg (fun t : State => Except.ok ((), t.dropToken s.cur)) (State.commitCells_nil _ s.cur)

theorem State.closeAttempt_books (s : State) : s.Books s.closeAttempt := .trans .modTil .modMe

end

theorem exec_txe_of_empty (h : Allowed .txe s) (ha : s.me.tx.active = true) (hp : s.me.tx.point = .empty)
    (hm : (s.til s.myTil).members.length ≤ 256) : exec .txe s = .next (s.closeAttempt.dropToken s.cur).past :=
  performRaw_ok (f := .next) h (thenNext_ok ((bind_ok (inAttempt_ok ha)).trans (commitTx_of_empty hp hm)))

/-- The strand goes on past TXE, outside an attempt, as it was. -/
theorem State.closed_me (s : State) : ∃ w m, (s.closeAttempt.dropToken s.cur).past.me =
    { s.me.advance with wait := w, tx := { s.me.tx.committed with marked := m } } := by
  have books : s.closeAttempt.Books (s.closeAttempt.dropToken s.cur) := .dropToken
  obtain ⟨w, m, stirred, -⟩ := State.Calm.ctx (State.Calm.dropToken (s := s.closeAttempt) (c := s.cur)) s.cur
  have closed : s.closeAttempt.ctx s.cur = { s.me with tx := s.me.tx.committed } := State.ctx_modCtx ..
  refine ⟨w, m, ?_⟩
  rw [State.past, State.me_modMe, books.me, s.closeAttempt_books.cur, stirred, closed]
  exact Ctx.advance_with s.me w _

/-! ### TXR (R185) -/

theorem exec_txr_retries (h : Allowed .txr s) (ha : s.me.tx.active = true) : exec .txr s = .next (s.txRetry s.cur) :=
  performRaw_ok (f := .stay) h (bind_ok (inAttempt_ok ha))

section
variable {c : Nat}

theorem State.txRetry_cons {dest : Word} {p : TxPoint} {rest : List (Word × TxPoint)} (h : (s.ctx c).tx.alts = (dest, p) :: rest) :
    s.txRetry c = s.modCtx c (fun x => { x with pc := dest, tx := { x.tx with alts := rest, point := p } }) := by
  rw [State.txRetry, h]
  rfl

/-- A context that sleeps at its TXB on the keys of its read set. -/
def Ctx.retrying (x : Ctx) : Ctx :=
  { x with tx := { x.tx.undo x.tx.cause with nconf := 0, rst := true }, wait := .retry x.tx.reads, pc := x.tx.txbpc }

/-- The state in which it is registered for them. -/
def State.retrying (s : State) (c : Nat) : State :=
  (s.ctx c).tx.reads.foldl (fun s k => s.register c k) (s.setCtx c (s.ctx c).retrying)

/-- It gives up the token, and is woken at once where a key has changed since it was read. -/
theorem State.txRetry_nil (h : (s.ctx c).tx.alts = []) :
    s.txRetry c = if (s.ctx c).tx.marked then ((s.retrying c).dropToken c).wakeCtx c else (s.retrying c).dropToken c := by
  rw [State.txRetry, h]
  rfl

theorem State.ctx_retrying (s : State) (c : Nat) : (s.retrying c).ctx c = (s.ctx c).retrying := by
  have registered : (s.setCtx c (s.ctx c).retrying).Aside (s.retrying c) := .foldl fun _ _ => .register
  rw [registered.ctx, State.ctx_setCtx]

theorem State.txRetry_sleeps (h : (s.ctx c).tx.alts = []) :
    s.Books (s.txRetry c) ∧ (s.ctx c).retrying.Stirred ((s.txRetry c).ctx c) := by
  have books : s.Books ((s.retrying c).dropToken c) := .trans (.trans .setCtx (.foldl fun _ _ => .register)) .dropToken
  have calm : (s.retrying c).Calm (s.txRetry c) := by
    rw [State.txRetry_nil h]
    exact .ite (.trans .dropToken .wakeCtx) .dropToken
  refine ⟨?_, s.ctx_retrying c ▸ calm.ctx c⟩
  rw [State.txRetry_nil h]
  exact .ite (books.trans .wakeCtx) books

end

/-! ### WATCH (R187) -/

section
variable {va : Word} {off : Nat}

/-- The one lane of an access to a byte of the strand's own scratchpad. -/
def ownByteLane (s : State) (va : Word) (off : Nat) : Lane :=
  { i := 0, va := va, loc := locSpad s.myTil off, n := 1, own := true, global := false, nc := false, repl := false }

theorem resolve_ownByte (hp : s.place s.myTil va = some (.near s.myTil off)) (ho : off < (s.til s.myTil).spadSize) :
    resolve .load 1 [(0, va)] s = .ok ([ownByteLane s va off], s) := by
  have here : migrates s (.near s.myTil off) = none := by simp [migrates]
  have checked : s.check s.myTil va 1 = .ok (.near s.myTil off) := by
    simp [State.check, hp, Nat.mod_one, Nat.succ_le_of_lt ho]
  simp [resolve, op_bind, checkLanes, op_get, hp, here, checked, op_pure, except_bind_ok, translateLanes, op_ask, ownByteLane]

theorem readKey_held {key : Key} (h : s.me.tx.reads.contains key = true) : readKey key s = .ok ((), s) := by
  rw [readKey, bind_ok (op_ask _ s), if_pos h, op_pure]

/-- A context whose read set has taken a key more. -/
def Ctx.watching (x : Ctx) (key : Key) : Ctx := { x with tx := { x.tx with reads := x.tx.reads ++ [key], rcnt := x.tx.rcnt + 1 } }

theorem readKey_new {key : Key} (h : s.me.tx.reads.contains key = false) (hr : s.me.tx.rcnt < 32) :
    readKey key s = .ok ((), s.modMe (fun x => x.watching key)) := by
  rw [readKey, bind_ok (op_ask _ s), if_neg (Bool.eq_false_iff.mp h), if_neg hr.ne, op_upd]
  rfl

variable {a : BitVec 5} {k : BitVec 14} {r t u : State} {x : Word}

/-- WATCH of a byte of the strand's own scratchpad takes its line into the read set, and nothing else. -/
theorem exec_watch_own (hr : Ready (.watch a k) s r) (ha : s.me.tx.active = true) (hx : Reads a r x t)
    (hp : t.place t.myTil (x + BitVec.ofInt 64 k.toInt) = some (.near t.myTil off)) (ho : off < (t.til t.myTil).spadSize)
    (hk : readKey (.line (locSpad t.myTil off / 64)) t = .ok ((), u)) : exec (.watch a k) s = .next u.past := by
  refine performRaw_ok (f := .next) hr.1 (thenNext_ok ?_)
  rw [bind_ok (inAttempt_ok ha), bind_ok hr.2, bind_ok hx, signExtend_eq_ofInt, bind_ok (resolve_ownByte hp ho)]
  exact bind_ok (bind_ok hk)

end

/-! ### The statement -/

/-- Settles O32: each instruction is what its body does to the acting context, and a strand that leaves its attempt is what the
release of the token leaves of it. -/
theorem attemptControl : Obligations.AttemptControl := by
  unfold Obligations.AttemptControl
  refine ⟨fun k code s => ?_, fun s h ha hp hm => ?commits, fun s ha => ⟨fun h => ⟨fun dest p rest hl => ?falls, fun hl => ?sleeps⟩,
    fun a k r t x off hr hx _ hp ho => ⟨fun hk => ?held, fun hk hc => ?entered⟩⟩,
    fun s c cause code => ⟨?aborts, ?restarts, fun hh => ?token⟩⟩
  · rw [← target_eq]
    refine ⟨fun h ht hn => ?begins, exec_txo_opens, fun h ha => ?abandons⟩
    case begins =>
      have conflicts := Tx.conflicts_ne_four hn
      have begun : (s.after (fun x => { x with tx := x.tx.begun x.pc (target s.me.pc k) s.me.tx.conflicts })).me =
          { s.me.advance with wait := s.me.wait, tx := s.me.tx.begun s.me.pc (target s.me.pc k) s.me.tx.conflicts } := by
        rw [State.after, State.past, State.me_modMe, State.me_modMe]
        exact Ctx.advance_with s.me s.me.wait _
      refine ⟨_, exec_txb_begins h ht conflicts, ?_⟩
      rw [begun]
      exact ⟨rfl, rfl, decide_eq_false conflicts, rfl, rfl, rfl, rfl, rfl, rfl, rfl, s.me.advance_regs⟩
    case abandons =>
      obtain ⟨_, _, e, -⟩ := s.abortTx_stirred s.cur 7 code
      have books := s.abortTx_books s.cur 7 code
      refine ⟨_, exec_txa_aborts h ha, ?_⟩
      rw [books.me, e]
      exact ⟨rfl, rfl, rfl, rfl, rfl, books.mem⟩
  case commits =>
    obtain ⟨_, _, e⟩ := s.closed_me
    have books : s.Books (s.closeAttempt.dropToken s.cur).past := .trans (s.closeAttempt_books.trans .dropToken) .modMe
    refine ⟨_, exec_txe_of_empty h ha hp hm, ?_⟩
    rw [e]
    exact ⟨rfl, rfl, rfl, s.me.advance_regs, books.byteAt, books.rings⟩
  case falls => exact (exec_txr_retries h ha).trans (congrArg _ (State.txRetry_cons hl))
  case sleeps =>
    obtain ⟨books, w, _, e, -, waits⟩ := State.txRetry_sleeps hl
    refine ⟨_, exec_txr_retries h ha, ?_⟩
    rw [books.me, e]
    exact ⟨waits.resolve_right (by simp [Ctx.retrying]), rfl, rfl, books.mem⟩
  case held => exact exec_watch_own hr ha hx hp ho (readKey_held hk)
  case entered => exact exec_watch_own hr ha hx hp ho (readKey_new hk hc)
  case aborts =>
    obtain ⟨_, _, e, -⟩ := s.abortTx_stirred c cause code
    dsimp only
    rw [e]
    exact ⟨rfl, rfl, rfl, rfl, rfl, rfl, rfl, (s.abortTx_books c cause code).mem⟩
  case restarts =>
    obtain ⟨_, _, _, e, -⟩ := s.restartConflict_stirred c
    dsimp only
    rw [e]
    exact ⟨rfl, rfl, rfl, rfl, rfl, rfl, rfl, (State.restart_restarts c _).mem⟩
  case token => exact ⟨State.abortTx_holder cause code hh, State.restartConflict_holder hh⟩

end Sys2Proof.Machine
end

section
/-! SUPPORT. The loads and stores of the memory class as their rows give them (R226 to R232, R264). -/

namespace Sys2Proof.Machine

variable {s r t u v w z : State} {d a b : BitVec 5} {x y base off : Word}

/-! ### Completion and addresses -/

/-- A ready instruction completes past the effect of its body. -/
theorem perform_past {i : Instr} {m : Op Unit} (h : Ready i s r) (hm : m r = .ok ((), t)) : perform i (thenNext m) s = .next t.past :=
  perform_ok h (thenNext_ok hm)

theorem addrJ_ok (k : BitVec 14) (h : Reads a r x t) : addrJ a k r = .ok (x + BitVec.ofInt 64 k.toInt, t) := bind_ok h

/-! ### Loads -/

theorem laneInt_of_unsigned {ty : Nat} (h : isSigned ty ≠ true) (n : Nat) : laneInt ty n = (n : Int) := if_neg h

/-- An element is extended by its type (R37, R227). -/
theorem extendTo64_eq (ty : BitVec 4) (n : Nat) :
    extendTo64 ty n = if isSigned ty.toNat then BitVec.ofInt 64 (laneInt ty.toNat n) else BitVec.ofNat 64 n := by
  unfold extendTo64
  split
  · rfl
  · rename_i h
    rw [laneInt_of_unsigned h, BitVec.ofInt_natCast]

/-- A load of many lanes: the active lanes are checked, loaded in order, and written to D (R227). -/
theorem vecLoad_ok {e hint : Nat} {vas : List (Nat × Word)} {ls : List Lane} {xs : List (Nat × Nat)}
    (hl : resolve .load (e / 8) vas s = .ok (ls, t)) (hx : loadLanes hint ls t = .ok (xs, u))
    (hw : WritesV d u (ofLanes e ((List.range (512 / e)).map (fun j => (tget xs j).getD 0))) v) :
    vecLoad d e hint vas s = .ok ((), v) :=
  (bind_ok hl).trans ((bind_ok hx).trans hw)

/-! ### Stores -/

/-- A store of many lanes: the active lanes are checked, and then stored in order (R227). -/
theorem vecStore_ok {e : Nat} {q : VReg} {vas : List (Nat × Word)} {ls : List Lane}
    (hl : resolveStore .store (e / 8) vas s = .ok (ls, t)) (hs : storeLanes e q ls t = .ok ((), u)) : vecStore q e vas s = .ok ((), u) :=
  (bind_ok hl).trans hs

/-- Outside an attempt, and not to near space, STM is its store (R232). -/
theorem execStm_ok {k : BitVec 14} {n : Word} (hr : Ready (.stm d a k) s r) (ha : Reads a r x t) (hd : Reads d t n u)
    (hx : u.me.tx.active = false) (hp : ∀ p o, u.place u.myTil (x + BitVec.ofInt 64 k.toInt) ≠ some (.near p o))
    (hs : storeScalar .stm 8 (x + BitVec.ofInt 64 k.toInt) n.toNat u = .ok ((), v)) : exec (.stm d a k) s = .next v.past := by
  refine perform_past hr ((bind_ok (addrJ_ok k ha)).trans ((bind_ok hd).trans ((bind_ok (op_get u)).trans ?_)))
  rw [hx, if_neg Bool.false_ne_true]
  split
  next p o e => exact absurd e (hp p o)
  next => exact hs

end Sys2Proof.Machine

namespace Sys2Proof

open Machine

/-- Settles O20: each load forms its addresses, loads its lanes and writes D. -/
theorem loads : Obligations.Loads := by
  refine ⟨fun d a b s r t u v w x y n ha => ⟨fun k hr hl hw => ?ld, fun k hr hl hw => ?vld, fun ty h hr hb hl hw _ => ?ldx,
    fun sc o wd l bs z hr hl hx hq hw => ?ldaq⟩,
    fun d a b ty h m s r t u v w base ls xs ha => ⟨fun off hr hb hl hx z hw => ?vlds, fun off hr hb hl hx z hw => ?vgth⟩⟩
  case ld => exact perform_past hr ((bind_ok (addrJ_ok k ha)).trans ((bind_ok hl).trans hw))
  case vld => exact perform_past hr ((bind_ok (addrJ_ok k ha)).trans ((bind_ok hl).trans hw))
  case ldx =>
    rw [← extendTo64_eq] at hw
    exact perform_past hr ((bind_ok ha).trans ((bind_ok hb).trans ((bind_ok hl).trans hw)))
  case ldaq =>
    refine perform_past hr ((bind_ok ha).trans ((bind_ok hl).trans (bind_ok (x := ()) (t := z) ?_)))
    exact (bind_ok hx).trans ((bind_ok hq).trans hw)
  case vlds => exact perform_past hr ((bind_ok ha).trans ((bind_ok hb).trans ((bind_ok (op_ask _ u)).trans (vecLoad_ok hl hx hw))))
  case vgth => exact perform_past hr ((bind_ok ha).trans ((bind_ok hb).trans ((bind_ok (op_ask _ u)).trans (vecLoad_ok hl hx hw))))

/-- Settles O21: each store forms its addresses, reads its value and stores its lanes. -/
theorem stores : Obligations.Stores := by
  refine ⟨fun d a b s r t u v w x y z q ha => ⟨fun k => ⟨fun hr hd hs => ?st, fun hr hd hs => ?vst,
      fun hr hd hx hp hs => execStm_ok hr ha hd hx hp hs⟩,
    fun ty hr hb hd hs => ?stx, fun sc o wd hr hd hs hq => ?strl⟩,
    fun d a b ty m s r t u v w z base q ls ha hd hs => ⟨fun off hr hb hl => ?vsts, fun off hr hb hl => ?vsct⟩⟩
  case st => exact perform_past hr ((bind_ok (addrJ_ok k ha)).trans ((bind_ok hd).trans hs))
  case vst => exact perform_past hr ((bind_ok (addrJ_ok k ha)).trans ((bind_ok hd).trans hs))
  case stx => exact perform_past hr ((bind_ok ha).trans ((bind_ok hb).trans ((bind_ok hd).trans hs)))
  case strl => exact perform_past hr ((bind_ok ha).trans ((bind_ok hd).trans ((bind_ok hs).trans hq)))
  case vsts =>
    exact perform_past hr ((bind_ok ha).trans ((bind_ok hb).trans ((bind_ok hd).trans ((bind_ok (op_ask _ v)).trans (vecStore_ok hl hs)))))
  case vsct =>
    exact perform_past hr ((bind_ok ha).trans ((bind_ok hb).trans ((bind_ok hd).trans ((bind_ok (op_ask _ v)).trans (vecStore_ok hl hs)))))

end Sys2Proof
end

section
/-! SUPPORT. Where an address lies (R200 to R202), and the checks at which an access stops before any effect (R220, R232, R255). -/

namespace Sys2Proof.Machine

variable {s r t u v : State} {d a b : BitVec 5} {x y va : Word} {n i : Nat} {l : List (Nat × Word)}

/-! ### Where an address lies (R200 to R202) -/

/-- The fields of an address as numbers. -/
theorem State.place_eq (s : State) (me : Nat) (va : Word) : s.place me va =
    if va.toNat / 2 ^ 56 = 0 then (if va.toNat / 2 ^ 52 % 2 ^ 4 = 0 then some (.global va.toNat) else none)
    else if va.toNat / 2 ^ 56 = 0xF0 ∧ va.toNat / 2 ^ 43 % 2 ^ 13 = 0 ∧ va.toNat / 2 ^ 20 % 2 ^ 12 = 0 then
      if va.toNat / 2 ^ 42 % 2 = 1 then (if va.toNat / 2 ^ 32 % 2 ^ 10 = 0 then some (.near me (va.toNat % 2 ^ 20)) else none)
      else if (s.til (va.toNat / 2 ^ 32 % 2 ^ 10)).part = (s.til me).part then
        some (.near (va.toNat / 2 ^ 32 % 2 ^ 10) (va.toNat % 2 ^ 20)) else none
    else none := by
  have field (lo len : Nat) : (va.extractLsb' lo len).toNat = va.toNat / 2 ^ lo % 2 ^ len := by
    rw [BitVec.extractLsb'_toNat, Nat.shiftRight_eq_div_pow]
  have top : va.toNat / 2 ^ 56 % 2 ^ 8 = va.toNat / 2 ^ 56 := Nat.mod_eq_of_lt (by have := va.isLt; omega)
  unfold State.place
  simp only [field_eq_zero_iff, field, top, BitVec.getLsbD, Nat.testBit_eq_decide_div_mod_eq, decide_eq_true_eq, pow_zero, Nat.div_one]

/-- Where the addresses of each kind lie. -/
theorem place_clauses (s : State) (me : Nat) (va : Word) :
    (va.toNat < 2 ^ 52 → s.place me va = some (.global va.toNat)) ∧
     (∀ off, off < 2 ^ 20 → va.toNat = 0xF0 * 2 ^ 56 + 2 ^ 42 + off → s.place me va = some (.near me off)) ∧
     (∀ til off, til < 1024 → off < 2 ^ 20 → va.toNat = 0xF0 * 2 ^ 56 + til * 2 ^ 32 + off →
       s.place me va = if (s.til til).part = (s.til me).part then some (.near til off) else none) ∧
     (2 ^ 52 ≤ va.toNat → va.toNat < 0xF0 * 2 ^ 56 → s.place me va = none) ∧
     (0xF1 * 2 ^ 56 ≤ va.toNat → s.place me va = none) ∧
     (va.toNat / 2 ^ 56 = 0xF0 → (va.toNat / 2 ^ 43 % 2 ^ 13 ≠ 0 ∨ va.toNat / 2 ^ 20 % 2 ^ 12 ≠ 0 ∨
       (va.toNat / 2 ^ 42 % 2 = 1 ∧ va.toNat / 2 ^ 32 % 2 ^ 10 ≠ 0)) → s.place me va = none) := by
  refine ⟨State.place_global, fun off ho e => ?self, fun til off ht ho e => ?near, fun hl hh => ?between, fun hl => ?above,
    fun htag hbad => ?reserved⟩
  all_goals rw [State.place_eq]
  case self =>
    rw [if_neg (by omega), if_pos (by omega), if_pos (by omega), if_pos (by omega), show va.toNat % 2 ^ 20 = off by omega]
  case near =>
    rw [if_neg (by omega), if_pos (by omega), if_neg (by omega), show va.toNat / 2 ^ 32 % 2 ^ 10 = til by omega,
      show va.toNat % 2 ^ 20 = off by omega]
  case between =>
    by_cases top : va.toNat / 2 ^ 56 = 0
    · rw [if_pos top, if_neg (by omega)]
    · rw [if_neg top, if_neg (by omega)]
  case above => rw [if_neg (by omega), if_neg (by omega)]
  case reserved =>
    rw [if_neg (by omega)]
    by_cases zeros : va.toNat / 2 ^ 56 = 0xF0 ∧ va.toNat / 2 ^ 43 % 2 ^ 13 = 0 ∧ va.toNat / 2 ^ 20 % 2 ^ 12 = 0
    · rw [if_pos zeros, if_pos (by omega), if_neg (by omega)]
    · rw [if_neg zeros]

/-! ### The checks of a lane (R220, R255) -/

theorem checkLanes_noSpace (h : s.place s.myTil va = none) : checkLanes n ((i, va) :: l) s = .error (.trap Cause.addr i va) := by
  rw [checkLanes, bind_ok (op_get s)]
  simp only [h]
  rw [State.check, h]
  rfl

theorem checkLanes_misaligned {q : Place} (h : s.place s.myTil va = some q) (ha : va.toNat % n ≠ 0) :
    checkLanes n ((i, va) :: l) s = .error (.trap Cause.align i va) := by
  rw [checkLanes, bind_ok (op_get s)]
  simp only [h]
  cases migrates s q with
  | some t =>
    dsimp only
    rw [if_neg ha]
    rfl
  | none =>
    dsimp only
    rw [State.check, h]
    dsimp only
    rw [if_pos ha]
    rfl

theorem checkLanes_outOfBounds {til off : Nat} (hm : s.me.mig = false) (h : s.place s.myTil va = some (.near til off))
    (ha : va.toNat % n = 0) (hb : (s.til til).spadSize < off + n) :
    checkLanes n ((i, va) :: l) s = .error (.trap Cause.bounds i va) := by
  have stays : migrates s (.near til off) = none := by simp [migrates, hm]
  rw [checkLanes, bind_ok (op_get s)]
  simp only [h, stays]
  rw [State.check, h]
  dsimp only
  rw [if_neg (not_not.mpr ha), if_neg (not_le.mpr hb)]
  rfl

theorem checkLanes_moves {til off : Nat} (hm : s.me.mig = true) (h : s.place s.myTil va = some (.near til off)) (ht : til ≠ s.myTil)
    (ha : va.toNat % n = 0) : checkLanes n ((i, va) :: l) s = .error (.migrate til) := by
  have moves : migrates s (.near til off) = some til := by simp [migrates, hm, ht]
  rw [checkLanes, bind_ok (op_get s)]
  simp only [h, moves, ha]
  rfl

/-! ### An access stops at its check -/

section
variable {e : Stop} (he : checkLanes n [(0, va)] s = .error e)
include he

theorem loadScalar_stops {hint : Nat} : loadScalar n va hint s = .error e := bind_error (bind_error he)

theorem resolveStore_stops {k : Acc} : resolveStore k n [(0, va)] s = .error e := bind_error he

theorem storeScalar_stops {k : Acc} {z : Nat} : storeScalar k n va z s = .error e := bind_error (resolveStore_stops he)

theorem atomicLane_stops : atomicLane n va s = .error e := bind_error (resolveStore_stops he)
end

theorem inTx_ok (h : s.me.tx.active = false) : inTx s = .ok (false, s) := by rw [inTx, op_ask, h]

theorem exec_accessTable {k : BitVec 14} {ty : BitVec 4} {h : BitVec 2} {sc o wd : BitVec 3} {e : Stop} :
    ∀ p ∈ accessTable d a b k ty h sc o wd, Ready p.1 s r → p.2.2 r va t → t.me.tx.active = false →
      checkLanes p.2.1 [(0, va)] t = .error e → exec p.1 s = .next (s.onStop (wordOf p.1) e) := by
  have body {i : Instr} {m : Op Unit} (hr : Ready i s r) (hm : m r = .error e) : perform i (thenNext m) s = .next (s.onStop (wordOf i) e) :=
    perform_error hr (thenNext_error hm)
  have always {i : Instr} {p : Nat} (hr : Ready i s r) : (∃ u y, Reads a r va u ∧ Reads b u y t) → t.me.tx.active = false →
      checkLanes (widthSize wd) [(0, va)] t = .error e → amo i p d a b sc o wd s = .next (s.onStop (wordOf i) e) := by
    rintro ⟨u, y, ha, hb⟩ _ he
    exact body hr ((bind_ok ha).trans ((bind_ok hb).trans (bind_error (atomicLane_stops he))))
  simp only [accessTable, List.forall_mem_cons]
  refine ⟨?ld, ?vld, ?ldx, ?ldaq, ?st, ?vst, ?stx, ?strl, always, always, always, always, always, always, always, ?red, ?amocas,
    List.forall_mem_nil _⟩
  case ld =>
    rintro hr ⟨x, ha, rfl⟩ _ he
    exact body hr ((bind_ok (addrJ_ok k ha)).trans (bind_error (loadScalar_stops he)))
  case vld =>
    rintro hr ⟨x, ha, rfl⟩ _ he
    exact body hr ((bind_ok (addrJ_ok k ha)).trans (bind_error (loadScalar_stops he)))
  case ldx =>
    rintro hr ⟨x, y, u, ha, hb, rfl⟩ _ he
    exact body hr ((bind_ok ha).trans ((bind_ok hb).trans (bind_error (loadScalar_stops he))))
  case ldaq =>
    intro hr ha _ he
    exact body hr ((bind_ok ha).trans (bind_error (bind_error he)))
  case st =>
    rintro hr ⟨z, u, ⟨x, ha, rfl⟩, hd⟩ _ he
    exact body hr ((bind_ok (addrJ_ok k ha)).trans ((bind_ok hd).trans (storeScalar_stops he)))
  case vst =>
    rintro hr ⟨z, u, ⟨x, ha, rfl⟩, hd⟩ _ he
    exact body hr ((bind_ok (addrJ_ok k ha)).trans ((bind_ok hd).trans (storeScalar_stops he)))
  case stx =>
    rintro hr ⟨z, u, ⟨x, y, w, ha, hb, rfl⟩, hd⟩ _ he
    exact body hr ((bind_ok ha).trans ((bind_ok hb).trans ((bind_ok hd).trans (storeScalar_stops he))))
  case strl =>
    rintro hr ⟨z, u, ha, hd⟩ _ he
    exact body hr ((bind_ok ha).trans ((bind_ok hd).trans (bind_error (storeScalar_stops he))))
  case red =>
    rintro hr ⟨u, y, ha, hb⟩ hx he
    refine body hr ((bind_ok ha).trans ((bind_ok hb).trans ((bind_ok (inTx_ok hx)).trans ?_)))
    exact bind_error (atomicLane_stops he)
  case amocas =>
    rintro hr ⟨z, u, ⟨w, y, ha, hb⟩, hd⟩ _ he
    exact body hr ((bind_ok ha).trans ((bind_ok hb).trans ((bind_ok hd).trans (bind_error (atomicLane_stops he)))))

/-! ### STM (R232) -/

theorem exec_stm_stops {k : BitVec 14} {z : Word} {e : Stop} (hr : Ready (.stm d a k) s r) (ha : Reads a r x t) (hd : Reads d t z u)
    (hx : u.me.tx.active = false) (he : checkLanes 8 [(0, x + BitVec.ofInt 64 k.toInt)] u = .error e)
    (hp : ∀ p o, u.place u.myTil (x + BitVec.ofInt 64 k.toInt) ≠ some (.near p o)) :
    exec (.stm d a k) s = .next (s.onStop (wordOf (.stm d a k)) e) := by
  refine perform_error hr (thenNext_error ((bind_ok (addrJ_ok k ha)).trans ((bind_ok hd).trans ((bind_ok (op_get u)).trans ?_))))
  rw [hx, if_neg Bool.false_ne_true]
  split
  next p o e => exact absurd e (hp p o)
  next => exact storeScalar_stops he

theorem exec_stm_near {k : BitVec 14} {z : Word} {p o : Nat} (hr : Ready (.stm d a k) s r) (ha : Reads a r x t) (hd : Reads d t z u)
    (hx : u.me.tx.active = false) (hp : u.place u.myTil (x + BitVec.ofInt 64 k.toInt) = some (.near p o)) :
    exec (.stm d a k) s = .next (s.onStop (wordOf (.stm d a k)) (.trap Cause.addr 0 (x + BitVec.ofInt 64 k.toInt))) := by
  refine perform_error hr (thenNext_error ((bind_ok (addrJ_ok k ha)).trans ((bind_ok hd).trans ((bind_ok (op_get u)).trans ?_))))
  rw [hx, if_neg Bool.false_ne_true]
  dsimp only
  rw [hp]
  rfl

/-! ### Where a MIG strand goes (R255) -/

theorem Core.outstanding_iff (k : Core) (c cycle : Nat) (loads : Bool) (line : Option Nat) : k.outstanding c cycle loads line = true ↔
    (∃ q ∈ k.reqs, q.cid = c ∧ cycle < q.until_.toNat ∧ (loads = true → q.load = true) ∧
      ∀ l, line = some l → q.far = false ∧ q.load = false ∧ q.line = l) ∨
    (line = none ∧ ∃ w ∈ k.waves, w.cid = c ∧ (loads = true → w.regs ≠ [regNext])) := by
  have implied (p q : Bool) : (!p || q) = true ↔ (p = true → q = true) := by cases p <;> simp
  have onLine (q : Req) : line.all (fun l => !q.far && !q.load && q.line == l) = true ↔
      ∀ l, line = some l → q.far = false ∧ q.load = false ∧ q.line = l := by cases line <;> simp [and_assoc]
  simp only [Core.outstanding, Bool.or_eq_true, Bool.and_eq_true, List.any_eq_true, beq_iff_eq, decide_eq_true_eq, implied, bne_iff_ne,
    Option.isNone_iff_eq_none, onLine, and_assoc]

theorem outstanding_iff (s : State) (c : Nat) :
    (s.core (coreOf c)).outstanding c (s.core (coreOf c)).cycle.toNat false none = true ↔ s.Outstanding c := by
  simp [Core.outstanding_iff, State.Outstanding]

theorem State.onStop_migrate {w : IWord} {til : Nat} (h : s.me.tx.active = false) : s.onStop w (.migrate til) = s.moveOut s.cur til := by
  simp [State.onStop, h]

theorem State.moveOut_now {c til : Nat} (h : ¬s.Outstanding c) : s.moveOut c til = s.depart c til false :=
  if_neg (mt (outstanding_iff s c).mp h)

theorem State.moveOut_later {c til : Nat} (h : s.Outstanding c) : s.moveOut c til = s.modCtx c (fun x => { x with wait := .moving til }) :=
  if_pos ((outstanding_iff s c).mpr h)

/-- Settles O22: an access stops at its first check, and what a stop leaves is its trap or its migration. -/
theorem accessChecks : Obligations.AccessChecks := by
  refine ⟨fun d a b k ty h sc o wd s r t va p hp hr hva hs ht => ⟨fun hm => ⟨fun hq => ?space, fun q hq ha => ?align,
      fun til off hq ha hb => ?bounds⟩, fun til off hm hq hne ha => ?moves⟩,
    fun d a k s r t u x z hr hra hrd hs hu => ⟨fun hno => ?stmSpace, fun g hg ha => ?stmAlign⟩, fun s me va => ?places⟩
  case space => exact (exec_accessTable p hp hr hva ht (checkLanes_noSpace hq)).trans (congrArg _ (State.onStop_trap hs))
  case align => exact (exec_accessTable p hp hr hva ht (checkLanes_misaligned hq ha)).trans (congrArg _ (State.onStop_trap hs))
  case bounds => exact (exec_accessTable p hp hr hva ht (checkLanes_outOfBounds hm hq ha hb)).trans (congrArg _ (State.onStop_trap hs))
  case moves =>
    have run := (exec_accessTable p hp hr hva ht (checkLanes_moves hm hq hne ha)).trans (congrArg _ (State.onStop_migrate hs))
    exact ⟨fun ho => run.trans (congrArg _ (State.moveOut_now ho)), fun ho => run.trans (congrArg _ (State.moveOut_later ho))⟩
  case stmSpace =>
    refine Eq.trans ?_ (congrArg Host.Outcome.next (State.onStop_trap hs))
    rcases hq : u.place u.myTil (x + BitVec.ofInt 64 k.toInt) with _ | ⟨p, o⟩ | g
    · exact exec_stm_stops hr hra hrd hu (checkLanes_noSpace hq) (fun p o e => nomatch hq.symm.trans e)
    · exact exec_stm_near hr hra hrd hu hq
    · exact absurd hq (hno g)
  case stmAlign =>
    exact (exec_stm_stops hr hra hrd hu (checkLanes_misaligned hg ha) (fun p o e => nomatch hg.symm.trans e)).trans
      (congrArg _ (State.onStop_trap hs))
  case places =>
    obtain ⟨global, self, near, between, above, reserved⟩ := place_clauses s me va
    exact ⟨global, self, near, between, above, reserved, rfl⟩

end Sys2Proof.Machine
end

section
/-! SUPPORT. Fences (R250, R264) and cache instructions (R233 to R235). -/

namespace Sys2Proof.Machine

variable {s r t u v : State} {d a b : BitVec 5} {x y va : Word}

/-! ### Fences -/

theorem holdOrder_of {loads : Bool} {line : Option Nat} {at_ : Word} {flush : Flush} (h : OrderHeld loads line at_ flush s t) :
    s.holdOrder loads line at_ flush = t := by
  obtain ⟨held, goes⟩ := h
  rw [← or_assoc, ← Core.outstanding_iff] at held goes
  unfold State.holdOrder
  dsimp only
  split
  next h => exact (held h).symm
  next h => exact (goes h).symm

theorem acquires_iff (o : BitVec 3) : acquires o = true ↔ o = 1 ∨ o = 3 ∨ o = 4 := by simp [acquires, or_assoc]
theorem releases_iff (o : BitVec 3) : releases o = true ↔ o = 2 ∨ o = 3 ∨ o = 4 := by simp [releases, or_assoc]


theorem inTx_outcome (s : State) : inTx s = .ok (s.me.tx.active, s) := op_ask _ s

/-- A fence with an acquire or a release part, outside an attempt and beyond CTX scope, holds its context (R264). -/
theorem exec_fence_holds {sc o : BitVec 3} (hr : Ready (.fence sc o) s r) (hsc : sc ≠ 0) (hx : r.me.tx.active = false)
    (ho : acquires o ∨ releases o) :
    exec (.fence sc o) s = .next (r.holdOrder (!releases o) none 0 (if acquires o then .acquire sc.toNat else .none)).past := by
  refine perform_past hr ((bind_ok (inTx_outcome r)).trans ?_)
  rw [if_pos ⟨by rw [hx]; rfl, hsc, ho⟩]
  exact op_upd _ r

theorem exec_fence_passes {sc o : BitVec 3} (hr : Ready (.fence sc o) s r)
    (h : sc = 0 ∨ r.me.tx.active = true ∨ ¬(acquires o ∨ releases o)) : exec (.fence sc o) s = .next r.past := by
  refine perform_past hr ((bind_ok (inTx_outcome r)).trans ?_)
  rw [if_neg]
  · exact op_pure () r
  · rintro ⟨outside, hsc, ho⟩
    rcases h with h | h | h
    · exact hsc h
    · simp [h] at outside
    · exact h ho

/-- A fence's wait lasts until its cycle has come, and, where nothing is outstanding then, ends with what it drops. -/
theorem endWait_order {c : Nat} {loads : Bool} {line : Option Nat} {at_ : Word} {flush : Flush}
    (hw : (s.ctx c).wait = .order loads line at_ flush) (hc : (s.core (coreOf c)).cycle.toNat + 1 < 2 ^ 64) :
    let next := (s.core (coreOf c)).cycle + 1
    (next.toNat < at_.toNat → s.endWait c = s) ∧
    (at_.toNat ≤ next.toNat → (s.core (coreOf c)).reqs = [] → (s.core (coreOf c)).waves = [] →
      s.endWait c = (s.modCtx c (fun x => { x with wait := .none, lastIssue := some next })).flush (tilOf c) flush) := by
  intro next
  have hn : next.toNat = (s.core (coreOf c)).cycle.toNat + 1 := (BitVec.toNat_add _ _).trans (Nat.mod_eq_of_lt hc)
  unfold State.endWait
  simp only [hw, ← hn, BitVec.ofNat_toNat, BitVec.setWidth_eq]
  refine ⟨fun h => if_pos (.inr h), fun h hr hv => if_neg ?_⟩
  rintro (h' | h')
  · simp [Core.outstanding, hr, hv] at h'
  · omega

/-! ### Cache instructions -/

section
variable {k : BitVec 14} {pa : Nat} {e : Word} (ha : Reads a r x t)
include ha

theorem exec_prfL2_ok (hr : Ready (.prfL2 a k) s r) (hp : cachePage false (x + BitVec.ofInt 64 k.toInt) t = .ok (some (pa, e), u)) :
    exec (.prfL2 a k) s = .next u.past :=
  perform_past hr ((bind_ok (addrJ_ok k ha)).trans ((bind_ok hp).trans (op_pure _ u)))

theorem exec_prfL1_fills (hr : Ready (.prfL1 a k) s r) (hp : cachePage false (x + BitVec.ofInt 64 k.toInt) t = .ok (some (pa, e), u))
    (hc : ctxNo u.cur ≠ 15) (hrd : entRd e = true) (hnc : entNc e = false) (hm : u.me.mig = false) (h1 : 0 < (u.til u.myTil).l1sz)
    (hpz : u.poisoned (pa / 64 * 64) 64 = false) (hno : (u.til u.myTil).l1.any (fun l => l.line == pa / 64) = false) :
    exec (.prfL1 a k) s = .next (u.modTil u.myTil (fun t => { t with
      l1 := l1Fill (128 * t.l1sz) false t.l1 (u.lineNow (pa / 64)) })).past := by
  have permitted : permFault .load e = none := if_pos hrd
  refine perform_past hr ((bind_ok (addrJ_ok k ha)).trans ((bind_ok hp).trans ((bind_ok (op_get u)).trans ?_)))
  rw [if_neg (by simp [hc, permitted, hnc, hm, h1.ne', hpz, hno])]
  exact op_upd _ u

theorem exec_cfl_ok (hr : Ready (.cfl a k) s r) (hp : cachePage true (x + BitVec.ofInt 64 k.toInt) t = .ok (some (pa, e), u)) :
    exec (.cfl a k) s = .next (if u.poisoned (pa / 64 * 64) 64 then u else u.dropL1 u.myTil pa 1).past :=
  perform_past hr ((bind_ok (addrJ_ok k ha)).trans ((bind_ok hp).trans (op_upd _ u)))

omit ha in
/-- An invalidation holds its context until its earlier stores to the line are performed (R235). -/
theorem invalidate_ok {data code : Bool} (hp : cachePage true va t = .ok (some (pa, e), u))
    (hv : OrderHeld false (some (pa / 64)) 0 (.line (pa / 64) data code) u v) : invalidate data code va t = .ok ((), v) :=
  (bind_ok hp).trans (holdOrder_of hv ▸ op_upd _ u)
end

/-- Settles O26: a fence and an invalidation hold their context, and the other cache instructions act on the line of their address. -/
theorem cachesAndFences : Obligations.CachesAndFences := by
  refine ⟨fun sc o s r t hr => ⟨fun hsc hx ho held => ?holds, fun h => ?passes⟩,
    fun s c til l scope loads data code line at_ flush => ⟨rfl, rfl, rfl, endWait_order⟩,
    fun a k s r t u x pa e ha => ⟨fun hp => ⟨fun hr => exec_prfL2_ok ha hr hp,
      fun hr hc hrd hnc hm h1 hpz hno => exec_prfL1_fills ha hr hp hc hrd hnc hm h1 hpz hno⟩, fun hp => ⟨fun hr => ?flush, fun v => ?inval⟩⟩⟩
  case holds =>
    have loads : decide (¬(o = 2 ∨ o = 3 ∨ o = 4)) = !releases o := by
      rw [Bool.eq_iff_iff, decide_eq_true_iff, ← releases_iff, Bool.not_eq_true, Bool.not_eq_true']
    have drops : (if o = 1 ∨ o = 3 ∨ o = 4 then Flush.acquire sc.toNat else .none) = if acquires o then .acquire sc.toNat else .none :=
      if_congr (acquires_iff o).symm rfl rfl
    have parts : acquires o ∨ releases o := ho.imp (acquires_iff o).mpr (releases_iff o).mpr
    rw [exec_fence_holds hr hsc hx parts, ← loads, ← drops, holdOrder_of held]
  case passes =>
    exact exec_fence_passes hr (h.imp_right (Or.imp_right (mt (Or.imp (acquires_iff o).mp (releases_iff o).mp))))
  case flush =>
    have run := exec_cfl_ok ha hr hp
    exact ⟨fun hpz => by rw [run, hpz, if_neg Bool.false_ne_true], fun hpz => by rw [run, if_pos hpz]⟩
  case inval =>
    have run {data code : Bool} {i : Instr} (hr : Ready i s r) (hv : OrderHeld false (some (pa / 64)) 0 (.line (pa / 64) data code) u v) :
        perform i (thenNext (addrJ a k >>= invalidate data code)) s = .next v.past :=
      perform_past hr ((bind_ok (addrJ_ok k ha)).trans (invalidate_ok hp hv))
    exact ⟨fun hr hv => run hr hv, fun hr hv => run hr hv, fun hr hv => run hr hv⟩

end Sys2Proof.Machine
end

section
/-! SUPPORT. Translation maintenance: TLBF and TLBI (R219, R390, R391). -/

namespace Sys2Proof.Machine

variable {s r t u v : State} {d a b : BitVec 5} {e w va : Word}

/-! ### TLBF -/

theorem privilegedOnly_ok {s : State} (h : privileged s.cur = true) : privilegedOnly s = .ok ((), s) := by
  rw [privilegedOnly, bind_ok (op_ask _ s), h]
  rfl

/-- An instruction of the steward and the walker completes where its effect does (R385). -/
theorem privileged_ok {i : Instr} {m : Op Unit} (hr : Ready i s r) (hc : privileged s.cur = true) (hm : m r = .ok ((), t)) :
    performRaw i (thenNext (privilegedOnly >>= fun _ => examineFields i >>= fun _ => m)) s = .next t.past :=
  performRaw_ok hr.1 (thenNext_ok ((bind_ok (privilegedOnly_ok hc)).trans ((bind_ok hr.2).trans hm)))

/-- TLBF is the fill that its operands ask for, and its result. -/
theorem exec_tlbf_fill {z : State} {n : Word} (hc : privileged s.cur = true) (hr : Ready (.tlbf d a b) s r) (ha : Reads a r e t)
    (hb : Reads b t w u) (hf : u.fill e w = (z, n)) (hw : Writes d z n v) : exec (.tlbf d a b) s = .next v.past := by
  refine privileged_ok hr hc ((bind_ok ha).trans ((bind_ok hb).trans ((bind_ok (op_ask _ u)).trans ?_)))
  rw [hf]
  exact hw

/-- Does a context wait for a walk, and is it for one of a fetch? -/
def Wait.isMiss : Wait → Bool
  | .miss _ _ _ _ => true
  | _ => false

def Wait.isFetchMiss : Wait → Bool
  | .miss .fetch _ _ _ => true
  | _ => false

/-- The context and the page that a control word names, and whether the word is malformed (R390). -/
def fillCtx (u : State) (w : Word) : Nat := u.myCore * 16 + w.toNat % 16

def fillPage (e w : Word) : TlbEntry :=
  let size := pageSize (w.toNat / 16 % 4)
  { va := w.toNat / 2 ^ 16 * 65536 / size * size, size := size, entry := e }

def fillBad (w : Word) : Prop :=
  2 ^ 52 ≤ w.toNat ∨ w.toNat / 2 ^ 10 % 2 ^ 6 ≠ 0 ∨ 5 < w.toNat / 64 % 8 ∨ w.toNat / 2 ^ 9 % 2 = 1 ∧ w.toNat / 64 % 8 ≠ 0

theorem field_toNat (w : Word) (lo len : Nat) : (w.extractLsb' lo len).toNat = w.toNat / 2 ^ lo % 2 ^ len := by
  rw [BitVec.extractLsb'_toNat, Nat.shiftRight_eq_div_pow]

theorem fillBad_iff (w : Word) : fillBad w ↔
    w.extractLsb' 52 12 ≠ 0 ∨ w.extractLsb' 10 6 ≠ 0 ∨ 5 < (w.extractLsb' 6 3).toNat ∨ (w.getLsbD 9 = true ∧ (w.extractLsb' 6 3).toNat ≠ 0) := by
  have high : w.toNat / 2 ^ 52 % 2 ^ 12 ≠ 0 ↔ 2 ^ 52 ≤ w.toNat := by have := w.isLt; omega
  simp only [fillBad, ne_eq, field_eq_zero_iff, field_toNat, BitVec.getLsbD, Nat.testBit_eq_decide_div_mod_eq, decide_eq_true_eq]
  rw [← high]
  rfl

theorem State.fill_malformed (h : fillBad w) : u.fill e w = (u, failCode 4) := if_pos ((fillBad_iff w).mp h)

/-- What a well-formed control word asks for, by its fields as numbers. -/
theorem State.fill_eq (u : State) (e : Word) (h : ¬fillBad w) :
    let c := fillCtx u w
    let act := w.toNat / 64 % 8
    let pre := w.toNat / 2 ^ 9 % 2 = 1
    let z := u.installEntry u.cur ((u.ctx c).wait.isFetchMiss && !decide pre) (fillPage e w)
    u.fill e w =
      if ¬pre ∧ (u.ctx c).wait.isMiss = false then (u, failCode 1)
      else if act = 0 ∧ unusable e (w.toNat / 16 % 4) (u.partOf u.myTil) then (if pre then u else u.declareFault c 5, failCode 2)
      else if act = 0 then (if pre then z else z.modCtx c (fun x => { x with wait := .none }), 0)
      else (u.declareFault c act, 0) := by
  intro c act pre z
  have low : w.toNat < 2 ^ 52 := not_le.mp fun hl => h (.inl hl)
  have ctx : u.myCore * 16 + (w.extractLsb' 0 4).toNat = c := by
    rw [field_toNat, pow_zero, Nat.div_one]
    rfl
  have bit : w.getLsbD 9 = decide pre := by rw [BitVec.getLsbD, Nat.testBit_eq_decide_div_mod_eq]
  have page : (w.extractLsb' 16 36).toNat = w.toNat / 2 ^ 16 := by rw [field_toNat]; omega
  unfold State.fill
  extract_lets act' psz' pre' c' missing fetch va z'
  have hfetch : fetch = ((u.ctx c).wait.isFetchMiss && !decide pre) := by
    simp only [fetch, c', ctx, pre', bit]
    cases (u.ctx c).wait with
    | miss k _ _ _ => cases k <;> rfl
    | _ => rfl
  have hmissing : missing = (u.ctx c).wait.isMiss := by
    simp only [missing, c', ctx]
    rfl
  have hact : act' = act := field_toNat w 6 3
  have hpsz : psz' = w.toNat / 16 % 4 := field_toNat w 4 2
  have hz : z' = z := by simp only [z', va, hpsz, hfetch, page]; rfl
  have hpre : pre' = decide pre := bit
  have hc : c' = c := ctx
  rw [if_neg (mt (fillBad_iff w).mpr h)]
  simp only [hmissing, hact, hpsz, hz, hpre, hc, Bool.not_eq_true', decide_eq_false_iff_not, decide_eq_true_eq]

section
variable {k : Acc} {lane : Nat} {at_ : Word} {quiet : Bool} (hk : (u.ctx (fillCtx u w)).wait = .miss k lane at_ quiet) (h : ¬fillBad w)
include hk h

theorem State.fill_installs (hp : w.toNat / 2 ^ 9 % 2 = 0) (ha : w.toNat / 64 % 8 = 0)
    (hu : unusable e (w.toNat / 16 % 4) (u.partOf u.myTil) = false) :
    u.fill e w = ((u.installEntry u.cur (k = .fetch) (fillPage e w)).modCtx (fillCtx u w) (fun x => { x with wait := .none }), 0) := by
  have fetch : (Wait.miss k lane at_ quiet).isFetchMiss = decide (k = .fetch) := by cases k <;> rfl
  rw [State.fill_eq u e h, hp, ha, hu, hk, fetch]
  simp [Wait.isMiss]

theorem State.fill_refuses (hp : w.toNat / 2 ^ 9 % 2 = 0) (ha : w.toNat / 64 % 8 = 0)
    (hu : unusable e (w.toNat / 16 % 4) (u.partOf u.myTil) = true) :
    u.fill e w = (u.declareFault (fillCtx u w) 5, failCode 2) := by
  rw [State.fill_eq u e h, hp, ha, hu, hk]
  simp [Wait.isMiss]

theorem State.fill_declares (ha : w.toNat / 64 % 8 ≠ 0) : u.fill e w = (u.declareFault (fillCtx u w) (w.toNat / 64 % 8), 0) := by
  rw [State.fill_eq u e h, hk]
  simp [Wait.isMiss, ha]
end

theorem State.fill_unasked (h : ¬fillBad w) (hp : w.toNat / 2 ^ 9 % 2 = 0)
    (hm : ∀ k lane at_ quiet, (u.ctx (fillCtx u w)).wait ≠ .miss k lane at_ quiet) : u.fill e w = (u, failCode 1) := by
  have missing : (u.ctx (fillCtx u w)).wait.isMiss = false := by
    cases hw : (u.ctx (fillCtx u w)).wait with
    | miss k lane at_ quiet => exact absurd hw (hm k lane at_ quiet)
    | _ => rfl
  rw [State.fill_eq u e h, hp, missing, if_pos ⟨by decide, rfl⟩]

section
variable (h : ¬fillBad w) (hp : w.toNat / 2 ^ 9 % 2 = 1)
include h hp

/-- The form for no miss only installs (R390). -/
theorem State.fill_early (hu : unusable e (w.toNat / 16 % 4) (u.partOf u.myTil) = false) :
    u.fill e w = (u.installEntry u.cur false (fillPage e w), 0) := by
  have act : w.toNat / 64 % 8 = 0 := by_contra fun ha => h (.inr (.inr (.inr ⟨hp, ha⟩)))
  rw [State.fill_eq u e h, hp, act, hu]
  simp

theorem State.fill_early_refuses (hu : unusable e (w.toNat / 16 % 4) (u.partOf u.myTil) = true) : u.fill e w = (u, failCode 2) := by
  have act : w.toNat / 64 % 8 = 0 := by_contra fun ha => h (.inr (.inr (.inr ⟨hp, ha⟩)))
  rw [State.fill_eq u e h, hp, act, hu]
  simp
end

/-! ### The fault that a walk declares (R219, R221) -/

theorem State.sid_modCtx (s : State) (c : Nat) (f : Ctx → Ctx) (hh : (f (s.ctx c)).home = (s.ctx c).home)
    (hg : (f (s.ctx c)).gen = (s.ctx c).gen) (e : Nat) : (s.modCtx c f).sid e = s.sid e := by
  have home (i : Nat) : ((s.modCtx c f).ctx i).home = (s.ctx i).home := by
    by_cases hi : i = c
    · rw [hi, State.ctx_modCtx, hh]
    · rw [State.ctx_modCtx_ne _ _ _ _ hi]
  have gen (i : Nat) : ((s.modCtx c f).ctx i).gen = (s.ctx i).gen := by
    by_cases hi : i = c
    · rw [hi, State.ctx_modCtx, hg]
    · rw [State.ctx_modCtx_ne _ _ _ _ hi]
  unfold State.sid State.homeOf
  dsimp only
  rw [home, gen]
  rfl

/-- Where a walk leaves the context of the miss before the fault's message (R219). -/
def Ctx.faulted (x : Ctx) : Ctx := { x with wait := .none }.began

theorem Ctx.faulted_eq (x : Ctx) : x.faulted = { x with wait := .none, life := if x.life = .starting then .running else x.life } := by
  unfold Ctx.faulted Ctx.began
  split <;> rfl

/-- Two updates of a context are one. -/
theorem State.modCtx_modCtx (s : State) (c : Nat) (f g : Ctx → Ctx) : (s.modCtx c f).modCtx c g = s.modCtx c (g ∘ f) :=
  congrArg (fun z : State => { z with cur := s.cur }) (State.modMe_modMe { s with cur := c } f g)

theorem State.declareFault_eq {c cause lane : Nat} {k : Acc} (hk : (u.ctx c).wait = .miss k lane va false)
    (hx : (u.ctx c).tx.active = false) : u.declareFault c cause = (u.modCtx c Ctx.faulted).postFault c k cause lane va := by
  have inactive : ((u.modCtx c (fun x => { x with wait := .none })).ctx c).tx.active = false := by rw [State.ctx_modCtx, hx]
  unfold State.declareFault
  simp only [hk]
  rw [if_neg Bool.false_ne_true, if_neg (by rw [inactive]; exact Bool.false_ne_true)]
  rw [State.modCtx_modCtx]
  rfl

theorem declareFault_posts {c cause lane : Nat} {k : Acc} (hk : (u.ctx c).wait = .miss k lane va false)
    (hx : (u.ctx c).tx.active = false) (hc : c < 65536) (hl : lane < 64) (ha : cause ≤ 5) :
    ((u.declareFault c cause).ctx c).wait = .fault k lane va ∧
      (u.boxRoom (u.service (tilOf c)) 1 = true → Posted u (u.declareFault c cause) (u.service (tilOf c)) 1 16
        [(0, 4, (u.sid c).toNat), (4, 1, kindCode k), (5, 1, cause), (6, 2, lane), (8, 8, va.toNat), (16, 8, (u.ctx c).pc.toNat),
         (24, 4, tilOf c)]) := by
  have sid : (u.modCtx c Ctx.faulted).sid c = u.sid c :=
    State.sid_modCtx u c Ctx.faulted (by rw [Ctx.faulted_eq]) (by rw [Ctx.faulted_eq]) c
  have pc : ((u.modCtx c Ctx.faulted).ctx c).pc = (u.ctx c).pc := by rw [State.ctx_modCtx, Ctx.faulted_eq]
  have hkind := kindCode_lt k
  have htil : tilOf c < 2 ^ 32 := by unfold tilOf; omega
  rw [State.declareFault_eq hk hx, State.postFault, sid, pc]
  refine ⟨by rw [(State.ctx_wait_send (by simp)).1], fun hb => posted_send (s := (u.modCtx c Ctx.faulted).modCtx c _) hb ?_ ?_ ?_⟩
  · simp [Apart]
  · simp
  · simp only [List.forall_mem_cons]
    exact ⟨⟨by simp, (u.sid c).isLt⟩, ⟨by simp, hkind⟩, ⟨by simp, by omega⟩, ⟨by simp, by omega⟩, ⟨by simp, va.isLt⟩,
      ⟨by simp, (u.ctx c).pc.isLt⟩, ⟨by simp, htil⟩, by simp⟩

/-! ### TLBI -/

/-- A result that is there after some cycles (R391; log 5). -/
theorem finishLater_ok {z x y : State}
    (hw : Writes d { z.tick with due := (z.core z.myCore).cycle + BitVec.ofNat 64 (Config.freeNat z.nonce % 2 ^ 32) } w x)
    (hh : OrderHeld false none ((z.core z.myCore).cycle + BitVec.ofNat 64 (Config.freeNat z.nonce % 2 ^ 32)) .none x y) :
    finishLater d w z = .ok ((), y) := by
  have drawn : fresh z = .ok (z.nonce, z.tick) := rfl
  refine (bind_ok drawn).trans ((bind_ok (op_get _)).trans ((bind_ok (op_upd _ _)).trans ((bind_ok hw).trans ?_)))
  rw [← holdOrder_of hh]
  exact op_upd _ x

/-! ### The entries that a TLBI removes (R391) -/

/-- A table's entries, filtered, are the entries of what the filter leaves. -/
theorem mem_filter_not {p : TlbEntry → Bool} {l : List TlbEntry} (q : TlbEntry) : q ∈ l.filter (fun e => !p e) ↔ q ∈ l ∧ p q = false := by
  rw [List.mem_filter, Bool.not_eq_true']

/-- A reset entry that a map leaves is what a table without one reads as, so a mapped table reads as the map of what it held. -/
theorem tget_map_getD {α : Type} (l : List (Nat × α)) (f : α → α) {x : α} (hx : f x = x) (n : Nat) :
    (tget (l.map (fun q => (q.1, f q.2))) n).getD x = f ((tget l n).getD x) := by
  rw [tget_map l (fun q => (q.1, f q.2)) (fun _ => rfl)]
  cases tget l n with
  | none => exact hx.symm
  | some y => rfl

theorem State.core_dropEntries (s : State) (p : TlbEntry → Bool) (c : Nat) : (s.dropEntries p).core c =
    { s.core c with itlb := (s.core c).itlb.filter (fun e => !p e), dtlb := (s.core c).dtlb.filter (fun e => !p e) } :=
  tget_map_getD s.cores (fun k => { k with itlb := k.itlb.filter (fun e => !p e), dtlb := k.dtlb.filter (fun e => !p e) }) rfl c

theorem State.til_dropEntries (s : State) (p : TlbEntry → Bool) (t : Nat) :
    (s.dropEntries p).til t = { s.til t with stlb := (s.til t).stlb.filter (fun e => !p e) } :=
  tget_map_getD s.tils (fun t => { t with stlb := t.stlb.filter (fun e => !p e) }) rfl t

theorem State.die_dropEntries (s : State) (p : TlbEntry → Bool) (j : Nat) :
    (s.dropEntries p).die j = { s.die j with lltlb := (s.die j).lltlb.filter (fun e => !p e) } :=
  tget_map_getD s.dies (fun d => { d with lltlb := d.lltlb.filter (fun e => !p e) }) rfl j

/-- Settles O50: TLBF is the fill that its control word asks for, and TLBI removes its entries and finishes later. -/
theorem translations : Obligations.Translations := by
  intro d a b s r t u v e w hc
  refine ⟨fun hr ha hb hw hz => ?miss, fun hr ha hb => ?other, fun hr ha => ?page, fun hr => ?all, fun p c til j => ?kept⟩
  case miss =>
    intro c act psz va k lane at_ quiet hk
    have pre : w.toNat / 2 ^ 9 % 2 = 0 := by omega
    have low : act ≤ 5 → ¬fillBad w := fun hact => by unfold fillBad; omega
    refine ⟨fun h0 hu hw => ?_, fun h0 hu hw => ?_, fun h1 h5 hw => ?_, fun h1 h5 hcc hl hq hx => ?_⟩
    · exact exec_tlbf_fill hc hr ha hb (State.fill_installs hk (low (by omega)) pre h0 hu) hw
    · exact exec_tlbf_fill hc hr ha hb (State.fill_refuses hk (low (by omega)) pre h0 hu) hw
    · exact exec_tlbf_fill hc hr ha hb (State.fill_declares hk (low h5) (show act ≠ 0 by omega)) hw
    · subst hq
      intro dest code
      have code_eq : code = kindCode k := (kindCode_eq k).symm
      rw [code_eq]
      exact declareFault_posts hk hx hcc hl h5
  case other =>
    refine ⟨fun h hw => ?_, fun h hp hm hw => ?_, fun h hp hu hw => ?_, fun h hp hu hw => ?_⟩
    · exact exec_tlbf_fill hc hr ha hb (State.fill_malformed h) hw
    · exact exec_tlbf_fill hc hr ha hb (State.fill_unasked h hp hm) hw
    · exact exec_tlbf_fill hc hr ha hb (State.fill_early_refuses h hp hu) hw
    · exact exec_tlbf_fill hc hr ha hb (State.fill_early h hp hu) hw
  case page =>
    exact ⟨Config.freeNat t.nonce % 2 ^ 32, fun x y hw hh =>
      privileged_ok hr hc ((bind_ok ha).trans ((bind_ok (op_upd _ t)).trans (finishLater_ok hw hh)))⟩
  case all =>
    exact ⟨Config.freeNat r.nonce % 2 ^ 32, fun x y hw hh => privileged_ok hr hc ((bind_ok (op_upd _ r)).trans (finishLater_ok hw hh))⟩
  case kept =>
    rw [State.core_dropEntries, State.til_dropEntries, State.die_dropEntries]
    exact ⟨mem_filter_not, mem_filter_not, mem_filter_not, mem_filter_not⟩

end Sys2Proof.Machine
end

section
/-! SUPPORT. Special registers and counters (R203, R205, R277, R376 to R379, R402, R405). -/

namespace Sys2Proof.Machine

variable {s r t u v : State} {d a b : BitVec 5} {w : Word} {til n : Nat}

/-! ### The values of the special registers (R377) and the counters (R405) -/

theorem bitsIf_eq (b : Bool) (n : Nat) : bitsIf b n = 2 ^ n * (if b then 1 else 0) := by
  unfold bitsIf
  split <;> simp

theorem State.special_m (s : State) {j : Nat} (h : j < 7) : s.special (0x20 + j) = some (s.me.getM (j + 1)) := by
  unfold State.special
  extract_lets x k t
  iterate 15 rw [if_neg (by omega)]
  rw [if_pos (by omega), show 0x20 + j - 0x1F = j + 1 by omega]

theorem State.special_geom (s : State) {j : Nat} (h : j < 8) : s.special (0x30 + j) = (s.til s.myTil).geom[j]? := by
  unfold State.special
  extract_lets x k t
  iterate 16 rw [if_neg (by omega)]
  rw [if_pos (by omega), Nat.add_sub_cancel_left, Vector.getElem?_eq_getElem h, Option.getD_some]

theorem State.special_tring (s : State) {j : Nat} (h : j < 16) : s.special (0x40 + j) = (s.til s.myTil).tring[j]? := by
  unfold State.special
  extract_lets x k t
  iterate 17 rw [if_neg (by omega)]
  rw [if_pos (by omega), Nat.add_sub_cancel_left, Vector.getElem?_eq_getElem h, Option.getD_some]

theorem State.special_none (s : State) {j : Nat} (h : ¬(j ≤ 3 ∨ 0x10 ≤ j ∧ j ≤ 0x1A ∨ 0x20 ≤ j ∧ j ≤ 0x26 ∨ 0x30 ≤ j ∧ j ≤ 0x37 ∨
    0x40 ≤ j ∧ j ≤ 0x4F ∨ 0x80 ≤ j ∧ j ≤ 0x83)) : s.special j = none := by
  unfold State.special
  extract_lets x k t
  iterate 22 rw [if_neg (by omega)]

/-- The registers of a context that are only read. -/
theorem State.special_readOnly (s : State) {n : Nat} (h : n ≤ 3 ∨ 0x14 ≤ n ∧ n ≤ 0x1A ∨ 0x30 ≤ n ∧ n ≤ 0x37) :
    (s.special n).isNone = false := by
  rcases h with h | ⟨l, h⟩ | ⟨l, h⟩
  all_goals interval_cases n <;> rfl

theorem State.ctxid_eq (s : State) (c : Nat) : s.ctxid c = BitVec.ofNat 64 (c % 64 + 64 * (if (s.ctx c).mig then 1 else 0) +
    128 * (if (s.ctx c).tile then 1 else 0) + 256 * s.partOf (c / 64)) := by
  rw [State.ctxid, bitsIf_eq, bitsIf_eq, Nat.mul_comm (s.partOf _)]
  rfl

theorem Tx.status_eq (t : Tx) : t.status = BitVec.ofNat 64 ((if t.active then 1 else 0) + 2 * (if t.active && t.sole then 1 else 0) +
    4 * t.alts.length + 2 ^ 8 * t.cause + 2 ^ 16 * t.nconf + 2 ^ 24 * t.wcnt + 2 ^ 32 * t.rcnt + 2 ^ 48 * t.acode.toNat) := by
  rw [Tx.status, bitsIf_eq, bitsIf_eq]
  congr 1
  ring

theorem Ctx.flags_eq (x : Ctx) : x.flags =
    BitVec.ofNat 64 ((if x.af then 1 else 0) + 2 * (if x.ef then 1 else 0) + 4 * (if x.hmode then 1 else 0)) := by
  rw [Ctx.flags, bitsIf_eq, bitsIf_eq, bitsIf_eq]
  congr 1
  ring

theorem State.counterValue_zero (s : State) (e : Nat) {j : Nat}
    (h : 16 ≤ j ∧ j < 32 ∨ 34 ≤ j ∧ j < 64 ∨ 71 ≤ j ∧ j < 80 ∨ 89 ≤ j) : s.counterValue e j = 0 := by
  unfold State.counterValue
  extract_lets x t d
  iterate 19 rw [if_neg (by omega)]

/-! ### MFS, MTS and PCNT -/

theorem exec_mfs_value {k : BitVec 16} (hr : Ready (.mfs d k) s r) (h : r.special k.toNat = some w) (hw : Writes d r w v) :
    exec (.mfs d k) s = .next v.past := by
  refine perform_ok hr (thenNext_ok ((bind_ok (op_get r)).trans ?_))
  rw [h]
  exact hw

theorem exec_mfs_none {k : BitVec 16} (hr : Ready (.mfs d k) s r) (h : r.special k.toNat = none) (hx : s.me.tx.active = false) :
    exec (.mfs d k) s = .next (s.takeTrap s.cur Cause.illegal 0 0 (wordOf (.mfs d k))) := by
  refine Eq.trans (perform_error hr (thenNext_error ((bind_ok (op_get r)).trans ?_))) (congrArg _ (State.onStop_trap hx))
  rw [h]
  rfl

/-- What MTS leaves of a context (R379). -/
def Ctx.mts (n : Nat) (w : Word) (x : Ctx) : Ctx :=
  if n = 0x10 then { x with fmt := w &&& 0xF }
  else if n = 0x11 then { x with scla := w &&& sclMask }
  else if n = 0x12 then { x with sclb := w &&& sclMask }
  else if 0x20 ≤ n ∧ n ≤ 0x26 then x.setM (n - 0x1F) w
  else x

theorem exec_mts_ok {k : BitVec 16} (hr : Ready (.mts d k) s r) (hd : Reads d r w t) (h : (s.special k.toNat).isNone = false) :
    exec (.mts d k) s = .next (t.after (Ctx.mts k.toNat w)) := by
  refine performRaw_ok (f := .next) hr.1 (thenNext_ok ((bind_ok (op_get s)).trans ?_))
  rw [h]
  exact (bind_ok hr.2).trans ((bind_ok hd).trans (op_upd _ t))

/-- A write to a register of the steward is its effect (R379). -/
theorem mtsSteward_ok {i : Instr} {f : Word → State → State} (hr : Ready i s r) (hc : ctxNo s.cur = 0) (hd : Reads d r w t) :
    mtsSteward i d f s = .next (f w t).past :=
  steward_ok hr hc ((bind_ok hd).trans (op_upd _ t))

/-! ### Unspecified bytes (log 6) -/

theorem State.byteAt_scramble (s : State) (lo hi l : Nat) :
    (s.scramble lo hi).byteAt l = if lo ≤ l ∧ l < hi then Config.freeByte s.nonce l else s.byteAt l := by
  unfold State.scramble
  by_cases h : lo < hi
  · rw [if_pos h, State.byteAt, List.find?_cons]
    by_cases hl : lo ≤ l ∧ l < hi
    · simp [hl]
    · have out : (decide (lo ≤ l) && decide (l < hi)) = false := by rw [← Bool.decide_and]; exact decide_eq_false hl
      simp only [out, if_neg hl]
      rfl
  · rw [if_neg h, if_neg (by omega)]

theorem State.til_scramble (s : State) (lo hi n : Nat) : (s.scramble lo hi).til n = s.til n := by
  unfold State.scramble
  split <;> rfl

section
variable (lo hi : Nat → Nat)

/-- Several ranges become unspecified. -/
def State.scrambles (s : State) (js : List Nat) : State := js.foldl (fun s j => s.scramble (lo j) (hi j)) s

theorem State.til_scrambles (s : State) (js : List Nat) (n : Nat) : (s.scrambles lo hi js).til n = s.til n := by
  induction js generalizing s with
  | nil => rfl
  | cons j r ih => exact (ih _).trans (s.til_scramble _ _ n)

theorem State.byteAt_scrambles_out {js : List Nat} {l : Nat} (h : ∀ j ∈ js, l < lo j ∨ hi j ≤ l) :
    (s.scrambles lo hi js).byteAt l = s.byteAt l := by
  induction js generalizing s with
  | nil => rfl
  | cons j r ih =>
    obtain ⟨hj, hr⟩ := List.forall_mem_cons.mp h
    exact (ih hr).trans ((s.byteAt_scramble _ _ l).trans (if_neg (by omega)))

/-- Ranges apart from one another are each left by their own event. -/
theorem State.byteAt_scrambles_in {js : List Nat} (hd : js.Pairwise fun i j => hi i ≤ lo j) {j : Nat} (hj : j ∈ js) :
    ∃ e, ∀ l, lo j ≤ l → l < hi j → (s.scrambles lo hi js).byteAt l = Config.freeByte e l := by
  induction js generalizing s with
  | nil => exact absurd hj (List.not_mem_nil)
  | cons i r ih =>
    obtain ⟨first, rest⟩ := List.pairwise_cons.mp hd
    rcases List.mem_cons.mp hj with rfl | hj
    · refine ⟨s.nonce, fun l hl hh => ?_⟩
      have later : ∀ k ∈ r, l < lo k ∨ hi k ≤ l := fun k hk => .inl (hh.trans_le (first k hk))
      exact (State.byteAt_scrambles_out lo hi later).trans ((s.byteAt_scramble _ _ l).trans (if_pos ⟨hl, hh⟩))
    · exact ih rest hj
end

/-! ### What a change of a tiller's SRAM leaves of it -/

/-- How a tiller's SRAM is divided. -/
def Tiller.division (x : Tiller) : Nat × List CacheLine × BitVec 16 × Option Nat × Option (BitVec 16) := (x.l1sz, x.l1, x.swz, x.newL1, x.newSwz)

/-- Books alone differ, and no tiller's SRAM is divided otherwise. -/
structure State.Divides (s t : State) : Prop where
  books : s.Books t
  til : ∀ n, (t.til n).division = (s.til n).division

namespace State.Divides

theorem refl (s : State) : s.Divides s := ⟨.refl s, fun _ => rfl⟩
theorem trans (h : s.Divides t) (h' : t.Divides u) : s.Divides u := ⟨h.books.trans h'.books, fun n => (h'.til n).trans (h.til n)⟩
theorem ite {c : Prop} [Decidable c] (ht : s.Divides t) (hu : s.Divides u) : s.Divides (if c then t else u) := by split <;> assumption
theorem foldl {α : Type} {f : State → α → State} {l : List α} (hf : ∀ (s : State) x, s.Divides (f s x)) : s.Divides (l.foldl f s) :=
  List.foldlRecOn l f (.refl s) fun _ h x _ => h.trans (hf _ x)

theorem setTil {x : Tiller} (h : x.division = (s.til n).division) : s.Divides (s.setTil n x) := by
  refine ⟨.setTil, fun m => ?_⟩
  by_cases e : m = n
  · rw [e, State.til_setTil, h]
  · rw [State.til_setTil_ne _ _ _ _ e]

theorem changeKey {key : Key} : s.Divides (s.changeKey key) := by
  refine ⟨.changeKey, fun n => ?_⟩
  obtain ⟨_, _, _, _, e⟩ := (State.Told.changeKey (s := s) (key := key)).til n
  rw [e]
  rfl

theorem fitRings : s.Divides (s.fitRings n) := by
  refine .foldl fun s m => .ite (.trans ?_ .changeKey) (.refl s)
  exact .setTil rfl

theorem freePattern {e : Nat} : s.Divides (s.freePattern n e) := by
  unfold State.freePattern
  dsimp only
  split
  · exact .refl s
  · refine .ite (.setTil rfl) (.trans ?_ .changeKey)
    exact .setTil rfl

theorem freePatterns : s.Divides (s.freePatterns n) := .foldl fun _ _ => .freePattern
theorem past : s.Divides s.past := ⟨.modMe, fun _ => rfl⟩

end State.Divides

/-! ### LSPLIT (R203) -/

theorem SplitAt.divides (h : SplitAt til n s t) (hd : t.Divides u) : SplitAt til n s u := by
  obtain ⟨size, lines, none, ⟨e, fresh⟩, same⟩ := h
  have d := hd.til til
  simp only [Tiller.division, Prod.mk.injEq] at d
  obtain ⟨dsize, dlines, -, dnew, -⟩ := d
  exact ⟨dsize.trans size, dlines.trans lines, dnew.trans none, ⟨e, fun o hl hh => (hd.books.byteAt _).trans (fresh o hl hh)⟩,
    fun l hl => (hd.books.byteAt l).trans (same l hl)⟩

/-- A change of the size of a tiller's L1, of which none other is under way. -/
theorem splitTo_splits (h : (s.til til).newL1 = none) : SplitAt til n s (s.splitTo til n) := by
  have cut : SplitAt til n s ((s.setTil til { s.til til with l1sz := n, l1 := [] }).scramble (locSpad til (s.til til).spadSize)
      (locSpad til (2 ^ 20 - 65536 * n))) := by
    refine ⟨?_, ?_, ?_, ⟨s.nonce, fun o hl hh => ?_⟩, fun l hl => ?_⟩
    · rw [State.til_scramble, State.til_setTil]
    · rw [State.til_scramble, State.til_setTil]
    · rw [State.til_scramble, State.til_setTil, h]
    · exact (State.byteAt_scramble _ _ _ _).trans (if_pos (by unfold locSpad; omega))
    · exact (State.byteAt_scramble _ _ _ _).trans (if_neg (by omega))
  exact cut.divides (.trans .fitRings .freePatterns)

/-! ### SWZ (R205) -/

theorem SwizzledTo.divides {w : BitVec 16} (h : SwizzledTo til w s t) (hd : t.Divides u) : SwizzledTo til w s u := by
  obtain ⟨swz, none, fresh, same⟩ := h
  have d := hd.til til
  simp only [Tiller.division, Prod.mk.injEq] at d
  obtain ⟨-, -, dswz, -, dnew⟩ := d
  refine ⟨dswz.trans swz, dnew.trans none, fun j hj hc => ?_, fun l hl => (hd.books.byteAt l).trans (same l hl)⟩
  obtain ⟨e, fresh⟩ := fresh j hj hc
  exact ⟨e, fun o hl hh => (hd.books.byteAt _).trans (fresh o hl hh)⟩

theorem swizzleTo_swizzles {w : BitVec 16} (h : (s.til til).newSwz = none) : SwizzledTo til w s (s.swizzleTo til w) := by
  let lo := fun j => locSpad til (65536 * j)
  let hi := fun j => locSpad til (min (65536 * (j + 1)) (s.til til).spadSize)
  let js := (List.range 16).filter (fun j => w.getLsbD j != (s.til til).swz.getLsbD j)
  have mem (j : Nat) : j ∈ js ↔ j < 16 ∧ w.getLsbD j ≠ (s.til til).swz.getLsbD j := by
    rw [List.mem_filter, List.mem_range, bne_iff_ne]
  have apart : js.Pairwise fun i j => hi i ≤ lo j := by
    refine (List.pairwise_lt_range.filter _).imp fun {i j} hij => ?_
    simp only [hi, lo, locSpad]
    omega
  have cut : SwizzledTo til w s ((s.setTil til { s.til til with swz := w }).scrambles lo hi js) := by
    refine ⟨?_, ?_, fun j hj hc => ?_, fun l hl => ?_⟩
    · rw [State.til_scrambles, State.til_setTil]
    · rw [State.til_scrambles, State.til_setTil, h]
    · obtain ⟨e, fresh⟩ := State.byteAt_scrambles_in lo hi apart ((mem j).mpr ⟨hj, hc⟩)
      exact ⟨e, fun o hl hh => fresh _ (by simp only [lo, locSpad]; omega) (Nat.add_lt_add_left hh _)⟩
    · exact State.byteAt_scrambles_out lo hi fun j hj => hl j ((mem j).mp hj).1 ((mem j).mp hj).2
  exact cut.divides (.ite (.refl _) .freePatterns)

/-! ### When a written value takes effect (R203, R205; log 5) -/

theorem State.inFlight_newL1 (s : State) (til : Nat) (m : Option Nat) :
    (s.modTil til (fun x => { x with newL1 := m })).inFlight til = s.inFlight til := by
  unfold State.inFlight
  rw [State.modTil, State.til_setTil]
  rfl

theorem State.inFlight_newSwz (s : State) (til : Nat) (m : Option (BitVec 16)) :
    (s.modTil til (fun x => { x with newSwz := m })).inFlight til = s.inFlight til := by
  unfold State.inFlight
  rw [State.modTil, State.til_setTil]
  rfl

theorem State.resize_waits (h : s.inFlight til = true) : s.resize til = s := if_pos (.inr h)

theorem SplitAt.of_setTil {x : Tiller} (h : SplitAt til n (s.setTil til x) t) (hx : x.l1sz = (s.til til).l1sz) : SplitAt til n s t := by
  unfold SplitAt at h
  rw [State.til_setTil, Tiller.spadSize, hx] at h
  exact h

theorem SwizzledTo.of_setTil {x : Tiller} {w : BitVec 16} (h : SwizzledTo til w (s.setTil til x) t) (hx : x.l1sz = (s.til til).l1sz)
    (hw : x.swz = (s.til til).swz) : SwizzledTo til w s t := by
  unfold SwizzledTo at h
  rw [State.til_setTil, Tiller.spadSize, hx, hw] at h
  exact h

theorem State.resize_split (hq : s.inFlight til = false) (hl : (s.til til).newL1 = some n) (hw : (s.til til).newSwz = none) :
    SplitAt til n s (s.resize til) := by
  have due : ¬((!(s.til til).resizing) = true ∨ s.inFlight til = true) := by simp [Tiller.resizing, hl, hq]
  unfold State.resize
  rw [if_neg due]
  simp only [hl, hw]
  have splits := splitTo_splits (s := s.setTil til { s.til til with newL1 := none, newSwz := none }) (n := n) (by rw [State.til_setTil])
  exact splits.of_setTil rfl

theorem State.resize_swizzle {w : BitVec 16} (hq : s.inFlight til = false) (hl : (s.til til).newL1 = none)
    (hw : (s.til til).newSwz = some w) : SwizzledTo til w s (s.resize til) := by
  have due : ¬((!(s.til til).resizing) = true ∨ s.inFlight til = true) := by simp [Tiller.resizing, hw, hq]
  unfold State.resize
  rw [if_neg due]
  simp only [hl, hw]
  have swizzles := swizzleTo_swizzles (s := s.setTil til { s.til til with newL1 := none, newSwz := none }) (w := w)
    (by rw [State.til_setTil])
  exact swizzles.of_setTil rfl rfl

/-- The sizes that LSPLIT takes (R203). -/
def Grows (s : State) (til n : Nat) : Prop :=
  n ≤ 8 ∧ (2 ^ 20 - 65536 * n < (s.til til).spadSize → ∀ g ∈ (s.til til).spad, g.off + g.len ≤ 2 ^ 20 - 65536 * n)

theorem field_four (w : Word) : (w.extractLsb' 0 4).toNat = w.toNat % 16 := by
  rw [field_toNat, pow_zero, Nat.div_one]
  rfl

theorem State.writeLsplit_refuses (h : ¬Grows s til (w.toNat % 16)) : s.writeLsplit til w = s := by
  unfold State.writeLsplit
  extract_lets t n new
  have size : n = w.toNat % 16 := field_four w
  refine if_pos (by_contra fun no => h ?_)
  rw [← size]
  simp only [not_or, not_and, not_lt, List.any_eq_true, decide_eq_true_eq, not_exists] at no
  exact no

theorem State.writeLsplit_takes (h : Grows s til (w.toNat % 16)) :
    s.writeLsplit til w = (s.modTil til (fun x => { x with newL1 := some (w.toNat % 16) })).resize til := by
  unfold State.writeLsplit
  extract_lets t n new
  have size : n = w.toNat % 16 := field_four w
  rw [← size] at h ⊢
  refine if_neg ?_
  rw [not_or, not_lt]
  exact ⟨h.1, fun ⟨smaller, hg⟩ => by
    obtain ⟨g, mem, hover⟩ := List.any_eq_true.mp hg
    exact absurd (h.2 smaller g mem) (not_le.mpr (of_decide_eq_true hover))⟩

/-- Settles O53: each special register and counter reads as its row says, and a write of one is what its row says. -/
theorem specialRegisters : Obligations.SpecialRegisters := by
  refine ⟨fun d k s r t v w => ⟨fun hr => ⟨exec_mfs_value hr, exec_mfs_none hr⟩, fun hr hd => ?mts,
    fun hr hd => perform_past hr ((bind_ok hd).trans (op_upd _ t)), ?special⟩,
    fun d s r t w hc hd => ⟨fun hr => ?lsplit, fun hr => ?swz, fun n new hq => ⟨State.resize_split hq, State.resize_swizzle hq⟩,
      fun hr => mtsSteward_ok hr hc hd, fun hr => mtsSteward_ok hr hc hd⟩,
    fun d a b i s r t u v c n => ⟨fun hr hb hw => ?pcnt, fun hr hc ha hb hw => ?pcntCtx, fun e j => ?counters⟩⟩
  case mts =>
    intro scl
    have wrote (f : Ctx → Ctx) (hk : (s.special k.toNat).isNone = false) (hf : Ctx.mts k.toNat w = f) :
        exec (.mts d k) s = .next (t.after f) := hf ▸ exec_mts_ok hr hd hk
    refine ⟨fun hk => ?_, fun hk => ?_, fun hk => ?_, fun hl hh => ?_, fun hk => ?_⟩
    · subst hk; exact wrote _ rfl rfl
    · subst hk; exact wrote _ rfl rfl
    · subst hk; exact wrote _ rfl rfl
    · obtain ⟨j, e⟩ := Nat.exists_eq_add_of_le hl
      refine wrote _ (by rw [e, State.special_m s (by omega)]; rfl) (funext fun x => ?_)
      unfold Ctx.mts
      rw [if_neg (by omega), if_neg (by omega), if_neg (by omega), if_pos ⟨hl, hh⟩]
    · have run := wrote id (s.special_readOnly hk) (funext fun x => ?_)
      · rwa [State.after, State.past, State.modMe_modMe] at run
      · unfold Ctx.mts
        iterate 4 rw [if_neg (by omega)]
        rfl
  case special =>
    intro bit x t core
    refine ⟨?_, fun j => ⟨State.special_m s, State.special_geom s, State.special_tring s, State.special_none s⟩⟩
    have ctxid : s.special 2 = some _ := congrArg some (s.ctxid_eq s.cur)
    have status : s.special 0x14 = some _ := congrArg some x.tx.status_eq
    have flags : s.special 0x17 = some _ := congrArg some x.flags_eq
    simp only [List.forall_mem_cons]
    exact ⟨rfl, rfl, ctxid, rfl, rfl, rfl, rfl, rfl, status, rfl, rfl, flags, rfl, rfl, rfl, rfl, rfl, rfl, rfl, List.forall_mem_nil _⟩
  case lsplit =>
    intro n new grows
    have run := mtsSteward_ok (f := fun w s => s.writeLsplit s.myTil w) hr hc hd
    refine ⟨fun no => run.trans (by rw [State.writeLsplit_refuses no]), fun yes ⟨hq, hl, hz⟩ => ⟨_, run, ?_⟩, fun yes hq => run.trans ?_⟩
    · rw [State.writeLsplit_takes yes]
      have still : (t.modTil t.myTil (fun x => { x with newL1 := some n })).inFlight t.myTil = false :=
        (t.inFlight_newL1 t.myTil (some n)).trans hq
      have splits := State.resize_split still (by rw [State.modTil, State.til_setTil]) (by rw [State.modTil, State.til_setTil]; exact hz)
      exact (splits.of_setTil rfl).divides .past
    · rw [State.writeLsplit_takes yes, State.resize_waits ((t.inFlight_newL1 t.myTil (some n)).trans hq)]
  case swz =>
    intro new
    have run := mtsSteward_ok (f := fun w s => s.writeSwz s.myTil w) hr hc hd
    refine ⟨fun ⟨hq, hl, hz⟩ => ⟨_, run, ?_⟩, fun hq => run.trans ?_⟩
    · have still : (t.modTil t.myTil (fun x => { x with newSwz := some new })).inFlight t.myTil = false :=
        (t.inFlight_newSwz t.myTil (some new)).trans hq
      have swizzles := State.resize_swizzle still (by rw [State.modTil, State.til_setTil]; exact hl) (by rw [State.modTil, State.til_setTil])
      exact (swizzles.of_setTil rfl rfl).divides .past
    · rw [State.writeSwz, State.resize_waits ((t.inFlight_newSwz t.myTil (some new)).trans hq)]
  case pcnt => exact perform_past hr ((bind_ok hb).trans ((bind_ok (op_ask _ t)).trans hw))
  case pcntCtx =>
    rw [← field_four] at hw
    exact steward_ok hr hc ((bind_ok ha).trans ((bind_ok hb).trans ((bind_ok (op_ask _ u)).trans hw)))
  case counters =>
    intro x t die
    refine ⟨fun hj => if_pos hj, ?_, State.counterValue_zero s e⟩
    have narrow {m : Nat} (y : BitVec m) (hm : m ≤ 48) : y.setWidth 64 = (y.setWidth 48).setWidth 64 := by
      have fits : y.toNat < 2 ^ 48 := y.isLt.trans_le (Nat.pow_le_pow_right (by omega) hm)
      apply BitVec.eq_of_toNat_eq
      rw [BitVec.toNat_setWidth, BitVec.toNat_setWidth, BitVec.toNat_setWidth, Nat.mod_eq_of_lt fits]
    simp only [List.forall_mem_cons]
    exact ⟨rfl, rfl, rfl, rfl, rfl, rfl, rfl, rfl, rfl, narrow die.budget (by omega), rfl, rfl, rfl, narrow die.throt (by omega), rfl, rfl,
      rfl, rfl, List.forall_mem_nil _⟩

end Sys2Proof.Machine
end

section
/-! SUPPORT. A store by a context that the module does not have, in a scratchpad whose bytes are those of a queue SRAM. -/

namespace Sys2Proof.Machine

/-- The line of the first byte of the queue SRAM of core 0. -/
def queueLine : Nat := 2 ^ 51 / 64

/-- Context 1 is in an attempt in sole mode, which holds that line, and holds the token of tiller 0. -/
def soleHolder : Ctx :=
  { Ctx.reset 1 with
    life := .running
    tx := { (Ctx.reset 1).tx with active := true, sole := true, reads := [.line queueLine] } }

/-- A context past those of the module, in tiller 2 ^ 30, is kept out by that token. Its s1 is the first byte of its own scratchpad. -/
def keptOut : Ctx :=
  { Ctx.reset (2 ^ 36) with
    life := .running, wait := .tokenHold 0, s := (Vector.replicate 32 0).setIfInBounds 1 (BitVec.ofNat 64 (0xF0 * 2 ^ 56 + 2 ^ 42)) }

def overlaid : State :=
  { State.reset with
    ctxs := [(1, soleHolder), (2 ^ 36, keptOut)]
    tils := [(0, { Tiller.reset with token := { holder := some 1, queue := [] } })]
    cur := 2 ^ 36 }

/-- Is the acting context still kept out? -/
def staysKeptOut : Host.Outcome State Fault Refusal → Bool
  | .next t => t.me.wait = .tokenHold 0
  | _ => false

/-- The store is a change of the line that context 1 holds, which gives up the token as it restarts: the storing context goes on. -/
theorem overlaid_goes_on : staysKeptOut (exec (.st 0 1 0) overlaid) = false := by decide +kernel

/-- No structure of the device has bytes there. -/
theorem overlaid_ordinary : overlaid.Ordinary (locSpad overlaid.myTil 0) 8 := by
  intro t
  have lines : linesOf (locSpad overlaid.myTil 0) 8 = [queueLine] := by decide +kernel
  have entry : overlaid.queueAt queueLine = none := by decide +kernel
  have rings : overlaid.namedRings = [] := by decide +kernel
  have objs : overlaid.objsInUse = [] := by decide +kernel
  have counters : overlaid.countersInUse = [] := by decide +kernel
  have kept : t.tailWritten overlaid (locSpad overlaid.myTil 0) 8 = t := by simp [State.tailWritten, lines, entry]
  have same : t.rebuilt overlaid (locSpad overlaid.myTil 0) 8 = t := rfl
  unfold State.tamper
  rw [kept, same, rings, objs, counters]
  rfl

theorem overlaid_plain : Plain (.st 0 1 0) overlaid :=
  ⟨fun h => absurd h (by decide), fun h => absurd h (by decide), by decide⟩

/-- Refutes O23: the statement does not ask that the storing context wait for nothing, and has it keep its wait, also where its store
has the holder of the token that it waits for restart. O24 gives the frame of bytes and registers for one that does wait for nothing. -/
theorem not_memoryFrames : ¬ Obligations.MemoryFrames := by
  intro h
  obtain ⟨t, run, -, -, me, -⟩ := h.1 0 1 0 0 overlaid rfl overlaid_plain rfl (by decide) (by decide) (by decide) rfl overlaid_ordinary
  have stays : staysKeptOut (exec (.st 0 1 0) overlaid) = true := by
    rw [run]
    exact decide_eq_true (congrArg Ctx.wait me)
  exact absurd stays (by rw [overlaid_goes_on]; decide)

end Sys2Proof.Machine
end

section
/-! SUPPORT. What the checks and the translation of lanes give, and what they leave of the device (R220). -/

namespace Sys2Proof.Machine

variable {s t u : State} {k : Acc} {n : Nat}

/-! ### Outcomes of a body that does not stop -/

/-- A sequence that does not stop stops at neither part. -/
theorem of_bind_ok {α β : Type} {m : Op α} {f : α → Op β} {b : β} (h : (m >>= f) s = .ok (b, u)) :
    ∃ a t, m s = .ok (a, t) ∧ f a t = .ok (b, u) := by
  cases run : m s with
  | error e =>
    rw [bind_error run] at h
    exact nomatch h
  | ok r =>
    rw [bind_ok run] at h
    exact ⟨_, _, rfl, h⟩

/-- Where the body does not stop, its value and its state are these. -/
def Op.Gives {α : Type} (s : State) (m : Op α) (p : α → State → Prop) : Prop := ∀ a t, m s = .ok (a, t) → p a t

namespace Op.Gives
variable {α β : Type} {m : Op α} {p : α → State → Prop} {q : β → State → Prop}

theorem pure {a : α} (h : p a s) : Op.Gives s (Pure.pure a) p := by
  rintro _ _ ⟨⟩
  exact h

theorem stop {e : Stop} : Op.Gives s (Machine.stop e : Op α) p := fun _ _ h => nomatch h

theorem bind {f : α → Op β} (hm : Op.Gives s m p) (hf : ∀ a t, p a t → Op.Gives t (f a) q) : Op.Gives s (m >>= f) q := by
  intro b u h
  obtain ⟨a, t, run, rest⟩ := of_bind_ok h
  exact hf a t (hm a t run) b u rest

theorem stop_bind {e : Stop} {f : α → Op β} : Op.Gives s ((Machine.stop e : Op α) >>= f) q := fun _ _ h => nomatch h
theorem get_bind {f : State → Op β} (hf : Op.Gives s (f s) q) : Op.Gives s (get >>= f) q := hf
theorem ask_bind {g : State → α} {f : α → Op β} (hf : Op.Gives s (f (g s)) q) : Op.Gives s (ask g >>= f) q := hf
theorem set_bind {f : Unit → Op β} (hf : Op.Gives t (f ()) q) : Op.Gives s (set t >>= f) q := hf

theorem ite {c : Prop} [Decidable c] {a b : Op α} (ha : Op.Gives s a p) (hb : Op.Gives s b p) : Op.Gives s (if c then a else b) p := by
  split <;> assumption

theorem mono {p' : α → State → Prop} (h : Op.Gives s m p) (hp : ∀ a t, p a t → p' a t) : Op.Gives s m p' := fun a t e => hp a t (h a t e)
end Op.Gives

/-! ### Lanes -/

/-- Each place is that of one of the addresses. -/
def PlacesOf (s : State) (vas : List (Nat × Word)) (ps : List (Nat × Word × Place)) : Prop :=
  ∀ p ∈ ps, (p.1, p.2.1) ∈ vas ∧ s.place s.myTil p.2.1 = some p.2.2

theorem State.check_place {me : Nat} {va : Word} {q : Place} (h : s.check me va n = .ok q) : s.place me va = some q := by
  unfold State.check at h
  split at h
  · exact nomatch h
  next p hp =>
    split at h
    · exact nomatch h
    · split at h
      · split at h
        · cases h
          exact hp
        · exact nomatch h
      · cases h
        exact hp

theorem checkLanes_gives (l : List (Nat × Word)) : Op.Gives s (checkLanes n l) fun ps t => t = s ∧ PlacesOf s l ps := by
  induction l with
  | nil => exact .pure ⟨rfl, List.forall_mem_nil _⟩
  | cons a r ih =>
    unfold checkLanes
    refine .get_bind ?_
    extract_lets rest
    have passes : Op.Gives s (rest ()) fun ps t => t = s ∧ PlacesOf s (a :: r) ps := by
      unfold rest
      split
      · exact .stop
      next q hq =>
        refine .bind ih ?_
        rintro ps _ ⟨rfl, hps⟩
        refine .pure ⟨rfl, List.forall_mem_cons.mpr ⟨⟨List.mem_cons_self, State.check_place hq⟩, fun p hp => ?_⟩⟩
        exact ⟨List.mem_cons_of_mem _ (hps p hp).1, (hps p hp).2⟩
    split
    · split
      · exact .ite .stop_bind .stop_bind
      · exact passes
    · exact passes

theorem remoteCheck_gives (ps : List (Nat × Word × Place)) : Op.Gives s (remoteCheck ps) fun _ t => t = s :=
  .get_bind (.ite .stop (.pure rfl))

/-- Translations alone are filled: contexts, bytes and the acting context are as they were. -/
structure State.Translates (s t : State) : Prop extends s.Aside t where
  cur : t.cur = s.cur

theorem State.Translates.refl (s : State) : s.Translates s := ⟨.refl s, rfl⟩
theorem State.Translates.trans (h : s.Translates t) (h' : t.Translates u) : s.Translates u :=
  ⟨h.toAside.trans h'.toAside, h'.cur.trans h.cur⟩

theorem State.lookup_translates (s : State) (c : Nat) (fetch : Bool) (va : Nat) : s.Translates (s.lookup c fetch va).2 := by
  have fills (e : TlbEntry) : s.Translates (s.fillTlb c fetch e) := ⟨⟨rfl, rfl, rfl⟩, rfl⟩
  unfold State.lookup
  dsimp only
  split
  · exact .refl s
  · split
    · exact fills _
    · split
      · exact fills _
      · exact .refl s

/-- Each lane has the size, and one that lies in near space is not global. -/
def LanesOf (n : Nat) (ps : List (Nat × Word × Place)) (ls : List Lane) : Prop :=
  ∀ l ∈ ls, l.n = n ∧ ∃ p ∈ ps, l.global = true → ∃ a, p.2.2 = .global a

theorem LanesOf.cons {p : Nat × Word × Place} {ps : List (Nat × Word × Place)} {l : Lane} {ls : List Lane} (hn : l.n = n)
    (hl : l.global = true → ∃ a, p.2.2 = .global a) (h : LanesOf n ps ls) : LanesOf n (p :: ps) (l :: ls) := by
  refine List.forall_mem_cons.mpr ⟨⟨hn, p, List.mem_cons_self, hl⟩, fun x hx => ?_⟩
  obtain ⟨hn, q, hq, hg⟩ := h x hx
  exact ⟨hn, q, List.mem_cons_of_mem _ hq, hg⟩

theorem translateLanes_gives (ps : List (Nat × Word × Place)) :
    Op.Gives s (translateLanes k n ps) fun ls t => s.Translates t ∧ LanesOf n ps ls := by
  induction ps generalizing s with
  | nil => exact .pure ⟨.refl s, List.forall_mem_nil _⟩
  | cons p r ih =>
    have lane {v : State} {l : Lane} (hs : s.Translates v) (hn : l.n = n) (hl : l.global = true → ∃ a, p.2.2 = .global a) :
        Op.Gives v (translateLanes k n r >>= fun ls => Pure.pure (l :: ls)) fun ls t => s.Translates t ∧ LanesOf n (p :: r) ls :=
      .bind ih fun ls t h => .pure ⟨hs.trans h.1, h.2.cons hn hl⟩
    obtain ⟨i, va, ⟨til, off⟩ | a⟩ := p
    · exact .ask_bind (lane (.refl s) rfl fun h => nomatch h)
    · refine .get_bind (.ite (.ite (lane (.refl s) rfl fun _ => ⟨a, rfl⟩) .stop) ?_)
      split
      · exact .stop
      next e v hv =>
        split
        · exact .stop
        · have filled : s.Translates v := by simpa [hv] using s.lookup_translates s.cur false a
          exact .set_bind (lane filled rfl fun _ => ⟨a, rfl⟩)

/-- The lanes of a store, as its checks and translation leave them. -/
theorem resolveStore_gives (vas : List (Nat × Word)) : Op.Gives s (resolveStore k n vas) fun ls t =>
    s.Translates t ∧ ∀ l ∈ ls, l.n = n ∧ ∃ p ∈ vas, l.global = true → ∃ a, s.place s.myTil p.2 = some (.global a) := by
  refine .bind (checkLanes_gives vas) ?_
  rintro ps _ ⟨rfl, hps⟩
  refine .bind (remoteCheck_gives ps) ?_
  rintro _ _ rfl
  refine .mono (translateLanes_gives ps) fun ls t h => ⟨h.1, fun l hl => ?_⟩
  obtain ⟨hn, p, hp, hg⟩ := h.2 l hl
  obtain ⟨mem, place⟩ := hps p hp
  refine ⟨hn, _, mem, fun g => ?_⟩
  obtain ⟨a, ha⟩ := hg g
  exact ⟨a, ha ▸ place⟩

/-- So are those of an atomic (R265). -/
theorem atomicLane_gives (va : Word) : Op.Gives s (atomicLane n va) fun ls t => s.Translates t ∧ ∀ l ∈ ls, l.n = n := by
  refine .bind (resolveStore_gives [(0, va)]) fun ls t h => ?_
  have lanes : s.Translates t ∧ ∀ l ∈ ls, l.n = n := ⟨h.1, fun l hl => (h.2 l hl).1⟩
  extract_lets go
  exact .ite .stop_bind (.pure lanes)

end Sys2Proof.Machine
end

section
/-! SUPPORT. What a store leaves of the strands: the acting one as it is, and the registers of every other (R176, R180, R195). -/

namespace Sys2Proof.Machine

variable {s t u : State}

/-! ### Strands -/

/-- A context has the registers and the ends that it had. -/
structure Ctx.KeepsRegs (x y : Ctx) : Prop where
  s : y.s = x.s
  v : y.v = x.v
  m : y.m = x.m
  bind : y.bind = x.bind

theorem Ctx.KeepsRegs.refl (x : Ctx) : x.KeepsRegs x := ⟨rfl, rfl, rfl, rfl⟩
theorem Ctx.KeepsRegs.trans {x y z : Ctx} (h : x.KeepsRegs y) (h' : y.KeepsRegs z) : x.KeepsRegs z :=
  ⟨h'.s.trans h.s, h'.v.trans h.v, h'.m.trans h.m, h'.bind.trans h.bind⟩

/-- A context that waits for nothing and is in no attempt. -/
def Ctx.Quiet (x : Ctx) : Prop := x.wait = .none ∧ x.tx.active = false

/-- The acting context is as it was where it was quiet, and every context has its registers. -/
structure State.Leaves (s t : State) : Prop where
  cur : t.cur = s.cur
  me : s.me.Quiet → t.me = s.me
  regs : ∀ c, (s.ctx c).KeepsRegs (t.ctx c)

namespace State.Leaves

/-- What is no context is free. -/
theorem rest (hc : t.ctxs = s.ctxs := by rfl) (hcur : t.cur = s.cur := by rfl) : s.Leaves t :=
  ⟨hcur, fun _ => by rw [State.me, State.me, hcur, State.ctx_congr hc], fun c => State.ctx_congr hc ▸ .refl _⟩

theorem refl (s : State) : s.Leaves s := .rest

theorem trans (h : s.Leaves t) (h' : t.Leaves u) : s.Leaves u :=
  ⟨h'.cur.trans h.cur, fun q => (h'.me (h.me q ▸ q)).trans (h.me q), fun c => (h.regs c).trans (h'.regs c)⟩

theorem ite {c : Prop} [Decidable c] (ht : s.Leaves t) (hu : s.Leaves u) : s.Leaves (if c then t else u) := by split <;> assumption

theorem foldl {α : Type} {f : State → α → State} {l : List α} (hf : ∀ (s : State) x, s.Leaves (f s x)) : s.Leaves (l.foldl f s) :=
  List.foldlRecOn l f (.refl s) fun _ h x _ => h.trans (hf _ x)

/-- Steps of one acting context. -/
theorem foldl_cur {α : Type} {f : State → α → State} {l : List α} (hf : ∀ (t : State) x, t.cur = s.cur → t.Leaves (f t x)) :
    s.Leaves (l.foldl f s) :=
  List.foldlRecOn l f (.refl s) fun _ h x _ => h.trans (hf _ x h.cur)

theorem modCtx {c : Nat} {f : Ctx → Ctx} (hc : c ≠ s.cur) (hf : (s.ctx c).KeepsRegs (f (s.ctx c)) := by exact ⟨rfl, rfl, rfl, rfl⟩) :
    s.Leaves (s.modCtx c f) := by
  refine ⟨rfl, fun _ => State.ctx_modCtx_ne s c s.cur f hc.symm, fun e => ?_⟩
  by_cases he : e = c
  · rw [he, State.ctx_modCtx]
    exact hf
  · rw [State.ctx_modCtx_ne _ _ _ _ he]
    exact .refl _

/-- What befalls contexts that are not quiet, and touches no register. -/
theorem mapCtxs {g : Nat × Ctx → Nat × Ctx} (hg : ∀ p, (g p).1 = p.1) (hq : ∀ p : Nat × Ctx, p.2.Quiet → g p = p)
    (hs : ∀ p : Nat × Ctx, p.2.KeepsRegs (g p).2) : s.Leaves { s with ctxs := s.ctxs.map g } := by
  have mapped (c : Nat) : ({ s with ctxs := s.ctxs.map g } : State).ctx c = (g (c, s.ctx c)).2 :=
    State.ctx_mapCtxs hg (fun c => by rw [hq (c, Ctx.reset c) ⟨rfl, rfl⟩]) c
  exact ⟨rfl, fun q => (mapped s.cur).trans (by rw [hq (s.cur, s.ctx s.cur) q]; rfl), fun c => mapped c ▸ hs (c, s.ctx c)⟩

/-! ### Changes of keys and lines -/

theorem laterOnce {i : Instr} : s.Leaves (s.laterOnce i) := .ite (.refl s) .rest
theorem wakeAt {n : Nat} {key : Key} : s.Leaves (s.wakeAt n key) := .foldl fun _ _ => .laterOnce

theorem markAt {n : Nat} {key : Key} : s.Leaves (s.markAt n key) := by
  refine mapCtxs (fun p => by dsimp only; split <;> rfl) (fun p q => if_neg fun h => ?_) (fun p => ?_)
  · exact absurd h.2.1 (by rw [q.2]; exact Bool.false_ne_true)
  · dsimp only
    split
    · exact ⟨rfl, rfl, rfl, rfl⟩
    · exact .refl _

theorem notify {key : Key} : s.Leaves (s.notify key) := by
  unfold State.notify
  split
  · exact .trans .rest (.foldl fun _ _ => .ite (.refl _) .laterOnce)
  · exact .trans (.ite (.refl s) .rest) (.foldl fun _ _ => .laterOnce)

theorem changeKey {key : Key} : s.Leaves (s.changeKey key) := by
  unfold State.changeKey
  split
  · exact .trans (.trans .markAt .wakeAt) .notify
  · exact .notify

theorem freeHeld {n : Nat} : s.Leaves (s.freeHeld n) := by
  refine .trans (mapCtxs (fun p => by split <;> rfl) (fun p q => if_neg fun h => ?_) (fun p => ?_))
    (.foldl fun _ _ => .ite (.refl _) .laterOnce)
  · exact nomatch q.1.symm.trans h
  · split
    · exact ⟨rfl, rfl, rfl, rfl⟩
    · exact .refl _

theorem dropToken {c : Nat} : s.Leaves (s.dropToken c) := by
  unfold State.dropToken
  extract_lets til t _ _ s'
  have hs : s.Leaves s' := .rest
  exact .ite (.trans (.trans .rest .freeHeld) .changeKey) (.ite (.trans hs .changeKey) hs)

theorem withdrawIssue {c : Nat} (hc : c ≠ s.cur) : s.Leaves (s.withdrawIssue c) := by
  rw [State.withdrawIssue_eq]
  exact .ite (.trans (t := s.modCtx c Ctx.unissued) (.modCtx hc) .rest) (.refl s)

theorem restart {c : Nat} {f : Tx → Tx} (hc : c ≠ s.cur) : s.Leaves (s.restart c f) :=
  .trans (.trans (.modCtx hc) (.withdrawIssue hc)) .dropToken

/-- A change restarts no attempt of the context that makes it (R176). -/
theorem conflictAt {n : Nat} {key : Key} : s.Leaves (s.conflictAt n key (some s.cur)) := by
  refine .foldl_cur fun t c hcur => ?_
  split
  · exact .refl t
  next hc => exact .restart fun e => hc (congrArg some (e.trans hcur))

theorem freePattern {n e : Nat} : s.Leaves (s.freePattern n e) := by
  unfold State.freePattern
  dsimp only
  split
  · exact .refl s
  · exact .ite .rest (.trans .rest .changeKey)

theorem unstageLine {n l : Nat} : s.Leaves (s.unstageLine n l) := by
  unfold State.unstageLine
  dsimp only
  refine .ite ?_ (.refl s)
  split
  · exact .ite (.trans .rest .changeKey) .rest
  · exact .rest

theorem changeLine {l : Nat} : s.Leaves (s.changeLine l (some s.cur)) := by
  unfold State.changeLine
  dsimp only
  split
  · exact .trans (.trans (.trans (.trans (.trans .conflictAt .markAt) .wakeAt) .notify) (.foldl fun _ _ => .freePattern)) .unstageLine
  · split
    · exact .notify
    · exact .trans .notify .laterOnce

/-! ### Writes -/

theorem putBytes {a : Nat} {bs : List Byte} : s.Leaves (s.putBytes a bs) := by
  induction bs generalizing s a with
  | nil => exact .refl s
  | cons b r ih => exact .trans .rest ih

theorem store {a : Nat} {bs : List Byte} : s.Leaves (s.store a bs (some s.cur)) := by
  have put : s.Leaves ((s.putBytes a bs).cleanse a bs.length) := .trans .putBytes .rest
  refine put.trans (.foldl_cur fun t l hcur => ?_)
  rw [← put.cur, ← hcur]
  exact .changeLine

theorem translates (h : s.Translates t) : s.Leaves t := .rest h.ctxs h.cur

theorem others (h : s.Leaves t) : s.othersKeep t := fun c _ => ⟨(h.regs c).s, (h.regs c).v, (h.regs c).m, (h.regs c).bind⟩

end State.Leaves

/-! ### Stores of a strand -/

/-- The ranges take these bytes, and no other byte changes; the acting context is as it was. -/
structure State.Stores (locs : List Nat) (bs : List Byte) (s t : State) : Prop where
  leaves : s.Leaves t
  memOk : t.memOk
  stored : ∀ j ∈ locs, ∀ e, j ≤ e → e < j + bs.length → t.byteAt e = bs.getD (e - j) 0
  frame : ∀ e, (∀ j ∈ locs, e < j ∨ j + bs.length ≤ e) → t.byteAt e = s.byteAt e

namespace State.Stores
variable {locs : List Nat} {bs : List Byte} {a n x : Nat}

theorem of_putBytes (hs : s.memOk) (hl : s.Leaves t) (hm : t.mem = (s.putBytes a bs).mem) (hu : t.unspec = (s.putBytes a bs).unspec) :
    State.Stores [a] bs s t := by
  have bytes (e : Nat) : t.byteAt e = if a ≤ e ∧ e < a + bs.length then bs.getD (e - a) 0 else s.byteAt e := by
    rw [← State.byteAt_putBytes bs a e hs, State.byteAt, State.byteAt, hm, hu]
  refine ⟨hl, memOk_of_mem hm (State.putBytes_memOk bs a hs), fun j hj e hle hlt => ?_, fun e he => ?_⟩
  · obtain rfl := List.mem_singleton.mp hj
    rw [bytes, if_pos ⟨hle, hlt⟩]
  · have apart := he a (List.mem_singleton_self a)
    rw [bytes, if_neg (by omega)]

/-- Ranges behind the first. -/
theorem cons (h : State.Stores [a] bs s t) (h' : State.Stores locs bs t u) (hd : ∀ j ∈ locs, a + bs.length ≤ j) :
    State.Stores (a :: locs) bs s u := by
  refine ⟨h.leaves.trans h'.leaves, h'.memOk, List.forall_mem_cons.mpr ⟨fun e hle hlt => ?_, h'.stored⟩, fun e he => ?_⟩
  · rw [h'.frame e fun j hj => .inl (hlt.trans_le (hd j hj)), h.stored a (List.mem_singleton_self a) e hle hlt]
  · obtain ⟨first, later⟩ := List.forall_mem_cons.mp he
    rw [h'.frame e later, h.frame e fun j hj => List.mem_singleton.mp hj ▸ first]

theorem foldl {f : State → Nat → State} (hf : ∀ (t : State) j, t.memOk → State.Stores [j] bs t (f t j))
    (hd : locs.Pairwise fun i j => i + bs.length ≤ j) (hs : s.memOk) : State.Stores locs bs s (locs.foldl f s) := by
  induction locs generalizing s with
  | nil => exact ⟨.refl s, hs, List.forall_mem_nil _, fun _ _ => rfl⟩
  | cons j r ih =>
    obtain ⟨first, rest⟩ := List.pairwise_cons.mp hd
    have one := hf s j hs
    exact one.cons (ih rest one.memOk) first

/-- A number stored is read back. -/
theorem rd (h : State.Stores locs (bytesOfNat n x) s t) (hs : s.memOk) {j : Nat} (hj : j ∈ locs) : t.rd j n = x % 2 ^ (8 * n) := by
  have bytes : ∀ e, j ≤ e → e < j + n → t.byteAt e = (s.wr j n x).byteAt e := fun e hle hlt => by
    rw [State.wr, State.byteAt_putBytes _ _ _ hs, bytesOfNat_length, if_pos ⟨hle, hlt⟩,
      h.stored j hj e hle (by rwa [bytesOfNat_length])]
  rw [State.rd_congr j n bytes, State.rd_wr j n x hs, show (256 : Nat) = 2 ^ 8 from rfl, ← pow_mul]

end State.Stores

theorem State.store_stores {a : Nat} {bs : List Byte} (hs : s.memOk) : State.Stores [a] bs s (s.store a bs (some s.cur)) :=
  .of_putBytes hs .store (s.store_notifies a bs _).mem (s.store_notifies a bs _).unspec

/-- A strand's write of global memory, which its tiller's L1 takes too (R209). -/
def State.globalPut (bs : List Byte) (s : State) (a : Nat) : State :=
  (s.globalStore a (s.partOf s.myTil) bs (some s.cur)).l1Store s.myTil a bs

theorem State.globalPut_stores {a : Nat} {bs : List Byte} (hs : s.memOk) : State.Stores [a] bs s (s.globalPut bs a) := by
  have owned (t : State) (n part : Nat) : (t.own a n part).ctxs = t.ctxs ∧ (t.own a n part).cur = t.cur ∧ (t.own a n part).mem = t.mem ∧
      (t.own a n part).unspec = t.unspec := by
    unfold State.own
    split <;> exact ⟨rfl, rfl, rfl, rfl⟩
  obtain ⟨ctxs, cur, mem, unspec⟩ := owned (s.store a bs (some s.cur)) bs.length (s.partOf s.myTil)
  have notifies := s.store_notifies a bs (some s.cur)
  exact .of_putBytes hs (.trans .store (.rest ctxs cur)) (mem.trans notifies.mem) (unspec.trans notifies.unspec)

/-- The four replicas of a location lie apart (R224). -/
theorem replicas_apart (repl all : Bool) (loc : Nat) {n : Nat} (hn : n ≤ 2 ^ 38) :
    (replicas repl all loc).Pairwise fun i j => i + n ≤ j := by
  unfold replicas
  split
  · refine List.pairwise_map.mpr (List.pairwise_lt_range.imp fun {i j} hij => ?_)
    have step : i * 2 ^ 38 + 2 ^ 38 ≤ j * 2 ^ 38 := by rw [← Nat.succ_mul]; exact Nat.mul_le_mul_right _ hij
    generalize 2 ^ 38 = size at *
    omega
  · exact List.pairwise_singleton _ _

/-! ### The store of a lane -/

section
variable {l : Lane} {bs : List Byte} {all : Bool} (hx : s.me.tx.active = false) (hs : s.memOk)
include hx hs

theorem storeLane_ok (hh : soleHold l.loc l.n s = .ok ((), s)) (hn : bs.length ≤ 2 ^ 38) (hr : l.global = true ∨ all = false) :
    ∃ t, storeLane all l bs s = .ok ((), t) ∧ State.Stores (replicas l.repl all l.loc) bs s t := by
  unfold storeLane
  rw [bind_ok (op_get s), if_neg (by rw [hx]; exact Bool.false_ne_true), bind_ok hh]
  by_cases hg : l.global = true
  · rw [if_pos hg]
    exact ⟨_, op_upd _ s, .foldl (fun t j ht => State.globalPut_stores ht) (replicas_apart _ _ _ hn) hs⟩
  · rw [if_neg hg]
    have single : replicas l.repl all l.loc = [l.loc] := by rw [hr.resolve_left hg, replicas, if_neg (by simp)]
    exact ⟨_, op_upd _ s, single ▸ State.store_stores hs⟩

theorem strandStore_ok (hh : soleHold l.loc l.n s = .ok ((), s)) (ho : s.Ordinary l.loc l.n)
    (hn : bs.length ≤ 2 ^ 38) (hr : l.global = true ∨ all = false) :
    ∃ t, strandStore all l bs s = .ok ((), t) ∧ State.Stores (replicas l.repl all l.loc) bs s t := by
  obtain ⟨t, run, stores⟩ := storeLane_ok (bs := bs) (all := all) hx hs hh hn hr
  refine ⟨t, ?_, stores⟩
  rw [strandStore, bind_ok (op_get s), bind_ok run, hx]
  exact (op_upd _ t).trans (by rw [ho t])
end

end Sys2Proof.Machine
end

section
/-! SUPPORT. The frames of the storing instructions on registers (R229 to R232, R264 to R267). -/

namespace Sys2Proof.Machine

variable {s t u v z : State} {l : Lane} {n x : Nat}

/-! ### What has changed no byte but some -/

/-- Bytes of a kind are as they were; the acting context is, too, and every context has its registers. -/
structure State.Confined (p : Nat → Prop) (s t : State) : Prop where
  leaves : s.Leaves t
  same : ∀ e, p e → t.byteAt e = s.byteAt e

namespace State.Confined
variable {p : Nat → Prop}

theorem refl (s : State) : s.Confined p s := ⟨.refl s, fun _ _ => rfl⟩
theorem trans (h : s.Confined p t) (h' : t.Confined p u) : s.Confined p u :=
  ⟨h.leaves.trans h'.leaves, fun e he => (h'.same e he).trans (h.same e he)⟩
theorem translates (h : s.Translates t) : s.Confined p t := ⟨.translates h, fun e _ => h.byteAt e⟩

theorem stores {locs : List Nat} {bs : List Byte} (h : State.Stores locs bs s t)
    (hp : ∀ e, p e → ∀ j ∈ locs, e < j ∨ j + bs.length ≤ e) : s.Confined p t := ⟨h.leaves, fun e he => h.frame e (hp e he)⟩

/-- The acting context goes on with some change of its own. -/
theorem after (h : s.Confined p t) (hq : s.me.Quiet) (f : Ctx → Ctx) :
    (∀ e, p e → (t.after f).byteAt e = s.byteAt e) ∧ (t.after f).me = (f s.me).advance ∧ s.othersKeep (t.after f) := by
  refine ⟨h.same, ?_, fun c hc => ?_⟩
  · rw [State.after, State.past, State.me_modMe, State.me_modMe, h.leaves.me hq]
  · have other : c ≠ t.cur := h.leaves.cur ▸ hc
    have kept : (t.after f).ctx c = t.ctx c := (State.ctx_modCtx_ne _ _ _ _ other).trans (State.ctx_modCtx_ne _ _ _ _ other)
    rw [kept]
    exact h.leaves.others c hc

theorem past (h : s.Confined p t) (hq : s.me.Quiet) :
    (∀ e, p e → t.past.byteAt e = s.byteAt e) ∧ t.past.me = s.me.advance ∧ s.othersKeep t.past := by
  have goes : t.after id = t.past := State.modMe_modMe t id Ctx.advance
  exact goes ▸ h.after hq id
end State.Confined

/-! ### Registers -/

theorem Plain.ready {i : Instr} (h : Plain i s) : Ready i s s := ⟨rowCheck_plain h, examineFields_plain h⟩

theorem Plain.reads {i : Instr} (h : Plain i s) {f : Fld} (hf : f ∈ i.reads) : s.me.endOf f = none :=
  h.field (List.mem_append_left _ (List.mem_append_left _ hf))

theorem addrJ_plain {a : BitVec 5} (k : BitVec 14) (h : s.me.endOf (.s a.toNat) = none) :
    addrJ a k s = .ok (s.me.getS a.toNat + BitVec.ofInt 64 k.toInt, s) := addrJ_ok k (rdS_plain h)

theorem acquirePart_ok (o sc : BitVec 3) (s : State) : ∃ t, acquirePart o sc s = .ok ((), t) ∧ s.Translates t := by
  unfold acquirePart
  rw [bind_ok (op_ask _ s)]
  split
  · refine ⟨_, op_upd _ s, ?_⟩
    unfold State.acquire
    split
    · exact ⟨⟨rfl, rfl, rfl⟩, rfl⟩
    · exact .refl s
  · exact ⟨s, rfl, .refl s⟩

theorem leaveL1_ok (l : Lane) (s : State) : ∃ t, leaveL1 l s = .ok ((), t) ∧ s.Translates t := by
  unfold leaveL1
  split
  · exact ⟨_, op_upd _ s, ⟨⟨rfl, rfl, rfl⟩, rfl⟩⟩
  · exact ⟨s, rfl, .refl s⟩

/-! ### Stores of one address -/

/-- The instruction writes a number at some locations, and changes nothing else of bytes and registers. -/
def StoresAlone (i : Instr) (locs : List Nat) (n x : Nat) (s : State) : Prop :=
  ∃ t, exec i s = .next t ∧ (∀ j ∈ locs, t.rd j n = x % 2 ^ (8 * n)) ∧
    (∀ j, (∀ q ∈ locs, j < q ∨ q + n ≤ j) → t.byteAt j = s.byteAt j) ∧ t.me = s.me.advance ∧ s.othersKeep t

theorem storesAlone_of {i : Instr} {locs : List Nat} (run : exec i s = .next v.past) (hu : s.Translates u)
    (hs : State.Stores locs (bytesOfNat n x) u t) (hv : t.Translates v) (hm : s.memOk) (hq : s.me.Quiet) : StoresAlone i locs n x s := by
  have confined : s.Confined (fun j => ∀ q ∈ locs, j < q ∨ q + n ≤ j) v :=
    .trans (.trans (.translates hu) (.stores hs fun e he j hj => by rw [bytesOfNat_length]; exact he j hj)) (.translates hv)
  obtain ⟨same, me, others⟩ := confined.past hq
  refine ⟨v.past, run, fun j hj => ?_, same, me, others⟩
  have read : v.past.rd j n = t.rd j n := State.rd_congr j n fun e _ _ => hv.byteAt e
  rw [read, hs.rd (memOk_of_mem hu.mem hm) hj]

theorem State.Translates.quiet (h : s.Translates t) (hq : s.me.Quiet) : t.me.Quiet := (State.Leaves.translates h).me hq ▸ hq

section
variable {k : Acc} {va : Word} (hm : s.memOk) (hq : s.me.Quiet) (hr : resolveStore k n [(0, va)] s = .ok ([l], u))
  (hg : k = .stm → l.global = true)
  (hh : soleHold l.loc l.n u = .ok ((), u)) (ho : u.Ordinary l.loc l.n) (hn : n ≤ 2 ^ 38)
include hm hq hr hg hh ho hn

/-- A store of one address, as the lane of its address has it. -/
theorem storeScalar_ok (x : Nat) : s.Translates u ∧
    ∃ t, storeScalar k n va x s = .ok ((), t) ∧ State.Stores (replicas l.repl (k = .stm) l.loc) (bytesOfNat n x) u t := by
  obtain ⟨translated, -⟩ := resolveStore_gives [(0, va)] _ _ hr
  have all : l.global = true ∨ decide (k = .stm) = false := by
    by_cases h : k = .stm
    · exact .inl (hg h)
    · exact .inr (decide_eq_false h)
  obtain ⟨t, run, stores⟩ := strandStore_ok (bs := bytesOfNat n x) (translated.quiet hq).2 (memOk_of_mem translated.mem hm) hh ho
    (by rw [bytesOfNat_length]; exact hn) all
  exact ⟨translated, t, (bind_ok hr).trans run, stores⟩

theorem storesAlone_of_storeScalar {i : Instr} {x : Nat}
    (run : ∀ t, storeScalar k n va x s = .ok ((), t) → ∃ v, exec i s = .next v.past ∧ t.Translates v) :
    StoresAlone i (replicas l.repl (k = .stm) l.loc) n x s := by
  obtain ⟨translated, t, stored, stores⟩ := storeScalar_ok hm hq hr hg hh ho hn x
  obtain ⟨v, goes, hv⟩ := run t stored
  exact storesAlone_of goes translated stores hv hm hq
end

theorem widthSize_le (w : BitVec 3) : widthSize w ≤ 8 := by
  unfold widthSize
  split
  · exact le_rfl
  · split <;> decide

theorem widthOf_le (ty : Nat) : widthOf ty ≤ 64 := by
  unfold widthOf
  split
  · decide
  · split
    · decide
    · split <;> decide

theorem widthOf_dvd (ty : Nat) : 512 % widthOf ty = 0 := by
  unfold widthOf
  split
  · rfl
  · split
    · rfl
    · split <;> rfl

section
variable {d a b : BitVec 5} {k : BitVec 14} {ty : BitVec 4} {sc o wd : BitVec 3}

/-- The stores of one address, each by what its row says of it (R229, R230, R232, R264). -/
theorem storeTable_storesAlone : ∀ p ∈ storeTable d a b k ty sc o wd s.me, s.memOk → Plain p.1 s → s.me.wait = .none →
    s.me.tx.active = false → resolveStore p.2.1 p.2.2.1 [(0, p.2.2.2.1)] s = .ok ([l], u) → (p.2.1 = .stm → l.global = true) →
    soleHold l.loc l.n u = .ok ((), u) → u.Ordinary l.loc l.n →
    StoresAlone p.1 (replicas l.repl (p.2.1 = .stm) l.loc) p.2.2.1 p.2.2.2.2 s := by
  refine List.forall_mem_cons.mpr ⟨?st, List.forall_mem_cons.mpr ⟨?vst, List.forall_mem_cons.mpr ⟨?stm, List.forall_mem_cons.mpr ⟨?stx,
    List.forall_mem_cons.mpr ⟨?strl, List.forall_mem_nil _⟩⟩⟩⟩⟩
  all_goals intro hm hp hw hx hr hg hh ho
  case st =>
    refine storesAlone_of_storeScalar hm ⟨hw, hx⟩ hr hg hh ho (show 8 ≤ 2 ^ 38 by decide) fun t run => ⟨t, ?_, .refl t⟩
    exact perform_past hp.ready ((bind_ok (addrJ_plain k (hp.reads (.head _)))).trans
      ((bind_ok (rdS_plain (hp.reads (.tail _ (.head _))))).trans run))
  case vst =>
    refine storesAlone_of_storeScalar hm ⟨hw, hx⟩ hr hg hh ho (show 64 ≤ 2 ^ 38 by decide) fun t run => ⟨t, ?_, .refl t⟩
    exact perform_past hp.ready ((bind_ok (addrJ_plain k (hp.reads (.head _)))).trans
      ((bind_ok (rdV_plain (hp.reads (.tail _ (.head _))))).trans run))
  case stm =>
    refine storesAlone_of_storeScalar hm ⟨hw, hx⟩ hr hg hh ho (show 8 ≤ 2 ^ 38 by decide) fun t run => ⟨t, ?_, .refl t⟩
    obtain ⟨-, p, hp', hglobal⟩ := (resolveStore_gives _ _ _ hr).2 l (List.mem_singleton_self l)
    obtain ⟨g, place⟩ := hglobal (hg rfl)
    rw [List.mem_singleton.mp hp'] at place
    exact execStm_ok hp.ready (rdS_plain (hp.reads (.head _))) (rdS_plain (hp.reads (.tail _ (.head _)))) hx
      (fun q o e => nomatch place.symm.trans e) run
  case stx =>
    have size : sizeOf ty ≤ 2 ^ 38 := (Nat.div_le_self _ _).trans ((widthOf_le _).trans (by decide))
    refine storesAlone_of_storeScalar hm ⟨hw, hx⟩ hr hg hh ho size fun t run => ⟨t, ?_, .refl t⟩
    exact perform_past hp.ready ((bind_ok (rdS_plain (hp.reads (.head _)))).trans
      ((bind_ok (rdS_plain (hp.reads (.tail _ (.head _))))).trans ((bind_ok (rdS_plain (hp.reads (.tail _ (.tail _ (.head _)))))).trans run)))
  case strl =>
    refine storesAlone_of_storeScalar hm ⟨hw, hx⟩ hr hg hh ho ((widthSize_le wd).trans (by decide)) fun t run => ?_
    obtain ⟨v, acquired, hv⟩ := acquirePart_ok o sc t
    exact ⟨v, perform_past hp.ready ((bind_ok (rdS_plain (hp.reads (.head _)))).trans
      ((bind_ok (rdS_plain (hp.reads (.tail _ (.head _))))).trans ((bind_ok run).trans acquired))), hv⟩
end

/-! ### Atomics (R265 to R267) -/

/-- A context has the registers that it had, but for one, and its ends, its attempt, and the special registers that these name. -/
def Ctx.KeepsBut (d : Nat) (x y : Ctx) : Prop :=
  (∀ m : Nat, m ≠ d → y.getS m = x.getS m) ∧ y.v = x.v ∧ y.m = x.m ∧ y.bind = x.bind ∧ y.af = x.af ∧ y.ef = x.ef ∧ y.fmt = x.fmt ∧
    y.scla = x.scla ∧ y.sclb = x.sclb ∧ y.tx = x.tx ∧ y.tokv = x.tokv ∧ y.tokpc = x.tokpc

theorem Ctx.setS_keepsBut (x : Ctx) (d : Nat) (w : Word) : x.KeepsBut d (x.setS d w) := by
  refine ⟨fun m hm => x.getS_setS_ne w hm, ?_⟩
  obtain ⟨_, set⟩ := x.setS_eq d w
  rw [set]
  exact ⟨rfl, rfl, rfl, rfl, rfl, rfl, rfl, rfl, rfl, rfl, rfl⟩

theorem Ctx.KeepsBut.advance {x y : Ctx} {d : Nat} (h : x.KeepsBut d y) : x.KeepsBut d y.advance := by
  obtain ⟨_, _, advanced⟩ := y.advance_eq
  rw [advanced]
  exact h

/-- A load past the L1 changes nothing, where it meets no poison (R209, R214). -/
theorem loadLane_past (hx : s.me.tx.active = false) (hp : s.poisoned l.loc l.n = false) (hint : Nat) :
    loadLane hint false l s = .ok (s.bytes l.loc l.n, s) := by
  unfold loadLane
  rw [bind_ok (op_get s), if_neg (by rw [hx]; exact Bool.false_ne_true)]
  by_cases hg : l.global = true
  · rw [if_pos hg]
    simp [globalLoad, op_bind, op_get, except_bind_ok, hp, op_pure]
  · rw [if_neg hg]
    simp [hp, op_pure]

theorem forM_one {f : Lane → Op Unit} (h : f l s = .ok ((), t)) : [l].forM f s = .ok ((), t) := (bind_ok h).trans (op_pure _ t)

/-- What lies outside a range. -/
def Outside (loc n e : Nat) : Prop := e < loc ∨ loc + n ≤ e

/-- The instruction changes bytes of a range alone, and of its context no register but D. -/
def WritesBack (i : Instr) (d : BitVec 5) (loc n : Nat) (s : State) : Prop :=
  ∃ v f, s.Confined (Outside loc n) v ∧ exec i s = .next (v.after f) ∧ ∀ x : Ctx, x.KeepsBut d.toNat (f x)

section
variable {d a b : BitVec 5} {sc o wd : BitVec 3} {va : Word} (hm : s.memOk) (hq : s.me.Quiet)
  (hr : atomicLane (widthSize wd) va s = .ok ([l], u)) (hh : soleHold l.loc l.n u = .ok ((), u)) (ho : u.Ordinary l.loc l.n)
include hm hq hr hh ho

theorem atomicStore_ok (x : Nat) : ∃ t, strandStore false l (bytesOfNat (widthSize wd) x) u = .ok ((), t) ∧
    s.Confined (Outside l.loc (widthSize wd)) t := by
  obtain ⟨translated, -⟩ := atomicLane_gives va _ _ hr
  obtain ⟨t, run, stores⟩ := strandStore_ok (bs := bytesOfNat (widthSize wd) x) (translated.quiet hq).2 (memOk_of_mem translated.mem hm)
    hh ho (by rw [bytesOfNat_length]; exact (widthSize_le wd).trans (by decide)) (.inr rfl)
  rw [replicas, if_neg (by simp)] at stores
  refine ⟨t, run, .trans (.translates translated) (.stores stores fun e he j hj => ?_)⟩
  rw [List.mem_singleton.mp hj, bytesOfNat_length]
  exact he

end

section
variable {d a b : BitVec 5} {sc o wd : BitVec 3} {va : Word}

theorem atomicLoad_ok (hq : s.me.Quiet) (hr : atomicLane (widthSize wd) va s = .ok ([l], u))
    (hu : u.poisoned l.loc (widthSize wd) = false) : loadLane 0 false l u = .ok (u.bytes l.loc (widthSize wd), u) := by
  obtain ⟨translated, lanes⟩ := atomicLane_gives va _ _ hr
  have size := lanes l (List.mem_singleton_self l)
  have read := loadLane_past (l := l) (translated.quiet hq).2 (size ▸ hu) 0
  rwa [size] at read

/-- What follows the access of an atomic: the line leaves the L1, the acquire part acts, and D is written. -/
theorem atomicEnd_ok {p : Nat → Prop} (hs : s.Confined p t) (hq : s.me.Quiet) (hd : s.me.endOf (.s d.toNat) = none) (w : Word) :
    ∃ v z, leaveL1 l t = .ok ((), v) ∧ acquirePart o sc v = .ok ((), z) ∧
      wrS d w z = .ok ((), z.modMe (fun x => x.setS d.toNat w)) ∧ s.Confined p z := by
  obtain ⟨v, left, hv⟩ := leaveL1_ok l t
  obtain ⟨z, acquired, hz⟩ := acquirePart_ok o sc v
  have confined : s.Confined p z := .trans (.trans hs (.translates hv)) (.translates hz)
  exact ⟨v, z, left, acquired, wrS_plain (by rwa [confined.leaves.me hq]), confined⟩

variable (hm : s.memOk) (hq : s.me.Quiet) (hr : atomicLane (widthSize wd) (s.me.getS a.toNat) s = .ok ([l], u))
  (hu : u.poisoned l.loc (widthSize wd) = false) (hh : soleHold l.loc l.n u = .ok ((), u)) (ho : u.Ordinary l.loc l.n)
  (ha : s.me.endOf (.s a.toNat) = none) (hb : s.me.endOf (.s b.toNat) = none)
include hm hq hr hu hh ho ha hb

theorem amo_writesBack {i : Instr} {p : Nat} (hi : Ready i s s) (hd : s.me.endOf (.s d.toNat) = none)
    (he : exec i s = amo i p d a b sc o wd s) : WritesBack i d l.loc (widthSize wd) s := by
  have load := atomicLoad_ok hq hr hu
  obtain ⟨t, stored, confined⟩ := atomicStore_ok hm hq hr hh ho
    (atomicOp p wd (natOfBytes (u.bytes l.loc (widthSize wd))) ((s.me.getS b.toNat).toNat % 2 ^ (8 * widthSize wd))).1
  obtain ⟨v, z, left, acquired, written, confined⟩ := atomicEnd_ok (l := l) (o := o) (sc := sc) confined hq hd
    (extendW wd (natOfBytes (u.bytes l.loc (widthSize wd))))
  let r := atomicOp p wd (natOfBytes (u.bytes l.loc (widthSize wd))) ((s.me.getS b.toNat).toNat % 2 ^ (8 * widthSize wd))
  let f := fun x : Ctx => x.setS d.toNat (extendW wd (natOfBytes (u.bytes l.loc (widthSize wd))))
  let g := fun x : Ctx => { x with fstat := x.fstat ||| r.2 }
  have both : ((z.modMe f).modMe g).past = z.after (g ∘ f) := congrArg State.past (State.modMe_modMe z f g)
  refine ⟨z, g ∘ f, confined, he.trans ((perform_past hi ?_).trans (congrArg _ both)), fun x => x.setS_keepsBut d.toNat _⟩
  refine (bind_ok (rdS_plain ha)).trans ((bind_ok (rdS_plain hb)).trans ((bind_ok hr).trans (forM_one ?_)))
  exact (bind_ok load).trans ((bind_ok stored).trans ((bind_ok left).trans ((bind_ok acquired).trans ((bind_ok written).trans (op_upd _ _)))))

theorem amocas_writesBack (hi : Ready (.amocas d a b sc o wd) s s) (hd : s.me.endOf (.s d.toNat) = none) :
    WritesBack (.amocas d a b sc o wd) d l.loc (widthSize wd) s := by
  let old := natOfBytes (u.bytes l.loc (widthSize wd))
  let y := (s.me.getS b.toNat).toNat % 2 ^ (8 * widthSize wd)
  let f := fun x : Ctx => x.setS d.toNat (extendW wd old)
  have load := atomicLoad_ok hq hr hu
  obtain ⟨translated, -⟩ := atomicLane_gives _ _ _ hr
  obtain ⟨t, confined, swap⟩ : ∃ t, s.Confined (Outside l.loc (widthSize wd)) t ∧ ∀ go : Unit → Op Unit,
      (if old = (s.me.getS d.toNat).toNat % 2 ^ (8 * widthSize wd) then strandStore false l (bytesOfNat (widthSize wd) y) >>= go
        else inTx >>= fun b => if b then writeKey (.line (l.loc / 64)) >>= go else go ()) u = go () t := by
    split
    · obtain ⟨t, stored, confined⟩ := atomicStore_ok hm hq hr hh ho y
      exact ⟨t, confined, fun go => bind_ok stored⟩
    · exact ⟨u, .translates translated, fun go => bind_ok (inTx_ok (translated.quiet hq).2)⟩
  obtain ⟨v, z, left, acquired, written, confined⟩ := atomicEnd_ok (l := l) (o := o) (sc := sc) confined hq hd (extendW wd old)
  refine ⟨z, f, confined, perform_past hi ?_, fun x => x.setS_keepsBut d.toNat _⟩
  refine (bind_ok (rdS_plain ha)).trans ((bind_ok (rdS_plain hb)).trans ((bind_ok (rdS_plain hd)).trans ((bind_ok hr).trans (forM_one ?_))))
  exact (bind_ok load).trans ((swap _).trans ((bind_ok left).trans ((bind_ok acquired).trans written)))

/-- RED returns nothing (R267). -/
theorem exec_red_past (hi : Ready (.red d a b sc o wd) s s) :
    ∃ v, s.Confined (Outside l.loc (widthSize wd)) v ∧ exec (.red d a b sc o wd) s = .next v.past := by
  obtain ⟨t, stored, confined⟩ := atomicStore_ok hm hq hr hh ho
    (atomicOp d.toNat wd (u.rd l.loc (widthSize wd)) ((s.me.getS b.toNat).toNat % 2 ^ (8 * widthSize wd))).1
  obtain ⟨v, left, hv⟩ := leaveL1_ok l t
  refine ⟨v, confined.trans (.translates hv), perform_past hi ?_⟩
  refine (bind_ok (rdS_plain ha)).trans ((bind_ok (rdS_plain hb)).trans ((bind_ok (inTx_ok hq.2)).trans ((bind_ok hr).trans (forM_one ?_))))
  refine (bind_ok (op_get u)).trans ((bind_ok stored).trans ?_)
  rw [hu]
  exact left
end

section
variable {d a b : BitVec 5} {sc o wd : BitVec 3}

/-- Every atomic but RED writes D back (R265, R266). -/
theorem atomicInstrs_writesBack (hm : s.memOk) (hq : s.me.Quiet) (hr : atomicLane (widthSize wd) (s.me.getS a.toNat) s = .ok ([l], u))
    (hu : u.poisoned l.loc (widthSize wd) = false) (hh : soleHold l.loc l.n u = .ok ((), u)) (ho : u.Ordinary l.loc l.n) :
    ∀ i ∈ atomicInstrs d a b sc o wd, i ≠ .red d a b sc o wd → Plain i s → WritesBack i d l.loc (widthSize wd) s := by
  have always {i : Instr} {p : Nat} (reads : i.reads = [.s a.toNat, .s b.toNat]) (writes : i.writes = [.s d.toNat])
      (he : exec i s = amo i p d a b sc o wd s) : i ≠ .red d a b sc o wd → Plain i s → WritesBack i d l.loc (widthSize wd) s :=
    fun _ hp => amo_writesBack hm hq hr hu hh ho (hp.reads (by rw [reads]; exact .head _)) (hp.reads (by rw [reads]; exact .tail _ (.head _)))
      hp.ready (hp.field (by rw [writes]; simp)) he
  simp only [atomicInstrs, List.forall_mem_cons]
  refine ⟨always rfl rfl rfl, always rfl rfl rfl, always rfl rfl rfl, always rfl rfl rfl, always rfl rfl rfl, always rfl rfl rfl,
    always rfl rfl rfl, fun _ hp => ?cas, fun h => absurd rfl h, List.forall_mem_nil _⟩
  exact amocas_writesBack hm hq hr hu hh ho (hp.reads (.head _)) (hp.reads (.tail _ (.head _))) hp.ready
    (hp.field (List.mem_append_right _ (.head _)))
end

/-! ### Stores of many lanes (R231) -/

theorem soleHold_gives (a n : Nat) : Op.Gives s (soleHold a n) fun _ t => t = s := by
  refine .get_bind ?_
  split
  · exact .pure rfl
  · exact .stop

/-- A strand's store that is performed is not held. -/
theorem soleHold_of_strandStore {all : Bool} {bs : List Byte} (hx : s.me.tx.active = false)
    (h : strandStore all l bs s = .ok ((), t)) : soleHold l.loc l.n s = .ok ((), s) := by
  rw [strandStore, bind_ok (op_get s)] at h
  obtain ⟨_, _, stored, -⟩ := of_bind_ok h
  rw [storeLane, bind_ok (op_get s), if_neg (by rw [hx]; exact Bool.false_ne_true)] at stored
  obtain ⟨_, v, held, -⟩ := of_bind_ok stored
  have same : v = s := soleHold_gives _ _ _ _ held
  exact same ▸ held

/-- What lies in no lane. -/
def OutsideLanes (ls : List Lane) (e : Nat) : Prop := ∀ l ∈ ls, e < l.loc ∨ l.loc + l.n ≤ e

theorem State.Confined.mono {p q : Nat → Prop} (h : s.Confined p t) (hp : ∀ e, q e → p e) : s.Confined q t :=
  ⟨h.leaves, fun e he => h.same e (hp e he)⟩

theorem storeLanes_confined {w : Nat} {q : VReg} {ls : List Lane} (h : storeLanes w q ls s = .ok ((), t))
    (ho : OrdinaryLanes w q ls s) (hn : ∀ l ∈ ls, l.n ≤ 2 ^ 38) (hm : s.memOk) (hq : s.me.Quiet) : s.Confined (OutsideLanes ls) t := by
  induction ls generalizing s with
  | nil =>
    cases h
    exact .refl _
  | cons l r ih =>
    obtain ⟨first, rest⟩ := List.forall_mem_cons.mp hn
    obtain ⟨ordinary, later⟩ := ho
    obtain ⟨_, v, stored, others⟩ := of_bind_ok h
    obtain ⟨v', run, stores⟩ := strandStore_ok (bs := bytesOfNat l.n (lane w q l.i)) hq.2 hm (soleHold_of_strandStore hq.2 stored) ordinary
      (by rw [bytesOfNat_length]; exact first) (.inr rfl)
    obtain rfl : v = v' := congrArg Prod.snd (Except.ok.inj (stored.symm.trans run))
    rw [replicas, if_neg (by simp)] at stores
    have lane : s.Confined (OutsideLanes (l :: r)) v := .stores stores fun e he j hj => by
      rw [List.mem_singleton.mp hj, bytesOfNat_length]
      exact he l List.mem_cons_self
    have behind := ih others (later v stored) rest stores.memOk (stores.leaves.me hq ▸ hq)
    exact lane.trans (behind.mono fun e he x hx => he x (List.mem_cons_of_mem l hx))

/-- A field of the A and B operands of the vector classes names no end where its register does not. -/
theorem endOf_ab_vector {x : Ctx} {n : Nat} (hn : n < 16) (h : x.endOf (.ab n) = none) : x.endOf (.v n) = none := by
  simpa [Ctx.endOf, hn] using h

theorem endOf_ab_scalar {x : Ctx} {n : Nat} (hn : 16 ≤ n) (h : x.endOf (.ab n) = none) : x.endOf (.s n) = none := by
  simpa [Ctx.endOf, not_lt.mpr hn] using h

section
variable {d a b : BitVec 5} {ty : BitVec 4} {m : BitVec 3} {ls : List Lane} {vas : List (Nat × Word)}

/-- A store of many lanes changes its lanes alone, where it completes. -/
theorem vectorStore_confined (hm : s.memOk) (hq : s.me.Quiet) {q : VReg}
    (hl : resolveStore .store (widthOf ty.toNat / 8) vas s = .ok (ls, u)) (hs : storeLanes (widthOf ty.toNat) q ls u = .ok ((), z))
    (ho : OrdinaryLanes (widthOf ty.toNat) q ls u) : s.Confined (OutsideLanes ls) z := by
  obtain ⟨translated, lanes⟩ := resolveStore_gives vas _ _ hl
  have size : widthOf ty.toNat / 8 ≤ 2 ^ 38 := (Nat.div_le_self _ _).trans ((widthOf_le _).trans (by decide))
  have small : ∀ l ∈ ls, l.n ≤ 2 ^ 38 := fun l hl => (lanes l hl).1 ▸ size
  exact .trans (.translates translated) (storeLanes_confined hs ho small (memOk_of_mem translated.mem hm) (translated.quiet hq))

theorem exec_vsts_past (hp : Plain (.vsts d a b ty m) s)
    (hl : resolveStore .store (widthOf ty.toNat / 8)
      (laneAddrs (widthOf ty.toNat) (s.me.getM m.toNat) (strided (s.me.getS a.toNat) (s.me.getS b.toNat))) s = .ok (ls, u))
    (hs : storeLanes (widthOf ty.toNat) (s.me.getV d.toNat) ls u = .ok ((), z)) : exec (.vsts d a b ty m) s = .next z.past :=
  perform_past hp.ready ((bind_ok (rdS_plain (hp.reads (.head _)))).trans ((bind_ok (rdS_plain (hp.reads (.tail _ (.head _))))).trans
    ((bind_ok (rdV_plain (hp.reads (.tail _ (.tail _ (.head _)))))).trans ((bind_ok (op_ask _ s)).trans (vecStore_ok hl hs)))))

/-- The indices of a scatter, of a vector register or of one scalar register for every lane (R35, R231). -/
theorem rdAB_lanes (hb : s.me.endOf (.ab b.toNat) = none) (w : Nat) (hw : 512 % w = 0) : ∃ v, rdAB b w s = .ok (v, s) ∧
    ∀ j < 512 / w, lane w v j = if b.toNat < 16 then lane w (s.me.getV b.toNat) j else (s.me.getS b.toNat).toNat % 2 ^ w := by
  by_cases h : b.toNat < 16
  · exact ⟨_, rdAB_vector w h (endOf_ab_vector h hb), fun j _ => (if_pos h).symm⟩
  · have high : 16 ≤ b.toNat := not_lt.mp h
    exact ⟨_, rdAB_scalar w high (endOf_ab_scalar high hb), fun j hj => (lane_broadcast _ hw hj).trans (if_neg h).symm⟩

theorem exec_vsct_past (hp : Plain (.vsct d a b ty m) s) {index : Nat → Nat}
    (hi : ∀ j, index j = if b.toNat < 16 then lane (widthOf ty.toNat) (s.me.getV b.toNat) j
      else (s.me.getS b.toNat).toNat % 2 ^ widthOf ty.toNat)
    (hl : resolveStore .store (widthOf ty.toNat / 8) (laneAddrs (widthOf ty.toNat) (s.me.getM m.toNat)
      (fun j => s.me.getS a.toNat + BitVec.ofNat 64 (index j * (widthOf ty.toNat / 8)))) s = .ok (ls, u))
    (hs : storeLanes (widthOf ty.toNat) (s.me.getV d.toNat) ls u = .ok ((), z)) : exec (.vsct d a b ty m) s = .next z.past := by
  obtain ⟨v, read, lanes⟩ := rdAB_lanes (hp.reads (.tail _ (.head _))) (widthOf ty.toNat) (widthOf_dvd _)
  have addresses : laneAddrs (widthOf ty.toNat) (s.me.getM m.toNat) (indexed (widthOf ty.toNat) (s.me.getS a.toNat) v) =
      laneAddrs (widthOf ty.toNat) (s.me.getM m.toNat) (fun j => s.me.getS a.toNat + BitVec.ofNat 64 (index j * (widthOf ty.toNat / 8))) := by
    refine List.map_congr_left fun j hj => ?_
    rw [indexed, lanes j (List.mem_range.mp (List.mem_of_mem_filter hj)), ← hi]
  exact perform_past hp.ready ((bind_ok (rdS_plain (hp.reads (.head _)))).trans ((bind_ok read).trans
    ((bind_ok (rdV_plain (hp.reads (.tail _ (.tail _ (.head _)))))).trans ((bind_ok (op_ask _ s)).trans (vecStore_ok (addresses ▸ hl) hs)))))
end

/-- Settles O24: each instruction is its stores, which leave of bytes and strands what a store of a lane does, and a write of D. -/
theorem storeFrames : Obligations.StoreFrames := by
  refine ⟨fun d a b k ty sc o wd s u l p hp hm hpl hw hx hr hg hh ho => ?_, fun d a b sc o wd s u l => ?atomics,
    fun d a b ty m s u z ls => ?vectors⟩
  · exact storeTable_storesAlone p hp hm hpl hw hx hr hg hh ho
  case atomics =>
    intro i hi hm hp hw hx hr hu hh ho
    by_cases red : i = .red d a b sc o wd
    · subst red
      obtain ⟨v, confined, run⟩ := exec_red_past hm ⟨hw, hx⟩ hr hu hh ho (hp.reads (.head _)) (hp.reads (.tail _ (.head _))) hp.ready
      obtain ⟨same, me, others⟩ := confined.past ⟨hw, hx⟩
      exact ⟨_, run, same, fun _ => me, fun no => absurd rfl no, others⟩
    · obtain ⟨v, f, confined, run, keeps⟩ := atomicInstrs_writesBack hm ⟨hw, hx⟩ hr hu hh ho i hi red hp
      obtain ⟨same, me, others⟩ := confined.after ⟨hw, hx⟩ f
      exact ⟨_, run, same, fun e => absurd e red, fun _ => me ▸ (keeps s.me).advance, others⟩
  case vectors =>
    intro e act base index
    have ends {i : Instr} (hm : s.memOk) (hw : s.me.wait = .none) (hx : s.me.tx.active = false) (run : exec i s = .next z.past)
        (confined : s.Confined (OutsideLanes ls) z) : ∃ t, exec i s = .next t ∧
          (∀ j, (∀ l ∈ ls, j < l.loc ∨ l.loc + l.n ≤ j) → t.byteAt j = s.byteAt j) ∧ t.me = s.me.advance ∧ s.othersKeep t := by
      obtain ⟨same, me, others⟩ := confined.past ⟨hw, hx⟩
      exact ⟨_, run, same, me, others⟩
    refine List.forall_mem_cons.mpr ⟨fun hm hp hw hx hl hs ho => ?_, List.forall_mem_cons.mpr ⟨fun hm hp hw hx hl hs ho => ?_,
      List.forall_mem_nil _⟩⟩
    · exact ends hm hw hx (exec_vsts_past hp hl hs) (vectorStore_confined hm ⟨hw, hx⟩ hl hs ho)
    · exact ends hm hw hx (exec_vsct_past (index := index) hp (fun _ => rfl) hl hs) (vectorStore_confined hm ⟨hw, hx⟩ hl hs ho)

end Sys2Proof.Machine
end
